-- ==== Sys2Proof/Word.lean ====
section
/-! DEFINITION. The word types of the Lualen G4: the 64-bit scalar (R69), the 512-bit vector (R69) and the byte
of memory, with the plainest conversions between bit strings, naturals and integers (R6). -/
namespace Sys2Proof

/-- A scalar register value, 64 bits (R69). -/
abbrev Word := BitVec 64

/-- A vector register value, 512 bits (R69). -/
abbrev VWord := BitVec 512

/-- A byte of memory (R5). -/
abbrev Byte := BitVec 8

/-- A scalar from a natural number, modulo 2^64. -/
def word (n : Nat) : Word := BitVec.ofNat 64 n

/-- Bits `hi..lo` of a natural number, the slice `x[hi:lo]` of R6, given as the low bit and the width. -/
def slice (x lo width : Nat) : Nat := x / 2 ^ lo % 2 ^ width

/-- One bit of a natural number, `x[n]` of R5. -/
def bit (x n : Nat) : Bool := x / 2 ^ n % 2 == 1

/-- A Boolean as a bit. -/
def b2n (b : Bool) : Nat := if b then 1 else 0

end Sys2Proof
end

