-- ==== Sys2Proof/Syntax/Args.lean ====
section
/-! DEFINITION. The operand types of the instructions: registers, guards, coded fields (R33 to R42) and one
argument structure for each operand shape that the entries of the instruction chapters use. -/
namespace Sys2Proof

/-- A scalar register s0..s63 (R35). -/
abbrev SReg := Fin 64
/-- A vector register v0..v31 (R35). -/
abbrev VReg := Fin 32
/-- A predicate p0..p7 (R35). -/
abbrev PReg := Fin 8

/-- The guard: predicate p[p] XOR neg (R33, R34). -/
structure Guard where
  neg : Bool
  p : PReg
deriving DecidableEq, Repr

/-- The 4-bit type field (R42). -/
inductive Ty where
  | i64 | i32 | i16 | i8 | n64 | n32 | n16 | n8 | f32 | bf16 | ts8 | nt4
deriving DecidableEq, Repr

/-- The rounding modes (R42, R101). -/
inductive Rnd where
  | rne | rtz | rdn | rup
deriving DecidableEq, Repr

/-- The memory spaces (R38). -/
inductive Space where
  | loc | acc | vlt | peer | glb
deriving DecidableEq, Repr

/-- The order field of the memory format (R38). -/
inductive MOrd where
  | plain | acq | rel | sc
deriving DecidableEq, Repr

/-- The scope field (R38, R202). -/
inductive Scope where
  | ctx | cell | clu | die | mod | sys
deriving DecidableEq, Repr

/-- The conditions of `cmp` and of the integer forms of `vcmp` (R87). -/
inductive Cond where
  | eq | ne | lt | le | gt | ge | tst | tstn
deriving DecidableEq, Repr

/-- The conditions of `fcmp` and of `vcmp.f32` (R114). -/
inductive FCond where
  | eq | ne | lt | le | gt | ge | un
deriving DecidableEq, Repr

/-- Operand b of a scalar instruction: a scalar, or imm32 when isel = 1 (R36). -/
inductive SrcB where
  | reg (r : SReg)
  | imm (v : BitVec 32)
deriving DecidableEq, Repr

/-- Operand b of a vector instruction (R117). -/
inductive VSrcB where
  | vec (r : VReg)
  | sca (r : SReg)
  | imm (v : BitVec 32)
deriving DecidableEq, Repr

/-- A source that is a scalar or a vector (`rfill`, R378). -/
inductive AnyReg where
  | sca (r : SReg)
  | vec (r : VReg)
deriving DecidableEq, Repr

/-- The branch target fields (R39). -/
structure Target where
  loff : BitVec 33
  slot : Fin 5
deriving DecidableEq, Repr

/-- The completion actions (R41, R141, R181). -/
inductive CAct where
  | none | join | future | handler | port
deriving DecidableEq, Repr

/-- The completion fields shared by the matrix and the asynchronous formats (R40, R41): action, its operand,
acquire, release and scope. -/
structure Compl where
  act : CAct
  c : SReg
  acq : Bool
  rel : Bool
  scope : Scope
deriving DecidableEq, Repr

/-- The element pairs of `mma` (R40, R135). -/
inductive Pair where
  | bf16 | i8 | ts8 | nt4 | nt4x8
deriving DecidableEq, Repr

/-- The tile heights M (R40). -/
inductive MCode where
  | m16 | m32 | m64
deriving DecidableEq, Repr

/-- The address fields of the memory format (R38, R166); `handle` is aux[37]. -/
structure MAddr where
  handle : Bool
  space : Space
  base : SReg
  index : SReg
  scale : Fin 8
  disp : BitVec 37
deriving DecidableEq, Repr

/-- The system registers of R74. -/
inductive SysReg where
  | cellid | ncells | rank | ctxno | cycles | tcycles | iret | stepping | xsl | fcsr | ralloc | rfree | sptmpl
  | asid | xcause | xepc | xval | xinfo
deriving DecidableEq, Repr

/-- The special operands that `mov` reads (R35, R86): values 104..109. -/
inductive Special where
  | pc | cellid | ncells | rank | ctxno | fcsr
deriving DecidableEq, Repr

/-- The destination of `mov` (R86). -/
inductive MovDst where
  | reg (r : SReg)
  | fcsr
deriving DecidableEq, Repr

/-- The source of `mov` (R86). -/
inductive MovSrc where
  | reg (r : SReg)
  | special (x : Special)
deriving DecidableEq, Repr

/-- The four forms of `vmovs` (R125). -/
inductive VMov where
  | toScalar (d : SReg) (a : VReg) (n : Fin 16)
  | toLane (d : VReg) (a : SReg) (n : Fin 16)
  | toTbl (a : VReg)
  | fromTbl (d : VReg)
deriving DecidableEq, Repr

/-- The condition and type of `vcmp` (R119). -/
inductive VCond where
  | signed (c : Cond)
  | unsigned (c : Cond)
  | float (c : FCond)
deriving DecidableEq, Repr

/-- The selectors of `sbstat` (R197). -/
inductive SbSel where
  | status (n : Fin 5)
  | entry (n : Fin 128)
deriving DecidableEq, Repr

/-- The selectors of `cstat` (R322). -/
inductive CSel where
  | slot | decisions | held | lost
  | fifo (n : Fin 8)
  | offer (n : Fin 16)
  | item (n : Fin 16)
deriving DecidableEq, Repr

/-- The kinds of `fence` (R217). -/
inductive FenceKind where
  | acq | rel | acqrel | full
deriving DecidableEq, Repr

/-! The operand shapes, each with its guard `g`. -/

/-- Guard only. -/
structure ArgG where
  g : Guard
deriving DecidableEq, Repr

/-- One scalar source. -/
structure ArgA where
  g : Guard
  a : SReg
deriving DecidableEq, Repr

/-- One scalar destination. -/
structure ArgD where
  g : Guard
  d : SReg
deriving DecidableEq, Repr

/-- A scalar destination and a scalar source. -/
structure ArgDA where
  g : Guard
  d : SReg
  a : SReg
deriving DecidableEq, Repr

/-- Two scalar sources. -/
structure ArgAB where
  g : Guard
  a : SReg
  b : SReg
deriving DecidableEq, Repr

/-- A scalar destination and two scalar sources. -/
structure ArgDAB where
  g : Guard
  d : SReg
  a : SReg
  b : SReg
deriving DecidableEq, Repr

/-- A scalar source and operand b. -/
structure ArgABi where
  g : Guard
  a : SReg
  b : SrcB
deriving DecidableEq, Repr

/-- A scalar destination, a scalar source and operand b. -/
structure ArgDABi where
  g : Guard
  d : SReg
  a : SReg
  b : SrcB
deriving DecidableEq, Repr

/-- Two-operand integer family (R81). -/
structure ArgInt where
  g : Guard
  ty : Ty
  sat : Bool
  d : SReg
  a : SReg
  b : SrcB
deriving DecidableEq, Repr

/-- A typed scalar unary operation (R82, R116). -/
structure ArgTDA where
  g : Guard
  ty : Ty
  d : SReg
  a : SReg
deriving DecidableEq, Repr

/-- `bext` (R83). -/
structure ArgBext where
  g : Guard
  ty : Ty
  d : SReg
  a : SReg
  pos : SrcB
  len : BitVec 7
deriving DecidableEq, Repr

/-- `bins` (R83). -/
structure ArgBins where
  g : Guard
  d : SReg
  a : SReg
  c : SReg
  pos : SrcB
  len : BitVec 7
deriving DecidableEq, Repr

/-- `lea` (R84). -/
structure ArgLea where
  g : Guard
  d : SReg
  addr : MAddr
deriving DecidableEq, Repr

/-- `li` (R85). -/
structure ArgLi where
  g : Guard
  ty : Ty
  d : SReg
  imm : BitVec 62
deriving DecidableEq, Repr

/-- `mov` (R86). -/
structure ArgMov where
  g : Guard
  dst : MovDst
  src : MovSrc
deriving DecidableEq, Repr

/-- `sel` and `talloc.try` use a predicate in opc (R86, R171). -/
structure ArgSel where
  g : Guard
  d : SReg
  p : PReg
  a : SReg
  b : SrcB
deriving DecidableEq, Repr

/-- `cmp` (R87). -/
structure ArgCmp where
  g : Guard
  cond : Cond
  ty : Ty
  pd : PReg
  a : SReg
  b : SrcB
deriving DecidableEq, Repr

/-- Three predicates (R88). -/
structure ArgP3 where
  g : Guard
  d : PReg
  a : PReg
  b : PReg
deriving DecidableEq, Repr

/-- Two predicates (R88). -/
structure ArgP2 where
  g : Guard
  d : PReg
  a : PReg
deriving DecidableEq, Repr

/-- `punpk` (R88). -/
structure ArgPunpk where
  g : Guard
  a : SReg
  mask : BitVec 8
deriving DecidableEq, Repr

/-- `br` (R89); `z` is the function: false `nz`, true `z`. -/
structure ArgBr where
  g : Guard
  z : Bool
  a : SReg
  t : Target
deriving DecidableEq, Repr

/-- `jmp` and `call` (R89). -/
structure ArgT where
  g : Guard
  t : Target
deriving DecidableEq, Repr

/-- `loop` (R89). -/
structure ArgLoop where
  g : Guard
  a : SReg
  t : Target
deriving DecidableEq, Repr

/-- `rdsr` (R92). -/
structure ArgRdsr where
  g : Guard
  d : SReg
  n : SysReg
deriving DecidableEq, Repr

/-- `wrsr` (R92). -/
structure ArgWrsr where
  g : Guard
  n : SysReg
  a : SReg
deriving DecidableEq, Repr

/-- Rounded FP32 arithmetic (R111). -/
structure ArgFAr where
  g : Guard
  r : Rnd
  d : SReg
  a : SReg
  b : SrcB
deriving DecidableEq, Repr

/-- `fma` (R112). -/
structure ArgFma where
  g : Guard
  r : Rnd
  d : SReg
  a : SReg
  b : SrcB
  c : SReg
deriving DecidableEq, Repr

/-- `fsqrt` (R113). -/
structure ArgFsqrt where
  g : Guard
  r : Rnd
  d : SReg
  a : SReg
deriving DecidableEq, Repr

/-- `fcmp` (R114). -/
structure ArgFcmp where
  g : Guard
  cond : FCond
  pd : PReg
  a : SReg
  b : SrcB
deriving DecidableEq, Repr

/-- `fcvt` (R115); `fromTy` is the function: false from f32, true to f32. -/
structure ArgFcvt where
  g : Guard
  fromTy : Bool
  ty : Ty
  r : Rnd
  d : SReg
  a : SReg
deriving DecidableEq, Repr

/-- Element-wise vector arithmetic (R118). -/
structure ArgV where
  g : Guard
  ty : Ty
  r : Rnd
  sat : Bool
  d : VReg
  a : VReg
  b : VSrcB
deriving DecidableEq, Repr

/-- `vfma` (R118). -/
structure ArgVfma where
  g : Guard
  r : Rnd
  d : VReg
  a : VReg
  b : VSrcB
  c : VReg
deriving DecidableEq, Repr

/-- `vabs` and `vneg` (R118). -/
structure ArgVun where
  g : Guard
  ty : Ty
  sat : Bool
  d : VReg
  a : VReg
deriving DecidableEq, Repr

/-- `vcmp` (R119). -/
structure ArgVcmp where
  g : Guard
  cond : VCond
  d : SReg
  a : VReg
  b : VSrcB
deriving DecidableEq, Repr

/-- `vsel` (R119). -/
structure ArgVsel where
  g : Guard
  d : VReg
  c : SReg
  a : VReg
  b : VSrcB
deriving DecidableEq, Repr

/-- `vcvt` (R120). -/
structure ArgVcvt where
  g : Guard
  fromTy : Bool
  ty : Ty
  r : Rnd
  d : VReg
  a : VReg
deriving DecidableEq, Repr

/-- `vexpand` (R121). -/
structure ArgVexp where
  g : Guard
  ty : Ty
  d : VReg
  a : VReg
  grp : Fin 8
deriving DecidableEq, Repr

/-- A vector destination and a vector source (R122). -/
structure ArgVV where
  g : Guard
  d : VReg
  a : VReg
deriving DecidableEq, Repr

/-- `vredsum` and `vredmax` (R123). -/
structure ArgVred where
  g : Guard
  ty : Ty
  r : Rnd
  sat : Bool
  d : SReg
  a : VReg
  c : SReg
deriving DecidableEq, Repr

/-- `vdot` (R124). -/
structure ArgVdot where
  g : Guard
  ty : Ty
  r : Rnd
  sat : Bool
  d : SReg
  a : VReg
  b : VReg
  c : SReg
deriving DecidableEq, Repr

/-- `vsplat` (R125). -/
structure ArgVsplat where
  g : Guard
  ty : Ty
  d : VReg
  a : SReg
deriving DecidableEq, Repr

/-- `vperm` (R125). -/
structure ArgVperm where
  g : Guard
  d : VReg
  a : VReg
  b : VReg
deriving DecidableEq, Repr

/-- `vidx` (R125). -/
structure ArgVidx where
  g : Guard
  d : VReg
  a : SReg
  b : SrcB
deriving DecidableEq, Repr

/-- `vmovs` (R125). -/
structure ArgVmovs where
  g : Guard
  mv : VMov
deriving DecidableEq, Repr

/-- `vqnt` and `vdqnt` (R126). -/
structure ArgVq where
  g : Guard
  ty : Ty
  r : Rnd
  d : VReg
  a : VReg
  b : SrcB
  grp : Fin 8
deriving DecidableEq, Repr

/-- `vscacc` (R127). -/
structure ArgVscacc where
  g : Guard
  ty : Ty
  r : Rnd
  d : VReg
  a : VReg
  b : SrcB
deriving DecidableEq, Repr

/-- `ldtab` (R128). -/
structure ArgLdtab where
  g : Guard
  cons : Bool
  addr : MAddr
deriving DecidableEq, Repr

/-- `mma` (R142). -/
structure ArgMma where
  g : Guard
  set : Bool
  pair : Pair
  r : Rnd
  d : SReg
  a : SReg
  b : SReg
  m : MCode
  n6 : BitVec 6
  ca : Bool
  cb : Bool
  fin : Compl
deriving DecidableEq, Repr

/-- `accz` (R143). -/
structure ArgAccz where
  g : Guard
  d : SReg
  m : MCode
  n6 : BitVec 6
  fin : Compl
deriving DecidableEq, Repr

/-- `accsc` (R144); `i32` is the view of P. -/
structure ArgAccsc where
  g : Guard
  set : Bool
  i32 : Bool
  r : Rnd
  d : SReg
  a : SReg
  b : SReg
  m : MCode
  n6 : BitVec 6
  fin : Compl
deriving DecidableEq, Repr

/-- `accst` and `accld` (R145); `i32` is the view. -/
structure ArgAccmv where
  g : Guard
  i32 : Bool
  ty : Ty
  r : Rnd
  d : SReg
  a : SReg
  m : MCode
  n6 : BitVec 6
  fin : Compl
deriving DecidableEq, Repr

/-- `accrd` (R146). -/
structure ArgAccrd where
  g : Guard
  d : VReg
  a : SReg
  acq : Bool
  scope : Scope
deriving DecidableEq, Repr

/-- `accwr` (R146). -/
structure ArgAccwr where
  g : Guard
  a : SReg
  b : VReg
  rel : Bool
  scope : Scope
deriving DecidableEq, Repr

/-- Scalar loads and stores (R167). -/
structure ArgLd where
  g : Guard
  ty : Ty
  data : SReg
  addr : MAddr
  ord : MOrd
  scope : Scope
deriving DecidableEq, Repr

/-- Vector loads and stores (R168). -/
structure ArgVld where
  g : Guard
  data : VReg
  addr : MAddr
  ord : MOrd
  scope : Scope
deriving DecidableEq, Repr

/-- Gather and scatter (R169). -/
structure ArgVgat where
  g : Guard
  data : VReg
  space : Space
  base : SReg
  index : VReg
  scale : Fin 8
  disp : BitVec 37
  ord : MOrd
  scope : Scope
deriving DecidableEq, Repr

/-- `ldsc` and `stsc` (R218). -/
structure ArgLdsc where
  g : Guard
  ty : Ty
  data : SReg
  addr : MAddr
deriving DecidableEq, Repr

/-- `poolcfg` (R173). -/
structure ArgPoolcfg where
  g : Guard
  d : SReg
  a : SReg
  b : SReg
  c : SReg
  deadline : BitVec 32
deriving DecidableEq, Repr

/-- `poolst`, `tid` (R174, R266): a selector 0..6. -/
structure ArgPoolst where
  g : Guard
  d : SReg
  a : SReg
  sel : Fin 7
deriving DecidableEq, Repr

/-- `send` (R195). -/
structure ArgSend where
  g : Guard
  sspace : Space
  dspace : Space
  d : SReg
  a : SReg
  b : SReg
  n : BitVec 32
  cons : Bool
  fin : Compl
deriving DecidableEq, Repr

/-- `sendt` (R195). -/
structure ArgSendt where
  g : Guard
  d : SReg
  a : SReg
  b : SReg
  remote : Bool
  link : Fin 16
  cons : Bool
  fin : Compl
deriving DecidableEq, Repr

/-- `fill` (R195). -/
structure ArgFill where
  g : Guard
  d : SReg
  a : SReg
  b : SReg
  n : BitVec 32
  cons : Bool
  fin : Compl
deriving DecidableEq, Repr

/-- `wait` (R196). -/
structure ArgWait where
  g : Guard
  l : Fin 64
  s : Fin 64
  c : Fin 64
  t : Fin 64
deriving DecidableEq, Repr

/-- `sbstat` (R197). -/
structure ArgSbstat where
  g : Guard
  d : SReg
  sel : SbSel
deriving DecidableEq, Repr

/-- `fence` (R217). -/
structure ArgFence where
  g : Guard
  kind : FenceKind
  scope : Scope
deriving DecidableEq, Repr

/-- `spawn` (R258). -/
structure ArgSpawn where
  g : Guard
  a : SReg
  hReg : Bool
  h : SReg
  rReg : Bool
  r : SReg
  mask : BitVec 8
deriving DecidableEq, Repr

/-- `callat` (R259). -/
structure ArgCallat where
  g : Guard
  a : SReg
  t : SrcB
  c : SReg
deriving DecidableEq, Repr

/-- `fres` (R264). -/
structure ArgFres where
  g : Guard
  fault : Bool
  a : SReg
  b : SReg
deriving DecidableEq, Repr

/-- `tid` (R266). -/
structure ArgTid where
  g : Guard
  d : SReg
  sel : Fin 7
deriving DecidableEq, Repr

/-- `put` (R302). -/
structure ArgPut where
  g : Guard
  d : SReg
  a : SReg
  k : Fin 16
deriving DecidableEq, Repr

/-- `get` (R302). -/
structure ArgGet where
  g : Guard
  d : SReg
  k : Fin 16
deriving DecidableEq, Repr

/-- `alt` (R304). -/
structure ArgAlt where
  g : Guard
  d : SReg
  mask : BitVec 16
  a : SReg
deriving DecidableEq, Repr

/-- `pbind` (R305). -/
structure ArgPbind where
  g : Guard
  k : Fin 16
  a : SReg
deriving DecidableEq, Repr

/-- `portst` (R306). -/
structure ArgPortst where
  g : Guard
  d : SReg
  sel : Fin 18
deriving DecidableEq, Repr

/-- `cstat` (R322). -/
structure ArgCstat where
  g : Guard
  d : SReg
  a : SReg
  sel : CSel
deriving DecidableEq, Repr

/-- `amsg` (R335). -/
structure ArgAmsg where
  g : Guard
  a : SReg
  cls : Fin 32
  b : SReg
  n : Fin 8
deriving DecidableEq, Repr

/-- `htab` forms with a class (R336). -/
structure ArgHtab where
  g : Guard
  d : SReg
  a : SReg
  cls : Fin 32
deriving DecidableEq, Repr

/-- The atomics (R333). -/
structure ArgAtom where
  g : Guard
  ty : Ty
  data : SReg
  space : Space
  base : SReg
  index : SReg
  disp : BitVec 37
  ord : MOrd
  acqrel : Bool
  failAcq : Bool
  scope : Scope
deriving DecidableEq, Repr

/-- `barv` (R351). -/
structure ArgBarv where
  g : Guard
  d : SReg
  clu : Bool
  n : Fin 64
deriving DecidableEq, Repr

/-- `redp` (R352). -/
structure ArgRedp where
  g : Guard
  d : SReg
  a : VReg
  n : Fin 8
deriving DecidableEq, Repr

/-- `redg` (R352). -/
structure ArgRedg where
  g : Guard
  d : VReg
  c : SReg
  a : SReg
deriving DecidableEq, Repr

/-- `bcfg` (R353). -/
structure ArgBcfg where
  g : Guard
  d : SReg
  a : SReg
  n : Fin 64
  die : Fin 4
deriving DecidableEq, Repr

/-- `rcfg` (R353). -/
structure ArgRcfg where
  g : Guard
  d : SReg
  a : SReg
  n : Fin 8
deriving DecidableEq, Repr

/-- `trap call` and `brk` (R374, R376). -/
structure ArgCode where
  g : Guard
  code : BitVec 32
deriving DecidableEq, Repr

/-- `trap ring` (R374). -/
structure ArgTrapRing where
  g : Guard
  d : SReg
  a : SReg
  k : Fin 4
deriving DecidableEq, Repr

/-- `rfill` (R378). -/
structure ArgRfill where
  g : Guard
  d : SReg
  a : SReg
  b : AnyReg
deriving DecidableEq, Repr

end Sys2Proof
end

