-- ==== Sys2Proof/Machine/Assoc.lean ====
section
/-! DEFINITION. Sorted association lists, the one form in which the state holds sparse data, and small list helpers. -/
namespace Sys2Proof.Machine

/-- Keys and values, kept sorted by strictly rising key. -/
abbrev Assoc (α : Type) := List (Nat × α)

/-- The value at a key. -/
def Assoc.get? {α : Type} (k : Nat) : Assoc α → Option α
  | [] => none
  | (j, v) :: m => if j = k then some v else Assoc.get? k m

/-- The value at a key, or a default. -/
def Assoc.getD {α : Type} (m : Assoc α) (k : Nat) (d : α) : α := (Assoc.get? k m).getD d

/-- The list with the key set to the value. -/
def Assoc.put {α : Type} (k : Nat) (v : α) : Assoc α → Assoc α
  | [] => [(k, v)]
  | (j, x) :: m => if k < j then (k, v) :: (j, x) :: m else if k = j then (k, v) :: m else (j, x) :: Assoc.put k v m

/-- The list without the key. -/
def Assoc.erase {α : Type} (k : Nat) : Assoc α → Assoc α
  | [] => []
  | (j, x) :: m => if j = k then Assoc.erase k m else (j, x) :: Assoc.erase k m

/-- The list with the value at a key changed, where there is one. -/
def Assoc.modify {α : Type} (k : Nat) (f : α → α) : Assoc α → Assoc α
  | [] => []
  | (j, x) :: m => if j = k then (j, f x) :: m else (j, x) :: Assoc.modify k f m

/-- The lowest number from `lo` on that is no key, searching n of them. -/
def Assoc.firstFree {α : Type} (m : Assoc α) (lo : Nat) : Nat → Option Nat
  | 0 => none
  | n + 1 => if (Assoc.get? lo m).isNone then some lo else Assoc.firstFree m (lo + 1) n

/-- The list with element i replaced by its image. -/
def modifyAt {α : Type} (f : α → α) : Nat → List α → List α
  | _, [] => []
  | 0, x :: xs => f x :: xs
  | n + 1, x :: xs => x :: modifyAt f n xs

/-- The list without element i. -/
def dropAt {α : Type} : Nat → List α → List α
  | _, [] => []
  | 0, _ :: xs => xs
  | n + 1, x :: xs => x :: dropAt n xs

/-- The index of the first element that meets a test. -/
def indexWhere {α : Type} (p : α → Bool) : List α → Option Nat
  | [] => none
  | x :: xs => if p x then some 0 else (indexWhere p xs).map (· + 1)

/-- The list without its first element that meets a test. -/
def eraseFirst {α : Type} (p : α → Bool) : List α → List α
  | [] => []
  | x :: xs => if p x then xs else x :: eraseFirst p xs

/-- The list with its first element that meets a test changed. -/
def modifyFirst {α : Type} (p : α → Bool) (f : α → α) : List α → List α
  | [] => []
  | x :: xs => if p x then f x :: xs else x :: modifyFirst p f xs

end Sys2Proof.Machine
end

