-- ==== Sys2Proof/Machine/Parts.lean ====
section
/-! DEFINITION. The parts of the machine's state: registers and contexts (R69 to R77), tasks, records and regions
(R240 to R247, R269, R270), traps and the retry ring (R358 to R364), accesses under way (R200 to R206), tiles and
pools (R151 to R154), copies, tile operations and the scoreboard (R133, R177 to R187), ports and hubs (R287, R308 to
R317), messages (R324 to R329). -/
namespace Sys2Proof.Machine

/-! ### Tasks and regions -/

/-- A ready record (R242): head word, reply word and the eight arguments. -/
structure Rec where
  head : Word
  reply : Word
  args : List Word
deriving DecidableEq, Repr

/-- A task-type table entry (R240), with the size of the launch set of its image (R58, R74) and the static bindings
of its port slots, slot and port name (R288). -/
structure TaskType where
  entry : Nat
  sregs : Nat
  vregs : Nat
  ports : Nat
  valid : Bool
  actor : Bool
  cluster : Bool
  frame : Nat
  budget : Nat
  cw : Nat
  ch : Nat
  rates : List Nat
  high : Nat
  low : Nat
  ncells : Nat
  binds : List (Nat × Nat)
  launch : List Nat
deriving DecidableEq, Repr

/-- A grant record (R270): one cell's share, with vlo, vsp and vhi in 64 KiB units. -/
structure Grant where
  cell : Nat
  alo : Nat
  ahi : Nat
  llo : Nat
  lhi : Nat
  flo : Nat
  fhi : Nat
  vlo : Nat
  vsp : Nat
  vhi : Nat
deriving DecidableEq, Repr

/-- Why a master is frozen (R370, R379): the origin codes of the freeze word. -/
inductive FrzOrigin where
  | frz | key | message | engine
deriving DecidableEq, Repr

/-- Bytes of a cell that a load has placed (R65): in `.vlt` or in `.loc`, start and length. -/
structure Placed where
  cell : Nat
  vlt : Bool
  lo : Nat
  len : Nat
deriving DecidableEq, Repr

/-- A region control block (R269) with what the hardware keeps for the region: its grants, execute units and loaded bytes (R29,
R65, R270), the stall watchdog's h and quiet (R165), spill bytes in use (R412), park state (R274; `parking` holds the cells where a
`rgnact park` of it waits), token buckets, their refills and debts
(R277), sent and retired counts per cell (R278); `dying` says that its tear-down is under way (R282). A tenant region has `parent`
0. `sup` is the tenant's supervisor task type (R357), `vf` its virtual function, `partition` its isolation partition, `asids` the
ASIDs for which the Slath processor holds the tenant's roots (R225). -/
structure Region where
  parent : Nat
  tenant : Nat
  depth : Nat
  priority : Nat
  weight : Nat
  budgetCap : Nat
  ext : Nat
  poolQuota : Nat
  hubQuota : Nat
  partition : Nat
  keySlot : Nat
  asid : Nat
  fhType : Nat
  tokRate : Nat
  tokDepth : Nat
  spillBudget : Nat
  h0 : Nat
  aging : Nat
  grants : List Grant
  exec : List (Nat × Nat)
  placed : List Placed
  sup : Nat
  vf : Nat
  parked : Bool
  parking : List Nat
  frozen : Bool
  dying : Bool
  asids : List Nat
  h : Nat
  quiet : Nat
  activity : Bool
  sampledAt : Nat
  spillUsed : Nat
  tokens : Assoc Nat
  refilled : Assoc Nat
  debts : List (Nat × Nat × Nat)
  sent : Assoc Nat
  retired : Assoc Nat
  wave : Option (Nat × Nat)
deriving DecidableEq, Repr

/-! ### Traps -/

/-- A trap's cause, xval and xinfo (R360). -/
structure TrapInfo where
  cause : Nat
  val : Word
  info : Word
deriving DecidableEq, Repr

/-- An asynchronous trap that is pending in a context (R361), with its ring entry; `at_` is the PC of an access issued again
whose fault is precise (R345). -/
structure AsyncTrap where
  info : TrapInfo
  entry : Option Nat
  at_ : Option Word
deriving DecidableEq, Repr

/-- A trap queued for context 9 (R358, R359); `upto` is how many accesses its context had issued when it was taken: its handler is
entered after them (R216). -/
structure Trap where
  ctx : Nat
  async : Bool
  ring : Bool
  held : Bool
  entry : Nat
  epc : Word
  info : TrapInfo
  region : Nat
  task : Word
  upto : Nat
deriving DecidableEq, Repr

/-- A run of context 9 (R357, R358): the trap being handled, when the run began, and the tenant whose supervisor
runs; `stopped` is how long it has stood frozen, `frozenAt` since when it does (R371). -/
structure Run9 where
  trap : Trap
  start : Nat
  tenant : Nat
  stopped : Nat
  frozenAt : Option Nat
deriving DecidableEq, Repr

/-! ### Accesses under way -/

/-- Page kinds (R203). -/
inductive PKind where
  | S | R | U
deriving DecidableEq, Repr

/-- A leaf translation: the ASID and page it serves, its size code, and the leaf's fields (R227, R229). -/
structure Leaf where
  asid : Nat
  page : Nat
  size : Nat
  kind : PKind
  key : Nat
  w : Bool
  r : Bool
  frame : Nat
deriving DecidableEq, Repr

/-- What an access does. -/
inductive AccOp where
  | load
  | store
  | atomic (cls : Nat)
  | copy (key : Nat)
deriving DecidableEq, Repr

/-- One contiguous run of bytes of an access: its address in its space, its length, and the bytes a store writes. -/
structure Lane where
  addr : Nat
  len : Nat
  data : List Byte
deriving DecidableEq, Repr

/-- A translated run of bytes: which lane it belongs to, where in the lane, its home address, and the leaf that translated it, none in a
local space. -/
structure Piece where
  lane : Nat
  off : Nat
  len : Nat
  home : Nat
  leaf : Option Leaf := none
deriving DecidableEq, Repr

/-- The key slot of a translated run's page. -/
def Piece.key (p : Piece) : Nat := (p.leaf.map (·.key)).getD 0
/-- The kind of a translated run's page. -/
def Piece.kind (p : Piece) : PKind := (p.leaf.map (·.kind)).getD .R

/-- An access on its way: who issued it and where it stands in its context's program order, what it does and in which
space, its qualifiers (R207), its destination operand value (R35) and extension, and, once translated, its pieces and page kind;
`rank` is the rank of the peer, and `arrived` says that it has reached the peer's cell (R345). `vec` marks `vgat` and `vsca` (R169), `cons` a consuming access (R161), `sc` a sequentially consistent one (R213),
`v` and `v2` an atomic's operands (R334), `retry` the retry-ring entry that `rretry` issued it from (R363, R378). -/
structure Acc where
  cell : Nat
  ctx : Nat
  task : Word
  seq : Nat
  region : Nat
  asid : Nat
  pc : Word
  op : AccOp
  sp : Space
  peer : Option Nat
  lanes : List Lane
  dest : Nat
  ty : Ty
  vec : Bool
  ordAcq : Bool
  ordRel : Bool
  scope : Scope
  cons : Bool
  sc : Bool
  v : Word
  v2 : Word
  pieces : List Piece
  kind : PKind
  rank : Nat
  done : Bool
  retry : Option Nat
  arrived : Bool := false
deriving DecidableEq, Repr

/-- A retry-ring entry (R364); `acc` is the access it holds, none for a copy; `out` says that `rretry` has issued the
access again, or let the copy go on: the entry is no longer valid, and its index stays kept for a fault that recurs
(R363). -/
structure REntry where
  kind : Nat
  ctx : Nat
  cause : Nat
  dest : Nat
  size : Nat
  vec : Bool
  acls : Nat
  pc : Word
  addr : Word
  data : Word
  info : Word
  tenant : Nat
  region : Nat
  task : Word
  acc : Option Acc
  out : Bool
deriving DecidableEq, Repr

/-- The access that an entry holds now: none when it has been issued again. -/
def REntry.held (e : REntry) : Option Acc := if e.out then none else e.acc

/-- A table walk at a station (R228, R229): the page being walked and the accesses that joined, or the probe that
waits. -/
structure Walk where
  asid : Nat
  page : Nat
  waiting : List Acc
deriving DecidableEq, Repr

/-- A translation station (R229): cached leaves and walks. -/
structure Station where
  leaves : List Leaf
  walks : List Walk
deriving DecidableEq, Repr

/-! ### Tiles and pools -/

/-- Tile states (R154). -/
inductive TileSt where
  | free | unsealed | held | consuming | draining
deriving DecidableEq, Repr

/-- A tile (R154): `born` is the clock at its grant; an extension tile (R165) has its own `.vlt` address. -/
structure Tile where
  st : TileSt
  count : Nat
  tag : Nat
  region : Nat
  cell : Nat
  ctx : Nat
  born : Nat
  published : Bool
  raised : Bool
  ext : Option Nat
deriving DecidableEq, Repr

/-- A request waiting at a pool controller (R158): who asks, for how many reads, across which link it came, and the tenant on whose
share it or its answer crosses a link (R383). -/
structure PoolReq where
  cell : Nat
  ctx : Nat
  task : Word
  region : Nat
  reads : Nat
  link : Option Nat
  tenant : Nat := 0
deriving DecidableEq, Repr

/-- A configured pool (R151, R173, R174). -/
structure Pool where
  vlt : Bool
  base : Nat
  k : Nat
  deadline : Nat
  owner : Nat
  tiles : List Tile
  free : List Nat
  queue : List PoolReq
  grants : Nat
  abandoned : Nat
  closing : Bool
deriving DecidableEq, Repr

/-! ### The scoreboard and the engines -/

/-- A scoreboard entry (R185, R187), interval in 32-byte granules; `idx` is its index for `sbstat`, `op` the id
shown, `key` the operation that registered it (unique at the cell), `ctx` 15 for an incoming write. -/
structure SbEntry where
  idx : Nat
  space : Space
  lo : Nat
  hi : Nat
  write : Bool
  ctx : Nat
  op : Nat
  key : Nat
  region : Nat
deriving DecidableEq, Repr

/-- The shape of a copy (R179): a contiguous copy has n1 = n2 = 1. -/
structure Layout where
  run : Nat
  n1 : Nat
  n2 : Nat
  sstr1 : Int
  sstr2 : Int
  dstr1 : Int
  dstr2 : Int
deriving DecidableEq, Repr

/-- Where a copy stands (R184, R189, R193); a paused one has started and waits for a slot of the engine. -/
inductive CopyPhase where
  | queued
  | active
  | paused
  | sent
  | faulted (t : TrapInfo)
deriving DecidableEq, Repr

/-- The destination of a copy: a cell of this module or, across a link, of another one; `.glb`; or a tile by its
handle. -/
inductive CopyDst where
  | mem (link : Option Nat) (cell : Nat) (space : Space) (off : Nat)
  | glb (va : Nat)
  | tile (link : Option Nat) (handle : Word)
deriving DecidableEq, Repr

/-- A copy in the engine queue (R184): `key` names it at the cell, `id` is its transfer id (R180), `item` what its
`port` action offers, `fill` says that it writes the own cell directly, `tile` is the source tile with the tag that a
`sendt` names, `begun` says that it has started, `pos` counts the bytes read, `attempt` how often it has gone on after a fault,
`counted` says that the count step is done, `acked` that the destination has taken all bytes. -/
structure CopyOp where
  key : Nat
  id : Word
  ctx : Nat
  task : Word
  region : Nat
  tenant : Nat
  seq : Nat
  pc : Word
  src : Space
  base : Nat
  dst : CopyDst
  lay : Layout
  layAddr : Nat
  cons : Bool
  fill : Bool
  tile : Option (Nat × Nat × Option Nat)
  act : CAct
  word : Word
  item : Word
  acq : Bool
  rel : Bool
  scope : Scope
  phase : CopyPhase
  begun : Bool
  pos : Nat
  attempt : Nat
  acked : Bool
  counted : Bool
  suppressed : Bool
deriving DecidableEq, Repr

/-- What a tile operation computes (R142 to R145). -/
inductive TileFn where
  | mma (set : Bool) (pair : Pair)
  | accz
  | accsc (set i32 : Bool)
  | accst (i32 : Bool) (ty : Ty)
  | accld (i32 : Bool) (ty : Ty)
deriving DecidableEq, Repr

/-- A tile operation in the queue (R133): its operands and the state copied at issue (R137). -/
structure TileOp where
  key : Nat
  id : Word
  ctx : Nat
  task : Word
  region : Nat
  seq : Nat
  pc : Word
  fn : TileFn
  m : Nat
  n : Nat
  d : Nat
  a : Nat
  b : Nat
  md : Rnd
  tbl : BitVec 128
  ca : Bool
  cb : Bool
  act : CAct
  word : Word
  acq : Bool
  rel : Bool
  scope : Scope
  started : Bool
  suppressed : Bool
deriving DecidableEq, Repr

/-- A copy chunk in flight or in an inbound buffer (R183): the operation it belongs to, the header of its write, its
bytes with their destination offsets (those of a tile from its first byte on), its position among the operation's bytes and the
attempt that read it, whether it is the last; when it arrived; for a header accepted, `entry`, the key of its write entry; for one in
the spill area, the region charged and its address there. -/
structure Chunk where
  cell : Nat
  key : Nat
  ctx : Nat
  task : Word
  region : Nat
  tenant : Nat
  link : Option Nat
  dst : CopyDst
  lo : Nat
  hi : Nat
  segs : List (Nat × List Byte)
  last : Bool
  pos : Nat
  attempt : Nat
  size : Nat
  arrival : Nat
  entry : Nat
  spill : Option (Nat × Nat)
deriving DecidableEq, Repr

/-- A completion action that waits for the thaw of its context (R147, R198): what the engine does, with its word, the
transfer id and the item that a `port` action offers. -/
structure EndAct where
  ctx : Nat
  task : Word
  region : Nat
  act : CAct
  word : Word
  id : Word
  item : Word
deriving DecidableEq, Repr

/-! ### Ports and hubs -/

/-- The port a slot holds, with its direction and home hub (R287, R306). -/
structure PortSlot where
  name : Word
  isStatic : Bool
  conflict : Bool
  isIn : Bool
  hub : Nat
  slot : Nat
deriving DecidableEq, Repr

/-- Who made an offer: a context (with the slot and the position within an `alt`) or a completion action. -/
inductive Offerer where
  | ctx (cell ctx : Nat) (task : Word) (slot : Nat)
  | action (cell : Nat) (e : EndAct)
deriving DecidableEq, Repr

/-- An offer at a hub port (R303, R310, R311): its port index and name, the item of an `out` port, who made it, the
`alt` of its context that it belongs to, the link it came across, its age, its place in the order of arrival, whether it stands in
the spill area, and the tenant on whose share it or its answer crosses a link (R383). -/
structure Offer where
  port : Nat
  name : Word
  item : Option Word
  by_ : Offerer
  alt : Option Nat
  link : Option Nat
  age : Nat
  arrival : Nat
  spilled : Bool
  tenant : Nat := 0
deriving DecidableEq, Repr

/-- A port entry of a hub image (R317). -/
structure HubPort where
  index : Nat
  isIn : Bool
  actor : Bool
  aslot : Nat
deriving DecidableEq, Repr

/-- A FIFO entry of a hub image (R317). -/
structure HubFifo where
  number : Nat
  cap : Nat
  here : Bool
  outRegion : Nat
  home : Nat
deriving DecidableEq, Repr

/-- A guard term of a hub image (R318). -/
structure HubTerm where
  src : Nat
  ty : Nat
  op : Nat
  mask : Word
  const : Word
deriving DecidableEq, Repr

/-- A transition record of a hub image (R318). -/
structure HubTrans where
  ports : Nat
  gTrue : Nat
  gFalse : Nat
  gives : Nat
  fallback : Bool
  pushes : Bool
  takes : List Nat
  routeP : List Nat
  routeF : List Nat
deriving DecidableEq, Repr

/-- A parsed hub image (R317, R318). -/
structure HubImage where
  ports : List HubPort
  fifos : List HubFifo
  terms : List HubTerm
  trans : List HubTrans
  actor : Option Nat
  creg : Nat
deriving DecidableEq, Repr

/-- A loaded region slot of a hub (R308 to R313), with the actor's stage governor (R256). `fifo` holds the items of the hub's own
entries, `beyond` the `.vlt` addresses of those in the spill area, oldest first (R297). -/
structure HubSlot where
  image : HubImage
  conn : Nat
  region : Nat
  tenant : Nat
  ptr : Nat
  dirty : Bool
  busyUntil : Nat
  offers : List Offer
  fifo : List (List Word)
  beyond : List (List Nat)
  decisions : Nat
  lost : Nat
  eligible : List Nat
  next : Nat
  sampled : Nat
deriving DecidableEq, Repr

/-- A port binding recorded at the port's home hub (R287, R305): port name, tenant, and the (cell, context, slot). -/
structure Binding where
  name : Word
  tenant : Nat
  cell : Nat
  ctx : Nat
  slot : Nat
  task : Word
deriving DecidableEq, Repr

/-! ### Messages, owners' objects and context 8 -/

/-- A message (R324, R326): its name as addressed and the name it goes to now (R327), class, words and hops, who sent
it, and the link it crossed. -/
structure Msg where
  name : Word
  target : Word
  cls : Nat
  n : Nat
  words : List Word
  hops : Nat
  cell : Nat
  ctx : Nat
  task : Word
  region : Nat
  tenant : Nat
  link : Option Nat
deriving DecidableEq, Repr

/-- An operation on a join counter or a future (R262 to R265). -/
inductive OwnKind where
  | jdec (n : Nat)
  | fres (ok : Bool) (val : Nat)
  | freg (cont : Nat)
deriving DecidableEq, Repr

/-- A request to an owner cell (R253): the reference, the requester, and the transfer id when a completion action
makes it (R181). -/
structure OwnReq where
  kind : OwnKind
  ref : Word
  cell : Nat
  ctx : Nat
  task : Word
  region : Nat
  tenant : Nat
  action : Option Word
deriving DecidableEq, Repr

/-- A request waiting for context 8 (R329). -/
inductive Req8 where
  | handler (m : Msg) (region : Nat)
  | owner (r : OwnReq)
  | atomic (a : Acc)
deriving DecidableEq, Repr

/-- A run of a user handler in context 8 (R330); `stopped` is how long it has stood frozen, `frozenAt` since when it does. -/
structure Run8 where
  msg : Msg
  region : Nat
  start : Nat
  cap : Nat
  stopped : Nat
  frozenAt : Option Nat
deriving DecidableEq, Repr

/-- A user class of the handler table (R328). -/
structure HEntry where
  region : Nat
  ty : Nat
  frameLo : Nat
  frameHi : Nat
deriving DecidableEq, Repr

/-- The states of an endpoint entry (R325); `moving` is one whose `epmov` waits for its target (R337): its messages stay queued.
A parked one holds its save-area queue, each message with the address of its 48 bytes (R331), and whether `eppark` parked it. -/
inductive EpSt where
  | resident
  | moving
  | stub (succ : Word)
  | parked (queue : List (Nat × Msg)) (byPark : Bool)
deriving DecidableEq, Repr

/-- An endpoint store entry (R325); its number is its key. -/
structure Endpoint where
  region : Nat
  st : EpSt
deriving DecidableEq, Repr

/-! ### Barriers and reductions -/

/-- A participating cell's counters (R342). -/
structure BarCell where
  cur : Nat
  next : Nat
  departed : Bool
deriving DecidableEq, Repr

/-- A barrier instance (R341); a free one is not in the list. -/
structure BarInst where
  cluster : Bool
  owner : Nat
  k : Nat
  gen : Nat
  lb : Option Nat
  cells : Assoc BarCell
deriving DecidableEq, Repr

/-- One lane of a router register (R347): the 320 bits of the integer V, or the extremum's bits, the side bits, and whether any term
has come and whether all of them were zeros of one sign (R101). -/
structure RLane where
  v : BitVec 320
  pinf : Bool
  ninf : Bool
  nan : Bool
  snan : Bool
  any : Bool
  allNeg0 : Bool
  allPos0 : Bool
deriving DecidableEq, Repr

/-- A finished generation of a reduction (R349). -/
structure RResult where
  gen : Nat
  lanes : List (BitVec 32)
  flags : Nat
deriving DecidableEq, Repr

/-- A partial of another module; `broken` tells of a break there (R348). -/
structure RPartial where
  link : Nat
  number : Nat
  gen : Nat
  op : Nat
  rm : Rnd
  lanes : List RLane
  broken : Bool
deriving DecidableEq, Repr

/-- A reduction register of a router (R21, R346, R347): the router's position (R16), the register's number, and the 16 lanes that
it has combined for a generation (log entry 35). -/
structure RouterReg where
  router : Nat
  number : Nat
  gen : Nat
  lanes : List RLane
deriving DecidableEq, Repr

/-- A configured reduction (R346 to R349): `partials` holds what other modules have told of generations that have not ended,
`sentGen` the generation whose partial has been sent. -/
structure RedInst where
  bar : BarInst
  op : Nat
  rm : Rnd
  root : Nat
  links : List Nat
  partials : List RPartial
  sentGen : Option Nat
  results : List RResult
deriving DecidableEq, Repr

/-! ### What is in flight -/

/-- Where a flight starts or ends (R17): a cell, the router of a mesh position (R21), a translation station, a placer, the notification network (R213), a host link's
gateway, a Wale link. -/
inductive Place where
  | cell (c : Nat)
  | router (p : Nat)
  | station (die col : Nat)
  | placer (die : Nat)
  | network
  | host (link : Nat)
  | link (l : Nat)
deriving DecidableEq, Repr

/-- How a waiting offer ends (R310, R312, R314). -/
inductive PortEnd where
  | fired (item : Option Word) (status : Nat)
  | withdrawn (reason : Option Nat)
deriving DecidableEq, Repr

/-- Where a completion comes from, for a lost-firing entry (R315). -/
structure FiringAt where
  hub : Nat
  slot : Nat
  trans : Nat
  cycle : Nat
deriving DecidableEq, Repr

/-- What a flight carries. -/
inductive Pay where
  | stationReq (a : Acc)
  | glb (a : Acc)
  | peer (a : Acc)
  | peerAbsent (a : Acc)
  | value (a : Acc) (data : List (List Byte))
  | atomicReq (a : Acc)
  | atomicResult (a : Acc) (old : Word)
  | ready (r : Rec) (tenant : Nat)
  | place (r : Rec)
  | owner (r : OwnReq)
  | ownerReply (r : OwnReq) (status : Nat) (state : Word)
  | talloc (pool target : Nat) (r : PoolReq) (try_ : Bool)
  | tallocCancel (pool target : Nat) (cell ctx : Nat) (task : Word) (link : Option Nat) (tenant : Nat)
  | grant (pool : Nat) (r : PoolReq) (handle : Option Word) (fault : Bool)
  | handleOp (kind : Nat) (handle : Word) (n : Nat) (cell ctx : Nat) (task : Word) (tenant : Nat)
  | message (m : Msg)
  | returned (m : Msg) (reason : Nat)
  | offer (o : Offer) (conn : Nat) (tenant : Nat) (slot : Nat) (region : Nat)
  | hubCancel (cell ctx : Nat) (task : Word) (slot : Nat) (tenant : Nat)
  | portDone (o : Offer) (slot : Nat) (e : PortEnd) (f : FiringAt)
  | fifoItem (tenant conn region number : Nat) (item name : Word) (fwd : List Offer) (cut : Bool) (f : FiringAt)
  | chunk (c : Chunk)
  | chunkAck (cell key : Nat) (fault : Option TrapInfo) (freeze : Bool) (pos : Nat) (final : Bool) (tenant : Nat)
  | contribution (red gen : Nat) (lanes : List RLane)
  | partialSum (p : RPartial)
  | announce (window cell ctx seq : Nat)
  | pbind (cell ctx : Nat) (task : Word) (slot : Nat) (name : Word) (region tenant : Nat)
  | unbind (name : Word) (cell ctx slot : Nat) (tenant : Nat)
  | pbindAnswer (cell ctx : Nat) (task : Word) (slot : Nat) (name : Word) (port : Option PortSlot) (reason : Nat) (tenant : Nat)
  | epmov (name : Word) (number : Nat) (region asid : Nat) (cell ctx : Nat) (task : Word)
deriving DecidableEq, Repr

/-- A message in flight, from one place to another (R20). -/
structure Flight where
  src : Place
  dst : Place
  pay : Pay
deriving DecidableEq, Repr

/-- A sequentially consistent operation announced and not performed (R213). -/
structure ScOp where
  window : Nat
  cell : Nat
  ctx : Nat
  seq : Nat
  acc : Acc
  ready : Bool
deriving DecidableEq, Repr

/-! ### Placers, clusters, links, channels -/

/-- A record waiting at a placer, since when, and the die it is served on (R275, R276). -/
structure PlaceReq where
  record : Rec
  since : Nat
  reserved : Option (List Nat)
deriving DecidableEq, Repr

/-- A cluster resident on the module (R275, R345): its cells in rank order, width, height, barrier instance. -/
structure ClusterSt where
  cells : List Nat
  w : Nat
  h : Nat
  inst : Nat
  region : Nat
  ctxs : List Nat
  tasks : List Word
  departed : List Nat
deriving DecidableEq, Repr

/-- Link states (R382). -/
inductive LinkSt where
  | down | training | up
deriving DecidableEq, Repr

/-- A share of a link (R383): partition, and the tenants paired on the two ends. -/
structure Share where
  share : Nat
  partition : Nat
  tenant : Nat
  far : Nat
deriving DecidableEq, Repr

/-- The key and the salt of a key slot of a link (R384). -/
structure LinkKey where
  key : BitVec 256
  salt : BitVec 32
deriving DecidableEq, Repr, Inhabited

/-- A flit group as the sender keeps it, sealed (R384, R385): the fields of its header, the key and the salt that it was sealed under,
and the messages whose last flits are in it. -/
structure Group where
  seq : Nat
  slot : Nat
  share : Nat
  nflits : Nat
  ack : Nat
  key : LinkKey
  pays : List Flight
deriving DecidableEq, Repr

/-- A key slot of one direction of a link (R387). -/
inductive LSlot where
  | idle | installed | active | retiring
deriving DecidableEq, Repr

/-- A Wale link (R382 to R387): its state and shares; for each direction the active slot, the states and the keys of both slots;
`txSeq` the last number sealed, `sealed` the groups sealed under the active slot, `rxSeq` the last number accepted; the groups without
an acknowledgement; the stage of a rotation in each direction: 0 begun, 1 its keys installed, 2 switched, and, in the receiving one, 3
with a group under the new slot accepted; `rxOld` that the old slot is still accepted; `retries` the resent groups, `attempts` the
resends since the last progress at `lastAck`; `downSince` the clock at which it went down; `session` the session of the two Slath
processors, `derived` how many keys it has given; `answers` what has been answered to the far end: whether a group was discarded, and
the last number accepted. -/
structure LinkState where
  st : LinkSt
  shares : List Share
  txSlot : Nat
  rxSlot : Nat
  txSlots : List LSlot
  rxSlots : List LSlot
  txKeys : List LinkKey
  rxKeys : List LinkKey
  txSeq : Nat
  sealed : Nat
  rxSeq : Nat
  unacked : List Group
  rotTx : Option Nat
  rotRx : Option Nat
  rxOld : Bool
  retries : Nat
  attempts : Nat
  lastAck : Nat
  downSince : Nat
  session : Nat
  derived : Nat
  answers : List (Bool × Nat)
deriving DecidableEq, Repr

/-- Channel states (R389). -/
inductive ChanSt where
  | unmapped | mapped | closing
deriving DecidableEq, Repr

/-- A host channel (R388 to R391): descriptor, latch, head and done. -/
structure Channel where
  sub : Nat
  comp : Nat
  status : Nat
  e : Nat
  z : Nat
  vector : Nat
  st : ChanSt
  tailsnap : Nat
  late : Nat
  rejected : Nat
  latch : Nat
  head : Nat
  done : Nat
deriving DecidableEq, Repr

/-- TDISP states (R392). -/
inductive VfSt where
  | unlocked | locked | run | error
deriving DecidableEq, Repr

/-- A virtual function (R389, R390, R392): its TDISP state, the host link that carries it (R224), its two windows, the doorbell page by
its address and `.glb` by base and size, and its table of channel descriptors by its `.glb` and its physical address. -/
structure Vf where
  st : VfSt
  link : Nat
  doorbell : Nat
  base : Nat
  size : Nat
  tableVa : Nat
  table : Nat
deriving DecidableEq, Repr

/-- A block at a rim position beside its column's translation station (R17): a Wale link's port, a UCIe bridge to the neighbour
east or west or to the one north or south, the PCIe gateway of a host link, a die's placer. -/
inductive RimBlock where
  | wale (link : Nat)
  | bridge (eastWest : Bool)
  | gateway (hostLink : Nat)
  | placer
deriving DecidableEq, Repr

/-- The blocks at a rim column of a die (R17). -/
def rimBlocks (die col : Nat) : List RimBlock :=
  match col with
  | 0 => [.wale (die * 4)]
  | 1 => [.wale (die * 4 + 1)]
  | 4 => [.bridge true]
  | 7 => if die < 2 then [.gateway die, .placer] else [.placer]
  | 11 => [.bridge false]
  | 14 => [.wale (die * 4 + 2)]
  | 15 => [.wale (die * 4 + 3)]
  | _ => []

/-- The rim blocks of the module, die by die and column by column. -/
def rimAll : List RimBlock := (List.range 4).flatMap fun d => (List.range 16).flatMap fun c => rimBlocks d c

/-- The module's Wale links, by number (R17). -/
def waleLinks : List Nat := rimAll.filterMap fun b => match b with | .wale l => some l | _ => none

/-- The module's host links, each with its gateway (R17). -/
def hostLinks : List Nat := rimAll.filterMap fun b => match b with | .gateway h => some h | _ => none

/-- Key slot states (R233); `gen` counts installs, so that bytes written under an earlier key are another key's. -/
inductive KeySt where
  | empty | installed | retiring
deriving DecidableEq, Repr

/-- A key slot (R233). -/
structure KeySlot where
  st : KeySt
  owner : Nat
  gen : Nat
deriving DecidableEq, Repr

/-- An interleave set (R221). -/
structure ISet where
  w0 : Word
  w1 : Word
deriving DecidableEq, Repr

/-- What the module has told the host: writes to host memory and MSI-X of a virtual function, through the gateway that
carries it (R224, R390), freeze reports (R370), answers of the Slath processor (R393), among them a virtual function's interface
report, its doorbell page and its `.glb` window (R392), the `.glb` address of the descriptor table of a new one (R389), the status of
loads, and a thermal trip (R403). -/
inductive HostMsg where
  | write (vf addr : Nat) (bytes : List Byte)
  | msix (vf vector : Nat)
  | freeze (origin : FrzOrigin) (region cell : Nat)
  | spdm (index : Nat) (value : List Byte)
  | certificate (slot : Nat) (chain : List Byte)
  | interfaces (vf doorbell : Nat) (window : Nat × Nat)
  | channelTable (vf addr : Nat)
  | read (vf addr : Nat) (bytes : List Byte)
  | loadStatus (status : Nat) (region : Nat)
  | error (vf : Nat)
  | thermalTrip
deriving DecidableEq, Repr

/-- A breakpoint that the debugger has planted (R376, R404): its cell and PC, and the instruction word and the line word that stood
there. -/
structure Breakpoint where
  cell : Nat
  pc : Nat
  code : Nat
  lineWord : Nat
deriving DecidableEq, Repr

/-- A 512-bit digest. -/
abbrev Digest := BitVec 512

end Sys2Proof.Machine
end

