-- ==== Sys2Proof/Syntax/Events.lean ====
section
/-! DEFINITION. The contents of the events that come from outside the cells: what the host, the Slath processor and the
linked modules supply. Where the Slath processor or ngload chooses among several allowed values (a region number, a base),
the event carries the choice (log entry 20). -/
namespace Sys2Proof
open Machine

/-- A load request (R65, R68): the image's bytes, the region, the launch set, the launch values by name, the global window
as base and size, and the bases that ngload chooses for task types and connectors (R241, R286). -/
structure LoadReq where
  image : List Byte
  region : Nat
  cells : List Nat
  params : List (List Byte × Int)
  window : Option (Nat × Nat)
  typeBase : Nat
  connBase : Nat
deriving DecidableEq, Repr

/-- A tenant to be created (R269): the region number given it, its control block with its grants; the root of each of its ASIDs,
those of later children among them, with the root's physical address and the key slot of the walker (R225); the host link that
carries its virtual function (R224), the address of its doorbell page and its `.glb` window (R390, R392), and the `.glb` and the
physical address of the table of its channel descriptors (R389). -/
structure TenantReq where
  no : Nat
  control : Region
  roots : List (Nat × Nat × Nat)
  link : Nat
  doorbell : Nat
  window : Nat × Nat
  table : Nat × Nat
deriving DecidableEq, Repr

/-- A pre-emption request (R273). -/
structure PreemptReq where
  tenant : Nat
  cells : List Nat
deriving DecidableEq, Repr

/-- A flit group that arrives over a link (R384, R385): its header's fields, whether its tag verifies under the slot that it
names, whether it answers a discarded group, and the messages whose last flits are in it. -/
structure WaleGroup where
  link : Nat
  slot : Nat
  share : Nat
  nflits : Nat
  seq : Nat
  ack : Nat
  verifies : Bool
  nak : Bool
  pays : List Pay
deriving DecidableEq, Repr

/-- A channel to be mapped (R389): its descriptor's fields. -/
structure ChanReq where
  vf : Nat
  chan : Nat
  sub : Nat
  comp : Nat
  status : Nat
  e : Nat
  z : Nat
  vector : Nat
deriving DecidableEq, Repr

/-- What a notify write of the host brings (R390, R392): whether its IDE integrity holds, and the tail. -/
structure NotifyReq where
  intact : Bool
  tail : Nat
deriving DecidableEq, Repr

/-- A request of the host through a virtual function (R392): whether its IDE integrity holds, the virtual address, and the
bytes written, or the number of bytes read. -/
structure HostReq where
  vf : Nat
  intact : Bool
  addr : Nat
  data : Option (List Byte)
  len : Nat
deriving DecidableEq, Repr

/-- A request to the Slath processor over SPDM (R238, R392, R393): a session opened or closed, a measurement asked for, a
TDISP move of a virtual function or its interface report, the certificate chain of a slot. -/
inductive SpdmReq where
  | openSession (n : Nat)
  | closeSession (n : Nat)
  | measurement (index : Nat)
  | lock (vf : Nat)
  | start (vf : Nat)
  | stop (vf : Nat)
  | certificate (slot : Nat)
  | interfaces (vf : Nat)
deriving DecidableEq, Repr

/-- What a module reset finds (R398, R400): the power-up values of the 4 KiB region, the vaults that fail, the Wale links and the
host links that train. -/
structure BootInput where
  puf : List Byte
  failed : List Nat
  links : List Nat
  hostLinks : List Nat
deriving DecidableEq, Repr, Inhabited

/-- What the physical function does with the flash (R398, R399): it writes an image to one of the two places of the firmware (0 and 1)
or to that of the cell microcode (2), or commits the image there. -/
structure CommitReq where
  place : Nat
  write : Option (List Byte)
deriving DecidableEq, Repr

/-- An isolation partition configured (R221, R229, R279, R383): its cells, whether it is disjoint, the interleave sets, by number
and words, its shares of translation stations, each with its station, its entries in groups of 256 and its walkers, and the shares
of links that belong to it, each with its link, its number, and the tenants paired on the two ends. -/
structure PartReq where
  partition : Nat
  cells : List Nat
  disjoint : Bool
  stations : List (Nat × Nat × Nat)
  sets : List (Nat × ISet)
  shares : List (Nat × Share)
deriving DecidableEq, Repr

end Sys2Proof
end

