-- ==== Sys2Proof/Syntax.lean ====
section
/-! DEFINITION. The instruction set: one constructor for each row of the opcode table. The first 207 are the
instructions of R43 in the table's order; the other 80 are the events of the machine's other agents (the
dispatcher, the engines, the routers, the hubs, the Slath processor, the host), each one whole step. -/
namespace Sys2Proof

/-- The rows of the opcode table. -/
inductive Instr where
  /-- ADD (R81). -/
  | add (x : ArgInt)
  /-- SUB (R81). -/
  | sub (x : ArgInt)
  /-- MUL (R81). -/
  | mul (x : ArgInt)
  /-- MULH (R81). -/
  | mulh (x : ArgInt)
  /-- MULHU (R81). -/
  | mulhu (x : ArgInt)
  /-- DIV (R81). -/
  | div (x : ArgInt)
  /-- DIVU (R81). -/
  | divu (x : ArgInt)
  /-- REM (R81). -/
  | rem (x : ArgInt)
  /-- REMU (R81). -/
  | remu (x : ArgInt)
  /-- AND (R81). -/
  | and (x : ArgInt)
  /-- OR (R81). -/
  | or (x : ArgInt)
  /-- XOR (R81). -/
  | xor (x : ArgInt)
  /-- ANDN (R81). -/
  | andn (x : ArgInt)
  /-- SHL (R81). -/
  | shl (x : ArgInt)
  /-- SHR (R81). -/
  | shr (x : ArgInt)
  /-- SAR (R81). -/
  | sar (x : ArgInt)
  /-- ROL (R81). -/
  | rol (x : ArgInt)
  /-- MIN (R81). -/
  | min (x : ArgInt)
  /-- MAX (R81). -/
  | max (x : ArgInt)
  /-- MINU (R81). -/
  | minu (x : ArgInt)
  /-- MAXU (R81). -/
  | maxu (x : ArgInt)
  /-- CLZ (R82). -/
  | clz (x : ArgTDA)
  /-- CTZ (R82). -/
  | ctz (x : ArgTDA)
  /-- POPC (R82). -/
  | popc (x : ArgTDA)
  /-- BEXT (R83). -/
  | bext (x : ArgBext)
  /-- BINS (R83). -/
  | bins (x : ArgBins)
  /-- LEA (R84). -/
  | lea (x : ArgLea)
  /-- LI (R85). -/
  | li (x : ArgLi)
  /-- MOV (R86). -/
  | mov (x : ArgMov)
  /-- SEL (R86). -/
  | sel (x : ArgSel)
  /-- CMP (R87). -/
  | cmp (x : ArgCmp)
  /-- PAND (R88). -/
  | pand (x : ArgP3)
  /-- POR (R88). -/
  | por (x : ArgP3)
  /-- PXOR (R88). -/
  | pxor (x : ArgP3)
  /-- PNOT (R88). -/
  | pnot (x : ArgP2)
  /-- PPACK (R88). -/
  | ppack (x : ArgD)
  /-- PUNPK (R88). -/
  | punpk (x : ArgPunpk)
  /-- BR (R89). -/
  | br (x : ArgBr)
  /-- JMP (R89). -/
  | jmp (x : ArgT)
  /-- CALL (R89). -/
  | call (x : ArgT)
  /-- LOOP (R89). -/
  | loop (x : ArgLoop)
  /-- JR (R90). -/
  | jr (x : ArgA)
  /-- CALLR (R90). -/
  | callr (x : ArgA)
  /-- RET (R90). -/
  | ret (x : ArgA)
  /-- DONE (R91). -/
  | done (x : ArgG)
  /-- RDSR (R92). -/
  | rdsr (x : ArgRdsr)
  /-- WRSR (R92). -/
  | wrsr (x : ArgWrsr)
  /-- FADD (R111). -/
  | fadd (x : ArgFAr)
  /-- FSUB (R111). -/
  | fsub (x : ArgFAr)
  /-- FMUL (R111). -/
  | fmul (x : ArgFAr)
  /-- FDIV (R111). -/
  | fdiv (x : ArgFAr)
  /-- FMIN (R111). -/
  | fmin (x : ArgFAr)
  /-- FMAX (R111). -/
  | fmax (x : ArgFAr)
  /-- FMA (R112). -/
  | fma (x : ArgFma)
  /-- FSQRT (R113). -/
  | fsqrt (x : ArgFsqrt)
  /-- FCMP (R114). -/
  | fcmp (x : ArgFcmp)
  /-- FCVT (R115). -/
  | fcvt (x : ArgFcvt)
  /-- FCLASS (R116). -/
  | fclass (x : ArgTDA)
  /-- VADD (R118). -/
  | vadd (x : ArgV)
  /-- VSUB (R118). -/
  | vsub (x : ArgV)
  /-- VMUL (R118). -/
  | vmul (x : ArgV)
  /-- VFMA (R118). -/
  | vfma (x : ArgVfma)
  /-- VMIN (R118). -/
  | vmin (x : ArgV)
  /-- VMAX (R118). -/
  | vmax (x : ArgV)
  /-- VABS (R118). -/
  | vabs (x : ArgVun)
  /-- VNEG (R118). -/
  | vneg (x : ArgVun)
  /-- VAND (R118). -/
  | vand (x : ArgV)
  /-- VOR (R118). -/
  | vor (x : ArgV)
  /-- VXOR (R118). -/
  | vxor (x : ArgV)
  /-- VSHL (R118). -/
  | vshl (x : ArgV)
  /-- VSHR (R118). -/
  | vshr (x : ArgV)
  /-- VSRA (R118). -/
  | vsra (x : ArgV)
  /-- VCMP (R119). -/
  | vcmp (x : ArgVcmp)
  /-- VSEL (R119). -/
  | vsel (x : ArgVsel)
  /-- VCVT (R120). -/
  | vcvt (x : ArgVcvt)
  /-- VEXPAND (R121). -/
  | vexpand (x : ArgVexp)
  /-- VRCP (R122). -/
  | vrcp (x : ArgVV)
  /-- VRSQRT (R122). -/
  | vrsqrt (x : ArgVV)
  /-- VEXP2 (R122). -/
  | vexp2 (x : ArgVV)
  /-- VLOG2 (R122). -/
  | vlog2 (x : ArgVV)
  /-- VREDSUM (R123). -/
  | vredsum (x : ArgVred)
  /-- VREDMAX (R123). -/
  | vredmax (x : ArgVred)
  /-- VDOT (R124). -/
  | vdot (x : ArgVdot)
  /-- VSPLAT (R125). -/
  | vsplat (x : ArgVsplat)
  /-- VPERM (R125). -/
  | vperm (x : ArgVperm)
  /-- VIDX (R125). -/
  | vidx (x : ArgVidx)
  /-- VMOVS (R125). -/
  | vmovs (x : ArgVmovs)
  /-- VQNT (R126). -/
  | vqnt (x : ArgVq)
  /-- VDQNT (R126). -/
  | vdqnt (x : ArgVq)
  /-- VSCACC (R127). -/
  | vscacc (x : ArgVscacc)
  /-- LDTAB (R128). -/
  | ldtab (x : ArgLdtab)
  /-- MMA (R142). -/
  | mma (x : ArgMma)
  /-- ACCZ (R143). -/
  | accz (x : ArgAccz)
  /-- ACCSC (R144). -/
  | accsc (x : ArgAccsc)
  /-- ACCST (R145). -/
  | accst (x : ArgAccmv)
  /-- ACCLD (R145). -/
  | accld (x : ArgAccmv)
  /-- ACCRD (R146). -/
  | accrd (x : ArgAccrd)
  /-- ACCWR (R146). -/
  | accwr (x : ArgAccwr)
  /-- LD (R167). -/
  | ld (x : ArgLd)
  /-- ST (R167). -/
  | st (x : ArgLd)
  /-- LDC (R167). -/
  | ldc (x : ArgLd)
  /-- VLD (R168). -/
  | vld (x : ArgVld)
  /-- VST (R168). -/
  | vst (x : ArgVld)
  /-- VLDC (R168). -/
  | vldc (x : ArgVld)
  /-- VGAT (R169). -/
  | vgat (x : ArgVgat)
  /-- VSCA (R169). -/
  | vsca (x : ArgVgat)
  /-- TALLOC (R171). -/
  | talloc (x : ArgDABi)
  /-- TALLOC_TRY (R171). -/
  | tallocTry (x : ArgSel)
  /-- TSEAL (R172). -/
  | tseal (x : ArgABi)
  /-- TDROP (R172). -/
  | tdrop (x : ArgA)
  /-- TCOUNT (R172). -/
  | tcount (x : ArgDA)
  /-- POOLCFG (R173). -/
  | poolcfg (x : ArgPoolcfg)
  /-- POOLST (R174). -/
  | poolst (x : ArgPoolst)
  /-- SEND (R195). -/
  | send (x : ArgSend)
  /-- SEND_LAY (R195). -/
  | sendLay (x : ArgSend)
  /-- SENDT (R195). -/
  | sendt (x : ArgSendt)
  /-- FILL (R195). -/
  | fill (x : ArgFill)
  /-- FILL_LAY (R195). -/
  | fillLay (x : ArgFill)
  /-- WAIT (R196). -/
  | wait (x : ArgWait)
  /-- SBSTAT (R197). -/
  | sbstat (x : ArgSbstat)
  /-- FENCE (R217). -/
  | fence (x : ArgFence)
  /-- LDSC (R218). -/
  | ldsc (x : ArgLdsc)
  /-- STSC (R218). -/
  | stsc (x : ArgLdsc)
  /-- XLAT_R (R236). -/
  | xlatR (x : ArgDA)
  /-- XLAT_W (R236). -/
  | xlatW (x : ArgDA)
  /-- XLAT_SET0 (R236). -/
  | xlatSet0 (x : ArgDA)
  /-- XLAT_SET1 (R236). -/
  | xlatSet1 (x : ArgDA)
  /-- TINV_ALL (R237). -/
  | tinvAll (x : ArgG)
  /-- TINV_ASID (R237). -/
  | tinvAsid (x : ArgA)
  /-- TINV_PAGE (R237). -/
  | tinvPage (x : ArgAB)
  /-- KEYSET_INST (R238). -/
  | keysetInst (x : ArgDA)
  /-- KEYSET_RET (R238). -/
  | keysetRet (x : ArgDA)
  /-- KEYSET_ST (R238). -/
  | keysetSt (x : ArgDA)
  /-- SPAWN (R258). -/
  | spawn (x : ArgSpawn)
  /-- CALLAT (R259). -/
  | callat (x : ArgCallat)
  /-- REPLY (R260). -/
  | reply (x : ArgA)
  /-- JNEW (R261). -/
  | jnew (x : ArgDABi)
  /-- JDEC (R262). -/
  | jdec (x : ArgABi)
  /-- FNEW (R263). -/
  | fnew (x : ArgDA)
  /-- FRES (R264). -/
  | fres (x : ArgFres)
  /-- FREG (R265). -/
  | freg (x : ArgDAB)
  /-- TID (R266). -/
  | tid (x : ArgTid)
  /-- RGNACT_NEW (R281). -/
  | rgnactNew (x : ArgDAB)
  /-- RGNACT_PARK (R274). -/
  | rgnactPark (x : ArgDA)
  /-- RGNACT_RESUME (R274). -/
  | rgnactResume (x : ArgDA)
  /-- RGNACT_QUIET (R278). -/
  | rgnactQuiet (x : ArgDA)
  /-- RGNKILL_KILL (R282). -/
  | rgnkillKill (x : ArgDA)
  /-- RGNKILL_EXIT (R282). -/
  | rgnkillExit (x : ArgDA)
  /-- BUDGET_RD (R283). -/
  | budgetRd (x : ArgD)
  /-- BUDGET_EXT (R283). -/
  | budgetExt (x : ArgD)
  /-- PUT (R302). -/
  | put (x : ArgPut)
  /-- GET (R302). -/
  | get (x : ArgGet)
  /-- ALT (R304). -/
  | alt (x : ArgAlt)
  /-- PBIND (R305). -/
  | pbind (x : ArgPbind)
  /-- PORTST (R306). -/
  | portst (x : ArgPortst)
  /-- CLOAD (R320). -/
  | cload (x : ArgDAB)
  /-- CDROP (R321). -/
  | cdrop (x : ArgDA)
  /-- CSTAT (R322). -/
  | cstat (x : ArgCstat)
  /-- AMSG (R335). -/
  | amsg (x : ArgAmsg)
  /-- HTAB_SET (R336). -/
  | htabSet (x : ArgHtab)
  /-- HTAB_CLR (R336). -/
  | htabClr (x : ArgHtab)
  /-- HTAB_EPNEW (R336). -/
  | htabEpnew (x : ArgD)
  /-- HTAB_EPDEL (R336). -/
  | htabEpdel (x : ArgDA)
  /-- HTAB_RD (R336). -/
  | htabRd (x : ArgHtab)
  /-- AADD (R334). -/
  | aadd (x : ArgAtom)
  /-- AAND (R334). -/
  | aand (x : ArgAtom)
  /-- AOR (R334). -/
  | aor (x : ArgAtom)
  /-- AXOR (R334). -/
  | axor (x : ArgAtom)
  /-- AMAX (R334). -/
  | amax (x : ArgAtom)
  /-- AMIN (R334). -/
  | amin (x : ArgAtom)
  /-- ASWP (R334). -/
  | aswp (x : ArgAtom)
  /-- ACAS (R334). -/
  | acas (x : ArgAtom)
  /-- EPMOV (R337). -/
  | epmov (x : ArgDAB)
  /-- EPPARK_PARK (R338). -/
  | epparkPark (x : ArgDA)
  /-- EPPARK_RESUME (R338). -/
  | epparkResume (x : ArgDA)
  /-- BARV (R351). -/
  | barv (x : ArgBarv)
  /-- BARW (R351). -/
  | barw (x : ArgDA)
  /-- REDP (R352). -/
  | redp (x : ArgRedp)
  /-- REDG (R352). -/
  | redg (x : ArgRedg)
  /-- BCFG_SET (R353). -/
  | bcfgSet (x : ArgBcfg)
  /-- BCFG_FREE (R353). -/
  | bcfgFree (x : ArgBcfg)
  /-- BCFG_BRK (R342). -/
  | bcfgBrk (x : ArgBcfg)
  /-- BCFG_RD (R353). -/
  | bcfgRd (x : ArgBcfg)
  /-- RCFG_SET (R353). -/
  | rcfgSet (x : ArgRcfg)
  /-- RCFG_FREE (R353). -/
  | rcfgFree (x : ArgRcfg)
  /-- RCFG_BRK (R346). -/
  | rcfgBrk (x : ArgRcfg)
  /-- RCFG_RD (R353). -/
  | rcfgRd (x : ArgRcfg)
  /-- TRAP_CALL (R374). -/
  | trapCall (x : ArgCode)
  /-- TRAP_RING (R374). -/
  | trapRing (x : ArgTrapRing)
  /-- ERET (R375). -/
  | eret (x : ArgG)
  /-- BRK (R376). -/
  | brk (x : ArgCode)
  /-- RFILL (R378). -/
  | rfill (x : ArgRfill)
  /-- RRETRY (R378). -/
  | rretry (x : ArgDA)
  /-- RRETRY_CTX (R378). -/
  | rretryCtx (x : ArgD)
  /-- RSKIP (R378). -/
  | rskip (x : ArgDA)
  /-- RKILL_ENT (R379). -/
  | rkillEnt (x : ArgDA)
  /-- RKILL_CTX (R379). -/
  | rkillCtx (x : ArgD)
  /-- FRZ_RGN (R379). -/
  | frzRgn (x : ArgDA)
  /-- FRZ_RD (R379). -/
  | frzRd (x : ArgDA)
  /-- HPOST_HEAD (R395). -/
  | hpostHead (x : ArgDAB)
  /-- HPOST_DONE (R395). -/
  | hpostDone (x : ArgDAB)
  /-- HPOLL_TAIL (R395). -/
  | hpollTail (x : ArgDA)
  /-- HPOLL_HEAD (R395). -/
  | hpollHead (x : ArgDA)
  /-- HPOLL_DONE (R395). -/
  | hpollDone (x : ArgDA)
  /-- HPOLL_WAIT (R395). -/
  | hpollWait (x : ArgDAB)
  /-- LKROT_ROT (R396). -/
  | lkrotRot (x : ArgDA)
  /-- LKROT_ST (R396). -/
  | lkrotSt (x : ArgDA)
  /-- NGLOAD_LOAD (R65). -/
  | ngloadLoad (req : LoadReq)
  /-- TENANT_CREATE (R269). -/
  | tenantCreate (req : TenantReq)
  /-- PLACER_DECISION (R275). -/
  | placerDecision (die : Nat)
  /-- PLACER_AGING (R276). -/
  | placerAging (die : Nat)
  /-- PREEMPTION_REQUEST (R273). -/
  | preemptionRequest (req : PreemptReq)
  /-- ABANDONED_TILE (R163). -/
  | abandonedTile (cell : Nat) (pool : Nat) (tile : Nat)
  /-- STALL_WATCHDOG (R165). -/
  | stallWatchdog (region : Nat)
  /-- STAGE_GOVERNOR (R256). -/
  | stageGovernor (cell : Nat) (slot : Nat)
  /-- BARRIER_RELEASE (R342). -/
  | barrierRelease (inst : Nat)
  /-- REDUCTION_RESULT (R349). -/
  | reductionResult (red : Nat)
  /-- WALK_COMPLETE (R228). -/
  | walkComplete (die : Nat) (column : Nat) (walk : Nat)
  /-- KEY_SLOT_EMPTY (R233). -/
  | keySlotEmpty (slot : Nat)
  /-- THAW (R372). -/
  | thaw (region : Nat)
  /-- SCRUB (R372). -/
  | scrub (region : Nat)
  /-- COPY_TOKEN_REFILL (R277). -/
  | copyTokenRefill (region : Nat) (cell : Nat)
  /-- WALE_GROUP_RECEIVE (R385). -/
  | waleGroupReceive (grp : WaleGroup)
  /-- WALE_RESEND_TIMEOUT (R385). -/
  | waleResendTimeout (link : Nat)
  /-- WALE_RETRAIN_COMPLETE (R386). -/
  | waleRetrainComplete (link : Nat)
  /-- WALE_DOWN_TIMEOUT (R386). -/
  | waleDownTimeout (link : Nat)
  /-- ROTATION_KEY_INSTALL (R387). -/
  | rotationKeyInstall (link : Nat)
  /-- ROTATION_SWITCH (R387). -/
  | rotationSwitch (link : Nat)
  /-- ROTATION_RETIRE (R387). -/
  | rotationRetire (link : Nat)
  /-- NOTIFY_WRITE (R390). -/
  | notifyWrite (vf addr : Nat) (req : NotifyReq)
  /-- CHANNEL_UNMAP (R391). -/
  | channelUnmap (vf : Nat) (chan : Nat)
  /-- CHANNEL_MAP (R391). -/
  | channelMap (req : ChanReq)
  /-- HOST_REQUEST (R392). -/
  | hostRequest (req : HostReq)
  /-- SPDM_REQUEST (R393). -/
  | spdmRequest (req : SpdmReq)
  /-- MODULE_RESET (R398). -/
  | moduleReset (boot : BootInput)
  /-- IMAGE_COMMIT (R399). -/
  | imageCommit (req : CommitReq)
  /-- POWER_SAMPLE (R401). -/
  | powerSample (milliwatts : Nat) (milliamps : Nat)
  /-- ROUTER_POWER_GATE (R402). -/
  | routerPowerGate (die : Nat) (pos : Nat)
  /-- ROUTER_WAKE (R402). -/
  | routerWake (die : Nat) (pos : Nat)
  /-- VAULT_TEMPERATURE (R403). -/
  | vaultTemperature (vault : Nat) (celsius : Nat)
  /-- TENANT_TEARDOWN (R282). -/
  | tenantTeardown (region : Nat)
  /-- ISOLATION_PARTITION_CONFIGURE (R279). -/
  | isolationPartitionConfigure (req : PartReq)
  /-- FETCH_QUEUE_FILL (R29). -/
  | fetchQueueFill
  /-- DISPATCH (R247). -/
  | dispatch
  /-- READY_RECORD_ARRIVAL (R243). -/
  | readyRecordArrival
  /-- BUDGET (R272). -/
  | budget
  /-- BUDGET_HARD_LIMIT (R272). -/
  | budgetHardLimit
  /-- TRAP_ENTRY (R358). -/
  | trapEntry
  /-- ASYNCHRONOUS_TRAP (R361). -/
  | asynchronousTrap
  /-- SUPERVISOR_RUN_CAP (R357). -/
  | supervisorRunCap
  /-- HANDLER_RUN (R330). -/
  | handlerRun
  /-- HANDLER_CAP (R330). -/
  | handlerCap
  /-- TILE_OP_START (R133). -/
  | tileOpStart
  /-- TILE_OP_RETIRE (R133). -/
  | tileOpRetire
  /-- COPY_START (R184). -/
  | copyStart
  /-- COPY_CHUNK_ARRIVAL (R191). -/
  | copyChunkArrival
  /-- COPY_ACKNOWLEDGEMENT (R189). -/
  | copyAcknowledgement
  /-- COPY_RETIRE (R189). -/
  | copyRetire
  /-- TALLOC_REQUEST_ARRIVAL (R158). -/
  | tallocRequestArrival
  /-- TALLOC_CANCEL (R160). -/
  | tallocCancel
  /-- GRANT_REPLY_ARRIVAL (R160). -/
  | grantReplyArrival
  /-- HANDLE_OPERATION_ARRIVAL (R159). -/
  | handleOperationArrival
  /-- JDEC_ARRIVAL (R262). -/
  | jdecArrival
  /-- FRES_ARRIVAL (R264). -/
  | fresArrival
  /-- FREG_ARRIVAL (R265). -/
  | fregArrival
  /-- OWNER_REPLY_ARRIVAL (R253). -/
  | ownerReplyArrival
  /-- MESSAGE_ARRIVAL (R327). -/
  | messageArrival
  /-- RETURNED_MESSAGE_ARRIVAL (R327). -/
  | returnedMessageArrival
  /-- MESSAGE_INJECTION (R326). -/
  | messageInjection
  /-- ATOMIC_RESULT_ARRIVAL (R334). -/
  | atomicResultArrival
  /-- PEER_ACCESS_ARRIVAL (R345). -/
  | peerAccessArrival
  /-- PEER_ABSENT_RETURN (R345). -/
  | peerAbsentReturn
  /-- OFFER_ARRIVAL (R310). -/
  | offerArrival
  /-- DECIDE (R311). -/
  | decide
  /-- FIFO_ITEM_ARRIVAL (R297). -/
  | fifoItemArrival
  /-- HUB_CANCEL_ARRIVAL (R314). -/
  | hubCancelArrival
  /-- PORT_COMPLETION_ARRIVAL (R312). -/
  | portCompletionArrival
  /-- REDUCTION_COMBINE (R347). -/
  | reductionCombine
  /-- REDUCTION_PARTIAL_ARRIVAL (R348). -/
  | reductionPartialArrival
  /-- SC_ANNOUNCEMENT_ARRIVAL (R213). -/
  | scAnnouncementArrival
  /-- WINDOW_CLOSE (R213). -/
  | windowClose
  /-- STATION_REQUEST (R230). -/
  | stationRequest
  /-- RING_ENTRY_FREED (R363). -/
  | ringEntryFreed
  /-- WRITE_PERFORMED_AT_HOME (R205). -/
  | writePerformedAtHome
  /-- LOAD_VALUE_RETURNED (R201). -/
  | loadValueReturned
  /-- PBIND_REQUEST_ARRIVAL (R305). -/
  | pbindRequestArrival
  /-- EPMOV_TARGET_ARRIVAL (R337). -/
  | epmovTargetArrival
deriving DecidableEq, Repr

end Sys2Proof
end

