-- ==== Sys2Proof/WellFormed.lean ====
section
/-! DEFINITION. Well-formedness: the encoding checks that an instruction's own bits decide (R34) and that its operand
types do not already carry. The decoder refuses a word whose instruction fails one (R45, cause 2). -/
namespace Sys2Proof

/-- The integer types (R42, R96). -/
def Ty.isInt : Ty → Bool
  | .i64 | .i32 | .i16 | .i8 | .n64 | .n32 | .n16 | .n8 => true
  | _ => false
/-- The signed integer types (R81). -/
def Ty.isSignedInt : Ty → Bool
  | .i64 | .i32 | .i16 | .i8 => true
  | _ => false
/-- The unsigned integer types (R81). -/
def Ty.isUnsignedInt : Ty → Bool
  | .n64 | .n32 | .n16 | .n8 => true
  | _ => false
/-- The types of scalar loads and stores (R167). -/
def Ty.isMem (t : Ty) : Bool := t.isInt || t == .f32 || t == .bf16

/-- The length of `bext` and `bins`: 1..64 (R83). -/
def lenOk (n : BitVec 7) : Bool := 1 ≤ n.toNat && n.toNat ≤ 64
/-- The immediate of `li`: any for the integer types it takes, 32 bits for `.f32` (R85). -/
def liOk (t : Ty) (v : BitVec 62) : Bool := t == .i64 || t == .n64 || (t == .f32 && v.toNat < 2 ^ 32)
/-- The system registers `wrsr` may write: the rw and the sup ones (R74). -/
def SysReg.writable : SysReg → Bool
  | .xsl | .fcsr | .sptmpl | .xcause | .xepc | .xval | .xinfo => true
  | _ => false
/-- The sup registers (R74). -/
def SysReg.sup : SysReg → Bool
  | .xcause | .xepc | .xval | .xinfo => true
  | _ => false
/-- An instruction of another chapter than the register chapter names s2 as no destination (R76). -/
def notSp (d : SReg) : Bool := d.val != 2
/-- The types of `fcvt` (R115). -/
def cvtTy : Ty → Bool
  | .i64 | .i32 | .n64 | .n32 | .bf16 => true
  | _ => false
/-- The types of the element-wise family (R118). -/
def vLaneTy : Ty → Bool
  | .f32 | .i32 | .n32 => true
  | _ => false
/-- `vadd`, `vsub`, `vmul`: rounding with `.f32` only, saturation with the integer types only (R118). -/
def vArith (t : Ty) (r : Rnd) (sat : Bool) : Bool :=
  (t == .f32 && !sat) || ((t == .i32 || t == .n32) && r == .rne)
/-- The types and groups of `vexpand` and `vdqnt` (R121, R126). -/
def expandOk (t : Ty) (g : Fin 8) : Bool :=
  ((t == .i8 || t == .n8 || t == .ts8) && g.val < 4) || t == .nt4
/-- The types of a sum: a rounded float sum, or an integer sum that may saturate (R123, R124). -/
def sumOk (int t : Ty) (r : Rnd) (sat : Bool) : Bool :=
  ((t == .f32 || t == .bf16) && !sat) || (t == int && r == .rne)
/-- The types of `vsplat` (R125). -/
def splatTy : Ty → Bool
  | .n32 | .f32 | .n16 | .bf16 | .n8 => true
  | _ => false
/-- The scalar destination of `vmovs` (R76). -/
def VMov.ok : VMov → Bool
  | .toScalar d _ _ => notSp d
  | _ => true
/-- The integer pairs of `mma` (R135). -/
def Pair.isInteger : Pair → Bool
  | .i8 | .nt4x8 => true
  | _ => false
/-- Without an action the action's operand field is zero (R139, R141). -/
def Compl.ok (f : Compl) : Bool := f.act != .none || f.c.val == 0
/-- Whether `accst` of this view and type rounds (R145). -/
def accstRounds (i32 : Bool) (t : Ty) : Bool := (!i32 && t == .bf16) || (i32 && t == .f32)
/-- The views and types of `accst`; a rounding mode only where it rounds (R140, R145). -/
def accstTy (i32 : Bool) (t : Ty) (r : Rnd) : Bool :=
  (if i32 then t == .i32 || t == .i16 || t == .i8 || t == .f32 else t == .f32 || t == .bf16)
    && (accstRounds i32 t || r == .rne)
/-- Whether `accld` of this view and type rounds (R145). -/
def accldRounds (i32 : Bool) (t : Ty) : Bool := !i32 && t == .i32
/-- The views and types of `accld`; a rounding mode only where it rounds (R140, R145). -/
def accldTy (i32 : Bool) (t : Ty) (r : Rnd) : Bool :=
  (if i32 then t == .i32 || t == .i16 || t == .i8 else t == .f32 || t == .bf16 || t == .i32 || t == .i8)
    && (accldRounds i32 t || r == .rne)
/-- For `.peer` the scale is 0 (R166). -/
def MAddr.scaleOk (x : MAddr) : Bool := x.space != .peer || x.scale.val == 0
/-- In handle mode the space is 0 (R166). -/
def MAddr.ok (x : MAddr) : Bool := x.scaleOk && (!x.handle || x.space == .loc)
/-- The spaces of consuming loads: `.loc`, `.vlt` and handle mode (R167, R168). -/
def MAddr.consSpace (x : MAddr) : Bool := x.space == .loc || x.space == .vlt
/-- Loads accept plain and acquire (R166). -/
def loadOrd (o : MOrd) : Bool := o == .plain || o == .acq
/-- Stores accept plain and release (R166). -/
def storeOrd (o : MOrd) : Bool := o == .plain || o == .rel
/-- The spaces of gather, scatter, `ldsc` and `stsc` (R169, R218). -/
def gatherSpace : Space → Bool
  | .loc | .vlt | .glb => true
  | _ => false
/-- The spaces of `send` (R195). -/
def sendSpaces (src dst : Space) : Bool := (src == .loc || src == .vlt) && (dst == .loc || dst == .vlt || dst == .glb)
/-- The byte count of a contiguous copy: 1..2^24 (R195). -/
def countOk (n : BitVec 32) : Bool := 1 ≤ n.toNat && n.toNat ≤ 2 ^ 24
/-- An immediate below a bound. -/
def immBelow (b : SrcB) (n : Nat) : Bool :=
  match b with
  | .reg _ => true
  | .imm v => v.toNat < n
/-- Whether an operand b that is an immediate, sign-extended (R36), lies from lo on and below hi. -/
def immIn (b : SrcB) (lo hi : Nat) : Bool :=
  match b with
  | .reg _ => true
  | .imm v => lo ≤ v.toNat && v.toNat < hi
/-- The number of slots in the mask of `alt`. -/
def maskCount (m : BitVec 16) : Nat := ((List.range 16).filter fun i => bit m.toNat i).length
/-- The mask and register run of `alt`: 1..8 slots, the run inside s4..s63 (R304). -/
def altOk (m : BitVec 16) (a : SReg) : Bool :=
  1 ≤ maskCount m && maskCount m ≤ 8 && 4 ≤ a.val && a.val + maskCount m ≤ 64
/-- The class, count and register run of `amsg` (R335). -/
def amsgOk (cls : Fin 32) (b : SReg) (n : Fin 8) : Bool :=
  8 ≤ cls.val && n.val ≤ 4 && (if n.val = 0 then b.val == 0 else b.val + n.val ≤ 64)
/-- The fields of the atomics (R333). -/
def atomOk (x : ArgAtom) : Bool :=
  (x.ty == .i64 || x.ty == .i32 || x.ty == .n64 || x.ty == .n32) && x.space != .acc
    && (!x.acqrel || x.ord == .acq) && (x.ord != .sc || x.scope == .mod)

/-- Well-formedness of an instruction: the conditions that its own bits decide and that its operand types do not
already carry (R34). An event of another agent carries no word and has no such condition. -/
def Instr.wf : Instr → Bool
  | .add x => x.ty.isInt
  | .sub x => x.ty.isInt
  | .mul x => x.ty.isInt
  | .mulh x => x.ty.isSignedInt && !x.sat
  | .mulhu x => x.ty.isUnsignedInt && !x.sat
  | .div x => x.ty.isSignedInt && !x.sat
  | .divu x => x.ty.isUnsignedInt && !x.sat
  | .rem x => x.ty.isSignedInt && !x.sat
  | .remu x => x.ty.isUnsignedInt && !x.sat
  | .and x => x.ty.isInt && !x.sat
  | .or x => x.ty.isInt && !x.sat
  | .xor x => x.ty.isInt && !x.sat
  | .andn x => x.ty.isInt && !x.sat
  | .shl x => x.ty.isInt
  | .shr x => x.ty.isInt && !x.sat
  | .sar x => x.ty.isInt && !x.sat
  | .rol x => x.ty.isInt && !x.sat
  | .min x => x.ty.isSignedInt && !x.sat
  | .max x => x.ty.isSignedInt && !x.sat
  | .minu x => x.ty.isUnsignedInt && !x.sat
  | .maxu x => x.ty.isUnsignedInt && !x.sat
  | .clz x => x.ty.isInt
  | .ctz x => x.ty.isInt
  | .popc x => x.ty.isInt
  | .bext x => (x.ty == .n64 || x.ty == .i64) && lenOk x.len
  | .bins x => lenOk x.len
  | .lea x => !x.addr.handle
  | .li x => liOk x.ty x.imm
  | .mov _ => true
  | .sel _ => true
  | .cmp x => x.ty.isInt
  | .pand _ => true
  | .por _ => true
  | .pxor _ => true
  | .pnot _ => true
  | .ppack _ => true
  | .punpk _ => true
  | .br _ => true
  | .jmp _ => true
  | .call _ => true
  | .loop _ => true
  | .jr _ => true
  | .callr _ => true
  | .ret _ => true
  | .done _ => true
  | .rdsr _ => true
  | .wrsr x => x.n.writable
  | .fadd x => notSp x.d
  | .fsub x => notSp x.d
  | .fmul x => notSp x.d
  | .fdiv x => notSp x.d
  | .fmin x => notSp x.d && x.r == .rne
  | .fmax x => notSp x.d && x.r == .rne
  | .fma x => notSp x.d
  | .fsqrt x => notSp x.d
  | .fcmp _ => true
  | .fcvt x => notSp x.d && cvtTy x.ty
  | .fclass x => notSp x.d && (x.ty == .f32 || x.ty == .bf16)
  | .vadd x => vArith x.ty x.r x.sat
  | .vsub x => vArith x.ty x.r x.sat
  | .vmul x => vArith x.ty x.r x.sat
  | .vfma _ => true
  | .vmin x => vLaneTy x.ty && x.r == .rne && !x.sat
  | .vmax x => vLaneTy x.ty && x.r == .rne && !x.sat
  | .vabs x => (x.ty == .f32 && !x.sat) || x.ty == .i32
  | .vneg x => (x.ty == .f32 && !x.sat) || x.ty == .i32
  | .vand x => x.ty == .n32 && x.r == .rne && !x.sat
  | .vor x => x.ty == .n32 && x.r == .rne && !x.sat
  | .vxor x => x.ty == .n32 && x.r == .rne && !x.sat
  | .vshl x => (x.ty == .n32 || x.ty == .i32) && x.r == .rne
  | .vshr x => x.ty == .n32 && x.r == .rne && !x.sat
  | .vsra x => x.ty == .i32 && x.r == .rne && !x.sat
  | .vcmp x => notSp x.d
  | .vsel _ => true
  | .vcvt x => x.ty == .i32 || x.ty == .n32 || x.ty == .bf16
  | .vexpand x => expandOk x.ty x.grp
  | .vrcp _ => true
  | .vrsqrt _ => true
  | .vexp2 _ => true
  | .vlog2 _ => true
  | .vredsum x => notSp x.d && sumOk .i32 x.ty x.r x.sat && x.ty != .bf16
  | .vredmax x => notSp x.d && vLaneTy x.ty && x.r == .rne && !x.sat
  | .vdot x => notSp x.d && sumOk .i8 x.ty x.r x.sat
  | .vsplat x => splatTy x.ty
  | .vperm _ => true
  | .vidx _ => true
  | .vmovs x => x.mv.ok
  | .vqnt x => (x.ty == .i8 || x.ty == .n8) && x.grp.val < 4
  | .vdqnt x => expandOk x.ty x.grp
  | .vscacc x => x.ty == .i32 || x.ty == .f32
  | .ldtab x => !x.addr.handle && x.addr.space != .acc && x.addr.scaleOk && !(x.cons && x.addr.space == .glb)
  | .mma x => x.n6 != 0 && (!x.pair.isInteger || x.r == .rne) && x.fin.ok
  | .accz x => x.n6 != 0 && x.fin.ok
  | .accsc x => x.n6 != 0 && x.fin.ok
  | .accst x => x.n6 != 0 && x.fin.ok && accstTy x.i32 x.ty x.r
  | .accld x => x.n6 != 0 && x.fin.ok && accldTy x.i32 x.ty x.r
  | .accrd _ => true
  | .accwr _ => true
  | .ld x => notSp x.data && x.ty.isMem && x.addr.ok && loadOrd x.ord
  | .st x => x.ty.isMem && x.addr.ok && storeOrd x.ord
  | .ldc x => notSp x.data && x.ty.isMem && x.addr.ok && x.addr.consSpace && loadOrd x.ord
  | .vld x => x.addr.ok && loadOrd x.ord
  | .vst x => x.addr.ok && storeOrd x.ord
  | .vldc x => x.addr.ok && x.addr.consSpace && loadOrd x.ord
  | .vgat x => gatherSpace x.space && loadOrd x.ord
  | .vsca x => gatherSpace x.space && storeOrd x.ord
  | .talloc x => notSp x.d && immBelow x.b 256
  | .tallocTry x => notSp x.d && immBelow x.b 256
  | .tseal x => immIn x.b 1 256
  | .tdrop _ => true
  | .tcount x => notSp x.d
  | .poolcfg x => notSp x.d
  | .poolst x => notSp x.d
  | .send x => notSp x.d && x.fin.ok && sendSpaces x.sspace x.dspace && countOk x.n
  | .sendLay x => notSp x.d && x.fin.ok && sendSpaces x.sspace x.dspace
  | .sendt x => notSp x.d && x.fin.ok
  | .fill x => notSp x.d && x.fin.ok && countOk x.n
  | .fillLay x => notSp x.d && x.fin.ok
  | .wait _ => true
  | .sbstat x => notSp x.d
  | .fence _ => true
  | .ldsc x => notSp x.data && x.ty.isMem && !x.addr.handle && gatherSpace x.addr.space
  | .stsc x => x.ty.isMem && !x.addr.handle && gatherSpace x.addr.space
  | .xlatR x => notSp x.d
  | .xlatW x => notSp x.d
  | .xlatSet0 x => notSp x.d
  | .xlatSet1 x => notSp x.d
  | .tinvAll _ => true
  | .tinvAsid _ => true
  | .tinvPage _ => true
  | .keysetInst x => notSp x.d
  | .keysetRet x => notSp x.d
  | .keysetSt x => notSp x.d
  | .spawn x => (x.hReg || x.h.val == 0) && (x.rReg || x.r.val == 0)
  | .callat x => immBelow x.t 65536
  | .reply _ => true
  | .jnew x => notSp x.d && immIn x.b 1 (2 ^ 31)
  | .jdec x => immIn x.b 1 (2 ^ 31)
  | .fnew x => notSp x.d
  | .fres _ => true
  | .freg x => notSp x.d
  | .tid x => notSp x.d
  | .rgnactNew x => notSp x.d
  | .rgnactPark x => notSp x.d
  | .rgnactResume x => notSp x.d
  | .rgnactQuiet x => notSp x.d
  | .rgnkillKill x => notSp x.d
  | .rgnkillExit x => notSp x.d
  | .budgetRd x => notSp x.d
  | .budgetExt x => notSp x.d
  | .put x => notSp x.d
  | .get x => notSp x.d
  | .alt x => notSp x.d && altOk x.mask x.a
  | .pbind _ => true
  | .portst x => notSp x.d
  | .cload x => notSp x.d
  | .cdrop x => notSp x.d
  | .cstat x => notSp x.d
  | .amsg x => amsgOk x.cls x.b x.n
  | .htabSet x => notSp x.d
  | .htabClr x => notSp x.d && x.a.val == 0
  | .htabEpnew x => notSp x.d
  | .htabEpdel x => notSp x.d
  | .htabRd x => notSp x.d && x.a.val == 0
  | .aadd x => notSp x.data && atomOk x && !x.failAcq
  | .aand x => notSp x.data && atomOk x && !x.failAcq
  | .aor x => notSp x.data && atomOk x && !x.failAcq
  | .axor x => notSp x.data && atomOk x && !x.failAcq
  | .amax x => notSp x.data && atomOk x && !x.failAcq
  | .amin x => notSp x.data && atomOk x && !x.failAcq
  | .aswp x => notSp x.data && atomOk x && !x.failAcq
  | .acas x => notSp x.data && atomOk x && x.index.val ≤ 62
  | .epmov x => notSp x.d
  | .epparkPark x => notSp x.d
  | .epparkResume x => notSp x.d
  | .barv x => notSp x.d && (!x.clu || x.n.val == 0)
  | .barw x => notSp x.d
  | .redp x => notSp x.d
  | .redg x => notSp x.c
  | .bcfgSet x => notSp x.d && (32 ≤ x.n.val || x.die.val == 0)
  | .bcfgFree x => notSp x.d && x.a.val == 0 && (32 ≤ x.n.val || x.die.val == 0)
  | .bcfgBrk x => notSp x.d && x.a.val == 0 && (32 ≤ x.n.val || x.die.val == 0)
  | .bcfgRd x => notSp x.d && x.a.val == 0 && (32 ≤ x.n.val || x.die.val == 0)
  | .rcfgSet x => notSp x.d
  | .rcfgFree x => notSp x.d && x.a.val == 0
  | .rcfgBrk x => notSp x.d && x.a.val == 0
  | .rcfgRd x => notSp x.d && x.a.val == 0
  | .trapCall _ => true
  | .trapRing x => notSp x.d
  | .eret _ => true
  | .brk _ => true
  | .rfill x => notSp x.d
  | .rretry x => notSp x.d
  | .rretryCtx x => notSp x.d
  | .rskip x => notSp x.d
  | .rkillEnt x => notSp x.d
  | .rkillCtx x => notSp x.d
  | .frzRgn x => notSp x.d
  | .frzRd x => notSp x.d
  | .hpostHead x => notSp x.d
  | .hpostDone x => notSp x.d
  | .hpollTail x => notSp x.d
  | .hpollHead x => notSp x.d
  | .hpollDone x => notSp x.d
  | .hpollWait x => notSp x.d
  | .lkrotRot x => notSp x.d
  | .lkrotSt x => notSp x.d
  | .ngloadLoad _ => true
  | .tenantCreate _ => true
  | .placerDecision _ => true
  | .placerAging _ => true
  | .preemptionRequest _ => true
  | .abandonedTile _ _ _ => true
  | .stallWatchdog _ => true
  | .stageGovernor _ _ => true
  | .barrierRelease _ => true
  | .reductionResult _ => true
  | .walkComplete _ _ _ => true
  | .keySlotEmpty _ => true
  | .thaw _ => true
  | .scrub _ => true
  | .copyTokenRefill _ _ => true
  | .waleGroupReceive _ => true
  | .waleResendTimeout _ => true
  | .waleRetrainComplete _ => true
  | .waleDownTimeout _ => true
  | .rotationKeyInstall _ => true
  | .rotationSwitch _ => true
  | .rotationRetire _ => true
  | .notifyWrite _ _ _ => true
  | .channelUnmap _ _ => true
  | .channelMap _ => true
  | .hostRequest _ => true
  | .spdmRequest _ => true
  | .moduleReset _ => true
  | .imageCommit _ => true
  | .powerSample _ _ => true
  | .routerPowerGate _ _ => true
  | .routerWake _ _ => true
  | .vaultTemperature _ _ => true
  | .tenantTeardown _ => true
  | .isolationPartitionConfigure _ => true
  | .fetchQueueFill => true
  | .dispatch => true
  | .readyRecordArrival => true
  | .budget => true
  | .budgetHardLimit => true
  | .trapEntry => true
  | .asynchronousTrap => true
  | .supervisorRunCap => true
  | .handlerRun => true
  | .handlerCap => true
  | .tileOpStart => true
  | .tileOpRetire => true
  | .copyStart => true
  | .copyChunkArrival => true
  | .copyAcknowledgement => true
  | .copyRetire => true
  | .tallocRequestArrival => true
  | .tallocCancel => true
  | .grantReplyArrival => true
  | .handleOperationArrival => true
  | .jdecArrival => true
  | .fresArrival => true
  | .fregArrival => true
  | .ownerReplyArrival => true
  | .messageArrival => true
  | .returnedMessageArrival => true
  | .messageInjection => true
  | .atomicResultArrival => true
  | .peerAccessArrival => true
  | .peerAbsentReturn => true
  | .offerArrival => true
  | .decide => true
  | .fifoItemArrival => true
  | .hubCancelArrival => true
  | .portCompletionArrival => true
  | .reductionCombine => true
  | .reductionPartialArrival => true
  | .scAnnouncementArrival => true
  | .windowClose => true
  | .stationRequest => true
  | .ringEntryFreed => true
  | .writePerformedAtHome => true
  | .loadValueReturned => true
  | .pbindRequestArrival => true
  | .epmovTargetArrival => true

/-- Whether a row is an event of another agent (no instruction word names it). -/
def Instr.isEvent : Instr → Bool
  | .add _ => false
  | .sub _ => false
  | .mul _ => false
  | .mulh _ => false
  | .mulhu _ => false
  | .div _ => false
  | .divu _ => false
  | .rem _ => false
  | .remu _ => false
  | .and _ => false
  | .or _ => false
  | .xor _ => false
  | .andn _ => false
  | .shl _ => false
  | .shr _ => false
  | .sar _ => false
  | .rol _ => false
  | .min _ => false
  | .max _ => false
  | .minu _ => false
  | .maxu _ => false
  | .clz _ => false
  | .ctz _ => false
  | .popc _ => false
  | .bext _ => false
  | .bins _ => false
  | .lea _ => false
  | .li _ => false
  | .mov _ => false
  | .sel _ => false
  | .cmp _ => false
  | .pand _ => false
  | .por _ => false
  | .pxor _ => false
  | .pnot _ => false
  | .ppack _ => false
  | .punpk _ => false
  | .br _ => false
  | .jmp _ => false
  | .call _ => false
  | .loop _ => false
  | .jr _ => false
  | .callr _ => false
  | .ret _ => false
  | .done _ => false
  | .rdsr _ => false
  | .wrsr _ => false
  | .fadd _ => false
  | .fsub _ => false
  | .fmul _ => false
  | .fdiv _ => false
  | .fmin _ => false
  | .fmax _ => false
  | .fma _ => false
  | .fsqrt _ => false
  | .fcmp _ => false
  | .fcvt _ => false
  | .fclass _ => false
  | .vadd _ => false
  | .vsub _ => false
  | .vmul _ => false
  | .vfma _ => false
  | .vmin _ => false
  | .vmax _ => false
  | .vabs _ => false
  | .vneg _ => false
  | .vand _ => false
  | .vor _ => false
  | .vxor _ => false
  | .vshl _ => false
  | .vshr _ => false
  | .vsra _ => false
  | .vcmp _ => false
  | .vsel _ => false
  | .vcvt _ => false
  | .vexpand _ => false
  | .vrcp _ => false
  | .vrsqrt _ => false
  | .vexp2 _ => false
  | .vlog2 _ => false
  | .vredsum _ => false
  | .vredmax _ => false
  | .vdot _ => false
  | .vsplat _ => false
  | .vperm _ => false
  | .vidx _ => false
  | .vmovs _ => false
  | .vqnt _ => false
  | .vdqnt _ => false
  | .vscacc _ => false
  | .ldtab _ => false
  | .mma _ => false
  | .accz _ => false
  | .accsc _ => false
  | .accst _ => false
  | .accld _ => false
  | .accrd _ => false
  | .accwr _ => false
  | .ld _ => false
  | .st _ => false
  | .ldc _ => false
  | .vld _ => false
  | .vst _ => false
  | .vldc _ => false
  | .vgat _ => false
  | .vsca _ => false
  | .talloc _ => false
  | .tallocTry _ => false
  | .tseal _ => false
  | .tdrop _ => false
  | .tcount _ => false
  | .poolcfg _ => false
  | .poolst _ => false
  | .send _ => false
  | .sendLay _ => false
  | .sendt _ => false
  | .fill _ => false
  | .fillLay _ => false
  | .wait _ => false
  | .sbstat _ => false
  | .fence _ => false
  | .ldsc _ => false
  | .stsc _ => false
  | .xlatR _ => false
  | .xlatW _ => false
  | .xlatSet0 _ => false
  | .xlatSet1 _ => false
  | .tinvAll _ => false
  | .tinvAsid _ => false
  | .tinvPage _ => false
  | .keysetInst _ => false
  | .keysetRet _ => false
  | .keysetSt _ => false
  | .spawn _ => false
  | .callat _ => false
  | .reply _ => false
  | .jnew _ => false
  | .jdec _ => false
  | .fnew _ => false
  | .fres _ => false
  | .freg _ => false
  | .tid _ => false
  | .rgnactNew _ => false
  | .rgnactPark _ => false
  | .rgnactResume _ => false
  | .rgnactQuiet _ => false
  | .rgnkillKill _ => false
  | .rgnkillExit _ => false
  | .budgetRd _ => false
  | .budgetExt _ => false
  | .put _ => false
  | .get _ => false
  | .alt _ => false
  | .pbind _ => false
  | .portst _ => false
  | .cload _ => false
  | .cdrop _ => false
  | .cstat _ => false
  | .amsg _ => false
  | .htabSet _ => false
  | .htabClr _ => false
  | .htabEpnew _ => false
  | .htabEpdel _ => false
  | .htabRd _ => false
  | .aadd _ => false
  | .aand _ => false
  | .aor _ => false
  | .axor _ => false
  | .amax _ => false
  | .amin _ => false
  | .aswp _ => false
  | .acas _ => false
  | .epmov _ => false
  | .epparkPark _ => false
  | .epparkResume _ => false
  | .barv _ => false
  | .barw _ => false
  | .redp _ => false
  | .redg _ => false
  | .bcfgSet _ => false
  | .bcfgFree _ => false
  | .bcfgBrk _ => false
  | .bcfgRd _ => false
  | .rcfgSet _ => false
  | .rcfgFree _ => false
  | .rcfgBrk _ => false
  | .rcfgRd _ => false
  | .trapCall _ => false
  | .trapRing _ => false
  | .eret _ => false
  | .brk _ => false
  | .rfill _ => false
  | .rretry _ => false
  | .rretryCtx _ => false
  | .rskip _ => false
  | .rkillEnt _ => false
  | .rkillCtx _ => false
  | .frzRgn _ => false
  | .frzRd _ => false
  | .hpostHead _ => false
  | .hpostDone _ => false
  | .hpollTail _ => false
  | .hpollHead _ => false
  | .hpollDone _ => false
  | .hpollWait _ => false
  | .lkrotRot _ => false
  | .lkrotSt _ => false
  | .ngloadLoad _ => true
  | .tenantCreate _ => true
  | .placerDecision _ => true
  | .placerAging _ => true
  | .preemptionRequest _ => true
  | .abandonedTile _ _ _ => true
  | .stallWatchdog _ => true
  | .stageGovernor _ _ => true
  | .barrierRelease _ => true
  | .reductionResult _ => true
  | .walkComplete _ _ _ => true
  | .keySlotEmpty _ => true
  | .thaw _ => true
  | .scrub _ => true
  | .copyTokenRefill _ _ => true
  | .waleGroupReceive _ => true
  | .waleResendTimeout _ => true
  | .waleRetrainComplete _ => true
  | .waleDownTimeout _ => true
  | .rotationKeyInstall _ => true
  | .rotationSwitch _ => true
  | .rotationRetire _ => true
  | .notifyWrite _ _ _ => true
  | .channelUnmap _ _ => true
  | .channelMap _ => true
  | .hostRequest _ => true
  | .spdmRequest _ => true
  | .moduleReset _ => true
  | .imageCommit _ => true
  | .powerSample _ _ => true
  | .routerPowerGate _ _ => true
  | .routerWake _ _ => true
  | .vaultTemperature _ _ => true
  | .tenantTeardown _ => true
  | .isolationPartitionConfigure _ => true
  | .fetchQueueFill => true
  | .dispatch => true
  | .readyRecordArrival => true
  | .budget => true
  | .budgetHardLimit => true
  | .trapEntry => true
  | .asynchronousTrap => true
  | .supervisorRunCap => true
  | .handlerRun => true
  | .handlerCap => true
  | .tileOpStart => true
  | .tileOpRetire => true
  | .copyStart => true
  | .copyChunkArrival => true
  | .copyAcknowledgement => true
  | .copyRetire => true
  | .tallocRequestArrival => true
  | .tallocCancel => true
  | .grantReplyArrival => true
  | .handleOperationArrival => true
  | .jdecArrival => true
  | .fresArrival => true
  | .fregArrival => true
  | .ownerReplyArrival => true
  | .messageArrival => true
  | .returnedMessageArrival => true
  | .messageInjection => true
  | .atomicResultArrival => true
  | .peerAccessArrival => true
  | .peerAbsentReturn => true
  | .offerArrival => true
  | .decide => true
  | .fifoItemArrival => true
  | .hubCancelArrival => true
  | .portCompletionArrival => true
  | .reductionCombine => true
  | .reductionPartialArrival => true
  | .scAnnouncementArrival => true
  | .windowClose => true
  | .stationRequest => true
  | .ringEntryFreed => true
  | .writePerformedAtHome => true
  | .loadValueReturned => true
  | .pbindRequestArrival => true
  | .epmovTargetArrival => true

end Sys2Proof
end

