-- ==== Sys2Proof/Config.lean ====
section
/-! DEFINITION. What an implementation fixes and what the spec leaves open: constants of the manual and free values,
which are opaque, so that no proof can see what they are. -/
namespace Sys2Proof.Config

/-- How much time passes with a step beyond its one cycle (R48): a free value (log entry 8). -/
opaque delay : Nat → Nat

/-- Which of n enabled turns comes next when the agenda names none (R48): a free value (log entry 1). -/
opaque choose : Nat → Nat

/-- A byte of a 64-byte vault unit read under another key than the one the unit was written under (R232): a free value, the
same whenever the same unit with the same contents is read under the same two keys, since AES-256-XTS fixes it (log
entry 9). Its arguments are the key tag of the unit, that of the reader, the unit's contents and the byte's address. -/
opaque foreignByte : Nat × Nat → Nat × Nat → Nat → Nat → BitVec 8

/-- A byte of host memory as the host holds it when the device reads it (R224): a free value (log entry 10). -/
opaque hostByte : Nat → Nat → BitVec 8

/-- The SHA-512 digest of a byte string (R393, R398), an uninterpreted function (log entry 11). -/
opaque sha512 : List (BitVec 8) → BitVec 512

/-- Whether an Ed25519 signature over a digest verifies under the vendor key (R398), an uninterpreted function
(log entry 11). -/
opaque verifies : List (BitVec 8) → BitVec 512 → Bool

/-- The Ed25519 public key of a 256-bit seed (R400), an uninterpreted function (log entry 11). -/
opaque publicKey : BitVec 256 → BitVec 256

/-- Whether the helper data in flash correct the power-up values that a reset finds (R400), an uninterpreted function (log entry 62). -/
opaque corrects : List (BitVec 8) → List (BitVec 8) → Bool

/-- The 256-bit seed that a correction with some helper data gives, the same at each reset (R400), an uninterpreted function (log entry
62). -/
opaque seedOf : List (BitVec 8) → BitVec 256

/-- The certificates of SPDM slot 0 before the device's own key (R393, R400): a free value (log entry 62). -/
opaque certificates : List (BitVec 8)

/-- The version that a flash image's header gives (R398, R399), whose place the spec does not state: an uninterpreted function
(log entry 11). -/
opaque imageVersion : List (BitVec 8) → Nat

/-- Whether a sealed key blob's tag verifies under its session, and whether its two XTS keys are equal (R238), an
uninterpreted function (log entry 11). -/
opaque openBlob : List (BitVec 8) → Option Bool

/-- The keys of a Wale link, by the session of the two Slath processors that derive them and their number in it (R384, R387), an
uninterpreted function (log entry 11). -/
opaque linkKey : Nat → Nat → Machine.LinkKey

/-- A correctly rounded result that the model's bounded evaluation of 2^x or log2 x does not settle (R106): a free
value of the operand (log entry 12). -/
opaque transcendental : Nat → BitVec 32 → BitVec 32

/-- A result that the spec does not state for some operands, by the number of the case and the operand: a free value
(log entry 14). -/
opaque unstated : Nat → BitVec 64 → BitVec 64

/-- The number of the free numbers of a kind that ngload or the Slath processor picks from several allowed ones (log entry 15). -/
opaque pick : Nat → Nat → Nat

/-- What a module reset after a thermal trip finds (R398, R403): a free value (log entry 41). -/
opaque found : Nat → Sys2Proof.BootInput

/-- The issue (0) or result (1) figure of a major opcode in the latency table (R49) where the opcode's entry states no figure or
several: a free value (log entry 48). -/
opaque latency : Nat → Nat → Nat

end Sys2Proof.Config
end

