-- ==== Sys2Proof/Decode.lean ====
section
/-! DEFINITION. Decoding and encoding of the 96-bit instruction word: the six formats (R33 to R41), the coded
fields (R35, R38, R41, R42), the operand shapes of the entries, the opcode map (R43), the total decoder that
refuses by name (R45), and the encoder written from the same tables. A fetch line is five words and a line word
(R25, R26). -/
namespace Sys2Proof

/-! ### The formats -/

/-- The register format (R36). -/
structure RegF where
  major : Nat := 0
  fn : Nat := 0
  gn : Nat := 0
  gp : Nat := 0
  d : Nat := 0
  a : Nat := 0
  b : Nat := 0
  c : Nat := 0
  ty : Nat := 0
  rnd : Nat := 0
  sat : Nat := 0
  isel : Nat := 0
  aux : Nat := 0
  imm : Nat := 0
deriving DecidableEq, Repr

/-- The immediate format (R37); `res` is bits [64:62]. -/
structure ImmF where
  major : Nat := 0
  fn : Nat := 0
  gn : Nat := 0
  gp : Nat := 0
  d : Nat := 0
  ty : Nat := 0
  res : Nat := 0
  imm : Nat := 0
deriving DecidableEq, Repr

/-- The memory format (R38). -/
structure MemF where
  major : Nat := 0
  fn : Nat := 0
  gn : Nat := 0
  gp : Nat := 0
  data : Nat := 0
  base : Nat := 0
  index : Nat := 0
  space : Nat := 0
  size : Nat := 0
  ord : Nat := 0
  scope : Nat := 0
  cons : Nat := 0
  scale : Nat := 0
  aux : Nat := 0
  disp : Nat := 0
deriving DecidableEq, Repr

/-- The branch format (R39). -/
structure BrF where
  major : Nat := 0
  fn : Nat := 0
  gn : Nat := 0
  gp : Nat := 0
  a : Nat := 0
  b : Nat := 0
  res : Nat := 0
  loff : Nat := 0
  slot : Nat := 0
deriving DecidableEq, Repr

/-- The matrix format (R40). -/
structure MatF where
  major : Nat := 0
  fn : Nat := 0
  gn : Nat := 0
  gp : Nat := 0
  d : Nat := 0
  a : Nat := 0
  b : Nat := 0
  c : Nat := 0
  pairc : Nat := 0
  mcode : Nat := 0
  n6 : Nat := 0
  ca : Nat := 0
  cb : Nat := 0
  cact : Nat := 0
  acq : Nat := 0
  rel : Nat := 0
  scope : Nat := 0
  maux : Nat := 0
deriving DecidableEq, Repr

/-- The asynchronous format (R41). -/
structure AsyF where
  major : Nat := 0
  fn : Nat := 0
  gn : Nat := 0
  gp : Nat := 0
  d : Nat := 0
  a : Nat := 0
  b : Nat := 0
  c : Nat := 0
  dsp : Nat := 0
  ssp : Nat := 0
  cact : Nat := 0
  acq : Nat := 0
  rel : Nat := 0
  scope : Nat := 0
  cons : Nat := 0
  res : Nat := 0
  imm : Nat := 0
deriving DecidableEq, Repr

/-- An instruction word cut into the fields of its format. -/
inductive Raw where
  | reg (f : RegF)
  | imm (f : ImmF)
  | mem (f : MemF)
  | br (f : BrF)
  | mat (f : MatF)
  | asy (f : AsyF)
deriving DecidableEq, Repr

/-- The six formats by name. -/
inductive Fmt where
  | reg | imm | mem | br | mat | asy
deriving DecidableEq, Repr

/-- The word of the head fields common to all formats (R33). -/
def packHead (major fn gn gp : Nat) : Nat := major * 2 ^ 88 + fn * 2 ^ 80 + gn * 2 ^ 79 + gp * 2 ^ 76

/-- The register format as a word (R36). -/
def RegF.pack (f : RegF) : Nat :=
  packHead f.major f.fn f.gn f.gp + f.d * 2 ^ 69 + f.a * 2 ^ 62 + f.b * 2 ^ 55 + f.c * 2 ^ 48 + f.ty * 2 ^ 44
    + f.rnd * 2 ^ 42 + f.sat * 2 ^ 41 + f.isel * 2 ^ 40 + f.aux * 2 ^ 32 + f.imm

/-- The register format from a word (R36). -/
def RegF.unpack (w : Nat) : RegF :=
  { major := slice w 88 8, fn := slice w 80 8, gn := slice w 79 1, gp := slice w 76 3, d := slice w 69 7,
    a := slice w 62 7, b := slice w 55 7, c := slice w 48 7, ty := slice w 44 4, rnd := slice w 42 2,
    sat := slice w 41 1, isel := slice w 40 1, aux := slice w 32 8, imm := slice w 0 32 }

/-- The immediate format as a word (R37). -/
def ImmF.pack (f : ImmF) : Nat :=
  packHead f.major f.fn f.gn f.gp + f.d * 2 ^ 69 + f.ty * 2 ^ 65 + f.res * 2 ^ 62 + f.imm

/-- The immediate format from a word (R37). -/
def ImmF.unpack (w : Nat) : ImmF :=
  { major := slice w 88 8, fn := slice w 80 8, gn := slice w 79 1, gp := slice w 76 3, d := slice w 69 7,
    ty := slice w 65 4, res := slice w 62 3, imm := slice w 0 62 }

/-- The memory format as a word (R38). -/
def MemF.pack (f : MemF) : Nat :=
  packHead f.major f.fn f.gn f.gp + f.data * 2 ^ 69 + f.base * 2 ^ 62 + f.index * 2 ^ 55 + f.space * 2 ^ 52
    + f.size * 2 ^ 49 + f.ord * 2 ^ 47 + f.scope * 2 ^ 44 + f.cons * 2 ^ 43 + f.scale * 2 ^ 40 + f.aux * 2 ^ 37
    + f.disp

/-- The memory format from a word (R38). -/
def MemF.unpack (w : Nat) : MemF :=
  { major := slice w 88 8, fn := slice w 80 8, gn := slice w 79 1, gp := slice w 76 3, data := slice w 69 7,
    base := slice w 62 7, index := slice w 55 7, space := slice w 52 3, size := slice w 49 3, ord := slice w 47 2,
    scope := slice w 44 3, cons := slice w 43 1, scale := slice w 40 3, aux := slice w 37 3, disp := slice w 0 37 }

/-- The branch format as a word (R39). -/
def BrF.pack (f : BrF) : Nat :=
  packHead f.major f.fn f.gn f.gp + f.a * 2 ^ 69 + f.b * 2 ^ 62 + f.res * 2 ^ 36 + f.loff * 2 ^ 3 + f.slot

/-- The branch format from a word (R39). -/
def BrF.unpack (w : Nat) : BrF :=
  { major := slice w 88 8, fn := slice w 80 8, gn := slice w 79 1, gp := slice w 76 3, a := slice w 69 7,
    b := slice w 62 7, res := slice w 36 26, loff := slice w 3 33, slot := slice w 0 3 }

/-- The matrix format as a word (R40). -/
def MatF.pack (f : MatF) : Nat :=
  packHead f.major f.fn f.gn f.gp + f.d * 2 ^ 69 + f.a * 2 ^ 62 + f.b * 2 ^ 55 + f.c * 2 ^ 48 + f.pairc * 2 ^ 44
    + f.mcode * 2 ^ 42 + f.n6 * 2 ^ 36 + f.ca * 2 ^ 35 + f.cb * 2 ^ 34 + f.cact * 2 ^ 31 + f.acq * 2 ^ 30
    + f.rel * 2 ^ 29 + f.scope * 2 ^ 26 + f.maux

/-- The matrix format from a word (R40). -/
def MatF.unpack (w : Nat) : MatF :=
  { major := slice w 88 8, fn := slice w 80 8, gn := slice w 79 1, gp := slice w 76 3, d := slice w 69 7,
    a := slice w 62 7, b := slice w 55 7, c := slice w 48 7, pairc := slice w 44 4, mcode := slice w 42 2,
    n6 := slice w 36 6, ca := slice w 35 1, cb := slice w 34 1, cact := slice w 31 3, acq := slice w 30 1,
    rel := slice w 29 1, scope := slice w 26 3, maux := slice w 0 26 }

/-- The asynchronous format as a word (R41). -/
def AsyF.pack (f : AsyF) : Nat :=
  packHead f.major f.fn f.gn f.gp + f.d * 2 ^ 69 + f.a * 2 ^ 62 + f.b * 2 ^ 55 + f.c * 2 ^ 48 + f.dsp * 2 ^ 45
    + f.ssp * 2 ^ 42 + f.cact * 2 ^ 39 + f.acq * 2 ^ 38 + f.rel * 2 ^ 37 + f.scope * 2 ^ 34 + f.cons * 2 ^ 33
    + f.res * 2 ^ 32 + f.imm

/-- The asynchronous format from a word (R41). -/
def AsyF.unpack (w : Nat) : AsyF :=
  { major := slice w 88 8, fn := slice w 80 8, gn := slice w 79 1, gp := slice w 76 3, d := slice w 69 7,
    a := slice w 62 7, b := slice w 55 7, c := slice w 48 7, dsp := slice w 45 3, ssp := slice w 42 3,
    cact := slice w 39 3, acq := slice w 38 1, rel := slice w 37 1, scope := slice w 34 3, cons := slice w 33 1,
    res := slice w 32 1, imm := slice w 0 32 }

/-- The format of each assigned major opcode, none where the map shows none (R43, R44). -/
def fmtOf (m : Nat) : Option Fmt :=
  if m = 0x1b || m = 0x5e || (0x70 ≤ m && m ≤ 0x77) || m = 0x86 || m = 0x87 || (0xb2 ≤ m && m ≤ 0xb9) then some .mem
  else if m = 0x1c then some .imm
  else if m = 0x28 || m = 0x29 || m = 0x2b || m = 0x2e then some .br
  else if 0x68 ≤ m && m ≤ 0x6e then some .mat
  else if 0x80 ≤ m && m ≤ 0x82 then some .asy
  else if (0x01 ≤ m && m ≤ 0x25) || (0x2a ≤ m && m ≤ 0x31) || (0x35 ≤ m && m ≤ 0x60) || (0x78 ≤ m && m ≤ 0x7d)
      || (0x83 ≤ m && m ≤ 0x8a) || (0x90 ≤ m && m ≤ 0x9b) || (0xa0 ≤ m && m ≤ 0xa7) || m = 0xb0 || m = 0xb1
      || m = 0xba || m = 0xbb || (0xc0 ≤ m && m ≤ 0xc5) || (0xc8 ≤ m && m ≤ 0xd2) then some .reg
  else none

/-- An instruction word cut into the fields of its format; none for an unassigned major opcode. -/
def unpack (w : Nat) : Option Raw :=
  (fmtOf (slice w 88 8)).map fun
    | .reg => .reg (RegF.unpack w)
    | .imm => .imm (ImmF.unpack w)
    | .mem => .mem (MemF.unpack w)
    | .br => .br (BrF.unpack w)
    | .mat => .mat (MatF.unpack w)
    | .asy => .asy (AsyF.unpack w)

/-- The word of the cut fields. -/
def Raw.pack : Raw → Nat
  | .reg f => f.pack
  | .imm f => f.pack
  | .mem f => f.pack
  | .br f => f.pack
  | .mat f => f.pack
  | .asy f => f.pack

/-! ### Coded fields -/

/-- A number below n, or nothing. -/
def fin? (n k : Nat) : Option (Fin n) := if h : k < n then some ⟨k, h⟩ else none

/-- A scalar operand field (R35). -/
def sreg? (k : Nat) : Option SReg := fin? 64 k
/-- A vector operand field (R35). -/
def vreg? (k : Nat) : Option VReg := if 64 ≤ k then fin? 32 (k - 64) else none
/-- A predicate operand field (R35). -/
def preg? (k : Nat) : Option PReg := if 96 ≤ k then fin? 8 (k - 96) else none

/-- The operand field that names a vector (R35). -/
def vcode (r : VReg) : Nat := 64 + r.val
/-- The operand field that names a predicate (R35). -/
def pcode (r : PReg) : Nat := 96 + r.val

/-- The guard fields (R33). -/
def guardOf (gn gp : Nat) : Guard := { neg := gn == 1, p := Fin.ofNat 8 gp }

/-- The type codes (R42). -/
def Ty.code : Ty → Nat
  | .i64 => 0 | .i32 => 1 | .i16 => 2 | .i8 => 3 | .n64 => 4 | .n32 => 5 | .n16 => 6 | .n8 => 7
  | .f32 => 8 | .bf16 => 9 | .ts8 => 10 | .nt4 => 11

/-- The type of a code; 0xc..0xf are reserved (R42). -/
def Ty.ofCode : Nat → Option Ty
  | 0 => some .i64 | 1 => some .i32 | 2 => some .i16 | 3 => some .i8
  | 4 => some .n64 | 5 => some .n32 | 6 => some .n16 | 7 => some .n8
  | 8 => some .f32 | 9 => some .bf16 | 10 => some .ts8 | 11 => some .nt4
  | _ => none

/-- The rounding codes (R42). -/
def Rnd.code : Rnd → Nat
  | .rne => 0 | .rtz => 1 | .rdn => 2 | .rup => 3

/-- The rounding mode of a two-bit code (R42). -/
def Rnd.ofCode (k : Nat) : Rnd :=
  match k % 4 with
  | 0 => .rne | 1 => .rtz | 2 => .rdn | _ => .rup

/-- The space codes (R38). -/
def Space.code : Space → Nat
  | .loc => 0 | .acc => 1 | .vlt => 2 | .peer => 3 | .glb => 4

/-- The space of a code; 5..7 are reserved (R38). -/
def Space.ofCode : Nat → Option Space
  | 0 => some .loc | 1 => some .acc | 2 => some .vlt | 3 => some .peer | 4 => some .glb
  | _ => none

/-- The order codes (R38). -/
def MOrd.code : MOrd → Nat
  | .plain => 0 | .acq => 1 | .rel => 2 | .sc => 3

/-- The order of a two-bit code (R38). -/
def MOrd.ofCode (k : Nat) : MOrd :=
  match k % 4 with
  | 0 => .plain | 1 => .acq | 2 => .rel | _ => .sc

/-- The scope codes (R38). -/
def Scope.code : Scope → Nat
  | .ctx => 0 | .cell => 1 | .clu => 2 | .die => 3 | .mod => 4 | .sys => 5

/-- The scope of a code; 6 and 7 are reserved (R38). -/
def Scope.ofCode : Nat → Option Scope
  | 0 => some .ctx | 1 => some .cell | 2 => some .clu | 3 => some .die | 4 => some .mod | 5 => some .sys
  | _ => none

/-- The condition functions of R87. -/
def Cond.code : Cond → Nat
  | .eq => 0 | .ne => 1 | .lt => 2 | .le => 3 | .gt => 4 | .ge => 5 | .tst => 6 | .tstn => 7

/-- The condition of a function code; 0x08..0xff are illegal (R87). -/
def Cond.ofCode : Nat → Option Cond
  | 0 => some .eq | 1 => some .ne | 2 => some .lt | 3 => some .le | 4 => some .gt | 5 => some .ge
  | 6 => some .tst | 7 => some .tstn
  | _ => none

/-- The condition functions of R114. -/
def FCond.code : FCond → Nat
  | .eq => 0 | .ne => 1 | .lt => 2 | .le => 3 | .gt => 4 | .ge => 5 | .un => 8

/-- The condition of a function code (R114). -/
def FCond.ofCode : Nat → Option FCond
  | 0 => some .eq | 1 => some .ne | 2 => some .lt | 3 => some .le | 4 => some .gt | 5 => some .ge | 8 => some .un
  | _ => none

/-- The completion action codes (R41). -/
def CAct.code : CAct → Nat
  | .none => 0 | .join => 1 | .future => 2 | .handler => 3 | .port => 4

/-- The completion action of a code; 5..7 are reserved (R41). -/
def CAct.ofCode : Nat → Option CAct
  | 0 => some .none | 1 => some .join | 2 => some .future | 3 => some .handler | 4 => some .port
  | _ => none

/-- The pairc codes (R40). -/
def Pair.code : Pair → Nat
  | .bf16 => 0 | .i8 => 1 | .ts8 => 2 | .nt4 => 3 | .nt4x8 => 4

/-- The pair of a code; 5..15 are reserved (R40). -/
def Pair.ofCode : Nat → Option Pair
  | 0 => some .bf16 | 1 => some .i8 | 2 => some .ts8 | 3 => some .nt4 | 4 => some .nt4x8
  | _ => none

/-- The mcode codes (R40). -/
def MCode.code : MCode → Nat
  | .m16 => 0 | .m32 => 1 | .m64 => 2

/-- The height of a code; 3 is reserved (R40). -/
def MCode.ofCode : Nat → Option MCode
  | 0 => some .m16 | 1 => some .m32 | 2 => some .m64
  | _ => none

/-- The system register numbers (R74). -/
def SysReg.code : SysReg → Nat
  | .cellid => 0 | .ncells => 1 | .rank => 2 | .ctxno => 3 | .cycles => 4 | .tcycles => 5 | .iret => 6
  | .stepping => 7 | .xsl => 8 | .fcsr => 9 | .ralloc => 10 | .rfree => 11 | .sptmpl => 12 | .asid => 13
  | .xcause => 0x100 | .xepc => 0x101 | .xval => 0x102 | .xinfo => 0x103

/-- The system register of a number; every other number is reserved (R74). -/
def SysReg.ofCode (k : Nat) : Option SysReg :=
  if k = 0x100 then some .xcause else if k = 0x101 then some .xepc else if k = 0x102 then some .xval
  else if k = 0x103 then some .xinfo
  else match k with
    | 0 => some .cellid | 1 => some .ncells | 2 => some .rank | 3 => some .ctxno | 4 => some .cycles
    | 5 => some .tcycles | 6 => some .iret | 7 => some .stepping | 8 => some .xsl | 9 => some .fcsr
    | 10 => some .ralloc | 11 => some .rfree | 12 => some .sptmpl | 13 => some .asid
    | _ => none

/-- The special operands that `mov` reads (R35). -/
def Special.code : Special → Nat
  | .pc => 104 | .cellid => 105 | .ncells => 106 | .rank => 107 | .ctxno => 108 | .fcsr => 109

/-- The special operand of a field (R35). -/
def Special.ofCode (k : Nat) : Option Special :=
  if k = 104 then some .pc else if k = 105 then some .cellid else if k = 106 then some .ncells
  else if k = 107 then some .rank else if k = 108 then some .ctxno else if k = 109 then some .fcsr else none

/-- The functions of `fence` (R217). -/
def FenceKind.code : FenceKind → Nat
  | .acq => 0 | .rel => 1 | .acqrel => 2 | .full => 3

/-- The fence kind of a function; 0x04..0xff are illegal (R217). -/
def FenceKind.ofCode : Nat → Option FenceKind
  | 0 => some .acq | 1 => some .rel | 2 => some .acqrel | 3 => some .full
  | _ => none

/-- The width in bits of an element of a type (R42). -/
def Ty.width : Ty → Nat
  | .i64 | .n64 => 64
  | .i32 | .n32 | .f32 => 32
  | .i16 | .n16 | .bf16 => 16
  | .i8 | .n8 | .ts8 => 8
  | .nt4 => 4

/-- The size code of a type's width (R38, R167). -/
def Ty.sizeCode : Ty → Nat
  | .i64 | .n64 => 3
  | .i32 | .n32 | .f32 => 2
  | .i16 | .n16 | .bf16 => 1
  | .i8 | .n8 | .ts8 | .nt4 => 0

/-- The opb field of operand b (R36). -/
def SrcB.field : SrcB → Nat
  | .reg r => r.val
  | .imm _ => 0
/-- isel of operand b (R36). -/
def SrcB.isel : SrcB → Nat
  | .reg _ => 0
  | .imm _ => 1
/-- imm32 of operand b (R36). -/
def SrcB.immF : SrcB → Nat
  | .reg _ => 0
  | .imm v => v.toNat

/-- The opb field of a vector operand b (R117). -/
def VSrcB.field : VSrcB → Nat
  | .vec r => vcode r
  | .sca r => r.val
  | .imm _ => 0
/-- isel of a vector operand b (R117). -/
def VSrcB.isel : VSrcB → Nat
  | .imm _ => 1
  | _ => 0
/-- imm32 of a vector operand b (R117). -/
def VSrcB.immF : VSrcB → Nat
  | .imm v => v.toNat
  | _ => 0

/-- The operand field of a scalar or vector source. -/
def AnyReg.field : AnyReg → Nat
  | .sca r => r.val
  | .vec r => vcode r

/-- A scalar or vector operand field (R35). -/
def anyReg? (k : Nat) : Option AnyReg := ((sreg? k).map .sca).or ((vreg? k).map .vec)

/-- Operand b of the register format (R36). -/
def RegF.srcB (f : RegF) : Option SrcB :=
  if f.isel = 1 then some (.imm (BitVec.ofNat 32 f.imm)) else (sreg? f.b).map .reg

/-- Operand b of a vector instruction (R117). -/
def RegF.vsrcB (f : RegF) : Option VSrcB :=
  if f.isel = 1 then some (.imm (BitVec.ofNat 32 f.imm))
  else ((sreg? f.b).map .sca).or ((vreg? f.b).map .vec)

/-- The guard of the register format. -/
def RegF.g (f : RegF) : Guard := guardOf f.gn f.gp
/-- The guard of the memory format. -/
def MemF.g (f : MemF) : Guard := guardOf f.gn f.gp
/-- The guard of the branch format. -/
def BrF.g (f : BrF) : Guard := guardOf f.gn f.gp
/-- The guard of the matrix format. -/
def MatF.g (f : MatF) : Guard := guardOf f.gn f.gp
/-- The guard of the asynchronous format. -/
def AsyF.g (f : AsyF) : Guard := guardOf f.gn f.gp

/-- The address fields of the memory format (R38, R166). -/
def MemF.addr (f : MemF) : Option MAddr := do
  let space ← Space.ofCode f.space
  let base ← sreg? f.base
  let index ← sreg? f.index
  return { handle := f.aux == 1, space, base, index, scale := Fin.ofNat 8 f.scale, disp := BitVec.ofNat 37 f.disp }

/-- The branch target fields (R39). -/
def BrF.target (f : BrF) : Option Target := do
  let slot ← fin? 5 f.slot
  return { loff := BitVec.ofNat 33 f.loff, slot }

/-- The completion fields of the matrix format (R40). -/
def MatF.fin (f : MatF) : Option Compl := do
  let act ← CAct.ofCode f.cact
  let c ← sreg? f.c
  let scope ← Scope.ofCode f.scope
  return { act, c, acq := f.acq == 1, rel := f.rel == 1, scope }

/-- The completion fields of the asynchronous format (R41). -/
def AsyF.fin (f : AsyF) : Option Compl := do
  let act ← CAct.ofCode f.cact
  let c ← sreg? f.c
  let scope ← Scope.ofCode f.scope
  return { act, c, acq := f.acq == 1, rel := f.rel == 1, scope }

/-- A register-format word with its head set. -/
def regH (m f : Nat) (g : Guard) : RegF := { major := m, fn := f, gn := b2n g.neg, gp := g.p.val }
/-- A memory-format word with its head set. -/
def memH (m f : Nat) (g : Guard) : MemF := { major := m, fn := f, gn := b2n g.neg, gp := g.p.val }
/-- A memory-format word with its head and address set. -/
def memA (m f : Nat) (g : Guard) (x : MAddr) : MemF :=
  { memH m f g with base := x.base.val, index := x.index.val, space := x.space.code, scale := x.scale.val,
                    aux := b2n x.handle, disp := x.disp.toNat }
/-- A branch-format word with its head and target set. -/
def brH (m f : Nat) (g : Guard) (t : Target) : BrF :=
  { major := m, fn := f, gn := b2n g.neg, gp := g.p.val, loff := t.loff.toNat, slot := t.slot.val }
/-- A matrix-format word with its head and shape set. -/
def matH (m f : Nat) (g : Guard) (mc : MCode) (n6 : BitVec 6) (x : Compl) : MatF :=
  { major := m, fn := f, gn := b2n g.neg, gp := g.p.val, mcode := mc.code, n6 := n6.toNat, c := x.c.val,
    cact := x.act.code, acq := b2n x.acq, rel := b2n x.rel, scope := x.scope.code }
/-- An asynchronous-format word with its head and completion set. -/
def asyH (m f : Nat) (g : Guard) (x : Compl) : AsyF :=
  { major := m, fn := f, gn := b2n g.neg, gp := g.p.val, c := x.c.val, cact := x.act.code, acq := b2n x.acq,
    rel := b2n x.rel, scope := x.scope.code }

/-! ### The operand shapes: fields from arguments (`enc`) and arguments from fields (`dec`) -/

/-- `ArgG` as register-format fields. -/
def ArgG.enc (m f : Nat) (x : ArgG) : Raw :=
  .reg (regH m f x.g)
/-- `ArgG` from register-format fields. -/
def ArgG.dec (r : RegF) : Option ArgG :=
  some { g := r.g }

/-- `ArgA` as register-format fields. -/
def ArgA.enc (m f : Nat) (x : ArgA) : Raw :=
  .reg { regH m f x.g with a := x.a.val }
/-- `ArgA` from register-format fields. -/
def ArgA.dec (r : RegF) : Option ArgA := do
  let a ← sreg? r.a
  return { g := r.g, a }

/-- `ArgD` as register-format fields. -/
def ArgD.enc (m f : Nat) (x : ArgD) : Raw :=
  .reg { regH m f x.g with d := x.d.val }
/-- `ArgD` from register-format fields. -/
def ArgD.dec (r : RegF) : Option ArgD := do
  let d ← sreg? r.d
  return { g := r.g, d }

/-- `ArgDA` as register-format fields. -/
def ArgDA.enc (m f : Nat) (x : ArgDA) : Raw :=
  .reg { regH m f x.g with d := x.d.val, a := x.a.val }
/-- `ArgDA` from register-format fields. -/
def ArgDA.dec (r : RegF) : Option ArgDA := do
  let d ← sreg? r.d
  let a ← sreg? r.a
  return { g := r.g, d, a }

/-- `ArgAB` as register-format fields. -/
def ArgAB.enc (m f : Nat) (x : ArgAB) : Raw :=
  .reg { regH m f x.g with a := x.a.val, b := x.b.val }
/-- `ArgAB` from register-format fields. -/
def ArgAB.dec (r : RegF) : Option ArgAB := do
  let a ← sreg? r.a
  let b ← sreg? r.b
  return { g := r.g, a, b }

/-- `ArgDAB` as register-format fields. -/
def ArgDAB.enc (m f : Nat) (x : ArgDAB) : Raw :=
  .reg { regH m f x.g with d := x.d.val, a := x.a.val, b := x.b.val }
/-- `ArgDAB` from register-format fields. -/
def ArgDAB.dec (r : RegF) : Option ArgDAB := do
  let d ← sreg? r.d
  let a ← sreg? r.a
  let b ← sreg? r.b
  return { g := r.g, d, a, b }

/-- `ArgABi` as register-format fields. -/
def ArgABi.enc (m f : Nat) (x : ArgABi) : Raw :=
  .reg { regH m f x.g with a := x.a.val, b := x.b.field, isel := x.b.isel, imm := x.b.immF }
/-- `ArgABi` from register-format fields. -/
def ArgABi.dec (r : RegF) : Option ArgABi := do
  let a ← sreg? r.a
  let b ← r.srcB
  return { g := r.g, a, b }

/-- `ArgDABi` as register-format fields. -/
def ArgDABi.enc (m f : Nat) (x : ArgDABi) : Raw :=
  .reg { regH m f x.g with d := x.d.val, a := x.a.val, b := x.b.field, isel := x.b.isel, imm := x.b.immF }
/-- `ArgDABi` from register-format fields. -/
def ArgDABi.dec (r : RegF) : Option ArgDABi := do
  let d ← sreg? r.d
  let a ← sreg? r.a
  let b ← r.srcB
  return { g := r.g, d, a, b }

/-- `ArgInt` as register-format fields. -/
def ArgInt.enc (m f : Nat) (x : ArgInt) : Raw :=
  .reg { regH m f x.g with ty := x.ty.code, sat := b2n x.sat, d := x.d.val, a := x.a.val, b := x.b.field, isel := x.b.isel, imm := x.b.immF }
/-- `ArgInt` from register-format fields. -/
def ArgInt.dec (r : RegF) : Option ArgInt := do
  let ty ← Ty.ofCode r.ty
  let d ← sreg? r.d
  let a ← sreg? r.a
  let b ← r.srcB
  return { g := r.g, ty, sat := r.sat == 1, d, a, b }

/-- `ArgTDA` as register-format fields. -/
def ArgTDA.enc (m f : Nat) (x : ArgTDA) : Raw :=
  .reg { regH m f x.g with ty := x.ty.code, d := x.d.val, a := x.a.val }
/-- `ArgTDA` from register-format fields. -/
def ArgTDA.dec (r : RegF) : Option ArgTDA := do
  let ty ← Ty.ofCode r.ty
  let d ← sreg? r.d
  let a ← sreg? r.a
  return { g := r.g, ty, d, a }

/-- `ArgBext` as register-format fields. -/
def ArgBext.enc (m f : Nat) (x : ArgBext) : Raw :=
  .reg { regH m f x.g with ty := x.ty.code, d := x.d.val, a := x.a.val, b := x.pos.field, isel := x.pos.isel, imm := x.pos.immF, aux := x.len.toNat }
/-- `ArgBext` from register-format fields. -/
def ArgBext.dec (r : RegF) : Option ArgBext := do
  let ty ← Ty.ofCode r.ty
  let d ← sreg? r.d
  let a ← sreg? r.a
  let pos ← r.srcB
  return { g := r.g, ty, d, a, pos, len := BitVec.ofNat 7 r.aux }

/-- `ArgBins` as register-format fields. -/
def ArgBins.enc (m f : Nat) (x : ArgBins) : Raw :=
  .reg { regH m f x.g with d := x.d.val, a := x.a.val, c := x.c.val, b := x.pos.field, isel := x.pos.isel, imm := x.pos.immF, aux := x.len.toNat }
/-- `ArgBins` from register-format fields. -/
def ArgBins.dec (r : RegF) : Option ArgBins := do
  let d ← sreg? r.d
  let a ← sreg? r.a
  let c ← sreg? r.c
  let pos ← r.srcB
  return { g := r.g, d, a, c, pos, len := BitVec.ofNat 7 r.aux }

/-- `ArgSel` as register-format fields. -/
def ArgSel.enc (m f : Nat) (x : ArgSel) : Raw :=
  .reg { regH m f x.g with d := x.d.val, c := pcode x.p, a := x.a.val, b := x.b.field, isel := x.b.isel, imm := x.b.immF }
/-- `ArgSel` from register-format fields. -/
def ArgSel.dec (r : RegF) : Option ArgSel := do
  let d ← sreg? r.d
  let p ← preg? r.c
  let a ← sreg? r.a
  let b ← r.srcB
  return { g := r.g, d, p, a, b }

/-- `ArgCmp` as register-format fields. -/
def ArgCmp.enc (m : Nat) (x : ArgCmp) : Raw :=
  .reg { regH m x.cond.code x.g with ty := x.ty.code, d := pcode x.pd, a := x.a.val, b := x.b.field, isel := x.b.isel, imm := x.b.immF }
/-- `ArgCmp` from register-format fields. -/
def ArgCmp.dec (r : RegF) : Option ArgCmp := do
  let cond ← Cond.ofCode r.fn
  let ty ← Ty.ofCode r.ty
  let pd ← preg? r.d
  let a ← sreg? r.a
  let b ← r.srcB
  return { g := r.g, cond, ty, pd, a, b }

/-- `ArgP3` as register-format fields. -/
def ArgP3.enc (m f : Nat) (x : ArgP3) : Raw :=
  .reg { regH m f x.g with d := pcode x.d, a := pcode x.a, b := pcode x.b }
/-- `ArgP3` from register-format fields. -/
def ArgP3.dec (r : RegF) : Option ArgP3 := do
  let d ← preg? r.d
  let a ← preg? r.a
  let b ← preg? r.b
  return { g := r.g, d, a, b }

/-- `ArgP2` as register-format fields. -/
def ArgP2.enc (m f : Nat) (x : ArgP2) : Raw :=
  .reg { regH m f x.g with d := pcode x.d, a := pcode x.a }
/-- `ArgP2` from register-format fields. -/
def ArgP2.dec (r : RegF) : Option ArgP2 := do
  let d ← preg? r.d
  let a ← preg? r.a
  return { g := r.g, d, a }

/-- `ArgPunpk` as register-format fields. -/
def ArgPunpk.enc (m f : Nat) (x : ArgPunpk) : Raw :=
  .reg { regH m f x.g with a := x.a.val, imm := x.mask.toNat }
/-- `ArgPunpk` from register-format fields. -/
def ArgPunpk.dec (r : RegF) : Option ArgPunpk := do
  let a ← sreg? r.a
  return { g := r.g, a, mask := BitVec.ofNat 8 r.imm }

/-- `ArgRdsr` as register-format fields. -/
def ArgRdsr.enc (m f : Nat) (x : ArgRdsr) : Raw :=
  .reg { regH m f x.g with d := x.d.val, imm := x.n.code }
/-- `ArgRdsr` from register-format fields. -/
def ArgRdsr.dec (r : RegF) : Option ArgRdsr := do
  let d ← sreg? r.d
  let n ← SysReg.ofCode r.imm
  return { g := r.g, d, n }

/-- `ArgWrsr` as register-format fields. -/
def ArgWrsr.enc (m f : Nat) (x : ArgWrsr) : Raw :=
  .reg { regH m f x.g with imm := x.n.code, a := x.a.val }
/-- `ArgWrsr` from register-format fields. -/
def ArgWrsr.dec (r : RegF) : Option ArgWrsr := do
  let n ← SysReg.ofCode r.imm
  let a ← sreg? r.a
  return { g := r.g, n, a }

/-- `ArgFAr` as register-format fields. -/
def ArgFAr.enc (m f : Nat) (x : ArgFAr) : Raw :=
  .reg { regH m f x.g with rnd := x.r.code, ty := Ty.f32.code, d := x.d.val, a := x.a.val, b := x.b.field, isel := x.b.isel, imm := x.b.immF }
/-- `ArgFAr` from register-format fields. -/
def ArgFAr.dec (r : RegF) : Option ArgFAr := do
  let d ← sreg? r.d
  let a ← sreg? r.a
  let b ← r.srcB
  return { g := r.g, r := Rnd.ofCode r.rnd, d, a, b }

/-- `ArgFma` as register-format fields. -/
def ArgFma.enc (m f : Nat) (x : ArgFma) : Raw :=
  .reg { regH m f x.g with rnd := x.r.code, ty := Ty.f32.code, d := x.d.val, a := x.a.val, b := x.b.field, isel := x.b.isel, imm := x.b.immF, c := x.c.val }
/-- `ArgFma` from register-format fields. -/
def ArgFma.dec (r : RegF) : Option ArgFma := do
  let d ← sreg? r.d
  let a ← sreg? r.a
  let b ← r.srcB
  let c ← sreg? r.c
  return { g := r.g, r := Rnd.ofCode r.rnd, d, a, b, c }

/-- `ArgFsqrt` as register-format fields. -/
def ArgFsqrt.enc (m f : Nat) (x : ArgFsqrt) : Raw :=
  .reg { regH m f x.g with rnd := x.r.code, ty := Ty.f32.code, d := x.d.val, a := x.a.val }
/-- `ArgFsqrt` from register-format fields. -/
def ArgFsqrt.dec (r : RegF) : Option ArgFsqrt := do
  let d ← sreg? r.d
  let a ← sreg? r.a
  return { g := r.g, r := Rnd.ofCode r.rnd, d, a }

/-- `ArgFcmp` as register-format fields. -/
def ArgFcmp.enc (m : Nat) (x : ArgFcmp) : Raw :=
  .reg { regH m x.cond.code x.g with ty := Ty.f32.code, d := pcode x.pd, a := x.a.val, b := x.b.field, isel := x.b.isel, imm := x.b.immF }
/-- `ArgFcmp` from register-format fields. -/
def ArgFcmp.dec (r : RegF) : Option ArgFcmp := do
  let cond ← FCond.ofCode r.fn
  let pd ← preg? r.d
  let a ← sreg? r.a
  let b ← r.srcB
  return { g := r.g, cond, pd, a, b }

/-- `ArgFcvt` as register-format fields. -/
def ArgFcvt.enc (m : Nat) (x : ArgFcvt) : Raw :=
  .reg { regH m (b2n x.fromTy) x.g with ty := x.ty.code, rnd := x.r.code, d := x.d.val, a := x.a.val }
/-- `ArgFcvt` from register-format fields. -/
def ArgFcvt.dec (r : RegF) : Option ArgFcvt := do
  let ty ← Ty.ofCode r.ty
  let d ← sreg? r.d
  let a ← sreg? r.a
  return { g := r.g, fromTy := r.fn == 1, ty, r := Rnd.ofCode r.rnd, d, a }

/-- `ArgV` as register-format fields. -/
def ArgV.enc (m f : Nat) (x : ArgV) : Raw :=
  .reg { regH m f x.g with ty := x.ty.code, rnd := x.r.code, sat := b2n x.sat, d := vcode x.d, a := vcode x.a, b := x.b.field, isel := x.b.isel, imm := x.b.immF }
/-- `ArgV` from register-format fields. -/
def ArgV.dec (r : RegF) : Option ArgV := do
  let ty ← Ty.ofCode r.ty
  let d ← vreg? r.d
  let a ← vreg? r.a
  let b ← r.vsrcB
  return { g := r.g, ty, r := Rnd.ofCode r.rnd, sat := r.sat == 1, d, a, b }

/-- `ArgVfma` as register-format fields. -/
def ArgVfma.enc (m f : Nat) (x : ArgVfma) : Raw :=
  .reg { regH m f x.g with rnd := x.r.code, ty := Ty.f32.code, d := vcode x.d, a := vcode x.a, b := x.b.field, isel := x.b.isel, imm := x.b.immF, c := vcode x.c }
/-- `ArgVfma` from register-format fields. -/
def ArgVfma.dec (r : RegF) : Option ArgVfma := do
  let d ← vreg? r.d
  let a ← vreg? r.a
  let b ← r.vsrcB
  let c ← vreg? r.c
  return { g := r.g, r := Rnd.ofCode r.rnd, d, a, b, c }

/-- `ArgVun` as register-format fields. -/
def ArgVun.enc (m f : Nat) (x : ArgVun) : Raw :=
  .reg { regH m f x.g with ty := x.ty.code, sat := b2n x.sat, d := vcode x.d, a := vcode x.a }
/-- `ArgVun` from register-format fields. -/
def ArgVun.dec (r : RegF) : Option ArgVun := do
  let ty ← Ty.ofCode r.ty
  let d ← vreg? r.d
  let a ← vreg? r.a
  return { g := r.g, ty, sat := r.sat == 1, d, a }

/-- `ArgVsel` as register-format fields. -/
def ArgVsel.enc (m f : Nat) (x : ArgVsel) : Raw :=
  .reg { regH m f x.g with d := vcode x.d, c := x.c.val, a := vcode x.a, b := x.b.field, isel := x.b.isel, imm := x.b.immF }
/-- `ArgVsel` from register-format fields. -/
def ArgVsel.dec (r : RegF) : Option ArgVsel := do
  let d ← vreg? r.d
  let c ← sreg? r.c
  let a ← vreg? r.a
  let b ← r.vsrcB
  return { g := r.g, d, c, a, b }

/-- `ArgVcvt` as register-format fields. -/
def ArgVcvt.enc (m : Nat) (x : ArgVcvt) : Raw :=
  .reg { regH m (b2n x.fromTy) x.g with ty := x.ty.code, rnd := x.r.code, d := vcode x.d, a := vcode x.a }
/-- `ArgVcvt` from register-format fields. -/
def ArgVcvt.dec (r : RegF) : Option ArgVcvt := do
  let ty ← Ty.ofCode r.ty
  let d ← vreg? r.d
  let a ← vreg? r.a
  return { g := r.g, fromTy := r.fn == 1, ty, r := Rnd.ofCode r.rnd, d, a }

/-- `ArgVexp` as register-format fields. -/
def ArgVexp.enc (m f : Nat) (x : ArgVexp) : Raw :=
  .reg { regH m f x.g with ty := x.ty.code, d := vcode x.d, a := vcode x.a, aux := x.grp.val }
/-- `ArgVexp` from register-format fields. -/
def ArgVexp.dec (r : RegF) : Option ArgVexp := do
  let ty ← Ty.ofCode r.ty
  let d ← vreg? r.d
  let a ← vreg? r.a
  return { g := r.g, ty, d, a, grp := Fin.ofNat 8 r.aux }

/-- `ArgVV` as register-format fields. -/
def ArgVV.enc (m f : Nat) (x : ArgVV) : Raw :=
  .reg { regH m f x.g with ty := Ty.f32.code, d := vcode x.d, a := vcode x.a }
/-- `ArgVV` from register-format fields. -/
def ArgVV.dec (r : RegF) : Option ArgVV := do
  let d ← vreg? r.d
  let a ← vreg? r.a
  return { g := r.g, d, a }

/-- `ArgVred` as register-format fields. -/
def ArgVred.enc (m f : Nat) (x : ArgVred) : Raw :=
  .reg { regH m f x.g with ty := x.ty.code, rnd := x.r.code, sat := b2n x.sat, d := x.d.val, a := vcode x.a, c := x.c.val }
/-- `ArgVred` from register-format fields. -/
def ArgVred.dec (r : RegF) : Option ArgVred := do
  let ty ← Ty.ofCode r.ty
  let d ← sreg? r.d
  let a ← vreg? r.a
  let c ← sreg? r.c
  return { g := r.g, ty, r := Rnd.ofCode r.rnd, sat := r.sat == 1, d, a, c }

/-- `ArgVdot` as register-format fields. -/
def ArgVdot.enc (m f : Nat) (x : ArgVdot) : Raw :=
  .reg { regH m f x.g with ty := x.ty.code, rnd := x.r.code, sat := b2n x.sat, d := x.d.val, a := vcode x.a, b := vcode x.b, c := x.c.val }
/-- `ArgVdot` from register-format fields. -/
def ArgVdot.dec (r : RegF) : Option ArgVdot := do
  let ty ← Ty.ofCode r.ty
  let d ← sreg? r.d
  let a ← vreg? r.a
  let b ← vreg? r.b
  let c ← sreg? r.c
  return { g := r.g, ty, r := Rnd.ofCode r.rnd, sat := r.sat == 1, d, a, b, c }

/-- `ArgVsplat` as register-format fields. -/
def ArgVsplat.enc (m f : Nat) (x : ArgVsplat) : Raw :=
  .reg { regH m f x.g with ty := x.ty.code, d := vcode x.d, a := x.a.val }
/-- `ArgVsplat` from register-format fields. -/
def ArgVsplat.dec (r : RegF) : Option ArgVsplat := do
  let ty ← Ty.ofCode r.ty
  let d ← vreg? r.d
  let a ← sreg? r.a
  return { g := r.g, ty, d, a }

/-- `ArgVperm` as register-format fields. -/
def ArgVperm.enc (m f : Nat) (x : ArgVperm) : Raw :=
  .reg { regH m f x.g with d := vcode x.d, a := vcode x.a, b := vcode x.b }
/-- `ArgVperm` from register-format fields. -/
def ArgVperm.dec (r : RegF) : Option ArgVperm := do
  let d ← vreg? r.d
  let a ← vreg? r.a
  let b ← vreg? r.b
  return { g := r.g, d, a, b }

/-- `ArgVidx` as register-format fields. -/
def ArgVidx.enc (m f : Nat) (x : ArgVidx) : Raw :=
  .reg { regH m f x.g with d := vcode x.d, a := x.a.val, b := x.b.field, isel := x.b.isel, imm := x.b.immF }
/-- `ArgVidx` from register-format fields. -/
def ArgVidx.dec (r : RegF) : Option ArgVidx := do
  let d ← vreg? r.d
  let a ← sreg? r.a
  let b ← r.srcB
  return { g := r.g, d, a, b }

/-- `ArgVscacc` as register-format fields. -/
def ArgVscacc.enc (m f : Nat) (x : ArgVscacc) : Raw :=
  .reg { regH m f x.g with ty := x.ty.code, rnd := x.r.code, d := vcode x.d, a := vcode x.a, b := x.b.field, isel := x.b.isel, imm := x.b.immF }
/-- `ArgVscacc` from register-format fields. -/
def ArgVscacc.dec (r : RegF) : Option ArgVscacc := do
  let ty ← Ty.ofCode r.ty
  let d ← vreg? r.d
  let a ← vreg? r.a
  let b ← r.srcB
  return { g := r.g, ty, r := Rnd.ofCode r.rnd, d, a, b }

/-- `ArgPoolcfg` as register-format fields. -/
def ArgPoolcfg.enc (m f : Nat) (x : ArgPoolcfg) : Raw :=
  .reg { regH m f x.g with d := x.d.val, a := x.a.val, b := x.b.val, c := x.c.val, imm := x.deadline.toNat }
/-- `ArgPoolcfg` from register-format fields. -/
def ArgPoolcfg.dec (r : RegF) : Option ArgPoolcfg := do
  let d ← sreg? r.d
  let a ← sreg? r.a
  let b ← sreg? r.b
  let c ← sreg? r.c
  return { g := r.g, d, a, b, c, deadline := BitVec.ofNat 32 r.imm }

/-- `ArgPoolst` as register-format fields. -/
def ArgPoolst.enc (m f : Nat) (x : ArgPoolst) : Raw :=
  .reg { regH m f x.g with d := x.d.val, a := x.a.val, imm := x.sel.val }
/-- `ArgPoolst` from register-format fields. -/
def ArgPoolst.dec (r : RegF) : Option ArgPoolst := do
  let d ← sreg? r.d
  let a ← sreg? r.a
  let sel ← fin? 7 r.imm
  return { g := r.g, d, a, sel }

/-- `ArgFence` as register-format fields. -/
def ArgFence.enc (m : Nat) (x : ArgFence) : Raw :=
  .reg { regH m x.kind.code x.g with aux := x.scope.code }
/-- `ArgFence` from register-format fields. -/
def ArgFence.dec (r : RegF) : Option ArgFence := do
  let kind ← FenceKind.ofCode r.fn
  let scope ← Scope.ofCode r.aux
  return { g := r.g, kind, scope }

/-- `ArgCallat` as register-format fields. -/
def ArgCallat.enc (m f : Nat) (x : ArgCallat) : Raw :=
  .reg { regH m f x.g with a := x.a.val, b := x.t.field, isel := x.t.isel, imm := x.t.immF, c := x.c.val }
/-- `ArgCallat` from register-format fields. -/
def ArgCallat.dec (r : RegF) : Option ArgCallat := do
  let a ← sreg? r.a
  let t ← r.srcB
  let c ← sreg? r.c
  return { g := r.g, a, t, c }

/-- `ArgFres` as register-format fields. -/
def ArgFres.enc (m : Nat) (x : ArgFres) : Raw :=
  .reg { regH m (b2n x.fault) x.g with a := x.a.val, b := x.b.val }
/-- `ArgFres` from register-format fields. -/
def ArgFres.dec (r : RegF) : Option ArgFres := do
  let a ← sreg? r.a
  let b ← sreg? r.b
  return { g := r.g, fault := r.fn == 1, a, b }

/-- `ArgTid` as register-format fields. -/
def ArgTid.enc (m f : Nat) (x : ArgTid) : Raw :=
  .reg { regH m f x.g with d := x.d.val, imm := x.sel.val }
/-- `ArgTid` from register-format fields. -/
def ArgTid.dec (r : RegF) : Option ArgTid := do
  let d ← sreg? r.d
  let sel ← fin? 7 r.imm
  return { g := r.g, d, sel }

/-- `ArgPut` as register-format fields. -/
def ArgPut.enc (m f : Nat) (x : ArgPut) : Raw :=
  .reg { regH m f x.g with d := x.d.val, a := x.a.val, imm := x.k.val }
/-- `ArgPut` from register-format fields. -/
def ArgPut.dec (r : RegF) : Option ArgPut := do
  let d ← sreg? r.d
  let a ← sreg? r.a
  let k ← fin? 16 r.imm
  return { g := r.g, d, a, k }

/-- `ArgGet` as register-format fields. -/
def ArgGet.enc (m f : Nat) (x : ArgGet) : Raw :=
  .reg { regH m f x.g with d := x.d.val, imm := x.k.val }
/-- `ArgGet` from register-format fields. -/
def ArgGet.dec (r : RegF) : Option ArgGet := do
  let d ← sreg? r.d
  let k ← fin? 16 r.imm
  return { g := r.g, d, k }

/-- `ArgAlt` as register-format fields. -/
def ArgAlt.enc (m f : Nat) (x : ArgAlt) : Raw :=
  .reg { regH m f x.g with d := x.d.val, imm := x.mask.toNat, a := x.a.val }
/-- `ArgAlt` from register-format fields. -/
def ArgAlt.dec (r : RegF) : Option ArgAlt := do
  let d ← sreg? r.d
  let a ← sreg? r.a
  return { g := r.g, d, mask := BitVec.ofNat 16 r.imm, a }

/-- `ArgPbind` as register-format fields. -/
def ArgPbind.enc (m f : Nat) (x : ArgPbind) : Raw :=
  .reg { regH m f x.g with imm := x.k.val, a := x.a.val }
/-- `ArgPbind` from register-format fields. -/
def ArgPbind.dec (r : RegF) : Option ArgPbind := do
  let k ← fin? 16 r.imm
  let a ← sreg? r.a
  return { g := r.g, k, a }

/-- `ArgPortst` as register-format fields. -/
def ArgPortst.enc (m f : Nat) (x : ArgPortst) : Raw :=
  .reg { regH m f x.g with d := x.d.val, imm := x.sel.val }
/-- `ArgPortst` from register-format fields. -/
def ArgPortst.dec (r : RegF) : Option ArgPortst := do
  let d ← sreg? r.d
  let sel ← fin? 18 r.imm
  return { g := r.g, d, sel }

/-- `ArgHtab` as register-format fields. -/
def ArgHtab.enc (m f : Nat) (x : ArgHtab) : Raw :=
  .reg { regH m f x.g with d := x.d.val, a := x.a.val, imm := x.cls.val }
/-- `ArgHtab` from register-format fields. -/
def ArgHtab.dec (r : RegF) : Option ArgHtab := do
  let d ← sreg? r.d
  let a ← sreg? r.a
  let cls ← fin? 32 r.imm
  return { g := r.g, d, a, cls }

/-- `ArgRedp` as register-format fields. -/
def ArgRedp.enc (m f : Nat) (x : ArgRedp) : Raw :=
  .reg { regH m f x.g with d := x.d.val, a := vcode x.a, imm := x.n.val }
/-- `ArgRedp` from register-format fields. -/
def ArgRedp.dec (r : RegF) : Option ArgRedp := do
  let d ← sreg? r.d
  let a ← vreg? r.a
  let n ← fin? 8 r.imm
  return { g := r.g, d, a, n }

/-- `ArgRedg` as register-format fields. -/
def ArgRedg.enc (m f : Nat) (x : ArgRedg) : Raw :=
  .reg { regH m f x.g with d := vcode x.d, c := x.c.val, a := x.a.val }
/-- `ArgRedg` from register-format fields. -/
def ArgRedg.dec (r : RegF) : Option ArgRedg := do
  let d ← vreg? r.d
  let c ← sreg? r.c
  let a ← sreg? r.a
  return { g := r.g, d, c, a }

/-- `ArgRcfg` as register-format fields. -/
def ArgRcfg.enc (m f : Nat) (x : ArgRcfg) : Raw :=
  .reg { regH m f x.g with d := x.d.val, a := x.a.val, imm := x.n.val }
/-- `ArgRcfg` from register-format fields. -/
def ArgRcfg.dec (r : RegF) : Option ArgRcfg := do
  let d ← sreg? r.d
  let a ← sreg? r.a
  let n ← fin? 8 r.imm
  return { g := r.g, d, a, n }

/-- `ArgCode` as register-format fields. -/
def ArgCode.enc (m f : Nat) (x : ArgCode) : Raw :=
  .reg { regH m f x.g with imm := x.code.toNat }
/-- `ArgCode` from register-format fields. -/
def ArgCode.dec (r : RegF) : Option ArgCode :=
  some { g := r.g, code := BitVec.ofNat 32 r.imm }

/-- `ArgTrapRing` as register-format fields. -/
def ArgTrapRing.enc (m f : Nat) (x : ArgTrapRing) : Raw :=
  .reg { regH m f x.g with d := x.d.val, a := x.a.val, imm := x.k.val }
/-- `ArgTrapRing` from register-format fields. -/
def ArgTrapRing.dec (r : RegF) : Option ArgTrapRing := do
  let d ← sreg? r.d
  let a ← sreg? r.a
  let k ← fin? 4 r.imm
  return { g := r.g, d, a, k }

/-- `ArgRfill` as register-format fields. -/
def ArgRfill.enc (m f : Nat) (x : ArgRfill) : Raw :=
  .reg { regH m f x.g with d := x.d.val, a := x.a.val, b := x.b.field }
/-- `ArgRfill` from register-format fields. -/
def ArgRfill.dec (r : RegF) : Option ArgRfill := do
  let d ← sreg? r.d
  let a ← sreg? r.a
  let b ← anyReg? r.b
  return { g := r.g, d, a, b }

/-- `li` as immediate-format fields (R37, R85). -/
def ArgLi.enc (m f : Nat) (x : ArgLi) : Raw :=
  .imm { major := m, fn := f, gn := b2n x.g.neg, gp := x.g.p.val, d := x.d.val, ty := x.ty.code, imm := x.imm.toNat }
/-- `li` from immediate-format fields. -/
def ArgLi.dec (r : ImmF) : Option ArgLi := do
  let ty ← Ty.ofCode r.ty
  let d ← sreg? r.d
  return { g := guardOf r.gn r.gp, ty, d, imm := BitVec.ofNat 62 r.imm }

/-- The opd field of `mov` (R86). -/
def MovDst.field : MovDst → Nat
  | .reg r => r.val
  | .fcsr => 109
/-- The opa field of `mov` (R86). -/
def MovSrc.field : MovSrc → Nat
  | .reg r => r.val
  | .special x => x.code
/-- `mov` as register-format fields (R86). -/
def ArgMov.enc (m f : Nat) (x : ArgMov) : Raw :=
  .reg { regH m f x.g with d := x.dst.field, a := x.src.field }
/-- `mov` from register-format fields. -/
def ArgMov.dec (r : RegF) : Option ArgMov := do
  let dst ← if r.d = 109 then some MovDst.fcsr else (sreg? r.d).map .reg
  let src ← ((sreg? r.a).map MovSrc.reg).or ((Special.ofCode r.a).map .special)
  return { g := r.g, dst, src }

/-- `br` as branch-format fields (R89). -/
def ArgBr.enc (m : Nat) (x : ArgBr) : Raw := .br { brH m (b2n x.z) x.g x.t with a := x.a.val }
/-- `br` from branch-format fields. -/
def ArgBr.dec (r : BrF) : Option ArgBr := do
  let a ← sreg? r.a
  let t ← r.target
  return { g := r.g, z := r.fn == 1, a, t }
/-- `jmp` and `call` as branch-format fields (R89). -/
def ArgT.enc (m f : Nat) (x : ArgT) : Raw := .br (brH m f x.g x.t)
/-- `jmp` and `call` from branch-format fields. -/
def ArgT.dec (r : BrF) : Option ArgT := do
  let t ← r.target
  return { g := r.g, t }
/-- `loop` as branch-format fields (R89). -/
def ArgLoop.enc (m f : Nat) (x : ArgLoop) : Raw := .br { brH m f x.g x.t with a := x.a.val }
/-- `loop` from branch-format fields. -/
def ArgLoop.dec (r : BrF) : Option ArgLoop := do
  let a ← sreg? r.a
  let t ← r.target
  return { g := r.g, a, t }

/-- The function of `vcmp` (R119). -/
def VCond.code : VCond → Nat
  | .signed c | .unsigned c => c.code
  | .float c => c.code
/-- The type of `vcmp` (R119). -/
def VCond.ty : VCond → Ty
  | .signed _ => .i32
  | .unsigned _ => .n32
  | .float _ => .f32
/-- The condition of a type and a function of `vcmp` (R119). -/
def VCond.ofCodes (ty : Ty) (k : Nat) : Option VCond :=
  match ty with
  | .i32 => (Cond.ofCode k).map .signed
  | .n32 => (Cond.ofCode k).map .unsigned
  | .f32 => (FCond.ofCode k).map .float
  | _ => none
/-- `vcmp` as register-format fields (R119). -/
def ArgVcmp.enc (m : Nat) (x : ArgVcmp) : Raw :=
  .reg { regH m x.cond.code x.g with ty := x.cond.ty.code, d := x.d.val, a := vcode x.a, b := x.b.field,
                                     isel := x.b.isel, imm := x.b.immF }
/-- `vcmp` from register-format fields. -/
def ArgVcmp.dec (r : RegF) : Option ArgVcmp := do
  let ty ← Ty.ofCode r.ty
  let cond ← VCond.ofCodes ty r.fn
  let d ← sreg? r.d
  let a ← vreg? r.a
  let b ← r.vsrcB
  return { g := r.g, cond, d, a, b }

/-- `vmovs` as register-format fields (R125). -/
def ArgVmovs.enc (m : Nat) (x : ArgVmovs) : Raw :=
  .reg (match x.mv with
    | .toScalar d a n => { regH m 0 x.g with d := d.val, a := vcode a, aux := n.val }
    | .toLane d a n => { regH m 1 x.g with d := vcode d, a := a.val, aux := n.val }
    | .toTbl a => { regH m 2 x.g with d := 110, a := vcode a }
    | .fromTbl d => { regH m 3 x.g with d := vcode d, a := 110 })
/-- `vmovs` from register-format fields. -/
def ArgVmovs.dec (r : RegF) : Option ArgVmovs := do
  let mv ← match r.fn with
    | 0 => do
      let d ← sreg? r.d
      let a ← vreg? r.a
      some (VMov.toScalar d a (Fin.ofNat 16 r.aux))
    | 1 => do
      let d ← vreg? r.d
      let a ← sreg? r.a
      some (VMov.toLane d a (Fin.ofNat 16 r.aux))
    | 2 => (vreg? r.a).map VMov.toTbl
    | 3 => (vreg? r.d).map VMov.fromTbl
    | _ => none
  return { g := r.g, mv }

/-- `vqnt` and `vdqnt` as register-format fields (R126): the sat bit is 1 for `vqnt` only. -/
def ArgVq.enc (m f : Nat) (x : ArgVq) : Raw :=
  .reg { regH m f x.g with ty := x.ty.code, rnd := x.r.code, sat := if m = 0x5a then 1 else 0, d := vcode x.d,
                           a := vcode x.a, b := x.b.field, isel := x.b.isel, imm := x.b.immF, aux := x.grp.val }
/-- `vqnt` and `vdqnt` from register-format fields. -/
def ArgVq.dec (r : RegF) : Option ArgVq := do
  let ty ← Ty.ofCode r.ty
  let d ← vreg? r.d
  let a ← vreg? r.a
  let b ← r.srcB
  return { g := r.g, ty, r := Rnd.ofCode r.rnd, d, a, b, grp := Fin.ofNat 8 r.aux }

/-- `lea` as memory-format fields (R84). -/
def ArgLea.enc (m f : Nat) (x : ArgLea) : Raw := .mem { memA m f x.g x.addr with data := x.d.val }
/-- `lea` from memory-format fields. -/
def ArgLea.dec (r : MemF) : Option ArgLea := do
  let d ← sreg? r.data
  let addr ← r.addr
  return { g := r.g, d, addr }
/-- `ldtab` as memory-format fields (R128). -/
def ArgLdtab.enc (m f : Nat) (x : ArgLdtab) : Raw :=
  .mem { memA m f x.g x.addr with data := 110, size := 4, cons := b2n x.cons }
/-- `ldtab` from memory-format fields. -/
def ArgLdtab.dec (r : MemF) : Option ArgLdtab := do
  let addr ← r.addr
  return { g := r.g, cons := r.cons == 1, addr }
/-- Scalar loads and stores as memory-format fields (R167); cons is 1 for `ldc`. -/
def ArgLd.enc (m : Nat) (x : ArgLd) : Raw :=
  .mem { memA m x.ty.code x.g x.addr with data := x.data.val, size := x.ty.sizeCode, ord := x.ord.code,
                                          scope := x.scope.code, cons := if m = 0x72 then 1 else 0 }
/-- Scalar loads and stores from memory-format fields. -/
def ArgLd.dec (r : MemF) : Option ArgLd := do
  let ty ← Ty.ofCode r.fn
  let data ← sreg? r.data
  let addr ← r.addr
  let scope ← Scope.ofCode r.scope
  return { g := r.g, ty, data, addr, ord := MOrd.ofCode r.ord, scope }
/-- Vector loads and stores as memory-format fields (R168); cons is 1 for `vldc`. -/
def ArgVld.enc (m f : Nat) (x : ArgVld) : Raw :=
  .mem { memA m f x.g x.addr with data := vcode x.data, size := 6, ord := x.ord.code, scope := x.scope.code,
                                  cons := if m = 0x75 then 1 else 0 }
/-- Vector loads and stores from memory-format fields. -/
def ArgVld.dec (r : MemF) : Option ArgVld := do
  let data ← vreg? r.data
  let addr ← r.addr
  let scope ← Scope.ofCode r.scope
  return { g := r.g, data, addr, ord := MOrd.ofCode r.ord, scope }
/-- Gather and scatter as memory-format fields (R169). -/
def ArgVgat.enc (m f : Nat) (x : ArgVgat) : Raw :=
  .mem { memH m f x.g with data := vcode x.data, base := x.base.val, index := vcode x.index, space := x.space.code,
                           size := 2, ord := x.ord.code, scope := x.scope.code, scale := x.scale.val,
                           disp := x.disp.toNat }
/-- Gather and scatter from memory-format fields. -/
def ArgVgat.dec (r : MemF) : Option ArgVgat := do
  let data ← vreg? r.data
  let base ← sreg? r.base
  let index ← vreg? r.index
  let space ← Space.ofCode r.space
  let scope ← Scope.ofCode r.scope
  return { g := r.g, data, space, base, index, scale := Fin.ofNat 8 r.scale, disp := BitVec.ofNat 37 r.disp,
           ord := MOrd.ofCode r.ord, scope }
/-- `ldsc` and `stsc` as memory-format fields (R218): order 3 and scope 4. -/
def ArgLdsc.enc (m : Nat) (x : ArgLdsc) : Raw :=
  .mem { memA m x.ty.code x.g x.addr with data := x.data.val, size := x.ty.sizeCode, ord := 3, scope := 4 }
/-- `ldsc` and `stsc` from memory-format fields. -/
def ArgLdsc.dec (r : MemF) : Option ArgLdsc := do
  let ty ← Ty.ofCode r.fn
  let data ← sreg? r.data
  let addr ← r.addr
  return { g := r.g, ty, data, addr }
/-- The atomics as memory-format fields (R333): aux[39] adds release, aux[38] is acquire on failure. -/
def ArgAtom.enc (m : Nat) (x : ArgAtom) : Raw :=
  .mem { memH m x.ty.code x.g with data := x.data.val, base := x.base.val, index := x.index.val,
                                   space := x.space.code, size := x.ty.sizeCode, ord := x.ord.code,
                                   scope := x.scope.code, aux := b2n x.acqrel * 4 + b2n x.failAcq * 2,
                                   disp := x.disp.toNat }
/-- The atomics from memory-format fields. -/
def ArgAtom.dec (r : MemF) : Option ArgAtom := do
  let ty ← Ty.ofCode r.fn
  let data ← sreg? r.data
  let base ← sreg? r.base
  let index ← sreg? r.index
  let space ← Space.ofCode r.space
  let scope ← Scope.ofCode r.scope
  return { g := r.g, ty, data, space, base, index, disp := BitVec.ofNat 37 r.disp, ord := MOrd.ofCode r.ord,
           acqrel := r.aux / 4 == 1, failAcq := r.aux / 2 % 2 == 1, scope }

/-- `mma` as matrix-format fields (R142): maux[3:2] is the rounding mode. -/
def ArgMma.enc (m : Nat) (x : ArgMma) : Raw :=
  .mat { matH m (b2n x.set) x.g x.m x.n6 x.fin with d := x.d.val, a := x.a.val, b := x.b.val, pairc := x.pair.code,
                                                    ca := b2n x.ca, cb := b2n x.cb, maux := x.r.code * 4 }
/-- `mma` from matrix-format fields. -/
def ArgMma.dec (r : MatF) : Option ArgMma := do
  let pair ← Pair.ofCode r.pairc
  let d ← sreg? r.d
  let a ← sreg? r.a
  let b ← sreg? r.b
  let m ← MCode.ofCode r.mcode
  let fin ← r.fin
  return { g := r.g, set := r.fn == 1, pair, r := Rnd.ofCode (r.maux / 4), d, a, b, m, n6 := BitVec.ofNat 6 r.n6,
           ca := r.ca == 1, cb := r.cb == 1, fin }
/-- `accz` as matrix-format fields (R143). -/
def ArgAccz.enc (m f : Nat) (x : ArgAccz) : Raw := .mat { matH m f x.g x.m x.n6 x.fin with d := x.d.val }
/-- `accz` from matrix-format fields. -/
def ArgAccz.dec (r : MatF) : Option ArgAccz := do
  let d ← sreg? r.d
  let m ← MCode.ofCode r.mcode
  let fin ← r.fin
  return { g := r.g, d, m, n6 := BitVec.ofNat 6 r.n6, fin }
/-- `accsc` as matrix-format fields (R144). -/
def ArgAccsc.enc (m : Nat) (x : ArgAccsc) : Raw :=
  .mat { matH m (b2n x.set + 2 * b2n x.i32) x.g x.m x.n6 x.fin with d := x.d.val, a := x.a.val, b := x.b.val,
                                                                    maux := x.r.code * 4 }
/-- `accsc` from matrix-format fields. -/
def ArgAccsc.dec (r : MatF) : Option ArgAccsc := do
  let d ← sreg? r.d
  let a ← sreg? r.a
  let b ← sreg? r.b
  let m ← MCode.ofCode r.mcode
  let fin ← r.fin
  return { g := r.g, set := r.fn % 2 == 1, i32 := r.fn / 2 == 1, r := Rnd.ofCode (r.maux / 4), d, a, b, m,
           n6 := BitVec.ofNat 6 r.n6, fin }
/-- `accst` and `accld` as matrix-format fields (R145): maux[8:5] is the memory-side type. -/
def ArgAccmv.enc (m : Nat) (x : ArgAccmv) : Raw :=
  .mat { matH m (b2n x.i32) x.g x.m x.n6 x.fin with d := x.d.val, a := x.a.val,
                                                    maux := x.ty.code * 32 + x.r.code * 4 }
/-- `accst` and `accld` from matrix-format fields. -/
def ArgAccmv.dec (r : MatF) : Option ArgAccmv := do
  let ty ← Ty.ofCode (r.maux / 32)
  let d ← sreg? r.d
  let a ← sreg? r.a
  let m ← MCode.ofCode r.mcode
  let fin ← r.fin
  return { g := r.g, i32 := r.fn == 1, ty, r := Rnd.ofCode (r.maux / 4), d, a, m, n6 := BitVec.ofNat 6 r.n6, fin }
/-- `accrd` as matrix-format fields (R146): n6 = 1. -/
def ArgAccrd.enc (m f : Nat) (x : ArgAccrd) : Raw :=
  .mat { major := m, fn := f, gn := b2n x.g.neg, gp := x.g.p.val, d := vcode x.d, a := x.a.val, n6 := 1,
         acq := b2n x.acq, scope := x.scope.code }
/-- `accrd` from matrix-format fields. -/
def ArgAccrd.dec (r : MatF) : Option ArgAccrd := do
  let d ← vreg? r.d
  let a ← sreg? r.a
  let scope ← Scope.ofCode r.scope
  return { g := r.g, d, a, acq := r.acq == 1, scope }
/-- `accwr` as matrix-format fields (R146): n6 = 1. -/
def ArgAccwr.enc (m f : Nat) (x : ArgAccwr) : Raw :=
  .mat { major := m, fn := f, gn := b2n x.g.neg, gp := x.g.p.val, a := x.a.val, b := vcode x.b, n6 := 1,
         rel := b2n x.rel, scope := x.scope.code }
/-- `accwr` from matrix-format fields. -/
def ArgAccwr.dec (r : MatF) : Option ArgAccwr := do
  let a ← sreg? r.a
  let b ← vreg? r.b
  let scope ← Scope.ofCode r.scope
  return { g := r.g, a, b, rel := r.rel == 1, scope }

/-- `send` as asynchronous-format fields (R195). -/
def ArgSend.enc (m f : Nat) (x : ArgSend) : Raw :=
  .asy { asyH m f x.g x.fin with d := x.d.val, a := x.a.val, b := x.b.val, dsp := x.dspace.code,
                                 ssp := x.sspace.code, cons := b2n x.cons, imm := x.n.toNat }
/-- `send` from asynchronous-format fields. -/
def ArgSend.dec (r : AsyF) : Option ArgSend := do
  let sspace ← Space.ofCode r.ssp
  let dspace ← Space.ofCode r.dsp
  let d ← sreg? r.d
  let a ← sreg? r.a
  let b ← sreg? r.b
  let fin ← r.fin
  return { g := r.g, sspace, dspace, d, a, b, n := BitVec.ofNat 32 r.imm, cons := r.cons == 1, fin }
/-- `sendt` as asynchronous-format fields (R195). -/
def ArgSendt.enc (m f : Nat) (x : ArgSendt) : Raw :=
  .asy { asyH m f x.g x.fin with d := x.d.val, a := x.a.val, b := x.b.val, cons := b2n x.cons,
                                 imm := b2n x.remote * 16 + x.link.val }
/-- `sendt` from asynchronous-format fields. -/
def ArgSendt.dec (r : AsyF) : Option ArgSendt := do
  let d ← sreg? r.d
  let a ← sreg? r.a
  let b ← sreg? r.b
  let fin ← r.fin
  return { g := r.g, d, a, b, remote := r.imm / 16 == 1, link := Fin.ofNat 16 r.imm, cons := r.cons == 1, fin }
/-- `fill` as asynchronous-format fields (R195): from `.vlt` to `.loc`. -/
def ArgFill.enc (m f : Nat) (x : ArgFill) : Raw :=
  .asy { asyH m f x.g x.fin with d := x.d.val, a := x.a.val, b := x.b.val, dsp := Space.loc.code,
                                 ssp := Space.vlt.code, cons := b2n x.cons, imm := x.n.toNat }
/-- `fill` from asynchronous-format fields. -/
def ArgFill.dec (r : AsyF) : Option ArgFill := do
  let d ← sreg? r.d
  let a ← sreg? r.a
  let b ← sreg? r.b
  let fin ← r.fin
  return { g := r.g, d, a, b, n := BitVec.ofNat 32 r.imm, cons := r.cons == 1, fin }

/-- `wait` as register-format fields (R196). -/
def ArgWait.enc (m f : Nat) (x : ArgWait) : Raw :=
  .reg { regH m f x.g with imm := x.l.val + x.s.val * 64 + x.c.val * 4096 + x.t.val * 262144 }
/-- `wait` from register-format fields. -/
def ArgWait.dec (r : RegF) : Option ArgWait :=
  some { g := r.g, l := Fin.ofNat 64 r.imm, s := Fin.ofNat 64 (r.imm / 64), c := Fin.ofNat 64 (r.imm / 4096),
         t := Fin.ofNat 64 (r.imm / 262144) }
/-- The selector of `sbstat` (R197). -/
def SbSel.code : SbSel → Nat
  | .status n => n.val
  | .entry n => 0x100 + n.val
/-- The selector of `sbstat` of a number (R197). -/
def SbSel.ofCode (k : Nat) : Option SbSel :=
  if 0x100 ≤ k then (fin? 128 (k - 0x100)).map .entry else (fin? 5 k).map .status
/-- `sbstat` as register-format fields (R197). -/
def ArgSbstat.enc (m f : Nat) (x : ArgSbstat) : Raw := .reg { regH m f x.g with d := x.d.val, imm := x.sel.code }
/-- `sbstat` from register-format fields. -/
def ArgSbstat.dec (r : RegF) : Option ArgSbstat := do
  let d ← sreg? r.d
  let sel ← SbSel.ofCode r.imm
  return { g := r.g, d, sel }
/-- `spawn` as register-format fields (R258). -/
def ArgSpawn.enc (m f : Nat) (x : ArgSpawn) : Raw :=
  .reg { regH m f x.g with a := x.a.val, b := x.h.val, c := x.r.val,
                           imm := x.mask.toNat + b2n x.hReg * 256 + b2n x.rReg * 512 }
/-- `spawn` from register-format fields. -/
def ArgSpawn.dec (r : RegF) : Option ArgSpawn := do
  let a ← sreg? r.a
  let h ← sreg? r.b
  let rr ← sreg? r.c
  return { g := r.g, a, hReg := r.imm / 256 % 2 == 1, h, rReg := r.imm / 512 % 2 == 1, r := rr,
           mask := BitVec.ofNat 8 r.imm }
/-- The selector of `cstat` (R322). -/
def CSel.code : CSel → Nat
  | .slot => 0 | .decisions => 1 | .held => 2 | .lost => 3
  | .fifo n => 0x10 + n.val
  | .offer n => 0x20 + n.val
  | .item n => 0x30 + n.val
/-- The selector of `cstat` of a number (R322). -/
def CSel.ofCode (k : Nat) : Option CSel :=
  if k = 0 then some .slot else if k = 1 then some .decisions else if k = 2 then some .held
  else if k = 3 then some .lost
  else if 0x30 ≤ k then (fin? 16 (k - 0x30)).map .item
  else if 0x20 ≤ k then (fin? 16 (k - 0x20)).map .offer
  else if 0x10 ≤ k then (fin? 8 (k - 0x10)).map .fifo
  else none
/-- `cstat` as register-format fields (R322). -/
def ArgCstat.enc (m f : Nat) (x : ArgCstat) : Raw :=
  .reg { regH m f x.g with d := x.d.val, a := x.a.val, imm := x.sel.code }
/-- `cstat` from register-format fields. -/
def ArgCstat.dec (r : RegF) : Option ArgCstat := do
  let d ← sreg? r.d
  let a ← sreg? r.a
  let sel ← CSel.ofCode r.imm
  return { g := r.g, d, a, sel }
/-- `amsg` as register-format fields (R335). -/
def ArgAmsg.enc (m f : Nat) (x : ArgAmsg) : Raw :=
  .reg { regH m f x.g with a := x.a.val, b := x.b.val, imm := x.cls.val + x.n.val * 32 }
/-- `amsg` from register-format fields. -/
def ArgAmsg.dec (r : RegF) : Option ArgAmsg := do
  let a ← sreg? r.a
  let b ← sreg? r.b
  return { g := r.g, a, cls := Fin.ofNat 32 r.imm, b, n := Fin.ofNat 8 (r.imm / 32) }
/-- `barv` as register-format fields (R351). -/
def ArgBarv.enc (m f : Nat) (x : ArgBarv) : Raw :=
  .reg { regH m f x.g with d := x.d.val, imm := x.n.val + b2n x.clu * 64 }
/-- `barv` from register-format fields. -/
def ArgBarv.dec (r : RegF) : Option ArgBarv := do
  let d ← sreg? r.d
  return { g := r.g, d, clu := r.imm / 64 % 2 == 1, n := Fin.ofNat 64 r.imm }
/-- `bcfg` as register-format fields (R353). -/
def ArgBcfg.enc (m f : Nat) (x : ArgBcfg) : Raw :=
  .reg { regH m f x.g with d := x.d.val, a := x.a.val, imm := x.n.val + x.die.val * 64 }
/-- `bcfg` from register-format fields. -/
def ArgBcfg.dec (r : RegF) : Option ArgBcfg := do
  let d ← sreg? r.d
  let a ← sreg? r.a
  return { g := r.g, d, a, n := Fin.ofNat 64 r.imm, die := Fin.ofNat 4 (r.imm / 64) }

/-! ### The opcode map (R43, R44) -/

/-- The fields of an instruction, none for an event of another agent. -/
def Instr.toRaw : Instr → Option Raw
  | .add x => some (x.enc 0x1 0)
  | .sub x => some (x.enc 0x2 0)
  | .mul x => some (x.enc 0x3 0)
  | .mulh x => some (x.enc 0x4 0)
  | .mulhu x => some (x.enc 0x5 0)
  | .div x => some (x.enc 0x6 0)
  | .divu x => some (x.enc 0x7 0)
  | .rem x => some (x.enc 0x8 0)
  | .remu x => some (x.enc 0x9 0)
  | .and x => some (x.enc 0xa 0)
  | .or x => some (x.enc 0xb 0)
  | .xor x => some (x.enc 0xc 0)
  | .andn x => some (x.enc 0xd 0)
  | .shl x => some (x.enc 0xe 0)
  | .shr x => some (x.enc 0xf 0)
  | .sar x => some (x.enc 0x10 0)
  | .rol x => some (x.enc 0x11 0)
  | .min x => some (x.enc 0x12 0)
  | .max x => some (x.enc 0x13 0)
  | .minu x => some (x.enc 0x14 0)
  | .maxu x => some (x.enc 0x15 0)
  | .clz x => some (x.enc 0x16 0)
  | .ctz x => some (x.enc 0x17 0)
  | .popc x => some (x.enc 0x18 0)
  | .bext x => some (x.enc 0x19 0)
  | .bins x => some (x.enc 0x1a 0)
  | .lea x => some (x.enc 0x1b 0)
  | .li x => some (x.enc 0x1c 0)
  | .mov x => some (x.enc 0x1d 0)
  | .sel x => some (x.enc 0x1e 0)
  | .cmp x => some (x.enc 0x1f)
  | .pand x => some (x.enc 0x20 0)
  | .por x => some (x.enc 0x21 0)
  | .pxor x => some (x.enc 0x22 0)
  | .pnot x => some (x.enc 0x23 0)
  | .ppack x => some (x.enc 0x24 0)
  | .punpk x => some (x.enc 0x25 0)
  | .br x => some (x.enc 0x28)
  | .jmp x => some (x.enc 0x29 0)
  | .call x => some (x.enc 0x2b 0)
  | .loop x => some (x.enc 0x2e 0)
  | .jr x => some (x.enc 0x2a 0)
  | .callr x => some (x.enc 0x2c 0)
  | .ret x => some (x.enc 0x2d 0)
  | .done x => some (x.enc 0x2f 0)
  | .rdsr x => some (x.enc 0x30 0)
  | .wrsr x => some (x.enc 0x31 0)
  | .fadd x => some (x.enc 0x35 0)
  | .fsub x => some (x.enc 0x36 0)
  | .fmul x => some (x.enc 0x37 0)
  | .fdiv x => some (x.enc 0x39 0)
  | .fmin x => some (x.enc 0x3b 0)
  | .fmax x => some (x.enc 0x3c 0)
  | .fma x => some (x.enc 0x38 0)
  | .fsqrt x => some (x.enc 0x3a 0)
  | .fcmp x => some (x.enc 0x3d)
  | .fcvt x => some (x.enc 0x3e)
  | .fclass x => some (x.enc 0x3f 0)
  | .vadd x => some (x.enc 0x40 0)
  | .vsub x => some (x.enc 0x41 0)
  | .vmul x => some (x.enc 0x42 0)
  | .vfma x => some (x.enc 0x43 0)
  | .vmin x => some (x.enc 0x44 0)
  | .vmax x => some (x.enc 0x45 0)
  | .vabs x => some (x.enc 0x46 0)
  | .vneg x => some (x.enc 0x47 0)
  | .vand x => some (x.enc 0x4a 0)
  | .vor x => some (x.enc 0x4b 0)
  | .vxor x => some (x.enc 0x4c 0)
  | .vshl x => some (x.enc 0x4d 0)
  | .vshr x => some (x.enc 0x4e 0)
  | .vsra x => some (x.enc 0x4f 0)
  | .vcmp x => some (x.enc 0x48)
  | .vsel x => some (x.enc 0x49 0)
  | .vcvt x => some (x.enc 0x50)
  | .vexpand x => some (x.enc 0x5d 0)
  | .vrcp x => some (x.enc 0x51 0)
  | .vrsqrt x => some (x.enc 0x52 0)
  | .vexp2 x => some (x.enc 0x53 0)
  | .vlog2 x => some (x.enc 0x54 0)
  | .vredsum x => some (x.enc 0x55 0)
  | .vredmax x => some (x.enc 0x56 0)
  | .vdot x => some (x.enc 0x5f 0)
  | .vsplat x => some (x.enc 0x57 0)
  | .vperm x => some (x.enc 0x58 0)
  | .vidx x => some (x.enc 0x59 0)
  | .vmovs x => some (x.enc 0x60)
  | .vqnt x => some (x.enc 0x5a 0)
  | .vdqnt x => some (x.enc 0x5b 0)
  | .vscacc x => some (x.enc 0x5c 0)
  | .ldtab x => some (x.enc 0x5e 0)
  | .mma x => some (x.enc 0x68)
  | .accz x => some (x.enc 0x69 0)
  | .accsc x => some (x.enc 0x6c)
  | .accst x => some (x.enc 0x6d)
  | .accld x => some (x.enc 0x6e)
  | .accrd x => some (x.enc 0x6a 0)
  | .accwr x => some (x.enc 0x6b 0)
  | .ld x => some (x.enc 0x70)
  | .st x => some (x.enc 0x71)
  | .ldc x => some (x.enc 0x72)
  | .vld x => some (x.enc 0x73 0)
  | .vst x => some (x.enc 0x74 0)
  | .vldc x => some (x.enc 0x75 0)
  | .vgat x => some (x.enc 0x76 0)
  | .vsca x => some (x.enc 0x77 0)
  | .talloc x => some (x.enc 0x78 0)
  | .tallocTry x => some (x.enc 0x78 1)
  | .tseal x => some (x.enc 0x79 0)
  | .tdrop x => some (x.enc 0x7a 0)
  | .tcount x => some (x.enc 0x7b 0)
  | .poolcfg x => some (x.enc 0x7c 0)
  | .poolst x => some (x.enc 0x7d 0)
  | .send x => some (x.enc 0x80 0)
  | .sendLay x => some (x.enc 0x80 1)
  | .sendt x => some (x.enc 0x81 0)
  | .fill x => some (x.enc 0x82 0)
  | .fillLay x => some (x.enc 0x82 1)
  | .wait x => some (x.enc 0x83 0)
  | .sbstat x => some (x.enc 0x84 0)
  | .fence x => some (x.enc 0x85)
  | .ldsc x => some (x.enc 0x86)
  | .stsc x => some (x.enc 0x87)
  | .xlatR x => some (x.enc 0x88 0)
  | .xlatW x => some (x.enc 0x88 1)
  | .xlatSet0 x => some (x.enc 0x88 2)
  | .xlatSet1 x => some (x.enc 0x88 3)
  | .tinvAll x => some (x.enc 0x89 0)
  | .tinvAsid x => some (x.enc 0x89 1)
  | .tinvPage x => some (x.enc 0x89 2)
  | .keysetInst x => some (x.enc 0x8a 0)
  | .keysetRet x => some (x.enc 0x8a 1)
  | .keysetSt x => some (x.enc 0x8a 2)
  | .spawn x => some (x.enc 0x90 0)
  | .callat x => some (x.enc 0x91 0)
  | .reply x => some (x.enc 0x92 0)
  | .jnew x => some (x.enc 0x93 0)
  | .jdec x => some (x.enc 0x94 0)
  | .fnew x => some (x.enc 0x95 0)
  | .fres x => some (x.enc 0x96)
  | .freg x => some (x.enc 0x97 0)
  | .tid x => some (x.enc 0x98 0)
  | .rgnactNew x => some (x.enc 0x99 0)
  | .rgnactPark x => some (x.enc 0x99 1)
  | .rgnactResume x => some (x.enc 0x99 2)
  | .rgnactQuiet x => some (x.enc 0x99 3)
  | .rgnkillKill x => some (x.enc 0x9a 0)
  | .rgnkillExit x => some (x.enc 0x9a 1)
  | .budgetRd x => some (x.enc 0x9b 0)
  | .budgetExt x => some (x.enc 0x9b 1)
  | .put x => some (x.enc 0xa0 0)
  | .get x => some (x.enc 0xa1 0)
  | .alt x => some (x.enc 0xa2 0)
  | .pbind x => some (x.enc 0xa3 0)
  | .portst x => some (x.enc 0xa4 0)
  | .cload x => some (x.enc 0xa5 0)
  | .cdrop x => some (x.enc 0xa6 0)
  | .cstat x => some (x.enc 0xa7 0)
  | .amsg x => some (x.enc 0xb0 0)
  | .htabSet x => some (x.enc 0xb1 0)
  | .htabClr x => some (x.enc 0xb1 1)
  | .htabEpnew x => some (x.enc 0xb1 2)
  | .htabEpdel x => some (x.enc 0xb1 3)
  | .htabRd x => some (x.enc 0xb1 4)
  | .aadd x => some (x.enc 0xb2)
  | .aand x => some (x.enc 0xb3)
  | .aor x => some (x.enc 0xb4)
  | .axor x => some (x.enc 0xb5)
  | .amax x => some (x.enc 0xb6)
  | .amin x => some (x.enc 0xb7)
  | .aswp x => some (x.enc 0xb8)
  | .acas x => some (x.enc 0xb9)
  | .epmov x => some (x.enc 0xba 0)
  | .epparkPark x => some (x.enc 0xbb 0)
  | .epparkResume x => some (x.enc 0xbb 1)
  | .barv x => some (x.enc 0xc0 0)
  | .barw x => some (x.enc 0xc1 0)
  | .redp x => some (x.enc 0xc3 0)
  | .redg x => some (x.enc 0xc4 0)
  | .bcfgSet x => some (x.enc 0xc2 0)
  | .bcfgFree x => some (x.enc 0xc2 1)
  | .bcfgBrk x => some (x.enc 0xc2 2)
  | .bcfgRd x => some (x.enc 0xc2 3)
  | .rcfgSet x => some (x.enc 0xc5 0)
  | .rcfgFree x => some (x.enc 0xc5 1)
  | .rcfgBrk x => some (x.enc 0xc5 2)
  | .rcfgRd x => some (x.enc 0xc5 3)
  | .trapCall x => some (x.enc 0xc8 0)
  | .trapRing x => some (x.enc 0xc8 1)
  | .eret x => some (x.enc 0xc9 0)
  | .brk x => some (x.enc 0xca 0)
  | .rfill x => some (x.enc 0xcb 0)
  | .rretry x => some (x.enc 0xcc 0)
  | .rretryCtx x => some (x.enc 0xcc 1)
  | .rskip x => some (x.enc 0xcd 0)
  | .rkillEnt x => some (x.enc 0xce 0)
  | .rkillCtx x => some (x.enc 0xce 1)
  | .frzRgn x => some (x.enc 0xcf 0)
  | .frzRd x => some (x.enc 0xcf 1)
  | .hpostHead x => some (x.enc 0xd0 0)
  | .hpostDone x => some (x.enc 0xd0 1)
  | .hpollTail x => some (x.enc 0xd1 0)
  | .hpollHead x => some (x.enc 0xd1 1)
  | .hpollDone x => some (x.enc 0xd1 2)
  | .hpollWait x => some (x.enc 0xd1 3)
  | .lkrotRot x => some (x.enc 0xd2 0)
  | .lkrotSt x => some (x.enc 0xd2 1)
  | .ngloadLoad _ => none
  | .tenantCreate _ => none
  | .placerDecision _ => none
  | .placerAging _ => none
  | .preemptionRequest _ => none
  | .abandonedTile _ _ _ => none
  | .stallWatchdog _ => none
  | .stageGovernor _ _ => none
  | .barrierRelease _ => none
  | .reductionResult _ => none
  | .walkComplete _ _ _ => none
  | .keySlotEmpty _ => none
  | .thaw _ => none
  | .scrub _ => none
  | .copyTokenRefill _ _ => none
  | .waleGroupReceive _ => none
  | .waleResendTimeout _ => none
  | .waleRetrainComplete _ => none
  | .waleDownTimeout _ => none
  | .rotationKeyInstall _ => none
  | .rotationSwitch _ => none
  | .rotationRetire _ => none
  | .notifyWrite _ _ _ => none
  | .channelUnmap _ _ => none
  | .channelMap _ => none
  | .hostRequest _ => none
  | .spdmRequest _ => none
  | .moduleReset _ => none
  | .imageCommit _ => none
  | .powerSample _ _ => none
  | .routerPowerGate _ _ => none
  | .routerWake _ _ => none
  | .vaultTemperature _ _ => none
  | .tenantTeardown _ => none
  | .isolationPartitionConfigure _ => none
  | .fetchQueueFill => none
  | .dispatch => none
  | .readyRecordArrival => none
  | .budget => none
  | .budgetHardLimit => none
  | .trapEntry => none
  | .asynchronousTrap => none
  | .supervisorRunCap => none
  | .handlerRun => none
  | .handlerCap => none
  | .tileOpStart => none
  | .tileOpRetire => none
  | .copyStart => none
  | .copyChunkArrival => none
  | .copyAcknowledgement => none
  | .copyRetire => none
  | .tallocRequestArrival => none
  | .tallocCancel => none
  | .grantReplyArrival => none
  | .handleOperationArrival => none
  | .jdecArrival => none
  | .fresArrival => none
  | .fregArrival => none
  | .ownerReplyArrival => none
  | .messageArrival => none
  | .returnedMessageArrival => none
  | .messageInjection => none
  | .atomicResultArrival => none
  | .peerAccessArrival => none
  | .peerAbsentReturn => none
  | .offerArrival => none
  | .decide => none
  | .fifoItemArrival => none
  | .hubCancelArrival => none
  | .portCompletionArrival => none
  | .reductionCombine => none
  | .reductionPartialArrival => none
  | .scAnnouncementArrival => none
  | .windowClose => none
  | .stationRequest => none
  | .ringEntryFreed => none
  | .writePerformedAtHome => none
  | .loadValueReturned => none
  | .pbindRequestArrival => none
  | .epmovTargetArrival => none

/-- The register-format instructions with majors 0x0..0x1f (R43). -/
def RegF.cand00 (r : RegF) : Option Instr :=
  if r.major = 0x1 then (ArgInt.dec r).map .add
  else if r.major = 0x2 then (ArgInt.dec r).map .sub
  else if r.major = 0x3 then (ArgInt.dec r).map .mul
  else if r.major = 0x4 then (ArgInt.dec r).map .mulh
  else if r.major = 0x5 then (ArgInt.dec r).map .mulhu
  else if r.major = 0x6 then (ArgInt.dec r).map .div
  else if r.major = 0x7 then (ArgInt.dec r).map .divu
  else if r.major = 0x8 then (ArgInt.dec r).map .rem
  else if r.major = 0x9 then (ArgInt.dec r).map .remu
  else if r.major = 0xa then (ArgInt.dec r).map .and
  else if r.major = 0xb then (ArgInt.dec r).map .or
  else if r.major = 0xc then (ArgInt.dec r).map .xor
  else if r.major = 0xd then (ArgInt.dec r).map .andn
  else if r.major = 0xe then (ArgInt.dec r).map .shl
  else if r.major = 0xf then (ArgInt.dec r).map .shr
  else if r.major = 0x10 then (ArgInt.dec r).map .sar
  else if r.major = 0x11 then (ArgInt.dec r).map .rol
  else if r.major = 0x12 then (ArgInt.dec r).map .min
  else if r.major = 0x13 then (ArgInt.dec r).map .max
  else if r.major = 0x14 then (ArgInt.dec r).map .minu
  else if r.major = 0x15 then (ArgInt.dec r).map .maxu
  else if r.major = 0x16 then (ArgTDA.dec r).map .clz
  else if r.major = 0x17 then (ArgTDA.dec r).map .ctz
  else if r.major = 0x18 then (ArgTDA.dec r).map .popc
  else if r.major = 0x19 then (ArgBext.dec r).map .bext
  else if r.major = 0x1a then (ArgBins.dec r).map .bins
  else if r.major = 0x1d then (ArgMov.dec r).map .mov
  else if r.major = 0x1e then (ArgSel.dec r).map .sel
  else if r.major = 0x1f then (ArgCmp.dec r).map .cmp
  else none

/-- The register-format instructions with majors 0x20..0x3f (R43). -/
def RegF.cand20 (r : RegF) : Option Instr :=
  if r.major = 0x20 then (ArgP3.dec r).map .pand
  else if r.major = 0x21 then (ArgP3.dec r).map .por
  else if r.major = 0x22 then (ArgP3.dec r).map .pxor
  else if r.major = 0x23 then (ArgP2.dec r).map .pnot
  else if r.major = 0x24 then (ArgD.dec r).map .ppack
  else if r.major = 0x25 then (ArgPunpk.dec r).map .punpk
  else if r.major = 0x2a then (ArgA.dec r).map .jr
  else if r.major = 0x2c then (ArgA.dec r).map .callr
  else if r.major = 0x2d then (ArgA.dec r).map .ret
  else if r.major = 0x2f then (ArgG.dec r).map .done
  else if r.major = 0x30 then (ArgRdsr.dec r).map .rdsr
  else if r.major = 0x31 then (ArgWrsr.dec r).map .wrsr
  else if r.major = 0x35 then (ArgFAr.dec r).map .fadd
  else if r.major = 0x36 then (ArgFAr.dec r).map .fsub
  else if r.major = 0x37 then (ArgFAr.dec r).map .fmul
  else if r.major = 0x38 then (ArgFma.dec r).map .fma
  else if r.major = 0x39 then (ArgFAr.dec r).map .fdiv
  else if r.major = 0x3a then (ArgFsqrt.dec r).map .fsqrt
  else if r.major = 0x3b then (ArgFAr.dec r).map .fmin
  else if r.major = 0x3c then (ArgFAr.dec r).map .fmax
  else if r.major = 0x3d then (ArgFcmp.dec r).map .fcmp
  else if r.major = 0x3e then (ArgFcvt.dec r).map .fcvt
  else if r.major = 0x3f then (ArgTDA.dec r).map .fclass
  else none

/-- The register-format instructions with majors 0x40..0x67 (R43). -/
def RegF.cand40 (r : RegF) : Option Instr :=
  if r.major = 0x40 then (ArgV.dec r).map .vadd
  else if r.major = 0x41 then (ArgV.dec r).map .vsub
  else if r.major = 0x42 then (ArgV.dec r).map .vmul
  else if r.major = 0x43 then (ArgVfma.dec r).map .vfma
  else if r.major = 0x44 then (ArgV.dec r).map .vmin
  else if r.major = 0x45 then (ArgV.dec r).map .vmax
  else if r.major = 0x46 then (ArgVun.dec r).map .vabs
  else if r.major = 0x47 then (ArgVun.dec r).map .vneg
  else if r.major = 0x48 then (ArgVcmp.dec r).map .vcmp
  else if r.major = 0x49 then (ArgVsel.dec r).map .vsel
  else if r.major = 0x4a then (ArgV.dec r).map .vand
  else if r.major = 0x4b then (ArgV.dec r).map .vor
  else if r.major = 0x4c then (ArgV.dec r).map .vxor
  else if r.major = 0x4d then (ArgV.dec r).map .vshl
  else if r.major = 0x4e then (ArgV.dec r).map .vshr
  else if r.major = 0x4f then (ArgV.dec r).map .vsra
  else if r.major = 0x50 then (ArgVcvt.dec r).map .vcvt
  else if r.major = 0x51 then (ArgVV.dec r).map .vrcp
  else if r.major = 0x52 then (ArgVV.dec r).map .vrsqrt
  else if r.major = 0x53 then (ArgVV.dec r).map .vexp2
  else if r.major = 0x54 then (ArgVV.dec r).map .vlog2
  else if r.major = 0x55 then (ArgVred.dec r).map .vredsum
  else if r.major = 0x56 then (ArgVred.dec r).map .vredmax
  else if r.major = 0x57 then (ArgVsplat.dec r).map .vsplat
  else if r.major = 0x58 then (ArgVperm.dec r).map .vperm
  else if r.major = 0x59 then (ArgVidx.dec r).map .vidx
  else if r.major = 0x5a then (ArgVq.dec r).map .vqnt
  else if r.major = 0x5b then (ArgVq.dec r).map .vdqnt
  else if r.major = 0x5c then (ArgVscacc.dec r).map .vscacc
  else if r.major = 0x5d then (ArgVexp.dec r).map .vexpand
  else if r.major = 0x5f then (ArgVdot.dec r).map .vdot
  else if r.major = 0x60 then (ArgVmovs.dec r).map .vmovs
  else none

/-- The register-format instructions with majors 0x78..0x8f (R43). -/
def RegF.cand78 (r : RegF) : Option Instr :=
  if r.major = 0x78 ∧ r.fn = 0 then (ArgDABi.dec r).map .talloc
  else if r.major = 0x78 ∧ r.fn = 1 then (ArgSel.dec r).map .tallocTry
  else if r.major = 0x79 then (ArgABi.dec r).map .tseal
  else if r.major = 0x7a then (ArgA.dec r).map .tdrop
  else if r.major = 0x7b then (ArgDA.dec r).map .tcount
  else if r.major = 0x7c then (ArgPoolcfg.dec r).map .poolcfg
  else if r.major = 0x7d then (ArgPoolst.dec r).map .poolst
  else if r.major = 0x83 then (ArgWait.dec r).map .wait
  else if r.major = 0x84 then (ArgSbstat.dec r).map .sbstat
  else if r.major = 0x85 then (ArgFence.dec r).map .fence
  else if r.major = 0x88 ∧ r.fn = 0 then (ArgDA.dec r).map .xlatR
  else if r.major = 0x88 ∧ r.fn = 1 then (ArgDA.dec r).map .xlatW
  else if r.major = 0x88 ∧ r.fn = 2 then (ArgDA.dec r).map .xlatSet0
  else if r.major = 0x88 ∧ r.fn = 3 then (ArgDA.dec r).map .xlatSet1
  else if r.major = 0x89 ∧ r.fn = 0 then (ArgG.dec r).map .tinvAll
  else if r.major = 0x89 ∧ r.fn = 1 then (ArgA.dec r).map .tinvAsid
  else if r.major = 0x89 ∧ r.fn = 2 then (ArgAB.dec r).map .tinvPage
  else if r.major = 0x8a ∧ r.fn = 0 then (ArgDA.dec r).map .keysetInst
  else if r.major = 0x8a ∧ r.fn = 1 then (ArgDA.dec r).map .keysetRet
  else if r.major = 0x8a ∧ r.fn = 2 then (ArgDA.dec r).map .keysetSt
  else none

/-- The register-format instructions with majors 0x90..0xaf (R43). -/
def RegF.cand90 (r : RegF) : Option Instr :=
  if r.major = 0x90 then (ArgSpawn.dec r).map .spawn
  else if r.major = 0x91 then (ArgCallat.dec r).map .callat
  else if r.major = 0x92 then (ArgA.dec r).map .reply
  else if r.major = 0x93 then (ArgDABi.dec r).map .jnew
  else if r.major = 0x94 then (ArgABi.dec r).map .jdec
  else if r.major = 0x95 then (ArgDA.dec r).map .fnew
  else if r.major = 0x96 then (ArgFres.dec r).map .fres
  else if r.major = 0x97 then (ArgDAB.dec r).map .freg
  else if r.major = 0x98 then (ArgTid.dec r).map .tid
  else if r.major = 0x99 ∧ r.fn = 0 then (ArgDAB.dec r).map .rgnactNew
  else if r.major = 0x99 ∧ r.fn = 1 then (ArgDA.dec r).map .rgnactPark
  else if r.major = 0x99 ∧ r.fn = 2 then (ArgDA.dec r).map .rgnactResume
  else if r.major = 0x99 ∧ r.fn = 3 then (ArgDA.dec r).map .rgnactQuiet
  else if r.major = 0x9a ∧ r.fn = 0 then (ArgDA.dec r).map .rgnkillKill
  else if r.major = 0x9a ∧ r.fn = 1 then (ArgDA.dec r).map .rgnkillExit
  else if r.major = 0x9b ∧ r.fn = 0 then (ArgD.dec r).map .budgetRd
  else if r.major = 0x9b ∧ r.fn = 1 then (ArgD.dec r).map .budgetExt
  else if r.major = 0xa0 then (ArgPut.dec r).map .put
  else if r.major = 0xa1 then (ArgGet.dec r).map .get
  else if r.major = 0xa2 then (ArgAlt.dec r).map .alt
  else if r.major = 0xa3 then (ArgPbind.dec r).map .pbind
  else if r.major = 0xa4 then (ArgPortst.dec r).map .portst
  else if r.major = 0xa5 then (ArgDAB.dec r).map .cload
  else if r.major = 0xa6 then (ArgDA.dec r).map .cdrop
  else if r.major = 0xa7 then (ArgCstat.dec r).map .cstat
  else none

/-- The register-format instructions with majors 0xb0..0xc7 (R43). -/
def RegF.candb0 (r : RegF) : Option Instr :=
  if r.major = 0xb0 then (ArgAmsg.dec r).map .amsg
  else if r.major = 0xb1 ∧ r.fn = 0 then (ArgHtab.dec r).map .htabSet
  else if r.major = 0xb1 ∧ r.fn = 1 then (ArgHtab.dec r).map .htabClr
  else if r.major = 0xb1 ∧ r.fn = 2 then (ArgD.dec r).map .htabEpnew
  else if r.major = 0xb1 ∧ r.fn = 3 then (ArgDA.dec r).map .htabEpdel
  else if r.major = 0xb1 ∧ r.fn = 4 then (ArgHtab.dec r).map .htabRd
  else if r.major = 0xba then (ArgDAB.dec r).map .epmov
  else if r.major = 0xbb ∧ r.fn = 0 then (ArgDA.dec r).map .epparkPark
  else if r.major = 0xbb ∧ r.fn = 1 then (ArgDA.dec r).map .epparkResume
  else if r.major = 0xc0 then (ArgBarv.dec r).map .barv
  else if r.major = 0xc1 then (ArgDA.dec r).map .barw
  else if r.major = 0xc2 ∧ r.fn = 0 then (ArgBcfg.dec r).map .bcfgSet
  else if r.major = 0xc2 ∧ r.fn = 1 then (ArgBcfg.dec r).map .bcfgFree
  else if r.major = 0xc2 ∧ r.fn = 2 then (ArgBcfg.dec r).map .bcfgBrk
  else if r.major = 0xc2 ∧ r.fn = 3 then (ArgBcfg.dec r).map .bcfgRd
  else if r.major = 0xc3 then (ArgRedp.dec r).map .redp
  else if r.major = 0xc4 then (ArgRedg.dec r).map .redg
  else if r.major = 0xc5 ∧ r.fn = 0 then (ArgRcfg.dec r).map .rcfgSet
  else if r.major = 0xc5 ∧ r.fn = 1 then (ArgRcfg.dec r).map .rcfgFree
  else if r.major = 0xc5 ∧ r.fn = 2 then (ArgRcfg.dec r).map .rcfgBrk
  else if r.major = 0xc5 ∧ r.fn = 3 then (ArgRcfg.dec r).map .rcfgRd
  else none

/-- The register-format instructions with majors 0xc8..0xff (R43). -/
def RegF.candc8 (r : RegF) : Option Instr :=
  if r.major = 0xc8 ∧ r.fn = 0 then (ArgCode.dec r).map .trapCall
  else if r.major = 0xc8 ∧ r.fn = 1 then (ArgTrapRing.dec r).map .trapRing
  else if r.major = 0xc9 then (ArgG.dec r).map .eret
  else if r.major = 0xca then (ArgCode.dec r).map .brk
  else if r.major = 0xcb then (ArgRfill.dec r).map .rfill
  else if r.major = 0xcc ∧ r.fn = 0 then (ArgDA.dec r).map .rretry
  else if r.major = 0xcc ∧ r.fn = 1 then (ArgD.dec r).map .rretryCtx
  else if r.major = 0xcd then (ArgDA.dec r).map .rskip
  else if r.major = 0xce ∧ r.fn = 0 then (ArgDA.dec r).map .rkillEnt
  else if r.major = 0xce ∧ r.fn = 1 then (ArgD.dec r).map .rkillCtx
  else if r.major = 0xcf ∧ r.fn = 0 then (ArgDA.dec r).map .frzRgn
  else if r.major = 0xcf ∧ r.fn = 1 then (ArgDA.dec r).map .frzRd
  else if r.major = 0xd0 ∧ r.fn = 0 then (ArgDAB.dec r).map .hpostHead
  else if r.major = 0xd0 ∧ r.fn = 1 then (ArgDAB.dec r).map .hpostDone
  else if r.major = 0xd1 ∧ r.fn = 0 then (ArgDA.dec r).map .hpollTail
  else if r.major = 0xd1 ∧ r.fn = 1 then (ArgDA.dec r).map .hpollHead
  else if r.major = 0xd1 ∧ r.fn = 2 then (ArgDA.dec r).map .hpollDone
  else if r.major = 0xd1 ∧ r.fn = 3 then (ArgDAB.dec r).map .hpollWait
  else if r.major = 0xd2 ∧ r.fn = 0 then (ArgDA.dec r).map .lkrotRot
  else if r.major = 0xd2 ∧ r.fn = 1 then (ArgDA.dec r).map .lkrotSt
  else none

/-- The instruction that register-format fields name, unused fields aside (R43). -/
def RegF.cand (r : RegF) : Option Instr :=
  if r.major < 0x20 then r.cand00
  else if r.major < 0x40 then r.cand20
  else if r.major < 0x68 then r.cand40
  else if r.major < 0x90 then r.cand78
  else if r.major < 0xb0 then r.cand90
  else if r.major < 0xc8 then r.candb0
  else r.candc8

/-- The imm-format instructions (R43), unused fields aside. -/
def ImmF.cand (r : ImmF) : Option Instr :=
  if r.major = 0x1c then (ArgLi.dec r).map .li
  else none

/-- The mem-format instructions (R43), unused fields aside. -/
def MemF.cand (r : MemF) : Option Instr :=
  if r.major = 0x1b then (ArgLea.dec r).map .lea
  else if r.major = 0x5e then (ArgLdtab.dec r).map .ldtab
  else if r.major = 0x70 then (ArgLd.dec r).map .ld
  else if r.major = 0x71 then (ArgLd.dec r).map .st
  else if r.major = 0x72 then (ArgLd.dec r).map .ldc
  else if r.major = 0x73 then (ArgVld.dec r).map .vld
  else if r.major = 0x74 then (ArgVld.dec r).map .vst
  else if r.major = 0x75 then (ArgVld.dec r).map .vldc
  else if r.major = 0x76 then (ArgVgat.dec r).map .vgat
  else if r.major = 0x77 then (ArgVgat.dec r).map .vsca
  else if r.major = 0x86 then (ArgLdsc.dec r).map .ldsc
  else if r.major = 0x87 then (ArgLdsc.dec r).map .stsc
  else if r.major = 0xb2 then (ArgAtom.dec r).map .aadd
  else if r.major = 0xb3 then (ArgAtom.dec r).map .aand
  else if r.major = 0xb4 then (ArgAtom.dec r).map .aor
  else if r.major = 0xb5 then (ArgAtom.dec r).map .axor
  else if r.major = 0xb6 then (ArgAtom.dec r).map .amax
  else if r.major = 0xb7 then (ArgAtom.dec r).map .amin
  else if r.major = 0xb8 then (ArgAtom.dec r).map .aswp
  else if r.major = 0xb9 then (ArgAtom.dec r).map .acas
  else none

/-- The br-format instructions (R43), unused fields aside. -/
def BrF.cand (r : BrF) : Option Instr :=
  if r.major = 0x28 then (ArgBr.dec r).map .br
  else if r.major = 0x29 then (ArgT.dec r).map .jmp
  else if r.major = 0x2b then (ArgT.dec r).map .call
  else if r.major = 0x2e then (ArgLoop.dec r).map .loop
  else none

/-- The mat-format instructions (R43), unused fields aside. -/
def MatF.cand (r : MatF) : Option Instr :=
  if r.major = 0x68 then (ArgMma.dec r).map .mma
  else if r.major = 0x69 then (ArgAccz.dec r).map .accz
  else if r.major = 0x6a then (ArgAccrd.dec r).map .accrd
  else if r.major = 0x6b then (ArgAccwr.dec r).map .accwr
  else if r.major = 0x6c then (ArgAccsc.dec r).map .accsc
  else if r.major = 0x6d then (ArgAccmv.dec r).map .accst
  else if r.major = 0x6e then (ArgAccmv.dec r).map .accld
  else none

/-- The asy-format instructions (R43), unused fields aside. -/
def AsyF.cand (r : AsyF) : Option Instr :=
  if r.major = 0x80 ∧ r.fn = 0 then (ArgSend.dec r).map .send
  else if r.major = 0x80 ∧ r.fn = 1 then (ArgSend.dec r).map .sendLay
  else if r.major = 0x81 then (ArgSendt.dec r).map .sendt
  else if r.major = 0x82 ∧ r.fn = 0 then (ArgFill.dec r).map .fill
  else if r.major = 0x82 ∧ r.fn = 1 then (ArgFill.dec r).map .fillLay
  else none

/-- The instruction that the fields name, unused fields aside. -/
def Raw.cand : Raw → Option Instr
  | .reg r => r.cand
  | .imm r => r.cand
  | .mem r => r.cand
  | .br r => r.cand
  | .mat r => r.cand
  | .asy r => r.cand

/-! ### The decoder and the encoder -/

/-- Why a word is not an instruction (R45). -/
inductive DecodeErr where
  /-- The major opcode is unassigned (R43). -/
  | unassigned
  /-- The major opcode is assigned and another field is malformed (R45). -/
  | malformed
deriving DecidableEq, Repr

/-- The 96-bit word of an instruction; 0 for an event of another agent, which has no word. -/
def encode (i : Instr) : Nat :=
  match i.toRaw with
  | some r => r.pack
  | none => 0

/-- The decoder: total on every word, refusing by name. A word is an instruction when the instruction its fields
name is well-formed and every field it does not use is zero, that is when the instruction's own fields are exactly
the word's (R34, R45). -/
def decode (w : Nat) : Except DecodeErr Instr :=
  match unpack w with
  | none => .error .unassigned
  | some r =>
    match r.cand with
    | none => .error .malformed
    | some i => if i.wf && i.toRaw == some r then .ok i else .error .malformed

/-- The little-endian value of a list of bytes, byte 0 first (R25). -/
def leNat : List Byte → Nat
  | [] => 0
  | b :: bs => b.toNat + 256 * leNat bs

/-- The n little-endian bytes of a value (R25). -/
def leBytes : Nat → Nat → List Byte
  | 0, _ => []
  | n + 1, v => BitVec.ofNat 8 v :: leBytes n (v / 256)

/-- Decoding of the bytes of one slot and the bytes after it; a slot has 12 bytes, byte k holding bits
[8k+7:8k] (R25). -/
def decodeBytes (bs : List Byte) : Except DecodeErr (Instr × List Byte) :=
  if bs.length < 12 then .error .malformed
  else (decode (leNat (bs.take 12))).map (·, bs.drop 12)

/-- The instruction of an opcode-table word: its 12 bytes as the hardware stores them, given to the decoder. -/
def decodeTableWord (nbits w : Nat) : Option Instr :=
  match decodeBytes (leBytes 12 (w % 2 ^ nbits)) with
  | .ok (i, _) => some i
  | .error _ => none

/-! ### The fetch line -/

/-- The five slots and the line word of a 64-byte line given as its 512-bit little-endian value (R25). -/
structure Line where
  slots : List Nat
  lineWord : Nat
deriving DecidableEq, Repr

/-- The line of a 512-bit value (R25). -/
def Line.ofNat (v : Nat) : Line :=
  { slots := [slice v 0 96, slice v 96 96, slice v 192 96, slice v 288 96, slice v 384 96], lineWord := slice v 480 32 }

/-- The 512-bit value of a line (R25). -/
def Line.toNat (l : Line) : Nat :=
  l.slots.getD 0 0 + l.slots.getD 1 0 * 2 ^ 96 + l.slots.getD 2 0 * 2 ^ 192 + l.slots.getD 3 0 * 2 ^ 288
    + l.slots.getD 4 0 * 2 ^ 384 + l.lineWord * 2 ^ 480

/-- Slot s of the line. -/
def Line.slot (l : Line) (s : Nat) : Nat := l.slots.getD s 0

/-- Target bit of slot s (R26). -/
def Line.target (l : Line) (s : Nat) : Bool := bit l.lineWord (19 + s)

/-- Pair bit of slots s and s + 1 (R26). -/
def Line.pair (l : Line) (s : Nat) : Bool := s < 4 && bit l.lineWord (15 + s)

/-- The XOR of the first n bytes of a value, byte 0 first. -/
def xorBytes : Nat → Nat → Nat
  | 0, _ => 0
  | n + 1, v => (v % 256) ^^^ xorBytes n (v / 256)

/-- The parity byte of a line: the XOR of bytes 0..62 (R27). -/
def parityOf (v : Nat) : Nat := xorBytes 63 v

/-- The syndrome of a line: the XOR of its 64 bytes, zero when the parity holds (R27, R45). -/
def syndrome (v : Nat) : Nat := xorBytes 64 v

/-- A line word with its parity byte set (R26, R27). -/
def Line.sealed (l : Line) : Line :=
  let l0 := { l with lineWord := l.lineWord % 2 ^ 24 }
  { l0 with lineWord := l0.lineWord + parityOf l0.toNat * 2 ^ 24 }

/-- The canonical filler `or s0, s0, s0` (R47). -/
def fillerWord : Nat := 0x0b * 2 ^ 88

/-! ### Issue classes and the operands that a word's fields name (R31, R44) -/

/-- The issue classes (R31). -/
inductive IClass where
  | I | F | M | A | B | S
deriving DecidableEq, Repr

/-- The issue class of an assigned major opcode (R44). -/
def classOf (m : Nat) : Option IClass :=
  if (fmtOf m).isNone then none
  else if m = 0x28 || m = 0x29 || m = 0x2a || m = 0x2b || m = 0x2c || m = 0x2d || m = 0x2e then some .B
  else if m = 0x2f || m = 0x31 || m = 0x7c || m = 0x83 || m = 0x85 || m = 0x86 || m = 0x87 || m = 0x89 || m = 0x8a
      || (0x99 ≤ m && m ≤ 0x9b) || m = 0xa3 || m = 0xa5 || m = 0xa6 || m = 0xb1 || m = 0xba || m = 0xbb || m = 0xc2
      || m = 0xc5 || (0xc8 ≤ m && m ≤ 0xcf) || m = 0xd2 then some .S
  else if m = 0x5e || (0x70 ≤ m && m ≤ 0x7d) || m = 0x88 || (0x90 ≤ m && m ≤ 0x97) || (0xa0 ≤ m && m ≤ 0xa2)
      || m = 0xa7 || m = 0xb0 || (0xb2 ≤ m && m ≤ 0xb9) || m = 0xc0 || m = 0xc1 || m = 0xc3 || m = 0xc4 || m = 0xd0
      || m = 0xd1 then some .M
  else if (0x68 ≤ m && m ≤ 0x6e) || (0x80 ≤ m && m ≤ 0x82) then some .A
  else if 0x35 ≤ m && m ≤ 0x60 then some .F
  else some .I

/-- The number of set bits of a 16-bit mask. -/
def popMask (k : Nat) : Nat := ((List.range 16).filter (bit k)).length

/-- A run of n consecutive operand values from k. -/
def runFrom (k n : Nat) : List Nat := (List.range n).map (k + ·)

/-- The operand values an instruction's fields name as sources: field values of R35, its guard predicate among them
(R31). Implicit sources (`tbl` for NT4 codes, the predicates of `ppack`, the registers of `spawn`'s mask, of
`callat`, of `alt`'s out slots, of `amsg`'s words and of `acas`'s pair, the old value of a partly written
destination) are named too. -/
def Raw.reads : Raw → List Nat
  | .imm f => [pcode (Fin.ofNat 8 f.gp)]
  | .br f => pcode (Fin.ofNat 8 f.gp) :: (if f.major = 0x28 || f.major = 0x2e then [f.a] else [])
  | .mem f =>
    pcode (Fin.ofNat 8 f.gp) :: f.base :: f.index ::
      ((if f.major = 0x71 || f.major = 0x74 || f.major = 0x77 || f.major = 0x87 then [f.data] else [])
        ++ (if f.major = 0xb9 then [f.index + 1] else []))
  | .mat f =>
    pcode (Fin.ofNat 8 f.gp) ::
      (if f.major = 0x6a then [f.a]
       else if f.major = 0x6b then [f.a, f.b]
       else [f.d, f.a, f.b] ++ (if f.cact = 0 then [] else [f.c])
         ++ (if f.major = 0x68 && (f.pairc = 3 || f.pairc = 4) then [110] else []))
  | .asy f => pcode (Fin.ofNat 8 f.gp) :: f.a :: f.b :: (if f.cact = 0 then [] else [f.c])
  | .reg f =>
    let m := f.major
    let bb := if f.isel = 1 then [] else [f.b]
    pcode (Fin.ofNat 8 f.gp) ::
      (if m = 0x24 then runFrom 96 8
       else if m = 0x25 then [f.a]
       else if m = 0x1a then f.a :: f.c :: bb
       else if m = 0x1e then f.a :: f.c :: bb
       else if m = 0x38 || m = 0x43 || m = 0x49 || m = 0x55 || m = 0x56 || m = 0x5f then f.a :: f.c :: bb
       else if m = 0x5a || m = 0x5c then f.d :: f.a :: bb
       else if m = 0x5b || m = 0x5d then f.a :: (bb ++ (if f.ty = 11 then [110] else []))
       else if m = 0x60 then (if f.fn = 1 then [f.d, f.a] else [f.a])
       else if m = 0x7c then [f.a, f.b, f.c]
       else if m = 0x90 then
         f.a :: f.b :: f.c :: ((List.range 8).filter (bit f.imm)).map (4 + ·)
       else if m = 0x91 then f.a :: f.c :: (bb ++ [4, 5, 6, 7])
       else if m = 0xa2 then runFrom f.a (popMask f.imm)
       else if m = 0xb0 then f.a :: runFrom f.b (slice f.imm 5 3)
       else if m = 0x30 then (if f.imm = 9 then [109] else [])
       else f.a :: bb)

/-- The operand values an instruction's fields name as destinations (R31); `call` and `callr` write s1 (R89, R90)
and `alt` its in slots' registers (R304). -/
def Raw.writes : Raw → List Nat
  | .imm f => [f.d]
  | .br f => if f.major = 0x2b then [1] else if f.major = 0x2e then [f.a] else []
  | .mem f => if f.major = 0x71 || f.major = 0x74 || f.major = 0x77 || f.major = 0x87 then [] else [f.data]
  | .mat f => if f.major = 0x6a then [f.d] else []
  | .asy f => [f.d]
  | .reg f =>
    let m := f.major
    if m = 0x2c then [1]
    else if m = 0x25 then ((List.range 8).filter (bit f.imm)).map (96 + ·)
    else if m = 0x78 && f.fn = 1 then [f.d, f.c]
    else if m = 0xc4 then [f.d, f.c]
    else if m = 0xa2 then f.d :: runFrom f.a (popMask f.imm)
    else if m = 0x31 then (if f.imm = 9 then [109] else [])
    else if m = 0x2a || m = 0x2d || m = 0x2f || m = 0x79 || m = 0x7a || m = 0x83 || m = 0x85 || m = 0x89 || m = 0x92
        || m = 0x94 || m = 0x96 || m = 0xa3 || m = 0xb0 || m = 0xca || m = 0xc9 || (m = 0xc8 && f.fn = 0) then []
    else [f.d]

/-- Whether the instruction's rounding follows Mode(), so that it reads fcsr's dyn and rm (R31, R100): the forms of the types that
round, by the tables of R111 to R127 and R142 to R145. -/
def Raw.readsMode : Raw → Bool
  | .reg f =>
    let m := f.major
    (0x35 ≤ m && m ≤ 0x3a) || m = 0x3e || ((0x40 ≤ m && m ≤ 0x42) && f.ty = 8) || m = 0x43
      || (m = 0x50 && !(f.fn = 1 && f.ty = 9)) || (m = 0x55 && f.ty = 8) || (m = 0x5f && (f.ty = 8 || f.ty = 9))
      || m = 0x5a || m = 0x5b || m = 0x5c
  | .mat f =>
    let mt := slice f.maux 5 4
    (f.major = 0x68 && f.pairc ≠ 1 && f.pairc ≠ 4) || f.major = 0x6c
      || (f.major = 0x6d && ((f.fn = 0 && mt = 9) || (f.fn = 1 && mt = 8))) || (f.major = 0x6e && f.fn = 0 && mt = 1)
  | _ => false

/-- Whether the instruction may set sticky flags of fcsr (R31, R104): the forms that round or compare floats, and the saturating
ones, by the tables of R81 and R111 to R127, the matrix operations that round or saturate (R137, R142 to R145), and `redg` (R349). -/
def Raw.setsFlags : Raw → Bool
  | .reg f =>
    let m := f.major
    ((m = 0x01 || m = 0x02 || m = 0x03 || m = 0x0e) && f.sat = 1) || (0x35 ≤ m && m ≤ 0x3e)
      || ((0x40 ≤ m && m ≤ 0x42) && (f.ty = 8 || f.sat = 1)) || m = 0x43
      || ((m = 0x44 || m = 0x45 || m = 0x48 || m = 0x56) && f.ty = 8)
      || ((m = 0x46 || m = 0x47) && f.ty ≠ 8 && f.sat = 1) || (m = 0x4d && f.sat = 1) || (0x50 ≤ m && m ≤ 0x54)
      || (m = 0x55 && (f.ty = 8 || f.sat = 1)) || m = 0x5a || m = 0x5b || m = 0x5c
      || (m = 0x5f && (f.ty = 8 || f.ty = 9 || f.sat = 1)) || m = 0xc4
  | .mat f =>
    let mt := slice f.maux 5 4
    f.major = 0x68 || f.major = 0x6c || (f.major = 0x6d && ((f.fn = 0 && mt = 9) || (f.fn = 1 && mt ≠ 1)))
      || (f.major = 0x6e && f.fn = 0 && mt = 1)
  | _ => false

/-- The operands that hold no state: s0 and p0 read as constants and discard writes (R35). -/
def constOperand (k : Nat) : Bool := k == 0 || k == 96

/-- The named operands two lists have in common, the constant ones aside. -/
def commonOperand (xs ys : List Nat) : Bool := xs.any fun k => ys.contains k && !constOperand k

/-- Whether two slots may issue together, judged on the bits as encoded (R31). -/
def pairLegal (w1 w2 : Nat) : Bool :=
  match unpack w1, unpack w2 with
  | some r1, some r2 =>
    let c1 := classOf (slice w1 88 8)
    let c2 := classOf (slice w2 88 8)
    let ma (c : Option IClass) : Bool := c == some .M || c == some .A
    c1 != some .S && c2 != some .S && !(c1 == some .F && c2 == some .F) && !(ma c1 && ma c2) && c1 != some .B
      && !commonOperand r2.reads r1.writes && !commonOperand r1.writes r2.writes
      && !(r2.readsMode && r1.writes.contains 109) && !(r2.reads.contains 109 && r1.setsFlags)
  | some _, none => classOf (slice w1 88 8) != some .S && classOf (slice w1 88 8) != some .B
  | none, some _ => classOf (slice w2 88 8) != some .S
  | none, none => true

/-- Whether a line word and its template are legal (R31, R45): bits [14:0] zero, no slot in two pairs, each pair
legal. DEDUCED: for the pair (3, 4) bit 15 + 3 + 1 is the target bit of slot 0, and R31's reason, that no slot belongs to two
pairs, does not concern it (log entry 49). -/
def Line.legal (l : Line) : Bool :=
  l.lineWord % 2 ^ 15 == 0
    && (List.range 4).all (fun s => !(l.pair s) || (!(l.pair (s + 1)) && pairLegal (l.slot s) (l.slot (s + 1))))

end Sys2Proof
end

