-- ==== Sys2Proof/Machine/State.lean ====
section
/-! DEFINITION. The machine's state, everything the spec gives the machine, as plain data, with its faults and
refusals, and the state after reset (R398). -/
namespace Sys2Proof.Machine

/-- The model's faults. -/
inductive Fault where
  /-- Raised by `exec` of an instruction row when the context that `cur` names is not one that can issue: it is idle,
  waiting, held or frozen, or `cur` names no cell or context. The step function never asks for that. Safe. -/
  | notIssuable
deriving DecidableEq, Repr

/-- The model's refusals. -/
inductive Refusal where
  /-- Raised by the arm of an instruction that has no meaning in the model yet. Safe. -/
  | notModelled (mnemonic : String)
deriving DecidableEq, Repr

/-- What an instruction of a context waits for, once it has sent its request (R361). -/
inductive Wait where
  /-- `talloc` and `talloc.try` wait for the controller (R158): destinations, designator, reads, and whether a cancel has been sent
  (R361). -/
  | talloc (try_ : Option PReg) (d : SReg) (w : Word) (reads : Nat) (cancelled : Bool)
  /-- A remote `tseal`, `tdrop` or `tcount` waits for its answer (R159). -/
  | handle (d : Option SReg)
  /-- `reply`, `fres` and `freg` wait for the owner (R257). -/
  | owner (d : Option SReg)
  /-- `put`, `get` and `alt` wait for a firing (R302, R304): destination, the offers made (slot, position), the
  register run of `alt`, and whether a cancel has been sent (R303). -/
  | port (d : SReg) (slots : List Nat) (run : Option SReg) (isAlt : Bool) (cancelled : Bool)
  /-- `pbind` of a port name waits for the hub (R305). -/
  | pbind (name : Word) (link : Option Nat)
  /-- `epmov` waits for the target (R337). -/
  | epmov (d : SReg)
  /-- A `.peer` or consuming access that holds the context waits for its value (R161). -/
  | access
  /-- `ldsc`, `stsc` and the `.sc` atomics wait for their place in the order S (R218). -/
  | sc
  /-- `lkrot rot` waits for the rotation (R396). -/
  | rotation (d : SReg) (link : Nat)
  /-- `barw` waits for the release of a generation of a barrier instance, named by its key (R351). -/
  | barrier (d : SReg) (key gen : Nat)
  /-- `redg` waits for the release of a generation of a reduction (R352). -/
  | reduction (v : VReg) (c : SReg) (red gen : Nat)
  /-- `keyset ret` waits until the slot is Empty (R238). -/
  | keyset (d : SReg) (slot : Nat)
deriving DecidableEq, Repr

/-- Whether a context can issue (R356, R361). -/
inductive CtxSt where
  | idle
  | running
  | waiting (w : Wait)
  | held
deriving DecidableEq, Repr

/-- The task a context runs (R246, R249, R266, R272); contexts 8 and 9 have none. `start` is the clock of the
dispatch decision, `budget` is B, `ext` the extension granted, `stopped` the cycles the watchdog was stopped. -/
structure Task where
  ptr : Word
  ty : Nat
  region : Nat
  tenant : Nat
  record : Rec
  rank : Nat
  cluster : Option Nat
  cw : Nat
  ch : Nat
  ports : Nat
  ncells : Nat
  frameLo : Nat
  frameHi : Nat
  start : Nat
  budget : Nat
  ext : Nat
  extended : Bool
  stopped : Nat
  frozenAt : Option Nat
  signals : Nat
  lastSig : Word
deriving DecidableEq, Repr

/-- A context's allotment in the cell's register files (R70, R77). -/
structure Allot where
  sbase : Nat
  scount : Nat
  vbase : Nat
  vcount : Nat
deriving DecidableEq, Repr

/-- A hardware context (R69, R74): registers, program counter, task, port slots, fetch queue, and its state with
respect to traps and freezes. `seq` numbers its accesses in program order, `opSeq` its asynchronous operations
(R180), `iret` the instructions issued. -/
structure Ctx where
  st : CtxSt
  stalled : Bool
  pc : Word
  s : Vector Word 64
  v : Vector VWord 32
  p : Vector Bool 8
  tbl : BitVec 128
  fcsr : Word
  xsl : Word
  sptmpl : Word
  allot : Allot
  task : Option Task
  iret : Nat
  seq : Nat
  opSeq : Nat
  slots : List (Option PortSlot)
  portDone : Nat
  portZero : Nat
  fetchq : Assoc Nat
  asyncs : List AsyncTrap
  frozen : Option (FrzOrigin × Nat)
  freezeTrap : Option TrapInfo
deriving DecidableEq, Repr

/-- A ready ring of one tenant (R243): its records, where its image lies in the cell's `.vlt` spill area (address and length,
R244), and the regions charged for the records of the image, in their order (R412). -/
structure Ring where
  recs : List Rec
  image : Option (Nat × Nat)
  charges : List Nat
deriving DecidableEq, Repr

/-- A cell (R18). `outbuf` holds the message of the outbound buffer and those of routines that follow it (R326); `refused` holds the
headers of the copies of which a chunk was refused here, and whether that abandoned the copy: what else that attempt has sent is
discarded (R183, R193). -/
structure Cell where
  ctxs : Vector Ctx 10
  dispCount : Nat
  lastDispatch : Nat
  rings : Assoc Ring
  lateEvents : List Rec
  deficits : Assoc (List Int)
  halted : List Nat
  pools : Assoc Pool
  sb : List SbEntry
  nextKey : Nat
  tileq : List TileOp
  copyq : List CopyOp
  copyTurn : Nat
  inbound : List Chunk
  inSpill : List Chunk
  spilled : Nat
  accepted : List Chunk
  refused : List (Chunk × Bool)
  noCopy : List Nat
  heldActs : List EndAct
  frozenRegs : List (Nat × FrzOrigin)
  hub : Assoc HubSlot
  hubNext : Nat
  binds : List Binding
  htab : Assoc HEntry
  eps : Assoc Endpoint
  in8 : List Req8
  over8 : List Req8
  outbuf : List Flight
  run8 : Option Run8
  trapq : List Trap
  run9 : Option Run9
  xcause : Word
  xepc : Word
  xval : Word
  xinfo : Word
  retry : Assoc REntry
  retryWait : List (REntry × TrapInfo × Bool)
deriving DecidableEq, Repr

/-- Where the present step happens: the cell and context whose instruction is being executed, or where an event
happens, and the number of the flight that an event ends (log entry 1). -/
structure Cur where
  cell : Nat
  ctx : Nat
  k : Nat
deriving DecidableEq, Repr

/-- Whose turn it is: the model's own record of the next step (log entry 1). -/
inductive Turn where
  /-- Context ctx of a cell issues. -/
  | issue (cell ctx : Nat)
  /-- An event row happens, at a cell and context or to a flight. -/
  | event (i : Instr) (at_ : Cur)
  /-- The debugger pushes a record, kind 0 and argc 0, onto a cell's ring (R404). -/
  | start (cell : Nat) (r : Rec) (region : Nat)
  /-- The debugger plants `brk` at a slot of a cell (R404). -/
  | plant (cell pc : Nat) (code : BitVec 32)
  /-- The debugger removes a breakpoint (R376). -/
  | pull (cell pc : Nat)
  /-- The debugger lets the context go on that is held at a breakpoint of a cell (R404). -/
  | cont (cell : Nat)
  /-- A soft error makes a 64-byte vault unit unreadable (R234). -/
  | softError (unit : Nat)
  /-- Time passes. -/
  | tick (n : Nat)
deriving DecidableEq, Repr

/-- A load that waits (R67): its request, and the code that it replaces on cells where a task executes it: cell, start, length. -/
structure LoadWait where
  req : LoadReq
  code : List (Nat × Nat × Nat)
deriving DecidableEq, Repr

/-- Bytes of a cell's `.loc` that a region held which has been torn down, and the region that they went back to (R267). -/
structure Torn where
  cell : Nat
  lo : Nat
  hi : Nat
  parent : Nat
deriving DecidableEq, Repr

/-- The whole module. `torn` names the bytes of regions torn down, whose objects are gone (R267); `passed` holds the ways of the
messages that arrived lately, with their clocks (R402), `hostUp` the host links that are up (R398), `puf` the power-up values that the
last reset read, `helper` the helper data in flash (R400), `stepping` the contexts, by cell, number, task and PC, that issue the
instruction under a breakpoint next (R404). -/
structure State where
  agenda : List Turn
  cur : Cur
  clock : Nat
  fresh : Nat
  net : List Flight
  mem : List Host.Cell
  keyTags : Assoc (Nat × Nat)
  poison : List Nat
  sets : Assoc ISet
  roots : Assoc (Nat × Nat)
  staleAsids : List Nat
  keys : Assoc KeySlot
  stations : Assoc Station
  stationShares : Assoc (List (Nat × Nat × Nat))
  regions : Assoc Region
  torn : List Torn
  types : Assoc (List TaskType)
  directory : List (Nat × Word × Nat × Nat)
  placers : Assoc (List PlaceReq)
  clusters : Assoc ClusterSt
  bars : Assoc BarInst
  reds : Assoc RedInst
  routers : List RouterReg
  scOps : List ScOp
  links : Assoc LinkState
  chans : Assoc Channel
  vfs : Assoc Vf
  meas : List Digest
  partitions : Assoc (List Nat)
  disjoint : List Nat
  throttle : Nat
  throttleSteps : Nat
  throttleAt : Nat
  hot : List Nat
  gated : List Nat
  passed : List (Place × Place × Nat)
  recovery : Bool
  rollback : Nat
  identity : Option (BitVec 256)
  sessions : List Nat
  flash : List (List Byte)
  helper : List Byte
  puf : List Byte
  hostUp : List Nat
  absent : List Nat
  loads : List LoadWait
  hostOut : List HostMsg
  breaks : List Breakpoint
  stepping : List (Nat × Nat × Word × Nat)
  cells : Assoc Cell
deriving DecidableEq, Repr

/-- A context at reset (R398 step 6): all zero, and p0 one (R35). -/
def Ctx.reset : Ctx where
  st := .idle
  stalled := false
  pc := 0
  s := Vector.replicate 64 0
  v := Vector.replicate 32 0
  p := Vector.replicate 8 false
  tbl := 0
  fcsr := 0
  xsl := 0
  sptmpl := 0
  allot := { sbase := 0, scount := 0, vbase := 0, vcount := 0 }
  task := none
  iret := 0
  seq := 0
  opSeq := 0
  slots := List.replicate 16 none
  portDone := 0
  portZero := 0
  fetchq := []
  asyncs := []
  frozen := none
  freezeTrap := none

/-- A cell at reset (R398 step 6). -/
def Cell.reset : Cell where
  ctxs := Vector.replicate 10 Ctx.reset
  dispCount := 0
  lastDispatch := 0
  rings := []
  lateEvents := []
  deficits := []
  halted := []
  pools := []
  sb := []
  nextKey := 0
  tileq := []
  copyq := []
  copyTurn := 0
  inbound := []
  inSpill := []
  spilled := 0
  accepted := []
  refused := []
  noCopy := []
  heldActs := []
  frozenRegs := []
  hub := []
  hubNext := 0
  binds := []
  htab := []
  eps := []
  in8 := []
  over8 := []
  outbuf := []
  run8 := none
  trapq := []
  run9 := none
  xcause := 0
  xepc := 0
  xval := 0
  xinfo := 0
  retry := []
  retryWait := []

/-- The machine right after reset (R398): the cells released, all state zero, key slot 0 installed and owned by no
tenant (R233), no tenant, no region, nothing in flight, every link down (log entry 3). -/
def State.reset : State where
  agenda := []
  cur := { cell := 0, ctx := 0, k := 0 }
  clock := 0
  fresh := 0
  net := []
  mem := []
  keyTags := []
  poison := []
  sets := []
  roots := []
  staleAsids := []
  keys := [(0, { st := .installed, owner := 0, gen := 0 })]
  stations := []
  stationShares := []
  regions := []
  torn := []
  types := []
  directory := []
  placers := []
  clusters := []
  bars := []
  reds := []
  routers := []
  scOps := []
  links := []
  chans := []
  vfs := []
  meas := List.replicate 4 0
  partitions := []
  disjoint := []
  throttle := 0
  throttleSteps := 0
  throttleAt := 0
  hot := []
  gated := []
  passed := []
  recovery := false
  rollback := 0
  identity := some (Config.seedOf [])
  sessions := []
  flash := []
  helper := []
  puf := []
  hostUp := []
  absent := []
  loads := []
  hostOut := []
  breaks := []
  stepping := []
  cells := []

end Sys2Proof.Machine
end

