-- ==== Sys2Proof/Machine/Ops.lean ====
section
/-! DEFINITION. The named operations over the state: memory and its encryption (R201, R220, R232), registers (R35,
R69), regions and grants (R269, R270), fetching (R25 to R30), the ready rings (R243, R244), the fault record and
events (R367 to R369), kills (R366), taking an exception (R356 to R360) and returning from one (R375), and the order
of checks of an issue (R34, R46). -/
namespace Sys2Proof.Machine

/-! ### Memory -/

/-- The home address of byte `off` of a cell's vault: the vault address of R220. -/
def vltA (cell off : Nat) : Nat := cell * 2 ^ 30 + off
/-- The home address of byte `off` of a cell's scratchpad. -/
def locA (cell off : Nat) : Nat := 2 ^ 50 + cell * 2 ^ 21 + off
/-- The home address of byte `off` of a cell's accumulator memory. -/
def accA (cell off : Nat) : Nat := 2 ^ 51 + cell * 2 ^ 18 + off
/-- The home address of byte `off` of host memory (R224). -/
def hostA (off : Nat) : Nat := 2 ^ 52 + off
/-- Whether a home address is a vault byte. -/
def isVault (a : Nat) : Bool := a < 2 ^ 40
/-- Whether a home address is host memory. -/
def isHost (a : Nat) : Bool := 2 ^ 52 ≤ a

/-- What a byte that nothing has written reads as: zero, since reset leaves all state zero and scrubs every vault
byte (R398). -/
def Memory.unlisted : Byte := 0

/-- The byte at an address of a memory list. -/
def Memory.read (a : Nat) : List Host.Cell → Byte
  | [] => Memory.unlisted
  | (b, v) :: m => if b = a then v else if a < b then Memory.unlisted else Memory.read a m

/-- A memory list with one byte written; it keeps the canonical form. -/
def Memory.write (a : Nat) (v : Byte) : List Host.Cell → List Host.Cell
  | [] => if v = Memory.unlisted then [] else [(a, v)]
  | (b, w) :: m =>
    if a < b then (if v = Memory.unlisted then (b, w) :: m else (a, v) :: (b, w) :: m)
    else if a = b then (if v = Memory.unlisted then m else (a, v) :: m)
    else (b, w) :: Memory.write a v m

/-- The canonical form: addresses strictly rising from a bound on, no entry equal to what an unlisted byte reads
as. -/
def Memory.wfFrom (lo : Nat) : List Host.Cell → Bool
  | [] => true
  | (b, v) :: m => lo ≤ b && v != Memory.unlisted && Memory.wfFrom (b + 1) m

/-- The canonical form of memory. -/
def Memory.wf (m : List Host.Cell) : Bool := Memory.wfFrom 0 m

/-- The byte at a home address. -/
def State.readByte (s : State) (a : Nat) : Byte := Memory.read a s.mem

/-- The n bytes from a home address on. -/
def State.readBytes (s : State) (a n : Nat) : List Byte := (List.range n).map fun k => s.readByte (a + k)

/-- A memory list with consecutive bytes written. -/
def Memory.writeAll (a : Nat) : List Byte → List Host.Cell → List Host.Cell
  | [], m => m
  | b :: bs, m => Memory.writeAll (a + 1) bs (Memory.write a b m)

/-- The state with the bytes written from a home address on. -/
def State.writeBytes (s : State) (a : Nat) (bs : List Byte) : State := { s with mem := Memory.writeAll a bs s.mem }

/-- The key tag of a 64-byte vault unit: the slot and install it was last written under (R232, R233). -/
def State.tagOf (s : State) (u : Nat) : Nat × Nat := s.keyTags.getD u (0, 0)

/-- The tag of a key slot as installed now. -/
def State.slotTag (s : State) (k : Nat) : Nat × Nat :=
  match Assoc.get? k s.keys with
  | some x => (k, x.gen)
  | none => (k, 0)

/-- What a 64-byte vault unit holds, as one number, in the clear of the key it was written under. -/
def State.unitPlain (s : State) (u : Nat) : Nat := leNat (s.readBytes (u * 64) 64)

/-- A vault byte as a reader under a key finds it: a unit written under another key reads as unrelated bytes, which the
two keys and the unit's contents fix (R232). -/
def State.vaultByte (s : State) (tag : Nat × Nat) (a : Nat) : Byte :=
  if s.tagOf (a / 64) = tag then s.readByte a else Config.foreignByte (s.tagOf (a / 64)) tag (s.unitPlain (a / 64)) a

/-- The n bytes from a home address on, read under a key (R232). -/
def State.readUnder (s : State) (tag : Nat × Nat) (a n : Nat) : List Byte :=
  if isVault a then (List.range n).map fun k => s.vaultByte tag (a + k)
  else if isHost a then (List.range n).map fun k => Config.hostByte s.fresh (a + k)
  else s.readBytes a n

/-- The state with one vault unit re-encrypted under a key: under another key than before its bytes are first
unrelated ones (R232). -/
def State.retag (s : State) (tag : Nat × Nat) (u : Nat) : State :=
  if s.tagOf u = tag then s
  else
    let t := s.writeBytes (u * 64) ((List.range 64).map fun k => s.vaultByte tag (u * 64 + k))
    { t with keyTags := if tag = (0, 0) then Assoc.erase u t.keyTags else Assoc.put u tag t.keyTags }

/-- The vault units that n bytes from a on touch. -/
def unitsOf (a n : Nat) : List Nat := if n = 0 then [] else (List.range ((a + n - 1) / 64 - a / 64 + 1)).map (a / 64 + ·)

/-- Whether n bytes from a on cover a whole unit. -/
def covers (a n u : Nat) : Bool := a ≤ u * 64 && u * 64 + 64 ≤ a + n

/-- The state with bytes written under a key. A fully rewritten unit is no longer poisoned (R234). -/
def State.writeUnder (s : State) (tag : Nat × Nat) (a : Nat) (bs : List Byte) : State :=
  if isVault a then
    let t := (unitsOf a bs.length).foldl (fun s u => s.retag tag u) s
    let t := { t with poison := t.poison.filter fun u => !covers a bs.length u }
    t.writeBytes a bs
  else s.writeBytes a bs

/-- The state with bytes written under a key by an agent that cannot fault: of a unit that is not wholly rewritten and cannot be read
no byte changes, since the merge does not take place (R234). -/
def State.mergeUnder (s : State) (tag : Nat × Nat) (a : Nat) (bs : List Byte) : State :=
  let bad (u : Nat) : Bool := isVault a && s.poison.contains u && !covers a bs.length u
  let us := unitsOf a bs.length
  if us.all (!bad ·) then s.writeUnder tag a bs
  else (us.filter (!bad ·)).foldl (fun s u =>
    let lo := max a (u * 64)
    s.writeUnder tag lo ((bs.drop (lo - a)).take (u * 64 + 64 - lo))) s

/-- The state with bytes written at a home: those of host memory go to the host through the gateway that carries a virtual
function (R224), the others are written under a key. -/
def State.writeHome (s : State) (vf : Nat) (tag : Nat × Nat) (a : Nat) (bs : List Byte) : State :=
  if isHost a then { s with hostOut := s.hostOut ++ [.write vf (a - 2 ^ 52) bs] } else s.writeUnder tag a bs

/-- The first poisoned vault unit that n bytes from a on touch (R234). -/
def State.poisoned (s : State) (a n : Nat) : Option Nat :=
  if isVault a then (unitsOf a n).find? fun u => s.poison.contains u else none

/-! ### Cells, contexts and registers -/

/-- A cell of the module. -/
def State.cell (s : State) (c : Nat) : Cell := s.cells.getD c Cell.reset
/-- The state with a cell replaced. -/
def State.setCell (s : State) (c : Nat) (x : Cell) : State := { s with cells := Assoc.put c x s.cells }
/-- The state with a cell changed. -/
def State.modCell (s : State) (c : Nat) (f : Cell → Cell) : State := s.setCell c (f (s.cell c))

/-- A context of a cell. -/
def Cell.ctx (x : Cell) (i : Nat) : Ctx := x.ctxs.getD i Ctx.reset
/-- The cell with a context replaced. -/
def Cell.setCtx (x : Cell) (i : Nat) (y : Ctx) : Cell := { x with ctxs := x.ctxs.setIfInBounds i y }

/-- A context of the module. -/
def State.ctxAt (s : State) (c i : Nat) : Ctx := (s.cell c).ctx i
/-- The state with a context changed. -/
def State.modCtx (s : State) (c i : Nat) (f : Ctx → Ctx) : State := s.modCell c fun x => x.setCtx i (f (x.ctx i))

/-- The context whose instruction is being executed. -/
def State.me (s : State) : Ctx := s.ctxAt s.cur.cell s.cur.ctx
/-- The state with that context changed. -/
def State.modMe (s : State) (f : Ctx → Ctx) : State := s.modCtx s.cur.cell s.cur.ctx f

/-- A scalar register; s0 reads zero (R35). -/
def Ctx.rs (x : Ctx) (r : SReg) : Word := if r.val = 0 then 0 else x.s.get r
/-- The context with a scalar written; a write to s0 is discarded (R35). -/
def Ctx.ws (x : Ctx) (r : SReg) (v : Word) : Ctx := if r.val = 0 then x else { x with s := x.s.set r.val v r.isLt }
/-- A vector register. -/
def Ctx.rv (x : Ctx) (r : VReg) : VWord := x.v.get r
/-- The context with a vector written. -/
def Ctx.wv (x : Ctx) (r : VReg) (v : VWord) : Ctx := { x with v := x.v.set r.val v r.isLt }
/-- A predicate; p0 is true (R71, R78). -/
def Ctx.rp (x : Ctx) (r : PReg) : Bool := r.val = 0 || x.p.get r
/-- The context with a predicate written; a write to p0 is discarded (R35). -/
def Ctx.wp (x : Ctx) (r : PReg) (v : Bool) : Ctx := if r.val = 0 then x else { x with p := x.p.set r.val v r.isLt }
/-- The guard's value (R34). -/
def Ctx.guard (x : Ctx) (g : Guard) : Bool := x.rp g.p != g.neg

/-- The context with the scalar whose operand value is k written, for a number that may name none. -/
def Ctx.wsN (x : Ctx) (k : Nat) (v : Word) : Ctx := if h : k < 64 then x.ws ⟨k, h⟩ v else x
/-- The scalar whose operand value is k, zero when there is none. -/
def Ctx.rsN (x : Ctx) (k : Nat) : Word := if h : k < 64 then x.rs ⟨k, h⟩ else 0

/-- The PC of the next slot (R28). -/
def pcNext (pc : Word) : Word := if pc.toNat % 64 = 48 then pc + 16 else pc + 12
/-- The address of the line that holds a PC (R28). -/
def lineOf (pc : Word) : Nat := pc.toNat / 64 * 64
/-- The slot number of a PC (R28). -/
def slotOf (pc : Word) : Nat := pc.toNat % 64 / 12
/-- Whether a PC is at one of the five slot offsets (R28). -/
def slotAligned (pc : Word) : Bool :=
  pc.toNat % 64 == 0 || pc.toNat % 64 == 12 || pc.toNat % 64 == 24 || pc.toNat % 64 == 36 || pc.toNat % 64 == 48

/-- The context after an instruction that goes on to the next slot: it has issued (R74 iret). -/
def Ctx.retire (x : Ctx) : Ctx := { x with pc := pcNext x.pc, iret := x.iret + 1, stalled := false }
/-- The state after the executing instruction goes on to the next slot. -/
def State.retire (s : State) : State := s.modMe Ctx.retire
/-- The context after a taken branch: the fetch queue is emptied (R29). -/
def Ctx.jump (x : Ctx) (pc : Word) : Ctx :=
  { x with pc := pc, fetchq := [], iret := x.iret + 1, stalled := false }

/-! ### Regions and grants -/

/-- A region's control block. -/
def State.region (s : State) (r : Nat) : Option Region := Assoc.get? r s.regions
/-- The state with a region changed. -/
def State.modRegion (s : State) (r : Nat) (f : Region → Region) : State := { s with regions := Assoc.modify r f s.regions }

/-- A region and its ancestors up to the tenant region; depth is at most 8 (R281). -/
def State.ancestors (s : State) : Nat → Nat → List Nat
  | 0, _ => []
  | n + 1, r =>
    match s.region r with
    | none => []
    | some x => r :: s.ancestors n x.parent

/-- The chain of a region: itself and its ancestors. -/
def State.chain (s : State) (r : Nat) : List Nat := s.ancestors 10 r
/-- Whether a region is another or one of its descendants. -/
def State.inSubtree (s : State) (r root : Nat) : Bool := (s.chain r).contains root
/-- The regions of a subtree. -/
def State.subtree (s : State) (root : Nat) : List Nat := (s.regions.map (·.1)).filter fun r => s.inSubtree r root
/-- The tenant of a region, 0 for none. -/
def State.tenantOf (s : State) (r : Nat) : Nat := ((s.region r).map (·.tenant)).getD 0
/-- The virtual function of a tenant (R392). -/
def State.vfOf (s : State) (tenant : Nat) : Nat := ((s.region tenant).map (·.vf)).getD 0
/-- The grant of a region on a cell (R270). -/
def State.grant (s : State) (r c : Nat) : Option Grant := (s.region r).bind fun x => x.grants.find? (·.cell == c)
/-- The key tag under which a region's `.vlt` bytes are encrypted (R232, R233). -/
def State.regionTag (s : State) (r : Nat) : Nat × Nat := s.slotTag (((s.region r).map (·.keySlot)).getD 0)
/-- Whether a key slot serves a tenant: slot 0, or a slot Installed and owned by it (R233). -/
def State.slotUsable (s : State) (k tenant : Nat) : Bool :=
  k == 0 || (match Assoc.get? k s.keys with
    | some x => x.st == .installed && x.owner == tenant
    | none => false)
/-- Whether a key slot is Installed for another tenant (R370). -/
def State.slotForeign (s : State) (k tenant : Nat) : Bool :=
  match Assoc.get? k s.keys with
  | some x => k != 0 && x.st != .empty && x.owner != tenant
  | none => false

/-- The region a context works for on a cell: its task's; the handler's, in context 8 (R330); the tenant region, in
context 9 (R357). -/
def State.ctxRegion (s : State) (c i : Nat) : Nat :=
  if i = 9 then ((s.cell c).run9.map (·.tenant)).getD 0
  else if i = 8 then ((s.cell c).run8.map (·.region)).getD 0
  else ((s.ctxAt c i).task.map (·.region)).getD 0

/-- The word that names the work of a context: the task pointer (R246), or a word unique to the run of context 8 or
9. -/
def State.ctxTask (s : State) (c i : Nat) : Word :=
  if i = 9 then ((s.cell c).run9.map fun r => word (2 ^ 63 + r.start)).getD 0
  else if i = 8 then ((s.cell c).run8.map fun r => word (2 ^ 62 + r.start)).getD 0
  else ((s.ctxAt c i).task.map (·.ptr)).getD 0

/-- Whether a task still runs on a context. -/
def State.resident (s : State) (c i : Nat) (task : Word) : Bool := s.ctxTask c i == task && (s.ctxAt c i).st != .idle

/-- The task-type entry of a number in a tenant's table (R241). -/
def State.taskType (s : State) (tenant n : Nat) : Option TaskType :=
  ((Assoc.get? tenant s.types).bind (·[n]?)).filter (·.valid)

/-- Whether a cell stands in a disjoint isolation partition, other than a given one, in which a tenant has no region (R279). -/
def State.cellClosed (s : State) (tenant part c : Nat) : Bool :=
  s.partitions.any fun p => s.disjoint.contains p.1 && p.2.contains c && p.1 != part
    && !(s.regions.any fun r => r.2.partition == p.1 && r.2.tenant == tenant)

/-- Whether a region of a tenant may stand in an isolation partition with its cells (R279): a disjoint one holds one tenant, and
its cells; no cell is in another tenant's disjoint partition. -/
def State.partitionOk (s : State) (tenant part : Nat) (cells : List Nat) : Bool :=
  (!s.disjoint.contains part
    || (!(s.regions.any fun r => r.2.partition == part && r.2.tenant != tenant)
      && cells.all fun c => (s.partitions.getD part []).contains c))
    && !(cells.any (s.cellClosed tenant part))

/-! ### The owner of a `.vlt` byte (R232, R270) -/

/-- The region that owns a `.vlt` byte of a cell: the deepest whose grant holds it (R232, R270). -/
def State.vltOwner (s : State) (c off : Nat) : Option Nat :=
  (s.regions.foldl (fun (best : Option (Nat × Nat)) r =>
    let covers := r.2.grants.any fun g => g.cell == c && g.vlo * 65536 ≤ off && off < g.vhi * 65536
    match covers, best with
    | true, none => some (r.1, r.2.depth)
    | true, some b => if b.2 < r.2.depth then some (r.1, r.2.depth) else best
    | false, _ => best) none).map (·.1)

/-- The key slot of the region that owns a `.vlt` byte; slot 0 for bytes outside every grant (R233). -/
def State.vltSlot (s : State) (c off : Nat) : Nat :=
  (((s.vltOwner c off).bind s.region).map (·.keySlot)).getD 0

/-- The tag under which a `.vlt` byte is read and written. -/
def State.vltTag (s : State) (c off : Nat) : Nat × Nat := s.slotTag (s.vltSlot c off)

/-! ### Fetching -/

/-- The region of a chain whose execute units on a cell hold a `.vlt` offset (R29). -/
def State.execOwner (s : State) (r c off : Nat) : Option Nat :=
  (s.chain r).find? fun q =>
    match s.region q with
    | some x => x.exec.contains (c, off / 65536)
    | none => false

/-- Whether a `.vlt` offset of a cell lies in an execute unit of any region (R29). -/
def State.isExec (s : State) (c off : Nat) : Bool := s.regions.any fun x => x.2.exec.contains (c, off / 65536)

/-- The line at a PC for a region on a cell, none outside its execute grant (R29). -/
def State.fetchLine (s : State) (r c : Nat) (pc : Word) : Option Nat :=
  if pc.toNat < 2 ^ 30 then
    (s.execOwner r c (lineOf pc)).map fun q => leNat (s.readUnder (s.regionTag q) (vltA c (lineOf pc)) 64)
  else none

/-- The check of a branch target or an entry PC (R30): alignment for register targets, execute grant, target mask. -/
def State.checkTarget (s : State) (r c : Nat) (pc : Word) : Option TrapInfo :=
  if !slotAligned pc then some { cause := 0, val := pc, info := 0 }
  else
    match s.fetchLine r c pc with
    | none => some { cause := 1, val := pc, info := 0 }
    | some v => if (Line.ofNat v).target (slotOf pc) then none else some { cause := 25, val := pc, info := 0 }

/-- The check of `eret`: alignment and execute grant, no target mask (R30, R375). -/
def State.checkResume (s : State) (r c : Nat) (pc : Word) : Option TrapInfo :=
  if !slotAligned pc then some { cause := 0, val := pc, info := 0 }
  else if (s.fetchLine r c pc).isNone then some { cause := 1, val := pc, info := 0 }
  else none

/-! ### The mesh (R15 to R20) -/

/-- The mesh position of a cell (R16): die, row and column. -/
def routerOf (c : Nat) : Nat := c / 240 * 256 + (c % 240 / 16 + 1) * 16 + c % 16

/-- The next router on the way from a position to another (R15, R17, R20): on a die along the column first, then along the row; to
another die by the rim's bridge toward it, in column 4 to the east or west, in column 11 to the north or south. Which of the two
dies between is crossed on the way to the die across the module changes timing only: the one to the east or west. -/
def nextRouter (p q : Nat) : Nat :=
  let d := p / 256
  let e := q / 256
  let east := d % 2 ≠ e % 2
  let t := if d = e then q % 256 else if east then 4 else 11
  if p % 256 / 16 < t / 16 then p + 16
  else if t / 16 < p % 256 / 16 then p - 16
  else if p % 16 < t % 16 then p + 1
  else if t % 16 < p % 16 then p - 1
  else if d = e then p
  else if east then (d / 2 * 2 + (1 - d % 2)) * 256 + 4
  else ((1 - d / 2) * 2 + d % 2) * 256 + 11

/-- The mesh position of a place (R16, R17): none for the notification network, which is no part of the mesh. -/
def Place.pos (p : Place) : Option Nat :=
  match p with
  | .cell c => some (routerOf c)
  | .router p => some p
  | .station die col => some (die * 256 + col)
  | .placer die => some (die * 256 + 7)
  | .host h => some (h * 256 + 7)
  | .link l => some (l / 4 * 256 + [0, 1, 14, 15].getD (l % 4) 0)
  | .network => none

/-- The positions on the way from one to another, both ends among them; the fuel is the longest way. -/
def wayFrom : Nat → Nat → Nat → List Nat
  | 0, p, _ => [p]
  | n + 1, p, q => if p = q then [p] else p :: wayFrom n (nextRouter p q) q

/-- The routers on the way from a place to another (R20). -/
def wayOf (a b : Place) : List Nat :=
  match a.pos, b.pos with
  | some p, some q => wayFrom 96 p q
  | _, _ => []

/-- The flight of a message that hardware or an instruction sends. -/
def State.send (s : State) (src dst : Place) (p : Pay) : State := { s with net := s.net ++ [{ src, dst, pay := p }] }

/-- Whether a message of a cell to a place finds the cell's outbound buffer occupied (R326). -/
def State.outHeld (s : State) (c : Nat) (dst : Place) : Bool := dst != .cell c && !(s.cell c).outbuf.isEmpty

/-- The state with a message of a context or a routine of a cell on its way: one that leaves the cell stands in its outbound buffer,
behind those before it, until it enters the mesh (R326). -/
def State.post (s : State) (c : Nat) (dst : Place) (p : Pay) : State :=
  if dst = .cell c then s.send (.cell c) dst p
  else s.modCell c fun x => { x with outbuf := x.outbuf ++ [{ src := .cell c, dst, pay := p }] }

/-- Everything that is on its way: in the mesh and over the links, and in the cells' outbound buffers. -/
def State.flights (s : State) : List Flight := s.net ++ s.cells.flatMap (·.2.outbuf)

/-! ### Spill budget, fault record, ready rings and events -/

/-- The state with a charge against a region's spill budget, none when it does not fit (R412). -/
def State.charge (s : State) (r n : Nat) : Option State :=
  match s.region r with
  | none => none
  | some x => if x.spillUsed + n ≤ x.spillBudget then some (s.modRegion r fun x => { x with spillUsed := x.spillUsed + n })
              else none

/-- The state with a charge credited (R412). -/
def State.credit (s : State) (r n : Nat) : State := s.modRegion r fun x => { x with spillUsed := x.spillUsed - n }

/-- The lowest place of k units below a limit, on a step, from a start on, that overlaps no taken range. -/
def firstFit (rs : List (Nat × Nat)) (k top step : Nat) : Nat → Nat → Option Nat
  | 0, _ => none
  | n + 1, u =>
    if u + k ≤ top && !(rs.any fun r => r.2 ≠ 0 && r.1 < u + k && u < r.1 + r.2) then some u
    else firstFit rs k top step n (u + step)

/-- The byte ranges of a cell's `.vlt` that spills hold, start and length: extension tiles (R165), ring images (R244), messages of
parked endpoints (R331), chunks (R183), FIFO items (R297). -/
def Cell.spillRanges (x : Cell) : List (Nat × Nat) :=
  x.pools.flatMap (fun p => p.2.tiles.filterMap fun t => t.ext.map fun a => (a, 2 ^ p.2.k))
    ++ x.rings.filterMap (fun g => g.2.image)
    ++ x.eps.flatMap (fun e => match e.2.st with
      | .parked q _ => q.map fun m => (m.1, 48)
      | _ => [])
    ++ x.inSpill.filterMap (fun a => a.spill.map fun p => (p.2, a.size + 16))
    ++ x.hub.flatMap fun h => h.2.beyond.flatten.map fun a => (a, 8)

/-- The place of a spill of a region on a cell: the lowest of its spill area behind its fault record that no spill takes, and no
grant of a descendant that leaves room beside it (R270, R367; log entry 57). -/
def State.spillPlace (s : State) (r c size step : Nat) : Option Nat :=
  match s.grant r c with
  | none => none
  | some g =>
    let below := (s.regions.filter fun q => q.1 ≠ r && s.inSubtree q.1 r).filterMap fun q => q.2.grants.find? fun h =>
      h.cell == c && !(h.vlo ≤ g.vsp + 1 && g.vhi ≤ h.vhi)
    firstFit ((s.cell c).spillRanges ++ below.map fun h => (h.vlo * 65536, (h.vhi - h.vlo) * 65536)) size (g.vhi * 65536) step
      ((g.vhi - g.vsp) * 65536 / step + 1) ((g.vsp + 1) * 65536)

/-- The state with bytes written in the `.vlt` spill area of a cell (R232, R234, R270). -/
def State.spillWrite (s : State) (c a : Nat) (bs : List Byte) : State := s.mergeUnder (s.vltTag c a) (vltA c a) bs

/-- A word of the `.vlt` spill area of a cell; one that a memory error keeps from being read is a free value (log entry 57). -/
def State.spillWord (s : State) (c a : Nat) : Word :=
  if (s.poisoned (vltA c a) 8).isSome then Config.unstated 4 (word (s.fresh + a))
  else word (leNat (s.readUnder (s.vltTag c a) (vltA c a) 8))

/-- The n bytes of whole words of the `.vlt` spill area of a cell. -/
def State.spillBytes (s : State) (c a n : Nat) : List Byte := (List.range (n / 8)).flatMap fun k => leBytes 8 (s.spillWord c (a + 8 * k)).toNat

/-- The home address of a region's fault record on a cell (R367). -/
def State.faultRecord (s : State) (r c : Nat) : Option Nat := (s.grant r c).map fun g => vltA c (g.vsp * 65536)

/-- A little-endian value of n bytes in a region's fault record. -/
def State.frRead (s : State) (r c off n : Nat) : Nat :=
  match s.faultRecord r c with
  | some b => leNat (s.readUnder (s.regionTag r) (b + off) n)
  | none => 0

/-- The state with a little-endian value of n bytes written in a region's fault record. -/
def State.frWrite (s : State) (r c off n v : Nat) : State :=
  match s.faultRecord r c with
  | some b => s.mergeUnder (s.regionTag r) (b + off) (leBytes n v)
  | none => s

/-- The state with an 8-byte counter of a fault record raised (R367). -/
def State.frBump (s : State) (r c off k : Nat) : State := s.frWrite r c off 8 ((s.frRead r c off 8 + k) % 2 ^ 64)

/-- One entry of a ring image after a record (R244): the words that differ. -/
def imageEntry (prev r : Rec) : List Byte :=
  let ws := (List.range 8).map fun k => (r.args.getD k 0, prev.args.getD k 0)
  let mask := ((List.range 8).map fun k => if r.args.getD k 0 = prev.args.getD k 0 then 0 else 2 ^ k).sum
  let fl := (if r.head = prev.head then 0 else 1) + (if r.reply = prev.reply then 0 else 2)
  leBytes 8 (mask + fl * 256)
    ++ (if r.head = prev.head then [] else leBytes 8 r.head.toNat)
    ++ (if r.reply = prev.reply then [] else leBytes 8 r.reply.toNat)
    ++ (ws.flatMap fun w => if w.1 = w.2 then [] else leBytes 8 w.1.toNat)

/-- The record of zeros before the first entry of an image (R244). -/
def Rec.zero : Rec := { head := 0, reply := 0, args := List.replicate 8 0 }

/-- The entries of a ring image (R244). -/
def imageBytes : Rec → List Rec → List Byte
  | _, [] => []
  | prev, r :: rs => imageEntry prev r ++ imageBytes r rs

/-- The words an image entry names, taken from its bytes, with the bytes that remain (R244). -/
def imageWords : Nat → List Byte → Option (List Word × List Byte)
  | 0, bs => some ([], bs)
  | n + 1, bs =>
    if bs.length < 8 then none
    else (imageWords n (bs.drop 8)).map fun x => (word (leNat (bs.take 8)) :: x.1, x.2)

/-- A record rebuilt from the previous one and the words present. -/
def imageRec (prev : Rec) (mask fl : Nat) (ws : List Word) : Rec :=
  let head := if bit fl 0 then ws.getD 0 0 else prev.head
  let ws := if bit fl 0 then ws.drop 1 else ws
  let reply := if bit fl 1 then ws.getD 0 0 else prev.reply
  let ws := if bit fl 1 then ws.drop 1 else ws
  let args := (List.range 8).map fun k =>
    if bit mask k then ws.getD ((List.range k).filter (bit mask)).length 0 else prev.args.getD k 0
  { head, reply, args }

/-- The records of an image of n entries; none for a malformed image (R244). -/
def imageRecs : Nat → Rec → List Byte → Option (List Rec)
  | 0, _, bs => if bs = [] then some [] else none
  | n + 1, prev, bs =>
    if bs.length < 8 then none
    else
      let h := leNat (bs.take 8)
      let mask := h % 256
      let fl := h / 256
      if 4 ≤ fl then none
      else
        match imageWords (((List.range 8).filter (bit mask)).length + b2n (bit fl 0) + b2n (bit fl 1)) (bs.drop 8) with
        | none => none
        | some (ws, rest) =>
          let r := imageRec prev mask fl ws
          (imageRecs n r rest).map (r :: ·)

/-- A ring with no record. -/
def Ring.empty : Ring := { recs := [], image := none, charges := [] }

/-- A tenant's ring on a cell. -/
def State.ring (s : State) (c tenant : Nat) : Ring := (s.cell c).rings.getD tenant Ring.empty

/-- The state with a tenant's ring on a cell replaced. -/
def State.setRing (s : State) (c tenant : Nat) (g : Ring) : State := s.modCell c fun x => { x with rings := Assoc.put tenant g x.rings }

/-- The 16-byte header of a ring image (R244). -/
def imageHeader (count len : Nat) : List Byte := leBytes 4 count ++ leBytes 4 len ++ leBytes 8 0

/-- The records that a tenant's ring image on a cell holds, as its bytes stand, each with the region charged for it; none for a
malformed image (R244), or one that a memory error keeps from being read (log entry 57). -/
def State.imaged (s : State) (c tenant : Nat) : Option (List (Rec × Nat)) :=
  let g := s.ring c tenant
  match g.image with
  | none => some []
  | some (a, _) =>
    let h := s.readUnder (s.vltTag c a) (vltA c a) 16
    let n := leNat ((h.drop 4).take 4)
    if leNat (h.drop 8) ≠ 0 || (s.poisoned (vltA c a) (16 + n)).isSome then none
    else
      (imageRecs (leNat (h.take 4)) Rec.zero (s.readUnder (s.vltTag c a) (vltA c (a + 16)) n)).map fun rs =>
        rs.zipIdx.map fun r => (r.1, g.charges.getD r.2 0)

/-- The state with a tenant's ring image on a cell holding some records, in the lowest place of the tenant's spill area that
nothing else takes (log entry 57); the charges of those that have left it are credited (R412). None when it has no place. -/
def State.setImage (s : State) (c tenant : Nat) (rs : List (Rec × Nat)) : Option State :=
  let g := s.ring c tenant
  let new := rs.map (·.2)
  let s := (new.foldl (fun l r => eraseFirst (· == r) l) g.charges).foldl (fun s r => s.credit r 88) s
  let s := s.setRing c tenant { g with image := none, charges := [] }
  if rs.isEmpty then some s
  else
    let bs := imageBytes Rec.zero (rs.map (·.1))
    (s.spillPlace tenant c (16 + bs.length) 16).map fun a =>
      (s.mergeUnder (s.vltTag c a) (vltA c a) (imageHeader rs.length bs.length ++ bs)).setRing c tenant
        { g with image := some (a, 16 + bs.length), charges := new }

/-- The fields of a head word (R242). -/
def headRegion (h : Word) : Nat := slice h.toNat 32 16
/-- The kind of a head word. -/
def headKind (h : Word) : Nat := slice h.toNat 20 4
/-- The argc of a head word. -/
def headArgc (h : Word) : Nat := slice h.toNat 16 4
/-- The task type of a head word. -/
def headType (h : Word) : Nat := slice h.toNat 0 16
/-- A head word (R242). -/
def mkHead (region kind argc ty : Nat) : Word := word (region * 2 ^ 32 + kind * 2 ^ 20 + argc * 2 ^ 16 + ty)

/-- Whether a region's fault-handler task type is valid (R369). -/
def State.handlerType (s : State) (r : Nat) : Option Nat :=
  (s.region r).bind fun x => if (s.taskType x.tenant x.fhType).isSome then some x.fhType else none

/-- The cell to which a region's event goes (R369): the cell where it arose when the region has a frame area there,
else the lowest-numbered such cell of the die, else of the module. -/
def State.eventCell (s : State) (r c : Nat) : Option Nat :=
  match s.region r with
  | none => none
  | some x =>
    let framed := (x.grants.filter fun g => g.flo < g.fhi).map (·.cell)
    if framed.contains c then some c
    else
      match (framed.filter fun k => k / 240 == c / 240).min? with
      | some k => some k
      | none => framed.min?

/-- Whether a region is parked: it, or an ancestor of it, was switched out (R274). -/
def State.isParked (s : State) (r : Nat) : Bool :=
  (s.chain r).any fun q => match s.region q with
    | some x => x.parked
    | none => false

/-- Whether a region's tear-down is under way: its own, or an ancestor's (R282). -/
def State.isDying (s : State) (r : Nat) : Bool :=
  (s.chain r).any fun q => match s.region q with
    | some x => x.dying
    | none => false

/-- Whether a region is frozen on a cell (R370, R371). -/
def State.isFrozen (s : State) (r c : Nat) : Bool := (s.cell c).frozenRegs.any fun f => f.1 == r

/-- The state with a record on a tenant's ring of a cell, none when it finds the ring full and the spill budget or area
exhausted (R243). A record never overtakes one in the image; a parked region's record goes to the image (R274). One appended to a
malformed image is rejected with it. -/
def State.ringPush (s : State) (c tenant : Nat) (r : Rec) : Option State :=
  let ring := s.ring c tenant
  let q := headRegion r.head
  match s.imaged c tenant with
  | none => (s.charge q 88).map fun s => s.setRing c tenant { ring with charges := ring.charges ++ [q] }
  | some rs =>
    if !s.isParked q && rs.all (fun p => s.isParked (headRegion p.1.head)) && ring.recs.length < 256 then
      some (s.setRing c tenant { ring with recs := ring.recs ++ [r] })
    else (s.charge q 88).bind fun s => s.setImage c tenant (rs ++ [(r, q)])

/-- The task that the word of a context's work names, as an event carries it: 0 for a run of context 8 or 9, which has none (R246,
R369). -/
def taskWord (w : Word) : Word := if w.toNat < 2 ^ 62 then w else 0

/-- An event for a region's fault handler (R369): a record of kind 6 with argc 6. An event that no handler takes is counted in the
fault record of the cell where it arose; one that finds the ring full and the spill budget exhausted waits at its cell for a place
(log entry 58). The record counts as sent (R278, log entry 27). -/
def State.pushEvent (s : State) (r c code : Nat) (a1 a2 a3 a4 a5 : Word) : State :=
  match s.handlerType r, s.eventCell r c with
  | some ty, some k =>
    let rec_ : Rec := { head := mkHead r 6 6 ty, reply := 0, args := [word code, taskWord a1, a2, a3, a4, a5, 0, 0] }
    let s := (s.ringPush k (s.tenantOf r) rec_).getD (s.modCell k fun x => { x with lateEvents := x.lateEvents ++ [rec_] })
    s.modRegion r fun x => { x with sent := Assoc.put c (x.sent.getD c 0 + 1) x.sent }
  | _, _ => s.frBump r c 0x48 1

/-- The owner cell of a join or future reference (R250, R251). -/
def refCell (w : Word) : Nat := slice w.toNat 0 10

/-- A future that the hardware itself resolves faulted with a value (R243, R248, R275). -/
def State.faultReply (s : State) (c r : Nat) (ref : Word) (v : Nat) : State :=
  if ref = 0 then s
  else s.send (.cell c) (.cell (refCell ref))
    (.owner { kind := .fres false v, ref, cell := c, ctx := 15, task := 0, region := r, tenant := s.tenantOf r, action := none })

/-- The state with a record of a region discarded at a cell, as the retired counter of R278 counts it. -/
def State.countDropped (s : State) (r c : Nat) : State :=
  s.modRegion r fun x => { x with retired := Assoc.put c (x.retired.getD c 0 + 1) x.retired }

/-- The state with a record discarded that finds the spill budget exhausted (R243): its region is told, and a nonzero reply word
resolved faulted with value 56. -/
def State.spillLost (s : State) (c : Nat) (r : Rec) : State :=
  let q := headRegion r.head
  ((s.countDropped q c).pushEvent q c 3 0 3 r.head 0 0).faultReply c q r.reply 56

/-- A record's arrival at a cell's ring (R243). -/
def State.pushRecord (s : State) (c tenant : Nat) (r : Rec) : State := (s.ringPush c tenant r).getD (s.spillLost c r)

/-- The state with a record of a region created at a cell, as the sent counter of R278 counts it. -/
def State.countSent (s : State) (r c : Nat) : State :=
  s.modRegion r fun x => { x with sent := Assoc.put c (x.sent.getD c 0 + 1) x.sent }
/-- The state with a task ended or a record discarded at a cell, as the retired counter of R278 counts it; the stall
watchdog sees it (R165). -/
def State.countRetired (s : State) (r c : Nat) : State :=
  s.modRegion r fun x => { x with retired := Assoc.put c (x.retired.getD c 0 + 1) x.retired, activity := true }

/-! ### Pools: the return of drained tiles and the grants (R152, R158, R162, R164) -/

/-- Whether two byte ranges, given by start and length, overlap. -/
def overlaps (a n b m : Nat) : Bool := a < b + m && b < a + n

/-- The granule interval of a byte interval (R185). -/
def granLo (a : Nat) : Nat := a / 32
/-- The granule after the last of a byte interval. -/
def granHi (a n : Nat) : Nat := (a + n + 31) / 32

/-- Whether a scoreboard entry overlaps a byte interval of a space, in granules (R185, R188). -/
def SbEntry.hits (e : SbEntry) (sp : Space) (a n : Nat) : Bool :=
  e.space == sp && n ≠ 0 && e.lo < granHi a n && granLo a < e.hi

/-- The size of a pool's tiles. -/
def Pool.size (p : Pool) : Nat := 2 ^ p.k
/-- The number of tiles that are no extension tiles (R165). -/
def Pool.mainCount (p : Pool) : Nat := (p.tiles.filter fun t => t.ext.isNone).length
/-- The first byte of tile i (R152, R165). -/
def Pool.addrOf (p : Pool) (i : Nat) : Nat := ((p.tiles[i]?).bind (·.ext)).getD (p.base + i * p.size)
/-- Whether tile i lies in `.vlt`: a `.vlt` pool's tile, or an extension tile (R165). -/
def Pool.inVlt (p : Pool) (i : Nat) : Bool := p.vlt || ((p.tiles[i]?).bind (·.ext)).isSome
/-- The space of tile i. -/
def Pool.spaceOf (p : Pool) (i : Nat) : Space := if p.inVlt i then .vlt else .loc
/-- A tile handle (R152). -/
def mkHandle (cell pool idx tag : Nat) : Word := word (cell + pool * 2 ^ 10 + idx * 2 ^ 13 + tag * 2 ^ 25)
/-- The pool with its drained tiles that no entry of the scoreboard overlaps back at the tail of the free list (R162). -/
def Pool.release (x : Cell) (p : Pool) : Pool :=
  let back := (List.range p.tiles.length).filter fun i =>
    ((p.tiles[i]?).map (·.st)) == some .draining && !(x.sb.any fun e => e.hits (p.spaceOf i) (p.addrOf i) p.size)
  { p with tiles := p.tiles.zipIdx.map (fun t => if back.contains t.2 then { t.1 with st := .free, count := 0 } else t.1)
           free := p.free ++ back }

/-- The place an answer to a requester of a pool goes to: its cell, or back over the link (R159). -/
def PoolReq.place (r : PoolReq) : Place :=
  match r.link with
  | some l => .link l
  | none => .cell r.cell

/-- Whether a request waits for a thaw: its task's context is frozen (R175, R371). -/
def State.reqFrozen (s : State) (r : PoolReq) : Bool :=
  r.link.isNone && (s.ctxAt r.cell r.ctx).frozen.isSome && s.ctxTask r.cell r.ctx == r.task

/-- Grants of a pool, at most n: the oldest request that no freeze holds takes the free list's head (R158, R175; log entry
51). A pool whose owner is gone grants nothing (R164). A tile granted over a link belongs to the pool's owner, with context
15 (R408). -/
def State.grantPool (s : State) (c k : Nat) : Nat → State
  | 0 => s
  | n + 1 =>
    match Assoc.get? k (s.cell c).pools with
    | none => s
    | some p =>
      match if p.closing then none else p.queue.find? (fun r => !s.reqFrozen r), p.free with
      | some r, i :: is =>
        let tag := (((p.tiles[i]?).map (·.tag)).getD 0 + 1) % 4096
        let f (t : Tile) : Tile :=
          { t with st := if r.reads = 0 then .unsealed else .held, count := r.reads, tag := tag,
                   region := if r.link.isSome then p.owner else r.region, cell := r.cell,
                   ctx := if r.link.isSome then 15 else r.ctx, born := s.clock, published := false, raised := false }
        let s := s.modCell c fun x =>
          { x with pools := Assoc.put k { p with queue := eraseFirst (fun q => !s.reqFrozen q) p.queue, free := is, tiles := modifyAt f i p.tiles,
                                                 grants := (p.grants + 1) % 2 ^ 64 } x.pools }
        let s := s.modRegion (if r.link.isSome then p.owner else r.region) fun x => { x with activity := true }
        let s := s.send (.cell c) r.place (.grant k r (some (mkHandle c k i tag)) false)
        s.grantPool c k n
      | _, _ => s

/-- A pool whose owner is gone, unconfigured once all its tiles are Free: the requests still queued take the pool
request fault (R164). -/
def State.closePool (s : State) (c k : Nat) : State :=
  match Assoc.get? k (s.cell c).pools with
  | none => s
  | some p =>
    if p.closing && p.tiles.all (fun t => t.st == .free) then
      let s := s.modCell c fun x => { x with pools := Assoc.erase k x.pools }
      p.queue.foldl (fun s r => s.send (.cell c) r.place (.grant k r none true)) s
    else s

/-- The pools of a cell settled after a change of tiles or of the scoreboard: drained tiles go back, then the grants. -/
def State.settle (s : State) (c : Nat) : State :=
  let s := s.modCell c fun x => { x with pools := x.pools.map fun p => (p.1, p.2.release x) }
  ((s.cell c).pools.map (·.1)).foldl (fun s k =>
    let n := ((Assoc.get? k (s.cell c).pools).map (·.queue.length)).getD 0
    (s.grantPool c k n).closePool c k) s

/-- The contexts of the module that meet a test, as cell and number. -/
def State.ctxsWhere (s : State) (p : Ctx → Bool) : List (Nat × Nat) :=
  s.cells.flatMap fun x => (List.range 10).filterMap fun i => if p (x.2.ctx i) then some (x.1, i) else none

/-! ### Arrivals and releases (R342) -/

/-- Whether a cell's input is high. -/
def BarInst.high (b : BarInst) (x : BarCell) : Bool := x.cur == b.k || x.departed
/-- Whether every participating cell's input is high. -/
def BarInst.allHigh (b : BarInst) : Bool := b.cells.all fun x => b.high x.2
/-- The release of the current generation. -/
def BarInst.release (b : BarInst) : BarInst :=
  { b with gen := (b.gen + 1) % 2 ^ 16, cells := b.cells.map fun (x : Nat × BarCell) => (x.1, { x.2 with cur := x.2.next, next := 0 }) }
/-- The current generation broken (R342): LB takes it, then it is released. -/
def BarInst.break_ (b : BarInst) : BarInst := { b with lb := some b.gen }.release
/-- An arrival at a cell: the generation that it counts for; none when it must wait for a release. -/
def BarInst.arrive (b : BarInst) (c : Nat) : Option (BarInst × Nat) :=
  match Assoc.get? c b.cells with
  | none => none
  | some x =>
    if x.cur < b.k then some ({ b with cells := Assoc.put c { x with cur := x.cur + 1 } b.cells }, b.gen)
    else if x.next < b.k then some ({ b with cells := Assoc.put c { x with next := x.next + 1 } b.cells }, (b.gen + 1) % 2 ^ 16)
    else none
/-- How far a generation lies behind the current one, modulo 2^16. -/
def BarInst.behind (b : BarInst) (g : Nat) : Nat := (b.gen + 2 ^ 16 - g) % 2 ^ 16
/-- Whether a wait on a generation has ended. -/
def BarInst.ended (b : BarInst) (g : Nat) : Bool := 1 ≤ b.behind g && b.behind g ≤ 32768
/-- Whether a generation is the current one or the next. -/
def BarInst.near (b : BarInst) (g : Nat) : Bool := b.behind g == 0 || b.behind g == 2 ^ 16 - 1
/-- What a wait on a generation reports: 0 released, 1 broken. -/
def BarInst.status (b : BarInst) (g : Nat) : Nat := if b.lb = some g then 1 else 0

/-- The state with the contexts that wait on ended generations of an instance going on (R342): those not frozen, whose wait is held
(R371), or, when the instance ends with its generations, all. -/
def State.wakeBarrier (s : State) (key : Nat) (b : BarInst) (all : Bool) : State :=
  let waits (x : Ctx) : Bool := (all || x.frozen.isNone) && (match x.st with
    | .waiting (.barrier _ k g) => k == key && b.ended g
    | _ => false)
  (s.ctxsWhere waits).foldl (fun s p => s.modCtx p.1 p.2 fun x =>
    match x.st with
    | .waiting (.barrier d _ g) => { x.ws d (word (b.status g)) with st := .running }.retire
    | _ => x) s

/-- The state with an instance changed by a release or a break, and what waits on it going on. -/
def State.setBar (s : State) (key : Nat) (b : BarInst) : State :=
  { s with bars := Assoc.put key b s.bars }.wakeBarrier key b false

/-! ### Ends of tasks and kills -/

/-- The state with the retry-ring entries of a task removed, waiting ones among them (R363, R366). -/
def State.dropEntries (s : State) (c : Nat) (task : Word) : State :=
  s.modCell c fun x =>
    { x with retry := x.retry.filter fun e => e.2.task != task, retryWait := x.retryWait.filter fun e => e.1.task != task }

/-- The state with the port of slot k unbound at its home hub, across its link for a remote one (R285, R288). -/
def State.unbindPort (s : State) (c i k : Nat) (p : PortSlot) : State :=
  if bit p.name.toNat 40 then s.send (.cell c) (.link (slice p.name.toNat 41 4)) (.unbind p.name c i k (s.tenantOf (s.ctxRegion c i)))
  else s.modCell p.hub fun h => { h with binds := h.binds.filter fun b => !(b.cell == c && b.ctx == i && b.slot == k) }

/-- The state with the bindings of a context's ports removed at their hubs and its slots emptied (R288). -/
def State.unbindAll (s : State) (c i : Nat) : State :=
  let s := (s.ctxAt c i).slots.zipIdx.foldl (fun s x =>
    match x.1 with
    | none => s
    | some p => s.unbindPort c i x.2 p) s
  s.modCtx c i fun x => { x with slots := List.replicate 16 none }

/-- The state with a cluster member departed: its barrier input stays high, its `.loc` leaves the peer space, and the
instance is freed with its last member, its generations released (R341, R342, R345). -/
def State.depart (s : State) (c : Nat) (t : Task) : State :=
  match t.cluster with
  | none => s
  | some k =>
    match Assoc.get? k s.clusters with
    | none => s
    | some x =>
      let x := { x with departed := x.departed ++ [c] }
      if x.cells.all (x.departed.contains ·) then
        let s := match Assoc.get? x.inst s.bars with
          | some b => s.wakeBarrier x.inst b.release.release true
          | none => s
        { s with clusters := Assoc.erase k s.clusters, bars := Assoc.erase x.inst s.bars }
      else
        { s with clusters := Assoc.put k x s.clusters,
                 bars := Assoc.modify x.inst (fun b => { b with cells := Assoc.modify c (fun y => { y with departed := true }) b.cells }) s.bars }

/-- The end of a task's residence, by `done` or by a kill: registers and frame return to the cell, the slots are
emptied, the cluster is left (R72, R91, R288, R345). -/
def State.endTask (s : State) (c i : Nat) : State :=
  match (s.ctxAt c i).task with
  | none => s.modCtx c i fun _ => Ctx.reset
  | some t =>
    let s := s.unbindAll c i
    let s := s.depart c t
    let s := s.countRetired t.region c
    s.modCtx c i fun x => { Ctx.reset with seq := x.seq, opSeq := x.opSeq }

/-- The number of a task's operations that a kill withdraws: tile operations not started and copies not started
(R147, R198). -/
def State.withdrawn (s : State) (c : Nat) (task : Word) : Nat :=
  let x := s.cell c
  (x.tileq.filter fun o => o.task == task && !o.started).length
    + (x.copyq.filter fun o => o.task == task && o.phase == .queued).length

/-- The state with a killed task's operations withdrawn: those not started leave with their scoreboard entries, those
under way lose their completion action, a faulted copy's entries go (R147, R193, R198). -/
def State.withdrawOps (s : State) (c : Nat) (task : Word) : State :=
  s.modCell c fun x =>
    let isFaulted (o : CopyOp) : Bool := match o.phase with | .faulted _ => true | _ => false
    let goneT := (x.tileq.filter fun o => o.task == task && !o.started).map (·.key)
    let goneC := (x.copyq.filter fun o => o.task == task && (o.phase == .queued || isFaulted o)).map (·.key)
    let gone := goneT ++ goneC
    { x with
      tileq := (x.tileq.filter fun o => !goneT.contains o.key).map fun o => if o.task == task then { o with suppressed := true } else o
      copyq := (x.copyq.filter fun o => !goneC.contains o.key).map fun o => if o.task == task then { o with suppressed := true } else o
      sb := x.sb.filter fun e => !gone.contains e.key }

/-- The places to which a context's offers through slots have gone: hub cells, or links for remote ports. -/
def Ctx.offerPlaces (x : Ctx) (slots : List Nat) : List Place :=
  (slots.filterMap fun k => (x.slots.getD k none).map fun p =>
    if bit p.name.toNat 40 then Place.link (slice p.name.toNat 41 4) else Place.cell p.hub).eraseDups

/-- The fields of a pool designator (R153): cell. -/
def desCell (w : Word) : Nat := slice w.toNat 0 10
/-- The fields of a pool designator: pool. -/
def desPool (w : Word) : Nat := slice w.toNat 10 3
/-- The link of a remote pool designator. -/
def desLink (w : Word) : Option Nat := if bit w.toNat 13 then some (slice w.toNat 14 4) else none
/-- The place of the controller of the pool that a designator names. -/
def desPlace (w : Word) : Place :=
  match desLink w with
  | some l => .link l
  | none => .cell (desCell w)

/-- The state with the requests a killed task waits on cancelled: a waiting `talloc` (R160), the offers it holds
(R303, R314), the binding that it asked for across a link (R288). -/
def State.cancelWaits (s : State) (c i : Nat) : State :=
  let x := s.ctxAt c i
  let tenant := s.tenantOf (s.ctxRegion c i)
  match x.st with
  | .waiting (.port _ slots _ _ false) =>
    (x.offerPlaces slots).foldl (fun s p => s.post c p (.hubCancel c i (s.ctxTask c i) 16 tenant)) s
  | .waiting (.talloc _ _ w _ false) =>
    s.send (.cell c) (desPlace w) (.tallocCancel (desPool w) (desCell w) c i (s.ctxTask c i) none tenant)
  | .waiting (.pbind name (some l)) => s.send (.cell c) (.link l) (.unbind name c i 0 tenant)
  | _ => s

/-- The word at offset 8 of a kill record (R368). -/
def killWord (cause : Nat) (async : Bool) (origin : Nat) : Word := word (cause + b2n async * 64 + origin * 256)

/-- The state with a kill record written in turn (R367, R368), and the offset of the record. -/
def State.killRecord (s : State) (r c : Nat) (ptr : Word) (w : Word) (epc : Word) (t : TrapInfo) (signals withdrawn : Nat)
    (lastSig : Word) : State × Nat :=
  let idx := s.frRead r c 0x40 4
  let kills := s.frRead r c 0 8
  let off := 0x100 + 64 * idx
  let ws : List Nat := [ptr.toNat, w.toNat, epc.toNat, t.val.toNat, t.info.toNat, signals % 2 ^ 32 + withdrawn % 2 ^ 32 * 2 ^ 32,
    lastSig.toNat, s.clock % 2 ^ 64]
  let s := (ws.zipIdx).foldl (fun s x => s.frWrite r c (off + 8 * x.2) 8 x.1) s
  let s := s.frBump r c 0 1
  let s := s.frBump r c 0x30 withdrawn
  let s := if 256 ≤ kills then s.frBump r c 0x38 1 else s
  (s.frWrite r c 0x40 4 ((idx + 1) % 256), off)

/-- The state with the run of context 8 ended (R330, R375). -/
def State.endRun8 (s : State) (c : Nat) : State :=
  let s := s.modCell c fun x => { x with run8 := none }
  s.modCtx c 8 fun x => { Ctx.reset with seq := x.seq, opSeq := x.opSeq }

/-- The state with the run of context 9 ended (R358): nothing in context 9 survives (R357), and a `rgnact park` that it was
waiting in does not go on. -/
def State.endRun9 (s : State) (c : Nat) : State :=
  let s := { s with regions := s.regions.map fun (r : Nat × Region) => (r.1, { r.2 with parking := r.2.parking.filter (· ≠ c) }) }
  let s := s.modCell c fun x => { x with run9 := none }
  s.modCtx c 9 fun x => { Ctx.reset with seq := x.seq, opSeq := x.opSeq }

/-- A kill (R366): of the task of a context, or of the handler of context 8, whose message is lost (R330). It ends the
work where it stands, withdraws its operations and offers, removes its ring entries, writes a kill record and tells
the region's fault handler (event 1, and event 11 for a handler at its cap). A signal whose message has left counts (R267). -/
def State.kill (s : State) (c i origin : Nat) (async : Bool) (epc : Word) (t : TrapInfo) : State :=
  let r := s.ctxRegion c i
  let tk := s.ctxTask c i
  let x := s.ctxAt c i
  let ptr : Word := if i = 8 then 0 else tk
  let wd := s.withdrawn c tk
  let left : Bool := match x.st with
    | .waiting (.owner _) => true
    | _ => false
  let signals := (x.task.map (·.signals)).getD 0 + b2n left
  let lastSig := if left then x.pc else (x.task.map (·.lastSig)).getD 0
  let s := s.cancelWaits c i
  let s := (s.withdrawOps c tk).settle c
  let s := s.dropEntries c tk
  let s := s.modCell c fun y => { y with trapq := y.trapq.filter fun q => !(q.held && q.ctx == i) }
  let w := killWord t.cause async origin
  let (s, off) := s.killRecord r c ptr w epc t signals wd lastSig
  if i = 8 then
    let m := (s.cell c).run8
    let s := s.endRun8 c
    let s := s.frBump r c 0x18 1
    let s := s.pushEvent r c 1 0 w t.val t.info (word off)
    if origin = 6 then s.pushEvent r c 11 0 (word ((m.map (·.msg.cls)).getD 0)) ((m.map (·.msg.name)).getD 0) 0 (word off) else s
  else
    let s := s.endTask c i
    s.pushEvent r c 1 ptr w t.val t.info (word off)

/-- The count of a task's budget watchdog: the cycles since its dispatch, without those it was frozen (R272). -/
def State.watchdog (s : State) (t : Task) : Nat :=
  s.clock - t.start - t.stopped - (match t.frozenAt with | some k => s.clock - k | none => 0)

/-- Whether a context is due for a budget trap: a task that can issue or waits, at the end of its budget (R272). -/
def State.budgetDue (s : State) (c i : Nat) : Bool :=
  match (s.ctxAt c i).task with
  | some t => i < 8 && (s.ctxAt c i).frozen.isNone && (s.ctxAt c i).st != .held && t.budget + t.ext ≤ s.watchdog t
  | none => false

/-! ### Taking an exception and returning from one -/

/-- Whether the trapped context of a run of context 9 is still held, by the trap of that run. -/
def State.stillHeld (s : State) (c : Nat) (r : Run9) : Bool :=
  r.trap.held && (s.ctxAt c r.trap.ctx).st == .held && s.ctxTask c r.trap.ctx == r.trap.task

/-- A trap in context 9 itself (R358): it does not nest. The run ends and a held context of the run is killed with
origin 5, its kill record carrying this trap and the xepc of the held context. -/
def State.trapIn9 (s : State) (c : Nat) (t : TrapInfo) : State :=
  match (s.cell c).run9 with
  | none => s.endRun9 c
  | some r =>
    let s := s.endRun9 c
    if s.stillHeld c r then s.kill c r.trap.ctx 5 false r.trap.epc t else s

/-- Taking a precise trap (R356, R358, R359): the context is held at the instruction and the trap is queued for context
9. For causes 3 and 8 xepc is the sequential successor (R359). -/
def State.takeTrap (s : State) (c i : Nat) (t : TrapInfo) : State :=
  if i = 9 then s.trapIn9 c t
  else
    let pc := (s.ctxAt c i).pc
    let epc := if t.cause = 3 || t.cause = 8 then pcNext pc else pc
    let q : Trap := { ctx := i, async := false, ring := false, held := true, entry := 0, epc, info := t,
                      region := s.ctxRegion c i, task := s.ctxTask c i, upto := (s.ctxAt c i).seq }
    let s := s.modCtx c i fun x => { x with st := .held, stalled := false }
    s.modCell c fun x => { x with trapq := x.trapq ++ [q] }

/-- Taking an asynchronous trap at an instruction boundary (R356, R359, R361); one with a PC of its own is the precise trap of
an access issued again (R345). -/
def State.takeAsync (s : State) (c i : Nat) (t : AsyncTrap) : State :=
  let q : Trap := { ctx := i, async := t.at_.isNone, ring := t.entry.isSome, held := true, entry := t.entry.getD 0,
                    epc := t.at_.getD (s.ctxAt c i).pc, info := t.info, region := s.ctxRegion c i, task := s.ctxTask c i,
                    upto := (s.ctxAt c i).seq }
  let s := s.modCtx c i fun x => { x with st := .held, stalled := false }
  s.modCell c fun x => { x with trapq := x.trapq ++ [q] }

/-- A ring notice (R356): the context is not held. -/
def State.ringNotice (s : State) (c idx : Nat) (e : REntry) (t : TrapInfo) : State :=
  let q : Trap := { ctx := e.ctx, async := false, ring := true, held := false, entry := idx, epc := e.pc, info := t,
                    region := e.region, task := e.task, upto := (s.ctxAt c e.ctx).seq }
  s.modCell c fun x => { x with trapq := x.trapq ++ [q] }

/-- An asynchronous trap of an operation (R361): pending at the issuing context while its task is resident, else
reported to the region's fault handler as event 12. -/
def State.addAsync (s : State) (c i r : Nat) (task : Word) (t : TrapInfo) (entry : Option Nat) : State :=
  if s.ctxTask c i = task && (s.ctxAt c i).st != .idle then
    s.modCtx c i fun x => { x with asyncs := x.asyncs ++ [{ info := t, entry, at_ := none }] }
  else s.pushEvent r c 12 task (word t.cause) t.val t.info 0

/-- The state with a context frozen: its budget watchdog, or the cap of its run, stops (R371, R272). -/
def State.freezeCtx (s : State) (c i : Nat) (o : FrzOrigin) (r : Nat) : State :=
  let s := if i = 8 && (s.ctxAt c i).frozen.isNone then
      s.modCell c fun x => { x with run8 := x.run8.map fun q => { q with frozenAt := some s.clock } }
    else if i = 9 && (s.ctxAt c i).frozen.isNone then
      s.modCell c fun x => { x with run9 := x.run9.map fun q => { q with frozenAt := some s.clock } }
    else s
  s.modCtx c i fun x =>
    if x.frozen.isSome then x
    else { x with frozen := some (o, r), task := x.task.map fun t => { t with frozenAt := some s.clock } }

/-- The state with every context that works for a region on a cell frozen, and the freeze reported to the host (R370). -/
def State.freezeRegion (s : State) (c r : Nat) (o : FrzOrigin) : State :=
  let s := (List.range 9).foldl (fun s i =>
    if s.ctxRegion c i = r && (s.ctxAt c i).st != .idle then s.freezeCtx c i o r else s) s
  let s := s.modCell c fun x => { x with frozenRegs := x.frozenRegs ++ [(r, o)] }
  { s with hostOut := s.hostOut ++ [.freeze o r c] }

/-- An isolation violation of an instruction (R370): the context and every context of its region on the cell freeze,
in place of the trap, which the context takes when it is thawed (R372). -/
def State.takeFreeze (s : State) (c i : Nat) (o : FrzOrigin) (t : TrapInfo) : State :=
  let s := s.modCtx c i fun x => { x with freezeTrap := some t, stalled := false }
  let r := s.ctxRegion c i
  (s.freezeCtx c i o r).freezeRegion c r o

/-- The xcause word of a trap at handler entry (R359). -/
def Trap.xcause (t : Trap) : Word :=
  word (t.info.cause + (if t.ring then t.entry * 2 ^ 40 else 0) + t.ctx * 2 ^ 52 + b2n t.held * 2 ^ 61
    + b2n t.ring * 2 ^ 62 + b2n t.async * 2 ^ 63)

/-- The registers context 9 holds at a handler entry (R357, R69). -/
def entryRegs (x : Ctx) (pc : Word) (fhi frame : Nat) (task : Word) : Ctx :=
  let y : Ctx := { Ctx.reset with seq := x.seq, opSeq := x.opSeq, st := .running, pc := pc, xsl := word (fhi - frame) }
  (y.ws 2 (word fhi)).ws 3 task

/-- Trap entry (R357 to R359): context 9, when it is free, starts a run for the oldest queued trap: the trap registers
take the trap's values and the PC goes to the supervisor task type's entry. An entry that fails R30's check, or a
tenant without a valid supervisor type, kills the trapped task with origin 5. -/
def State.enterTrap (s : State) (c : Nat) : State :=
  match (s.cell c).run9, (s.cell c).trapq with
  | none, t :: q =>
    let s := s.modCell c fun x => { x with trapq := q }
    let tenant := s.tenantOf t.region
    let fail := if s.ctxTask c t.ctx = t.task then s.kill c t.ctx 5 t.async t.epc t.info else s
    match (s.region tenant).bind fun x => s.taskType tenant x.sup, s.grant tenant c with
    | some ty, some g =>
      if (s.checkTarget tenant c (word ty.entry)).isSome then fail
      else
        let s := s.modCell c fun x =>
          { x with run9 := some { trap := t, start := s.clock, tenant, stopped := 0, frozenAt := none },
                   xcause := t.xcause, xepc := t.epc, xval := t.info.val, xinfo := t.info.info }
        s.modCtx c 9 fun x => entryRegs x (word ty.entry) g.fhi ty.frame (if t.ctx = 8 then 0 else t.task)
    | _, _ => fail
  | _, _ => s

/-- A held context resumed at a PC with an empty fetch queue; a PC that fails the check of R30 without the target mask
raises that trap precisely in it (R375). -/
def State.resume (s : State) (c i : Nat) (pc : Word) : State :=
  let s := s.modCtx c i fun x => { x with st := .running, stalled := false, pc := pc, fetchq := [] }
  match s.checkResume (s.ctxRegion c i) c pc with
  | some t => s.takeTrap c i t
  | none => s

/-- The return from an exception by context 9 (R375): the run ends, and a held context resumes at xepc. -/
def State.returnFrom9 (s : State) (c : Nat) : State :=
  match (s.cell c).run9 with
  | none => s
  | some r =>
    let pc := word ((s.cell c).xepc.toNat % 2 ^ 30)
    let s := s.endRun9 c
    if s.stillHeld c r then s.resume c r.trap.ctx pc else s

/-! ### The configuration that is measured (R393) -/

/-- The partition, share and key-slot configuration as bytes (R393; log entry 5). -/
def State.configBytes (s : State) : List Byte :=
  let st (k : KeySlot) : Nat := match k.st with
    | .empty => 0
    | .installed => 1
    | .retiring => 2
  s.partitions.flatMap (fun p => leBytes 2 p.1 ++ leBytes 2 p.2.length ++ p.2.flatMap (leBytes 2))
  ++ leBytes 2 s.disjoint.length ++ s.disjoint.flatMap (leBytes 2)
  ++ s.stationShares.flatMap (fun x => leBytes 2 x.1 ++ leBytes 2 x.2.length
    ++ x.2.flatMap fun y => leBytes 2 y.1 ++ leBytes 2 y.2.1 ++ leBytes 2 y.2.2)
  ++ s.links.flatMap (fun l => leBytes 2 l.1 ++ leBytes 2 l.2.shares.length
    ++ l.2.shares.flatMap fun h => leBytes 1 h.share ++ leBytes 2 h.partition ++ leBytes 2 h.tenant ++ leBytes 2 h.far)
  ++ s.keys.flatMap (fun k => leBytes 2 k.1 ++ leBytes 1 (st k.2) ++ leBytes 2 k.2.owner)

/-- The state with measurement 4 taken of its configuration (R393). -/
def State.remeasure (s : State) : State := { s with meas := modifyAt (fun _ => Config.sha512 s.configBytes) 3 s.meas }

/-- The state with a key slot set, which measurement 4 records (R233, R393). -/
def State.setKey (s : State) (slot : Nat) (k : KeySlot) : State := { s with keys := Assoc.put slot k s.keys }.remeasure

/-! ### Issuing an instruction -/

/-- How an instruction stops short of its effect: a precise trap, a freeze in place of a trap (R370), or a stall at
issue. -/
inductive Stop where
  | trap (t : TrapInfo)
  | freeze (o : FrzOrigin) (t : TrapInfo)
  | stall

/-- The state after an instruction, or how it stopped. -/
abbrev Res := Except Stop State

/-- A trap of a cause with its xval and xinfo. -/
def Res.trap {α : Type} (cause : Nat) (val info : Word) : Except Stop α := .error (.trap { cause, val, info })
/-- A stall at issue. -/
def Res.stall {α : Type} : Except Stop α := .error .stall

/-- Whether an access is an atomic. -/
def Acc.isAtomic (a : Acc) : Bool :=
  match a.op with
  | .atomic _ => true
  | _ => false

/-- The announced loads and stores; an announced atomic is the message that it has sent (R334). -/
def State.scAccs (s : State) : List Acc := (s.scOps.map (·.acc)).filter (!·.isAtomic)

/-- The accesses of an agent of the module that are under way: in flight, in a table walk, in a retry ring, waiting for
an entry of one, or announced. -/
def State.allAccs (s : State) : List Acc :=
  (s.flights.filterMap fun f => match f.pay with
    | .stationReq a | .glb a | .peer a | .peerAbsent a | .atomicReq a => some a
    | .value a _ => some a
    | .atomicResult a _ => some a
    | _ => none)
  ++ s.stations.flatMap (fun x => x.2.walks.flatMap (·.waiting))
  ++ s.cells.flatMap (fun x => (x.2.retry.filterMap fun e => e.2.held) ++ (x.2.retryWait.filterMap fun e => e.1.acc)
      ++ (x.2.in8 ++ x.2.over8).filterMap fun q => match q with | .atomic a => some a | _ => none)
  ++ s.scAccs

/-- The accesses of a context's present work that are under way. -/
def State.accs (s : State) (c i : Nat) : List Acc :=
  s.allAccs.filter fun a => a.cell == c && a.ctx == i && a.task == s.ctxTask c i

/-- Whether an access returns a value to a register (loads class, R196). -/
def Acc.isLoad (a : Acc) : Bool :=
  match a.op with
  | .load | .atomic _ => true
  | _ => false

/-- Whether an access is a context's store (stores class, R196). -/
def Acc.isStore (a : Acc) : Bool := a.op == .store

/-- The operand values that are pending in a context: the destinations of its loads under way, which instructions that
read or write them wait for (R12, R73). -/
def State.pending (s : State) (c i : Nat) : List Nat := ((s.accs c i).filter (·.isLoad)).map (·.dest)

/-- The register counts of a context (R35, R69). -/
def Ctx.counts (x : Ctx) (i : Nat) : Nat × Nat := if i < 8 then (x.allot.scount, x.allot.vcount) else (32, 8)

/-- Whether an operand value names a register beyond the context's count (R35). -/
def beyond (n : Nat × Nat) (k : Nat) : Bool := (k < 64 && n.1 ≤ k) || (64 ≤ k && k < 96 && n.2 + 64 ≤ k)

/-- The operand values an instruction names, destinations first. -/
def operandsOf (i : Instr) : List Nat :=
  match i.toRaw with
  | some r => r.writes ++ r.reads
  | none => []

/-- Whether a context can issue (R356, R371). -/
def Ctx.canIssue (x : Ctx) : Bool := x.st == .running && x.frozen.isNone

/-- What becomes of an instruction's result: the next state, a trap taken, a freeze, or the same state with the context
stalled. -/
def finish (s : State) (r : Res) : State :=
  match r with
  | .ok t => t
  | .error .stall => s.modMe fun x => { x with stalled := true }
  | .error (.trap t) => s.takeTrap s.cur.cell s.cur.ctx t
  | .error (.freeze o t) => s.takeFreeze s.cur.cell s.cur.ctx o t

/-- The xval and xinfo words of an encoding trap: the instruction's bits [95:32] and [31:0] (R45). -/
def encTrap (cause : Nat) (i : Instr) : TrapInfo :=
  { cause, val := word (encode i / 2 ^ 32), info := word (encode i % 2 ^ 32) }

/-- The issue of a decoded instruction (R34, R45, R46): the context must be one the entry allows (a value condition,
tested when the guard is true, R9); a register beyond the allotment raises cause 26 whatever the guard; a false guard
makes it pass without effect; a pending operand stalls it (R73); then its own effect. -/
def issue (i : Instr) (g : Guard) (allowed : Nat → Bool) (body : State → Res) (s : State) :
    Host.Outcome State Fault Refusal :=
  let x := s.me
  if !x.canIssue || 10 ≤ s.cur.ctx then .fault .notIssuable
  else if x.guard g && !allowed s.cur.ctx then .next (s.takeTrap s.cur.cell s.cur.ctx (encTrap 2 i))
  else
    match (operandsOf i).find? (beyond (x.counts s.cur.ctx)) with
    | some k => .next (s.takeTrap s.cur.cell s.cur.ctx { cause := 26, val := (encTrap 26 i).val, info := word k })
    | none =>
      if !x.guard g then .next s.retire
      else if (operandsOf i).any (fun k => !constOperand k && (s.pending s.cur.cell s.cur.ctx).contains k) then
        .next (finish s Res.stall)
      else .next (finish s (body s))

/-- Contexts 0..8. -/
def notSuper (i : Nat) : Bool := i < 9
/-- Every context may issue it. -/
def anyCtx (_ : Nat) : Bool := true
/-- Contexts 0..7 only. -/
def taskCtx (i : Nat) : Bool := i < 8
/-- Every context but 8. -/
def notHandler (i : Nat) : Bool := i ≠ 8
/-- Context 9 only: a supervisor instruction (R9). -/
def superCtx (i : Nat) : Bool := i = 9
/-- Contexts 0..7 and 9. -/
def taskOrSuper (i : Nat) : Bool := i < 8 || i = 9

/-- An instruction that changes only its own context and goes on to the next slot. -/
def State.update (s : State) (f : Ctx → Ctx) : Res := .ok (s.modMe fun x => (f x).retire)

/-- A write of a scalar by an instruction of the register chapter: a write of s2 below the stack limit raises cause 27
and writes nothing (R76). -/
def State.wsChecked (s : State) (r : SReg) (v : Word) : Res :=
  if r.val = 2 && v.toNat < s.me.xsl.toNat % 2 ^ 21 then Res.trap 27 v 0
  else s.update fun x => x.ws r v

/-- The outcome of an event: the next state. -/
def event (s : State) : Host.Outcome State Fault Refusal := .next s

end Sys2Proof.Machine
end

