-- ==== Sys2Proof/Machine/Debug.lean ====
section
/-! DEFINITION. What the debugger does to the device (R376, R404): breakpoints planted, removed and gone on from (log entry 46). -/
namespace Sys2Proof.Machine

/-- The slot of a breakpoint in its line. -/
def Breakpoint.slot (b : Breakpoint) : Nat := slotOf (word b.pc)
/-- Whether a breakpoint stands in the line at an address of a cell. -/
def Breakpoint.inLine (b : Breakpoint) (c a : Nat) : Bool := b.cell == c && lineOf (word b.pc) == a

/-- The breakpoint planted at a PC of a cell. -/
def State.breakAt (s : State) (c pc : Nat) : Option Breakpoint := s.breaks.find? fun b => b.cell == c && b.pc == pc

/-- A number with a bit clear. -/
def clearBit (n k : Nat) : Nat := if bit n k then n - 2 ^ k else n

/-- A line word without the pairs that a slot belongs to, since `brk` pairs with no instruction (R31). -/
def unpaired (lw k : Nat) : Nat :=
  let lw := if k < 4 then clearBit lw (15 + k) else lw
  if 0 < k then clearBit lw (14 + k) else lw

/-- The state with a slot of a line of a cell set, the line's pairs those of a line word but for slots with a breakpoint, and its
parity (R26, R27); the contexts of the cell fetch it anew. -/
def State.setSlot (s : State) (c a k w lw : Nat) : State :=
  let tag := s.vltTag c a
  let old := Line.ofNat (leNat (s.readUnder tag (vltA c a) 64))
  let pairs := ((s.breaks.filter (·.inLine c a)).map (·.slot)).foldl unpaired lw
  let line := Line.sealed { slots := modifyAt (fun _ => w) k old.slots, lineWord := pairs }
  (s.writeUnder tag (vltA c a) (leBytes 64 line.toNat)).modCell c fun x =>
    { x with ctxs := x.ctxs.map fun y => { y with fetchq := y.fetchq.filter fun q => q.1 ≠ a } }

/-- The state with `brk` planted at a slot of a cell's code (R376, R404). -/
def State.plantBreak (s : State) (c pc : Nat) (code : BitVec 32) : State :=
  let p := word pc
  let a := lineOf p
  if 959 < c || !slotAligned p || (s.breakAt c pc).isSome || !(s.regions.any fun r => r.2.exec.contains (c, a / 65536)) then s
  else
    let old := Line.ofNat (leNat (s.readUnder (s.vltTag c a) (vltA c a) 64))
    let lw := ((s.breaks.find? (·.inLine c a)).map (·.lineWord)).getD old.lineWord
    let b : Breakpoint := { cell := c, pc, code := old.slot (slotOf p), lineWord := lw }
    { s with breaks := s.breaks ++ [b] }.setSlot c a (slotOf p) (encode (.brk { g := { p := 0, neg := false }, code })) lw

/-- The state with a breakpoint removed and what stood there in its place (R376). -/
def State.pullBreak (s : State) (c pc : Nat) : State :=
  match s.breakAt c pc with
  | none => s
  | some b =>
    { s with breaks := s.breaks.filter (· ≠ b), stepping := s.stepping.filter fun q => !(q.1 == c && q.2.2.2 == pc) }.setSlot
      c (lineOf (word pc)) b.slot b.code b.lineWord

/-- The state after the debugger lets the context go on that is held at a breakpoint of a cell (R404): xepc is the breakpoint's PC, the
supervisor's run ends as by `eret`, and the instruction that stood there issues once in its place. A context held by another trap stays
held. -/
def State.contBreak (s : State) (c : Nat) : State :=
  match (s.cell c).run9 with
  | none => s
  | some r =>
    let pc := r.trap.info.info.toNat
    if r.trap.info.cause = 3 && r.trap.held && (s.breakAt c pc).isSome then
      let s := s.modCell c fun x => { x with xepc := word pc }
      { s with stepping := s.stepping ++ [(c, r.trap.ctx, r.trap.task, pc)] }.returnFrom9 c
    else s

/-- The instruction word that the executing context issues in place of the breakpoint that it goes on from (R404). -/
def State.steppedWord (s : State) : Option Nat :=
  let c := s.cur.cell
  let pc := s.me.pc.toNat
  if s.stepping.contains (c, s.cur.ctx, s.ctxTask c s.cur.ctx, pc) then (s.breakAt c pc).map (·.code) else none

/-- The state after a context has issued the instruction under a breakpoint, which stops it the next time (R404). -/
def State.stepped (s : State) (c i : Nat) : State :=
  if (s.ctxAt c i).stalled then s else { s with stepping := s.stepping.filter fun q => !(q.1 == c && q.2.1 == i) }

end Sys2Proof.Machine
end

