-- ==== Sys2Proof/Machine/Operands.lean ====
section
/-! DEFINITION. The operand forms: values of the integer types (R81, R96), operand b of the scalar and vector
instructions (R36, R110, R117), effective addresses (R38), vector lanes (R108), system registers read (R74 to R77). -/
namespace Sys2Proof.Machine

/-- The width of a type in bits (R42). -/
def tyBits : Ty → Nat
  | .i64 | .n64 => 64
  | .i32 | .n32 | .f32 => 32
  | .i16 | .n16 | .bf16 => 16
  | .i8 | .n8 | .ts8 => 8
  | .nt4 => 4

/-- The size of a type in bytes in memory (R167). -/
def tyBytes (t : Ty) : Nat := tyBits t / 8

/-- Whether a type is signed (R81). -/
def tySigned : Ty → Bool
  | .i64 | .i32 | .i16 | .i8 => true
  | _ => false

/-- The two's-complement reading of a natural number below 2^w (R6 int). -/
def asInt (w n : Nat) : Int := if n < 2 ^ (w - 1) then (n : Int) else (n : Int) - 2 ^ w

/-- Val of R81: the low w bits of a word, signed or not. -/
def valOf (w : Nat) (sg : Bool) (x : Word) : Int :=
  let n := x.toNat % 2 ^ w
  if sg then asInt w n else n

/-- Ext64 of R81: an integer taken modulo 2^w and extended to 64 bits. -/
def ext64 (w : Nat) (sg : Bool) (v : Int) : Word :=
  let n := (v % 2 ^ w).toNat
  if sg then BitVec.ofInt 64 (asInt w n) else word n

/-- The least and greatest values of an integer type. -/
def tyLo (w : Nat) (sg : Bool) : Int := if sg then -(2 ^ (w - 1)) else 0
/-- The greatest value of an integer type. -/
def tyHi (w : Nat) (sg : Bool) : Int := if sg then 2 ^ (w - 1) - 1 else 2 ^ w - 1

/-- Sat of R7: the clamped value, and whether it clamped. -/
def clampTo (w : Nat) (sg : Bool) (v : Int) : Int × Bool :=
  if v < tyLo w sg then (tyLo w sg, true) else if tyHi w sg < v then (tyHi w sg, true) else (v, false)

/-- Operand b of the scalar instructions: a scalar, or imm32 sign-extended to 64 bits (R36). -/
def Ctx.srcB (x : Ctx) : SrcB → Word
  | .reg r => x.rs r
  | .imm v => v.signExtend 64

/-- Operand b of the scalar float instructions: 32 bits (R110). -/
def Ctx.srcF (x : Ctx) (b : SrcB) : Nat := (x.srcB b).toNat % 2 ^ 32

/-- Element i of w bits of a vector (R108). -/
def elemOf (w : Nat) (v : VWord) (i : Nat) : Nat := v.toNat / 2 ^ (w * i) % 2 ^ w

/-- The vector whose elements of w bits are given (R108). -/
def vecOf (w : Nat) (xs : List Nat) : VWord :=
  BitVec.ofNat 512 (xs.foldr (fun x acc => x % 2 ^ w + 2 ^ w * acc) 0)

/-- The sixteen 32-bit lanes of a vector. -/
def lanesOf (v : VWord) : List Nat := (List.range 16).map (elemOf 32 v)

/-- Operand b of the vector instructions: a vector, or 32 bits copied to every lane (R117). -/
def Ctx.srcV (x : Ctx) : VSrcB → VWord
  | .vec r => x.rv r
  | .sca r => vecOf 32 (List.replicate 16 ((x.rs r).toNat % 2 ^ 32))
  | .imm v => vecOf 32 (List.replicate 16 v.toNat)

/-- The effective address of R38: base plus the scaled index plus the signed displacement, modulo 2^64. -/
def Ctx.ea (x : Ctx) (base index : SReg) (scale : Nat) (disp : BitVec 37) : Word :=
  x.rs base + (x.rs index <<< scale) + disp.signExtend 64

/-- The effective address of a memory operand. -/
def Ctx.eaOf (x : Ctx) (m : MAddr) : Word := x.ea m.base m.index m.scale.val m.disp

/-- The scalar file entries allotted to the tasks of a cell: base and count (R70). -/
def Cell.scalarRanges (x : Cell) : List (Nat × Nat) :=
  (List.range 8).filterMap fun i =>
    if (x.ctx i).task.isSome then some ((x.ctx i).allot.sbase, (x.ctx i).allot.scount) else none
/-- The vector file entries allotted to the tasks of a cell. -/
def Cell.vectorRanges (x : Cell) : List (Nat × Nat) :=
  (List.range 8).filterMap fun i =>
    if (x.ctx i).task.isSome then some ((x.ctx i).allot.vbase, (x.ctx i).allot.vcount) else none

/-- Whether unit u lies in one of the ranges. -/
def inRanges (rs : List (Nat × Nat)) (u : Nat) : Bool := rs.any fun r => r.1 ≤ u && u < r.1 + r.2

/-- The free runs of a file: lengths of the maximal runs of free units from `u` on, `run` counting the present one. -/
def freeRuns (rs : List (Nat × Nat)) : Nat → Nat → Nat → List Nat
  | 0, _, run => [run]
  | n + 1, u, run => if inRanges rs u then run :: freeRuns rs n (u + 1) 0 else freeRuns rs n (u + 1) (run + 1)

/-- `rfree` (R77). -/
def Cell.rfree (x : Cell) : Word :=
  let sr := freeRuns (x.scalarRanges) 512 0 0
  let vr := freeRuns (x.vectorRanges) 256 0 0
  word (sr.sum + (sr.foldl max 0) * 2 ^ 16 + vr.sum * 2 ^ 32 + (vr.foldl max 0) * 2 ^ 48)

/-- `ralloc` (R77); 0 in contexts 8 and 9. -/
def Ctx.ralloc (x : Ctx) (i : Nat) : Word :=
  if i < 8 then word (x.allot.sbase + x.allot.scount * 2 ^ 16 + x.allot.vcount * 2 ^ 24 + x.allot.vbase * 2 ^ 32) else 0

/-- The cycles of the present work of a context: since the dispatch decision of a task, since the start of a run in
contexts 8 and 9 (R74, R109). -/
def State.tcycles (s : State) (c i : Nat) : Nat :=
  if i = 9 then ((s.cell c).run9.map fun r => s.clock - r.start).getD 0
  else if i = 8 then ((s.cell c).run8.map fun r => s.clock - r.start).getD 0
  else ((s.ctxAt c i).task.map fun t => s.clock - t.start).getD 0

/-- The ASID of the region a context runs for (R74). -/
def State.asidOf (s : State) (c i : Nat) : Nat := ((s.region (s.ctxRegion c i)).map (·.asid)).getD 0

/-- A system register as the executing context reads it (R74). -/
def State.sysReg (s : State) (n : SysReg) : Word :=
  let c := s.cur.cell
  let i := s.cur.ctx
  let x := s.me
  match n with
  | .cellid => word c
  | .ncells => word (if i < 8 then (x.task.map (·.ncells)).getD 0 else 0)
  | .rank => word (if i < 8 then (x.task.map (·.rank)).getD 0 else 0)
  | .ctxno => word i
  | .cycles => word s.clock
  | .tcycles => word (s.tcycles c i)
  | .iret => word x.iret
  | .stepping => word 0xa1
  | .xsl => x.xsl
  | .fcsr => x.fcsr
  | .ralloc => x.ralloc i
  | .rfree => (s.cell c).rfree
  | .sptmpl => x.sptmpl
  | .asid => word (s.asidOf c i % 2 ^ 14)
  | .xcause => (s.cell c).xcause
  | .xepc => (s.cell c).xepc
  | .xval => (s.cell c).xval
  | .xinfo => (s.cell c).xinfo

/-- A special operand (R35). -/
def State.special (s : State) : Special → Word
  | .pc => s.me.pc
  | .cellid => s.sysReg .cellid
  | .ncells => s.sysReg .ncells
  | .rank => s.sysReg .rank
  | .ctxno => s.sysReg .ctxno
  | .fcsr => s.sysReg .fcsr

end Sys2Proof.Machine
end

