-- ==== Sys2Proof/Machine/Flags.lean ====
section
/-! DEFINITION. The float formats FP32 and BF16 (R94, R95), fcsr with its rounding mode and sticky flags (R100, R103,
R104), exact sums and products with one rounding (R101, R102, R105), and the conversions (R115). -/
namespace Sys2Proof.Machine

/-! ### fcsr (R103) -/

/-- The inexact flag. -/
def flNx : Nat := 1
/-- The underflow flag. -/
def flUf : Nat := 2
/-- The overflow flag. -/
def flOf : Nat := 4
/-- The division-by-zero flag. -/
def flDz : Nat := 8
/-- The invalid flag. -/
def flNv : Nat := 16
/-- The saturation flag. -/
def flSat : Nat := 32

/-- A flag when a condition holds. -/
def flagIf (b : Bool) (f : Nat) : Nat := if b then f else 0

/-- The writable bits of fcsr. -/
def fcsrMask : Word := 0x1ff

/-- The context with sticky flags set (R104). -/
def Ctx.addFlags (x : Ctx) (f : Nat) : Ctx := { x with fcsr := x.fcsr ||| word f }

/-- A rounding mode from its code (R42). -/
def rndOf (n : Nat) : Rnd :=
  match n % 4 with
  | 0 => .rne
  | 1 => .rtz
  | 2 => .rdn
  | _ => .rup

/-- Mode() of R100. -/
def Ctx.mode (x : Ctx) (r : Rnd) : Rnd := if bit x.fcsr.toNat 6 then rndOf (slice x.fcsr.toNat 7 2) else r

/-! ### Exact values -/

/-- A float operand, or a term of an exact sum: a NaN, with whether it makes the operation invalid; an infinity; a
zero; or the nonzero value m × 2^e, signed. -/
inductive FVal where
  | nan (invalid : Bool)
  | inf (neg : Bool)
  | zero (neg : Bool)
  | fin (neg : Bool) (m : Nat) (e : Int)
deriving DecidableEq, Repr

/-- The value of a binary32 pattern (R94). -/
def f32Val (n : Nat) : FVal :=
  let s := bit n 31
  let e := slice n 23 8
  let f := slice n 0 23
  if e = 255 then (if f = 0 then .inf s else .nan (!bit n 22))
  else if e = 0 then (if f = 0 then .zero s else .fin s f (-149))
  else .fin s (f + 2 ^ 23) ((e : Int) - 150)

/-- The value of a BF16 pattern: that of the binary32 pattern it is the upper half of (R95). -/
def bf16Val (n : Nat) : FVal := f32Val (n % 2 ^ 16 * 2 ^ 16)

/-- An integer as a term. -/
def intVal (v : Int) : FVal := if v = 0 then .zero false else .fin (v < 0) v.natAbs 0

/-- Whether a value is a NaN. -/
def FVal.isNan : FVal → Bool
  | .nan _ => true
  | _ => false
/-- Whether a value is a signalling NaN. -/
def FVal.isSnan : FVal → Bool
  | .nan b => b
  | _ => false
/-- The sign of a value. -/
def FVal.neg : FVal → Bool
  | .nan _ => false
  | .inf s | .zero s => s
  | .fin s _ _ => s
/-- The negated value, for a subtraction: a NaN stays. -/
def FVal.negate : FVal → FVal
  | .nan b => .nan b
  | .inf s => .inf (!s)
  | .zero s => .zero (!s)
  | .fin s m e => .fin (!s) m e

/-- An exact product (R101, R102). -/
def FVal.mul (a b : FVal) : FVal :=
  match a, b with
  | .nan x, y => .nan (x || y.isSnan)
  | x, .nan y => .nan (x.isSnan || y)
  | .inf _, .zero _ | .zero _, .inf _ => .nan true
  | .inf s, y => .inf (s != y.neg)
  | x, .inf s => .inf (x.neg != s)
  | .zero s, y => .zero (s != y.neg)
  | x, .zero s => .zero (x.neg != s)
  | .fin s m e, .fin t n f => .fin (s != t) (m * n) (e + f)

/-- The least exponent among the finite terms, from a start value. -/
def minExp : List FVal → Int → Int
  | [], k => k
  | .fin _ _ e :: xs, k => minExp xs (if e < k then e else k)
  | _ :: xs, k => minExp xs k

/-- The exact sum of the finite terms in units of 2^k. -/
def sumUnits (k : Int) : List FVal → Int
  | [] => 0
  | .fin s m e :: xs =>
    let v : Int := (m * 2 ^ (e - k).toNat : Nat)
    (if s then -v else v) + sumUnits k xs
  | _ :: xs => sumUnits k xs

/-- The exact sum of terms before its rounding, in a mode (R101, R105). -/
def sumVal (md : Rnd) (ts : List FVal) : FVal :=
  let pinf := ts.any fun t => t == .inf false
  let ninf := ts.any fun t => t == .inf true
  if ts.any FVal.isNan || (pinf && ninf) then .nan (ts.any FVal.isSnan || (pinf && ninf))
  else if pinf then .inf false
  else if ninf then .inf true
  else
    let k := minExp ts 0
    let v := sumUnits k ts
    if v ≠ 0 then .fin (v < 0) v.natAbs k
    else if ts.all (· == .zero false) then .zero false
    else if ts.all (· == .zero true) then .zero true
    else .zero (md == .rdn)

/-! ### Rounding (R101, R104) -/

/-- The greatest k with 2^k ≤ n/d, for positive n and d. -/
def ratLog (n d : Nat) : Int :=
  let l : Int := (Nat.log2 n : Int) - Nat.log2 d
  let ge : Bool := if 0 ≤ l then d * 2 ^ l.toNat ≤ n else d ≤ n * 2 ^ (-l).toNat
  if ge then l else l - 1

/-- Whether the magnitude goes up to the next unit: the remainder r of a division by d, the parity of the quotient. -/
def roundsUp (md : Rnd) (neg odd : Bool) (r d : Nat) : Bool :=
  match md with
  | .rne => d < 2 * r || (2 * r == d && odd)
  | .rtz => false
  | .rdn => neg && r != 0
  | .rup => !neg && r != 0

/-- n/d × 2^e in units of 2^q, rounded to an integer in a mode; and whether that is inexact. -/
def roundUnits (md : Rnd) (neg : Bool) (n d : Nat) (e q : Int) : Nat × Bool :=
  let k := e - q
  let n' := if 0 ≤ k then n * 2 ^ k.toNat else n
  let d' := if 0 ≤ k then d else d * 2 ^ (-k).toNat
  let f := n' / d'
  let r := n' % d'
  (if roundsUp md neg (f % 2 == 1) r d' then f + 1 else f, r != 0)

/-- The largest finite pattern of precision p without its sign. -/
def maxFinite (p : Nat) : Nat := 255 * 2 ^ (p - 1) - 1

/-- A positive rational n/d × 2^e with a sign, rounded to the format of precision p (24 for FP32, 8 for BF16), as its
pattern and flags (R101, R104). -/
def roundRat (p : Nat) (md : Rnd) (neg : Bool) (n d : Nat) (e : Int) : Nat × Nat :=
  let k := ratLog n d + e
  let qu : Int := k - (p - 1 : Nat)
  let qmin : Int := -126 - (p - 1 : Nat)
  let q := if qu < qmin then qmin else qu
  let (su, _) := roundUnits md neg n d e qu
  let (m, inexact) := roundUnits md neg n d e q
  let sgn := b2n neg * 2 ^ (p + 7)
  -- the unbounded rounding is su × 2^qu
  let tooBig : Bool := 128 ≤ k || (k = 127 && 2 ^ p ≤ su)
  if tooBig then
    let toInf := match md with
      | .rne => true
      | .rtz => false
      | .rdn => neg
      | .rup => !neg
    (sgn + (if toInf then 255 * 2 ^ (p - 1) else maxFinite p), flOf + flNx)
  else
    let tiny : Bool := k < -127 || (k = -127 && su < 2 ^ p)
    (sgn + ((q - qmin).toNat * 2 ^ (p - 1) + m), flagIf inexact flNx + flagIf (inexact && tiny) flUf)

/-- The canonical NaN of precision p. -/
def canonNan (p : Nat) : Nat := 255 * 2 ^ (p - 1) + 2 ^ (p - 2)

/-- An exact value rounded to the format of precision p: pattern and flags. -/
def FVal.round (p : Nat) (md : Rnd) : FVal → Nat × Nat
  | .nan b => (canonNan p, flagIf b flNv)
  | .inf s => (b2n s * 2 ^ (p + 7) + 255 * 2 ^ (p - 1), 0)
  | .zero s => (b2n s * 2 ^ (p + 7), 0)
  | .fin s m e => roundRat p md s m 1 e

/-- An exact value rounded to FP32. -/
def FVal.f32 (md : Rnd) (v : FVal) : Nat × Nat := v.round 24 md
/-- An exact value rounded to BF16. -/
def FVal.bf16 (md : Rnd) (v : FVal) : Nat × Nat := v.round 8 md

/-- The exact sum of terms rounded once to FP32 (R105). -/
def sum32 (md : Rnd) (ts : List FVal) : Nat × Nat := (sumVal md ts).f32 md

/-- A quotient rounded once to FP32 (R101, R102). -/
def div32 (md : Rnd) (a b : FVal) : Nat × Nat :=
  match a, b with
  | .nan x, y => FVal.f32 md (.nan (x || y.isSnan))
  | x, .nan y => FVal.f32 md (.nan (x.isSnan || y))
  | .inf _, .inf _ | .zero _, .zero _ => FVal.f32 md (.nan true)
  | .inf s, y => FVal.f32 md (.inf (s != y.neg))
  | x, .inf s => FVal.f32 md (.zero (x.neg != s))
  | .zero s, y => FVal.f32 md (.zero (s != y.neg))
  | x, .zero s => ((FVal.f32 md (.inf (x.neg != s))).1, flDz)
  | .fin s m e, .fin t n f => roundRat 24 md (s != t) m n (e - f)

/-- The integer square root of n, found bit by bit from bit k - 1 down. -/
def isqrt (n : Nat) : Nat → Nat → Nat
  | 0, r => r
  | k + 1, r => if (r + 2 ^ k) * (r + 2 ^ k) ≤ n then isqrt n k (r + 2 ^ k) else isqrt n k r

/-- A value known by its floor r in units of 2^e, and whether it is exactly r, as a rational that rounds alike: a
floor of at least 26 bits settles every rounding to 24. -/
def stickyRound (md : Rnd) (neg : Bool) (r : Nat) (exact : Bool) (e : Int) : Nat × Nat :=
  roundRat 24 md neg (2 * r + b2n (!exact)) 1 (e - 1)

/-- The square root rounded to FP32 (R113). -/
def sqrt32 (md : Rnd) : FVal → Nat × Nat
  | .nan b => FVal.f32 md (.nan b)
  | .zero s => FVal.f32 md (.zero s)
  | .inf false => FVal.f32 md (.inf false)
  | .inf true => FVal.f32 md (.nan true)
  | .fin true _ _ => FVal.f32 md (.nan true)
  | .fin false m e =>
    let odd := e % 2 != 0
    let n := (if odd then 2 * m else m) * 2 ^ 64
    let h : Int := (if odd then e - 1 else e) / 2 - 32
    let r := isqrt n 48 0
    stickyRound md false r (r * r == n) h

/-- The order of two values that are no NaN, −0 below +0 (R111). -/
def FVal.less (a b : FVal) : Bool :=
  match a, b with
  | .inf s, .inf t => s && !t
  | .inf s, _ => s
  | _, .inf t => !t
  | .zero s, .zero t => s && !t
  | .zero _, .fin t _ _ => !t
  | .fin s _ _, .zero _ => s
  | .fin s m e, .fin t n f =>
    let k := if e < f then e else f
    let x : Int := (m * 2 ^ (e - k).toNat : Nat)
    let y : Int := (n * 2 ^ (f - k).toNat : Nat)
    (if s then -x else x) < (if t then -y else y)
  | _, _ => false

/-- `fmin` (less = true) and `fmax` of two patterns (R111). -/
def minmax32 (least : Bool) (a b : Nat) : Nat × Nat :=
  let x := f32Val a
  let y := f32Val b
  let nv := flagIf (x.isSnan || y.isSnan) flNv
  if x.isNan && y.isNan then (canonNan 24, nv)
  else if x.isNan then (b, nv)
  else if y.isNan then (a, nv)
  else if least then (if y.less x then b else a, nv)
  else (if x.less y then b else a, nv)

/-- A condition on two patterns, and its flags (R114). -/
def fcond (c : FCond) (a b : Nat) : Bool × Nat :=
  let x := f32Val a
  let y := f32Val b
  let un := x.isNan || y.isNan
  let z := (match x with | .zero _ => true | _ => false) && (match y with | .zero _ => true | _ => false)
  let eq := !un && (z || a == b)
  let lt := !un && !z && x.less y
  let gt := !un && !z && y.less x
  let snan := x.isSnan || y.isSnan
  match c with
  | .eq => (eq, flagIf snan flNv)
  | .ne => (!eq, flagIf snan flNv)
  | .lt => (lt, flagIf un flNv)
  | .le => (lt || eq, flagIf un flNv)
  | .gt => (gt, flagIf un flNv)
  | .ge => (gt || eq, flagIf un flNv)
  | .un => (un, flagIf snan flNv)

/-- An exact value rounded to an integer in a mode, and whether that is inexact; for finite values. -/
def FVal.toInt (md : Rnd) : FVal → Int × Bool
  | .fin s m e =>
    let r := roundUnits md s m 1 e 0
    (if s then -(r.1 : Int) else r.1, r.2)
  | _ => (0, false)

/-- FP32 to an integer type: value and flags (R115). -/
def cvtToInt (w : Nat) (sg : Bool) (md : Rnd) (v : FVal) : Int × Nat :=
  match v with
  | .nan _ => (0, flNv)
  | .inf s => (if s then tyLo w sg else tyHi w sg, flNv)
  | v =>
    let r := v.toInt md
    let c := clampTo w sg r.1
    if c.2 then (c.1, flNv) else (r.1, flagIf r.2 flNx)

/-- The class bit of a value given with its exponent and fraction fields (R116). -/
def fclassBit (e f : Nat) (v : FVal) : Nat :=
  match v with
  | .inf s => if s then 0 else 7
  | .zero s => if s then 3 else 4
  | .nan b => if b then 8 else 9
  | .fin s _ _ => if e = 0 && f ≠ 0 then (if s then 2 else 5) else (if s then 1 else 6)

/-! ### Element formats -/

/-- The value of a 4-bit TS8 half in units of 1/64 (R97). -/
def ts8Half (h : Nat) : Int :=
  let c := h % 8
  let m : Int := if c = 0 then 0 else (2 ^ (7 - c) : Nat)
  if bit h 3 then -m else m

/-- The value of a TS8 byte (R97); zero is +0. -/
def ts8Val (b : Nat) : FVal :=
  let v := ts8Half (b / 16 % 16) + ts8Half (b % 16)
  if v = 0 then .zero false else .fin (v < 0) v.natAbs (-6)

/-- The value of an NT4 code under a table (R98). -/
def nt4Int (tbl : BitVec 128) (i : Nat) : Int := asInt 8 (tbl.toNat / 2 ^ (8 * (i % 16)) % 256)

/-- Element k of a vector or of memory bytes given as a natural, of a type, as an exact value (R97, R98, R121). -/
def elemVal (tbl : BitVec 128) (t : Ty) (n k : Nat) : FVal :=
  match t with
  | .f32 => f32Val (n / 2 ^ (32 * k) % 2 ^ 32)
  | .bf16 => bf16Val (n / 2 ^ (16 * k) % 2 ^ 16)
  | .ts8 => ts8Val (n / 2 ^ (8 * k) % 256)
  | .nt4 => intVal (nt4Int tbl (n / 2 ^ (4 * k) % 16))
  | t => intVal (valOf (tyBits t) (tySigned t) (word (n / 2 ^ (tyBits t * k) % 2 ^ tyBits t)))

/-- The flags of a list of results, together. -/
def orFlags (rs : List (Nat × Nat)) : Nat := rs.foldl (fun f r => f ||| r.2) 0

end Sys2Proof.Machine
end

