-- ==== Sys2Proof/Machine/Scalar.lean ====
section
/-! DEFINITION. The meanings of the register chapter: integer instructions (R81 to R87), predicates (R88), control flow
(R89, R90), `done` (R91), system registers (R92). -/
namespace Sys2Proof.Machine

/-- The bits of an integer in w bits. -/
def bitsOf (w : Nat) (v : Int) : Nat := (v % 2 ^ w).toNat

/-- A write of a scalar with sticky flags: nothing when it is refused by the stack limit (R76). -/
def State.wsFlags (s : State) (r : SReg) (v : Word) (f : Nat) : Res :=
  if r.val = 2 && v.toNat < s.me.xsl.toNat % 2 ^ 21 then Res.trap 27 v 0
  else s.update fun x => (x.ws r v).addFlags f

/-- The two-operand integer family (R81): the operation takes the width, the two values and the shift count. -/
def intArith (x : ArgInt) (op : Nat → Int → Int → Nat → Int) (s : State) : Res :=
  let w := tyBits x.ty
  let sg := tySigned x.ty
  let b := s.me.srcB x.b
  let v := op w (valOf w sg (s.me.rs x.a)) (valOf w sg b) (b.toNat % w)
  if x.sat then
    let c := clampTo w sg v
    s.wsFlags x.d (ext64 w sg c.1) (flagIf c.2 flSat)
  else s.wsChecked x.d (ext64 w sg v)

/-- A bitwise operation on the low w bits of both values. -/
def bitwise (f : Nat → Nat → Nat) (w : Nat) (a b : Int) (_ : Nat) : Int := (f (bitsOf w a) (bitsOf w b) : Nat)

/-- Division truncated toward zero with its corner (R81). -/
def divI (_ : Nat) (a b : Int) (_ : Nat) : Int := if b = 0 then -1 else a.tdiv b
/-- Unsigned division with its corner (R81). -/
def divN (w : Nat) (a b : Int) (_ : Nat) : Int := if b = 0 then 2 ^ w - 1 else a.tdiv b
/-- The remainder with its corner (R81). -/
def remI (_ : Nat) (a b : Int) (_ : Nat) : Int := if b = 0 then a else a.tmod b

/-- Rotation left within w bits (R81). -/
def rotl (w : Nat) (a _ : Int) (k : Nat) : Int :=
  let n := bitsOf w a
  (n * 2 ^ k + n / 2 ^ (w - k) : Nat)

/-- The number of leading zeros of an n-bit number counted from bit n - 1 down. -/
def leading (v : Nat) : Nat → Nat
  | 0 => 0
  | n + 1 => if bit v n then 0 else 1 + leading v n
/-- The number of trailing zeros, counted from bit k up over n bits. -/
def trailing (v : Nat) : Nat → Nat → Nat
  | 0, _ => 0
  | n + 1, k => if bit v k then 0 else 1 + trailing v n (k + 1)
/-- The number of ones among n bits. -/
def ones (v n : Nat) : Nat := ((List.range n).filter (bit v)).length

/-- A unary operation on the low bits (R82), given the width and the bits. -/
def intUnary (x : ArgTDA) (op : Nat → Nat → Nat) (s : State) : Res :=
  let w := tyBits x.ty
  s.wsChecked x.d (word (op w ((s.me.rs x.a).toNat % 2 ^ w)))

/-- The bits that `bins` replaces: len bits from p on, those above bit 63 dropped (R83). -/
def fieldMask (p len : Nat) : Word := word ((2 ^ len - 1) * 2 ^ p)

/-- A relation of `cmp` and of the integer `vcmp` on two values of w bits (R87). -/
def condHolds (c : Cond) (w : Nat) (a b : Int) : Bool :=
  match c with
  | .eq => a == b
  | .ne => a != b
  | .lt => a < b
  | .le => a ≤ b
  | .gt => b < a
  | .ge => b ≤ a
  | .tst => bitsOf w a &&& bitsOf w b != 0
  | .tstn => bitsOf w a &&& bitsOf w b == 0

/-- The target of a branch: line(PC) + 64 × loff + 12 × slot (R89). -/
def targetPc (pc : Word) (t : Target) : Word := word (lineOf pc) + t.loff.signExtend 64 * 64 + word (12 * t.slot.val)

/-- A control transfer: the new PC is checked by R30, and the registers are written only when it passes. -/
def State.branchTo (s : State) (pc : Word) (f : Ctx → Ctx) : Res :=
  match s.checkTarget (s.ctxRegion s.cur.cell s.cur.ctx) s.cur.cell pc with
  | some t => .error (.trap t)
  | none => .ok (s.modMe fun x => (f x).jump pc)

/-- The stack limit a write of `xsl` leaves: clamped to the frame in contexts 0..7, any value of 21 bits in contexts 8
and 9 (R76). -/
def Ctx.xslWrite (x : Ctx) (i : Nat) (v : Word) : Word :=
  let n := v.toNat % 2 ^ 21
  match (if i < 8 then x.task else none) with
  | some t => word (if n < t.frameLo then t.frameLo else if t.frameHi < n then t.frameHi else n)
  | none => word n

/-- The fields of `xcause` that a write keeps (R359). -/
def xcauseMask : Word := word (2 ^ 63 + 2 ^ 62 + 2 ^ 61 + 15 * 2 ^ 52 + 63 * 2 ^ 40 + 63)

/-- A write of a system register per its field map (R74, R76, R103, R245, R359). -/
def State.wrSys (s : State) (n : SysReg) (v : Word) : State :=
  match n with
  | .xsl => s.modMe fun x => { x with xsl := x.xslWrite s.cur.ctx v }
  | .fcsr => s.modMe fun x => { x with fcsr := v &&& fcsrMask }
  | .sptmpl => s.modMe fun x => { x with sptmpl := v &&& 0x1ffff8 }
  | .xcause => s.modCell s.cur.cell fun x => { x with xcause := v &&& xcauseMask }
  | .xepc => s.modCell s.cur.cell fun x => { x with xepc := v &&& 0x3fffffff }
  | .xval => s.modCell s.cur.cell fun x => { x with xval := v }
  | .xinfo => s.modCell s.cur.cell fun x => { x with xinfo := v }
  | _ => s

/-- `add`: the sum (R81). -/
def execAdd (x : ArgInt) (s : State) : Host.Outcome State Fault Refusal :=
  issue (.add x) x.g anyCtx (intArith x (fun _ a b _ => a + b)) s

/-- `sub`: the difference (R81). -/
def execSub (x : ArgInt) (s : State) : Host.Outcome State Fault Refusal :=
  issue (.sub x) x.g anyCtx (intArith x (fun _ a b _ => a - b)) s

/-- `mul`: the product (R81). -/
def execMul (x : ArgInt) (s : State) : Host.Outcome State Fault Refusal :=
  issue (.mul x) x.g anyCtx (intArith x (fun _ a b _ => a * b)) s

/-- `mulh`: the high half of the signed product (R81). -/
def execMulh (x : ArgInt) (s : State) : Host.Outcome State Fault Refusal :=
  issue (.mulh x) x.g anyCtx (intArith x (fun w a b _ => (a * b) / 2 ^ w)) s

/-- `mulhu`: the high half of the unsigned product (R81). -/
def execMulhu (x : ArgInt) (s : State) : Host.Outcome State Fault Refusal :=
  issue (.mulhu x) x.g anyCtx (intArith x (fun w a b _ => (a * b) / 2 ^ w)) s

/-- `div`: the signed quotient (R81). -/
def execDiv (x : ArgInt) (s : State) : Host.Outcome State Fault Refusal :=
  issue (.div x) x.g anyCtx (intArith x divI) s

/-- `divu`: the unsigned quotient (R81). -/
def execDivu (x : ArgInt) (s : State) : Host.Outcome State Fault Refusal :=
  issue (.divu x) x.g anyCtx (intArith x divN) s

/-- `rem`: the signed remainder (R81). -/
def execRem (x : ArgInt) (s : State) : Host.Outcome State Fault Refusal :=
  issue (.rem x) x.g anyCtx (intArith x remI) s

/-- `remu`: the unsigned remainder (R81). -/
def execRemu (x : ArgInt) (s : State) : Host.Outcome State Fault Refusal :=
  issue (.remu x) x.g anyCtx (intArith x remI) s

/-- `and`: bitwise AND (R81). -/
def execAnd (x : ArgInt) (s : State) : Host.Outcome State Fault Refusal :=
  issue (.and x) x.g anyCtx (intArith x (bitwise (· &&& ·))) s

/-- `or`: bitwise OR (R81). -/
def execOr (x : ArgInt) (s : State) : Host.Outcome State Fault Refusal :=
  issue (.or x) x.g anyCtx (intArith x (bitwise (· ||| ·))) s

/-- `xor`: bitwise XOR (R81). -/
def execXor (x : ArgInt) (s : State) : Host.Outcome State Fault Refusal :=
  issue (.xor x) x.g anyCtx (intArith x (bitwise (· ^^^ ·))) s

/-- `andn`: AND with the complement of b (R81). -/
def execAndn (x : ArgInt) (s : State) : Host.Outcome State Fault Refusal :=
  issue (.andn x) x.g anyCtx (intArith x (fun w a b k => bitwise (· &&& ·) w a (-b - 1) k)) s

/-- `shl`: shift left (R81). -/
def execShl (x : ArgInt) (s : State) : Host.Outcome State Fault Refusal :=
  issue (.shl x) x.g anyCtx (intArith x (fun _ a _ k => a * 2 ^ k)) s

/-- `shr`: logical shift right (R81). -/
def execShr (x : ArgInt) (s : State) : Host.Outcome State Fault Refusal :=
  issue (.shr x) x.g anyCtx (intArith x (fun w a _ k => (bitsOf w a / 2 ^ k : Nat))) s

/-- `sar`: arithmetic shift right (R81). -/
def execSar (x : ArgInt) (s : State) : Host.Outcome State Fault Refusal :=
  issue (.sar x) x.g anyCtx (intArith x (fun w a _ k => asInt w (bitsOf w a) / 2 ^ k)) s

/-- `rol`: rotate left (R81). -/
def execRol (x : ArgInt) (s : State) : Host.Outcome State Fault Refusal :=
  issue (.rol x) x.g anyCtx (intArith x rotl) s

/-- `min`: the lesser, signed (R81). -/
def execMin (x : ArgInt) (s : State) : Host.Outcome State Fault Refusal :=
  issue (.min x) x.g anyCtx (intArith x (fun _ a b _ => if b < a then b else a)) s

/-- `max`: the greater, signed (R81). -/
def execMax (x : ArgInt) (s : State) : Host.Outcome State Fault Refusal :=
  issue (.max x) x.g anyCtx (intArith x (fun _ a b _ => if a < b then b else a)) s

/-- `minu`: the lesser, unsigned (R81). -/
def execMinu (x : ArgInt) (s : State) : Host.Outcome State Fault Refusal :=
  issue (.minu x) x.g anyCtx (intArith x (fun _ a b _ => if b < a then b else a)) s

/-- `maxu`: the greater, unsigned (R81). -/
def execMaxu (x : ArgInt) (s : State) : Host.Outcome State Fault Refusal :=
  issue (.maxu x) x.g anyCtx (intArith x (fun _ a b _ => if a < b then b else a)) s

/-- `clz`: leading zeros (R82). -/
def execClz (x : ArgTDA) (s : State) : Host.Outcome State Fault Refusal :=
  issue (.clz x) x.g anyCtx (intUnary x fun w v => leading v w) s

/-- `ctz`: trailing zeros (R82). -/
def execCtz (x : ArgTDA) (s : State) : Host.Outcome State Fault Refusal :=
  issue (.ctz x) x.g anyCtx (intUnary x fun w v => trailing v w 0) s

/-- `popc`: ones (R82). -/
def execPopc (x : ArgTDA) (s : State) : Host.Outcome State Fault Refusal :=
  issue (.popc x) x.g anyCtx (intUnary x fun w v => ones v w) s

/-- `bext`: len bits from pos on, zeros above bit 63, extended (R83). -/
def execBext (x : ArgBext) (s : State) : Host.Outcome State Fault Refusal :=
  issue (.bext x) x.g anyCtx (fun s =>
    let p := (s.me.srcB x.pos).toNat % 64
    s.wsChecked x.d (ext64 x.len.toNat (tySigned x.ty) ((s.me.rs x.a).toNat / 2 ^ p % 2 ^ x.len.toNat : Nat))) s

/-- `bins`: the low len bits of sc put at pos (R83). -/
def execBins (x : ArgBins) (s : State) : Host.Outcome State Fault Refusal :=
  issue (.bins x) x.g anyCtx (fun s =>
    let p := (s.me.srcB x.pos).toNat % 64
    let m := fieldMask p x.len.toNat
    s.wsChecked x.d ((s.me.rs x.a &&& ~~~m) ||| ((s.me.rs x.c <<< p) &&& m))) s

/-- `lea`: the effective address, nothing accessed (R84). -/
def execLea (x : ArgLea) (s : State) : Host.Outcome State Fault Refusal :=
  issue (.lea x) x.g anyCtx (fun s => s.wsChecked x.d (s.me.eaOf x.addr)) s

/-- `li`: the immediate, sign-extended for `.i64`, zero-extended otherwise (R85). -/
def execLi (x : ArgLi) (s : State) : Host.Outcome State Fault Refusal :=
  issue (.li x) x.g anyCtx (fun s =>
    s.wsChecked x.d (if x.ty = .i64 then x.imm.signExtend 64 else x.imm.zeroExtend 64)) s

/-- `mov`: a 64-bit value moved unchanged; the writable fields of fcsr (R86, R103). -/
def execMov (x : ArgMov) (s : State) : Host.Outcome State Fault Refusal :=
  issue (.mov x) x.g anyCtx (fun s =>
    let v := match x.src with
      | .reg r => s.me.rs r
      | .special k => s.special k
    match x.dst with
    | .reg d => s.wsChecked d v
    | .fcsr => .ok (s.wrSys .fcsr v).retire) s

/-- `sel` (R86). -/
def execSel (x : ArgSel) (s : State) : Host.Outcome State Fault Refusal :=
  issue (.sel x) x.g anyCtx (fun s => s.wsChecked x.d (if s.me.rp x.p then s.me.rs x.a else s.me.srcB x.b)) s

/-- `cmp` (R87). -/
def execCmp (x : ArgCmp) (s : State) : Host.Outcome State Fault Refusal :=
  issue (.cmp x) x.g anyCtx (fun s =>
    let w := tyBits x.ty
    let sg := tySigned x.ty
    s.update fun y => y.wp x.pd (condHolds x.cond w (valOf w sg (y.rs x.a)) (valOf w sg (y.srcB x.b)))) s

/-- `pand`: AND of two predicates (R88). -/
def execPand (x : ArgP3) (s : State) : Host.Outcome State Fault Refusal :=
  issue (.pand x) x.g anyCtx (fun s => s.update fun y => y.wp x.d (y.rp x.a && y.rp x.b)) s

/-- `por`: OR of two predicates (R88). -/
def execPor (x : ArgP3) (s : State) : Host.Outcome State Fault Refusal :=
  issue (.por x) x.g anyCtx (fun s => s.update fun y => y.wp x.d (y.rp x.a || y.rp x.b)) s

/-- `pxor`: XOR of two predicates (R88). -/
def execPxor (x : ArgP3) (s : State) : Host.Outcome State Fault Refusal :=
  issue (.pxor x) x.g anyCtx (fun s => s.update fun y => y.wp x.d (y.rp x.a != y.rp x.b)) s

/-- `pnot` (R88). -/
def execPnot (x : ArgP2) (s : State) : Host.Outcome State Fault Refusal :=
  issue (.pnot x) x.g anyCtx (fun s => s.update fun y => y.wp x.d (!y.rp x.a)) s

/-- `ppack`: the eight predicates in the low byte (R88). -/
def execPpack (x : ArgD) (s : State) : Host.Outcome State Fault Refusal :=
  issue (.ppack x) x.g anyCtx (fun s =>
    s.wsChecked x.d (word ((List.range 8).map fun k => if s.me.rp (Fin.ofNat 8 k) then 2 ^ k else 0).sum)) s

/-- `punpk`: the predicates that the mask names (R88). -/
def execPunpk (x : ArgPunpk) (s : State) : Host.Outcome State Fault Refusal :=
  issue (.punpk x) x.g anyCtx (fun s =>
    s.update fun y => (List.range 8).foldl (fun z k =>
      if bit x.mask.toNat k then z.wp (Fin.ofNat 8 k) (bit (y.rs x.a).toNat k) else z) y) s

/-- `br nz` and `br z` (R89). -/
def execBr (x : ArgBr) (s : State) : Host.Outcome State Fault Refusal :=
  issue (.br x) x.g anyCtx (fun s =>
    if (s.me.rs x.a == 0) == x.z then s.branchTo (targetPc s.me.pc x.t) id else s.update id) s

/-- `jmp` (R89). -/
def execJmp (x : ArgT) (s : State) : Host.Outcome State Fault Refusal :=
  issue (.jmp x) x.g anyCtx (fun s => s.branchTo (targetPc s.me.pc x.t) id) s

/-- `call`: s1 takes the return point (R89). -/
def execCall (x : ArgT) (s : State) : Host.Outcome State Fault Refusal :=
  issue (.call x) x.g anyCtx (fun s => s.branchTo (targetPc s.me.pc x.t) fun y => y.ws 1 (pcNext y.pc)) s

/-- `loop`: the count down by one, taken while it is nonzero (R89). -/
def execLoop (x : ArgLoop) (s : State) : Host.Outcome State Fault Refusal :=
  issue (.loop x) x.g anyCtx (fun s =>
    let v := s.me.rs x.a - 1
    if v = 0 then s.wsChecked x.a v
    else if x.a.val = 2 && v.toNat < s.me.xsl.toNat % 2 ^ 21 then Res.trap 27 v 0
    else s.branchTo (targetPc s.me.pc x.t) fun y => y.ws x.a v) s

/-- `jr` (R90). -/
def execJr (x : ArgA) (s : State) : Host.Outcome State Fault Refusal :=
  issue (.jr x) x.g anyCtx (fun s => s.branchTo (s.me.rs x.a) id) s

/-- `callr`: the old target is read before s1 takes the return point (R90). -/
def execCallr (x : ArgA) (s : State) : Host.Outcome State Fault Refusal :=
  issue (.callr x) x.g anyCtx (fun s => s.branchTo (s.me.rs x.a) fun y => y.ws 1 (pcNext y.pc)) s

/-- `ret` (R90). -/
def execRet (x : ArgA) (s : State) : Host.Outcome State Fault Refusal :=
  issue (.ret x) x.g anyCtx (fun s => s.branchTo (s.me.rs x.a) id) s

/-- `done`: it stalls while a load of the task is under way, then ends the task (R91). -/
def execDone (x : ArgG) (s : State) : Host.Outcome State Fault Refusal :=
  issue (.done x) x.g taskCtx (fun s =>
    if (s.accs s.cur.cell s.cur.ctx).any (·.isLoad) then Res.stall
    else .ok (s.endTask s.cur.cell s.cur.ctx)) s

/-- `rdsr` (R92); a sup register is the supervisor's (R9). -/
def execRdsr (x : ArgRdsr) (s : State) : Host.Outcome State Fault Refusal :=
  issue (.rdsr x) x.g (fun i => !x.n.sup || superCtx i) (fun s => s.wsChecked x.d (s.sysReg x.n)) s

/-- `wrsr` (R92); a sup register is the supervisor's (R9). -/
def execWrsr (x : ArgWrsr) (s : State) : Host.Outcome State Fault Refusal :=
  issue (.wrsr x) x.g (fun i => !x.n.sup || superCtx i) (fun s => .ok (s.wrSys x.n (s.me.rs x.a)).retire) s

end Sys2Proof.Machine
end

