-- ==== Sys2Proof/Machine/Tiles.lean ====
section
/-! DEFINITION. Pools and counted tiles: where a tile's bytes lie (R151, R152, R165), the events of one tile (R155), the
return of drained tiles and the grants (R158, R162), handles and designators (R152, R153). -/
namespace Sys2Proof.Machine

/-! ### Tiles -/

/-- The tiles of a pool that a byte range of a space touches. -/
def Pool.touched (p : Pool) (sp : Space) (a n : Nat) : List Nat :=
  (List.range p.tiles.length).filter fun i => p.spaceOf i == sp && overlaps (p.addrOf i) p.size a n
/-- The tiles of a cell that a byte range of a space touches, pool and index. -/
def Cell.touched (x : Cell) (sp : Space) (a n : Nat) : List (Nat × Nat) :=
  x.pools.flatMap fun p => (p.2.touched sp a n).map fun i => (p.1, i)
/-- The tile that a byte range lies wholly inside of, pool and index (R161). -/
def Cell.tileOf (x : Cell) (sp : Space) (a n : Nat) : Option (Nat × Nat) :=
  (x.touched sp a n).find? fun q =>
    match Assoc.get? q.1 x.pools with
    | some p => p.addrOf q.2 ≤ a && a + n ≤ p.addrOf q.2 + p.size
    | none => false

/-- A tile of a cell. -/
def Cell.tile (x : Cell) (q : Nat × Nat) : Option Tile := (Assoc.get? q.1 x.pools).bind (·.tiles[q.2]?)

/-- The fields of a handle: cell. -/
def hCell (h : Word) : Nat := slice h.toNat 0 10
/-- The fields of a handle: pool. -/
def hPool (h : Word) : Nat := slice h.toNat 10 3
/-- The fields of a handle: index. -/
def hIdx (h : Word) : Nat := slice h.toNat 13 12
/-- The fields of a handle: tag. -/
def hTag (h : Word) : Nat := slice h.toNat 25 12
/-- What of a handle's form the issuing cell finds: zero reserved bits, a cell of the module (R152). -/
def hFormed (h : Word) : Bool := h.toNat < 2 ^ 37 && hCell h < 960
/-- The tile a handle names at a cell, whatever its tag: its pool is configured, its index in range (R152). -/
def Cell.handleTile (x : Cell) (h : Word) : Option Tile := x.tile (hPool h, hIdx h)

/-- The current handle of a tile (R157 xinfo). -/
def Cell.handleOf (x : Cell) (c : Nat) (q : Nat × Nat) : Word :=
  mkHandle c q.1 q.2 (((x.tile q).map (·.tag)).getD 0)

/-- The events of one tile (R155). -/
inductive TileEv where
  | write
  | read
  | consume
  | drop
  | seal (n : Nat)
  | count

/-- Whether a context of a cell is the one a tile was granted to. -/
def Tile.mine (t : Tile) (cell ctx : Nat) : Bool := t.cell == cell && t.ctx == ctx

/-- Whether an event is a handle operation (R154, R172). -/
def TileEv.isHandleOp : TileEv → Bool
  | .drop | .seal _ | .count => true
  | _ => false

/-- One event of a tile by the table of R155: the tile after it, and the cause of a fault. `tagOk` says that the event's
tag, if it carries one, is the tile's; `mine` that the agent is the context the tile was granted to. -/
def Tile.on (t : Tile) (ev : TileEv) (tagOk mine : Bool) : Tile × Option Nat :=
  let pub : Tile := { t with published := true }
  -- the state as a handle operation of another context leaves it (R154)
  let t := if ev.isHandleOp && tagOk && t.st != .free && !mine then pub else t
  let stepDown : Tile :=
    { pub with count := t.count - 1, st := if t.count ≤ 1 then .draining else .consuming }
  match ev with
  | .write =>
    if !tagOk then (t, some 50)
    else match t.st with
      | .free => (t, some 50)
      | .unsealed | .held => (t, none)
      | .consuming | .draining => (t, some 51)
  | .read => if !tagOk || t.st == .free then (t, some 50) else (t, none)
  | .consume | .drop =>
    if !tagOk then (t, some 49)
    else match t.st with
      | .free | .draining => (t, some 49)
      | .unsealed => (pub, some 52)
      | .held | .consuming => (stepDown, none)
  | .seal n =>
    if !tagOk then (t, some 50)
    else match t.st with
      | .free => (t, some 50)
      | .unsealed => if mine && !t.published then ({ t with st := .held, count := n }, none) else (t, some 52)
      | _ => (t, some 52)
  | .count => if !tagOk || t.st == .free then (t, some 50) else (t, none)

/-- The cell with a tile replaced. -/
def Cell.setTile (x : Cell) (q : Nat × Nat) (t : Tile) : Cell :=
  { x with pools := Assoc.modify q.1 (fun p => { p with tiles := modifyAt (fun _ => t) q.2 p.tiles }) x.pools }

/-- One event of a tile of a cell: the state after it, and the fault. -/
def State.tileEvent (s : State) (c : Nat) (q : Nat × Nat) (ev : TileEv) (tagOk : Bool) (cell ctx : Nat) :
    State × Option Nat :=
  match (s.cell c).tile q with
  | none => (s, some 54)
  | some t =>
    let r := t.on ev tagOk (t.mine cell ctx)
    ((s.modCell c fun x => x.setTile q r.1).settle c, r.2)

/-- The fault of a tile event as a trap (R157). -/
def State.tileTrap (s : State) (c : Nat) (q : Nat × Nat) (cause : Nat) (val : Word) : TrapInfo :=
  { cause, val, info := (s.cell c).handleOf c q }

/-- The fault of a plain access of a byte range by the tiles it touches (R155, R157). -/
def State.tileCheck (s : State) (c : Nat) (sp : Space) (a n : Nat) (wr : Bool) (val : Word) : Option TrapInfo :=
  ((s.cell c).touched sp a n).findSome? fun q =>
    ((s.cell c).tile q).bind fun t =>
      ((t.on (if wr then .write else .read) true false).2).map fun k => s.tileTrap c q k val

end Sys2Proof.Machine
end

