-- ==== Sys2Proof/Machine/Translate.lean ====
section
/-! DEFINITION. Global memory: interleave sets (R221, R222), page tables and their walk (R225 to R228), the leaves a
station caches (R229), and the translation of an access into pieces of home bytes. -/
namespace Sys2Proof.Machine

/-- A table or access fault: reason code and level (R228), with the key slot of a code 5, or, with code 0, the vault unit with a memory
error that a walk has met (R234; log entry 55). -/
structure XFault where
  code : Nat
  level : Nat
  bad : Option Nat := none
  key : Option Nat := none
deriving DecidableEq, Repr

/-- The xinfo of a translation fault (R228). -/
def XFault.info (f : XFault) : Word := word (f.code + f.level * 16)
/-- The cause of a translation fault of a load, or of a store or atomic (R228, R360). -/
def XFault.cause (f : XFault) (wr : Bool) : Nat :=
  if f.bad.isSome then 59 else if f.code = 4 then 57 else if f.code = 5 then 58 else if wr then 15 else 13

/-- The share Z of a set per vault, in bytes (R221). -/
def ISet.share (q : ISet) : Nat := slice q.w1.toNat 48 16 * 65536
/-- The number of vaults of a set; 0 means unused (R221). -/
def ISet.count (q : ISet) : Nat := slice q.w0.toNat 0 10
/-- The first member's cell (R221). -/
def ISet.first (q : ISet) : Nat := slice q.w0.toNat 48 10
/-- The physical address of a set's window (R221). -/
def ISet.base (q : ISet) : Nat := slice q.w0.toNat 16 32 * 65536
/-- The least power of two at least n, doubling from w at most k times. -/
def powerFrom (n : Nat) : Nat → Nat → Nat
  | 0, w => w
  | k + 1, w => if n ≤ w then w else powerFrom n k (2 * w)
/-- The window size of a set: the least power of two that holds it (R221). -/
def ISet.window (q : ISet) : Nat := powerFrom (q.count * q.share) 50 1

/-- The home address of a physical address, none for nonexistent memory (R222, R224). -/
def State.home (s : State) (pa : Nat) : Option Nat :=
  if bit pa 47 then some (hostA (pa % 2 ^ 47))
  else
    match s.sets.find? fun q => q.2.count ≠ 0 && q.2.base ≤ pa && pa < q.2.base + q.2.window with
    | none => none
    | some (_, q) =>
      let off := pa - q.base
      if q.count * q.share ≤ off then none
      else
        let g := off / 4096
        some (vltA (q.first + g % q.count) (2 ^ 30 - q.share + g / q.count * 4096 + off % 4096))

/-- The global part of a vault: its size Z, 0 outside any set (R220). -/
def State.globalShare (s : State) (cell : Nat) : Nat :=
  match s.sets.find? fun q => q.2.count ≠ 0 && q.2.first ≤ cell && cell < q.2.first + q.2.count with
  | some (_, q) => q.share
  | none => 0

/-- The levels of a walk: low index bit, index width, and the number of low zero bits of the next table (R226). -/
def walkLevels : List (Nat × Nat × Nat) := [(43, 13, 16), (30, 13, 12), (21, 9, 8), (16, 5, 0)]

/-- The tenant of an ASID: that of a region that has it. -/
def State.asidTenant (s : State) (asid : Nat) : Nat :=
  ((s.regions.find? fun r => r.2.asid == asid).map (·.2.tenant)).getD 0

/-- The page kind of a leaf's code (R227). -/
def kindOf (n : Nat) : PKind :=
  match n with
  | 0 => .S
  | 1 => .R
  | _ => .U

/-- One walk from a table on, through the levels left: the leaf, or the first condition of R228 that applies. `need` is
whether a read, a write, is wanted. -/
def State.walkFrom (s : State) (asid va : Nat) (need : Bool × Bool) (root : Nat) :
    Nat → Nat → List (Nat × Nat × Nat) → Except XFault Leaf
  | _, lvl, [] => .error { code := 3, level := lvl }
  | table, lvl, (lo, width, zeros) :: rest =>
    match s.home (table + 8 * slice va lo width) with
    | none => .error { code := 4, level := lvl }
    | some h =>
      if !s.slotUsable root (s.asidTenant asid) then .error { code := 5, level := lvl, key := some root }
      else if (s.poisoned h 8).isSome then .error { code := 0, level := lvl, bad := s.poisoned h 8 }
      else
        let e := leNat (s.readUnder (s.slotTag root) h 8)
        if !bit e 63 then .error { code := 1, level := lvl }
        else if bit e 62 then
          if (need.1 && !bit e 48) || (need.2 && !bit e 49) then .error { code := 2, level := lvl }
          else if lvl = 0 || slice e 0 16 ≠ 0 || slice e 60 2 = 3 || slice e 16 (lo - 16) ≠ 0 then
            .error { code := 3, level := lvl }
          else
            .ok { asid, page := va / 2 ^ lo * 2 ^ lo, size := 3 - lvl, kind := kindOf (slice e 60 2), key := slice e 50 10,
                  w := bit e 49, r := bit e 48, frame := slice e 16 32 * 65536 }
        else if lvl = 3 || slice e 48 14 ≠ 0 || slice e 0 8 ≠ 0 || slice e 8 (zeros - 8) ≠ 0 then
          .error { code := 3, level := lvl }
        else s.walkFrom asid va need root (slice e 8 40 * 256) (lvl + 1) rest

/-- A walk of an ASID's tables for a virtual address (R225 to R228); an ASID without a root has no valid entry. -/
def State.walk (s : State) (asid va : Nat) (need : Bool × Bool) : Except XFault Leaf :=
  match Assoc.get? asid s.roots with
  | none => .error { code := 1, level := 0 }
  | some (root, key) => s.walkFrom asid va need key root 0 walkLevels

/-- The number of address bits within a leaf's page. -/
def Leaf.bits (l : Leaf) : Nat := if l.size = 0 then 16 else if l.size = 1 then 21 else 30
/-- Whether a leaf serves a virtual address of an ASID. -/
def Leaf.serves (l : Leaf) (asid va : Nat) : Bool := l.asid == asid && va / 2 ^ l.bits * 2 ^ l.bits == l.page

/-- The station of a cell's column (R17, R229): die × 16 + column. -/
def stationOf (cell : Nat) : Nat := cell / 240 * 16 + cell % 16
/-- A station. -/
def State.station (s : State) (k : Nat) : Station := s.stations.getD k { leaves := [], walks := [] }
/-- The state with a station changed. -/
def State.modStation (s : State) (k : Nat) (f : Station → Station) : State :=
  { s with stations := Assoc.put k (f (s.station k)) s.stations }

/-- The home of a virtual address through its leaf, or the first condition of R228 that applies to the leaf: no permission
(code 2), no such memory (code 4), its key slot (code 5). -/
def State.leafHome (s : State) (l : Leaf) (need : Bool × Bool) (va : Nat) : Except XFault Nat :=
  if (need.1 && !l.r) || (need.2 && !l.w) then .error { code := 2, level := 3 - l.size }
  else
    match s.home (l.frame + va % 2 ^ l.bits) with
    | none => .error { code := 4, level := 3 - l.size }
    | some h => if s.slotUsable l.key (s.asidTenant l.asid) then .ok h else .error { code := 5, level := 3 - l.size, key := some l.key }

/-- The need of an access: to read, to write. -/
def AccOp.need : AccOp → Bool × Bool
  | .load => (true, false)
  | .store => (false, true)
  | .copy _ => (false, true)
  | .atomic _ => (true, true)

/-- Cut points of a byte run: it is cut at every 4 KiB granule (R222). -/
def cutRun : Nat → Nat → Nat → List (Nat × Nat)
  | 0, _, _ => []
  | k + 1, a, n =>
    if n = 0 then []
    else
      let m := min n (4096 - a % 4096)
      (a, m) :: cutRun k (a + m) (n - m)

/-- The runs of an access's lanes, with lane number and offset in the lane; address bits [63:56] are ignored (R226). -/
def Acc.runs (a : Acc) : List (Nat × Nat × Nat × Nat) :=
  a.lanes.zipIdx.flatMap fun x =>
    (cutRun (x.1.len / 4096 + 2) (x.1.addr % 2 ^ 56) x.1.len).map fun r =>
      (x.2, r.1 - x.1.addr % 2 ^ 56, r.1 % 2 ^ 56, r.2)

/-- What a station makes of an access: pieces of home bytes, each with its leaf; a page it has no leaf for; or a fault at a virtual
address. -/
inductive Xlat where
  | ok (ps : List Piece)
  | miss (va : Nat)
  | fault (va : Nat) (f : XFault)
deriving DecidableEq, Repr

/-- The translation of the runs of an access through a table of leaves, in order (R169, R206, R228). -/
def State.xlatRuns (s : State) (leaves : List Leaf) (asid : Nat) (need : Bool × Bool) :
    List (Nat × Nat × Nat × Nat) → Xlat
  | [] => .ok []
  | (lane, off, va, n) :: rest =>
    match leaves.find? fun l => l.serves asid va with
    | none => .miss va
    | some l =>
      match s.leafHome l need va with
      | .error f => .fault va f
      | .ok h =>
        match s.xlatRuns leaves asid need rest with
        | .ok ps => .ok ({ lane, off, len := n, home := h, leaf := some l } :: ps)
        | x => x

/-- An access as its translation leaves it: its pieces, and the kind of its page. -/
def Acc.translated (a : Acc) (ps : List Piece) : Acc :=
  { a with pieces := ps, kind := ((ps.head?).map (·.kind)).getD .R, done := true }

/-- Whether a translation fault is a key fault on a slot of another tenant (R370). -/
def State.foreign (s : State) (asid : Nat) (f : XFault) : Bool :=
  match f.key with
  | some k => s.slotForeign k (s.asidTenant asid)
  | none => false

/-- The translation of an access by a station as it stands. -/
def State.xlatAt (s : State) (k : Nat) (a : Acc) : Xlat := s.xlatRuns (s.station k).leaves a.asid a.op.need a.runs

/-- The 64 KiB pages that an access touches. -/
def Acc.pages (a : Acc) : List Nat := (a.runs.map fun r => r.2.2.1 / 65536 * 65536).eraseDups

/-- The isolation partition of an ASID: that of a region that has it. -/
def State.asidPartition (s : State) (asid : Nat) : Nat :=
  ((s.regions.find? fun r => r.2.asid == asid).map (·.2.partition)).getD 0

/-- The partition whose share of a station another's requests use: its own; what a division leaves goes to the partitions that it
leaves out (log entry 50). -/
def State.shareAt (s : State) (st part : Nat) : Option Nat :=
  (((s.stationShares.getD st []).find? fun x => x.1 == part)).map (·.1)

/-- The entries and walkers of a station that a partition's requests use (R229): its share of its 4,096 entries, in groups of 256,
and of its 16 walkers; those that no share takes, where a partition has none. -/
def State.stationShare (s : State) (st part : Nat) : Nat × Nat :=
  let xs := s.stationShares.getD st []
  match xs.find? fun x => x.1 == part with
  | some x => (x.2.1 * 256, x.2.2)
  | none => (4096 - 256 * (xs.map (·.2.1)).sum, 16 - (xs.map (·.2.2)).sum)

/-- The state with a leaf cached at a station: a share's leaves replace only its own, the oldest first (R229). -/
def State.cacheLeaf (s : State) (st : Nat) (l : Leaf) : State :=
  let part := s.asidPartition l.asid
  let mine (m : Leaf) : Bool := s.shareAt st (s.asidPartition m.asid) == s.shareAt st part
  s.modStation st fun x =>
    let old := x.leaves.filter fun m => !(m.asid == l.asid && m.page == l.page && m.size == l.size)
    { x with leaves := (l :: old.filter mine).take (s.stationShare st part).1 ++ old.filter fun m => !mine m }

/-- An access translated now: each missing page is walked and its leaf cached, or the walk's fault ends it. The fuel is
the number of pages. -/
def State.translateNow (s : State) (a : Acc) : Nat → State × Xlat
  | 0 => (s, s.xlatAt (stationOf a.cell) a)
  | n + 1 =>
    match s.xlatAt (stationOf a.cell) a with
    | .miss va =>
      match s.walk a.asid va a.op.need with
      | .error f => (s, .fault va f)
      | .ok l => (s.cacheLeaf (stationOf a.cell) l).translateNow a n
    | r => (s, r)

/-- Whether a tenant's virtual function is in RUN (R392). -/
def State.vfRuns (s : State) (tenant : Nat) : Bool :=
  match s.region tenant with
  | none => false
  | some x => ((Assoc.get? x.vf s.vfs).map (·.st)) == some .run

/-- The first effective address of an access. -/
def Acc.firstAddr (a : Acc) : Word := ((a.lanes.head?).map fun l => word l.addr).getD 0

/-- The trap of a translated access whose bytes it may not reach, with the address of the lowest lane that fails (R169): two kinds of
page (R206); host memory for an atomic (R334), or while the tenant's virtual function is not in RUN (R392). -/
def State.pageTrap (s : State) (a : Acc) (ps : List Piece) : Option TrapInfo :=
  let atomic : Bool := match a.op with | .atomic _ => true | _ => false
  let closed : Bool := atomic || !s.vfRuns (s.asidTenant a.asid)
  ps.findSome? fun p =>
    let val := ((a.lanes[p.lane]?).map fun l => word l.addr).getD a.firstAddr
    if p.kind ≠ ((ps.head?).map (·.kind)).getD .R then some { cause := 29, val, info := 0 }
    else if isHost p.home && closed then some { cause := if a.op.need.2 then 7 else 5, val, info := 0 }
    else none

/-- The precise trap of a `.glb` access at issue (R206, R334, R392), by the leaves of its station and the tables as they
stand. -/
def State.issueTrap (s : State) (a : Acc) : Option TrapInfo :=
  match (s.translateNow a a.pages.length).2 with
  | .ok ps => s.pageTrap a ps
  | _ => none

end Sys2Proof.Machine
end

