-- ==== Sys2Proof/Machine/Channels.lean ====
section
/-! DEFINITION. Host channels and their descriptors (R388 to R391). -/
namespace Sys2Proof.Machine

/-- The key of a channel of a virtual function. -/
def chanKey (vf chan : Nat) : Nat := vf * 256 + chan

/-- A channel that was never mapped. -/
def Channel.fresh : Channel :=
  { sub := 0, comp := 0, status := 0, e := 0, z := 0, vector := 0xffff, st := .unmapped, tailsnap := 0, late := 0, rejected := 0,
    latch := 0, head := 0, done := 0 }

/-- A channel of a virtual function. -/
def State.chan (s : State) (vf chan : Nat) : Channel := s.chans.getD (chanKey vf chan) Channel.fresh

/-- The 64 bytes of a channel's descriptor (R389). -/
def Channel.descriptor (x : Channel) : List Byte :=
  let st := match x.st with
    | .unmapped => 0
    | .mapped => 1
    | .closing => 2
  leBytes 8 x.sub ++ leBytes 8 x.comp ++ leBytes 8 x.status ++ leBytes 1 x.e ++ leBytes 1 x.z ++ leBytes 2 x.vector ++ leBytes 1 st
    ++ leBytes 3 0 ++ leBytes 8 x.tailsnap ++ leBytes 8 x.late ++ leBytes 8 x.rejected ++ leBytes 8 0

/-- The state with the descriptor of a channel written in the table that the Slath processor keeps, under key slot 0 (R389; log
entry 40). -/
def State.writeDescriptor (s : State) (vf chan : Nat) (x : Channel) : State :=
  match ((Assoc.get? vf s.vfs).bind fun f => s.home (f.table + 64 * chan)).filter isVault with
  | some h => s.writeUnder (s.slotTag 0) h x.descriptor
  | none => s

/-- The state with a channel set, and its descriptor (R389). -/
def State.setChan (s : State) (vf chan : Nat) (x : Channel) : State :=
  { s with chans := Assoc.put (chanKey vf chan) x s.chans }.writeDescriptor vf chan x

end Sys2Proof.Machine
end

