-- ==== Sys2Proof/Machine/Access.lean ====
section
/-! DEFINITION. Accesses: the checks of an address (R29, R76, R131, R150, R157, R166), local reads and writes under
their keys (R232), what an access waits for (R188, R196, R204, R207, R230, R231), the registers a load fills, and the
retry ring (R363, R364). -/
namespace Sys2Proof.Machine

/-! ### Local memory -/

/-- The home address of a local address. -/
def localHome (c : Nat) (sp : Space) (a : Nat) : Nat :=
  match sp with
  | .acc => accA c a
  | .vlt => vltA c a
  | _ => locA c a

/-- The n bytes of a local space from an address on. -/
def State.readLocal (s : State) (c : Nat) (sp : Space) (a n : Nat) : List Byte :=
  match sp with
  | .vlt => (cutRun (n / 4096 + 2) a n).flatMap fun r => s.readUnder (s.vltTag c r.1) (vltA c r.1) r.2
  | _ => s.readBytes (localHome c sp a) n

/-- The state with bytes of a local space written from an address on. -/
def State.writeLocal (s : State) (c : Nat) (sp : Space) (a : Nat) (bs : List Byte) : State :=
  match sp with
  | .vlt => (cutRun (bs.length / 4096 + 2) a bs.length).foldl (fun s r =>
      s.writeUnder (s.vltTag c r.1) (vltA c r.1) ((bs.drop (r.1 - a)).take r.2)) s
  | _ => s.writeBytes (localHome c sp a) bs

/-- Whether a byte range lies in a region's grant of a space on a cell (R131, R132, R150, R270). -/
def State.granted (s : State) (r c : Nat) (sp : Space) (a n : Nat) : Bool :=
  match s.grant r c with
  | none => false
  | some g =>
    match sp with
    | .loc | .peer => g.llo ≤ a && a + n ≤ g.lhi && a + n ≤ 0x180000
    | .acc => g.alo * 4096 ≤ a && a + n ≤ g.ahi * 4096
    | .vlt => g.vlo * 65536 ≤ a && a + n ≤ g.vhi * 65536
    | .glb => false

/-- Whether a `.vlt` byte range of a cell touches an execute unit (R29). -/
def State.touchesExec (s : State) (c a n : Nat) : Bool := s.isExec c a || s.isExec c (a + n - 1)

/-- Whether a `.vlt` byte range of a cell touches a fault record, which only hardware writes (R367). -/
def State.touchesRecord (s : State) (c a n : Nat) : Bool :=
  s.regions.any fun r => r.2.grants.any fun g => g.cell == c && overlaps (g.vsp * 65536) 65536 a n

/-- The grant check of an access of a context (R19, R29, R132, R150, R367). -/
def State.grantCheck (s : State) (c i : Nat) (sp : Space) (a n : Nat) (wr : Bool) : Bool :=
  s.granted (s.ctxRegion c i) c sp a n
    && (sp != .vlt || (!(s.touchesExec c a n && (wr || i ≠ 9)) && !(wr && s.touchesRecord c a n)))

/-- An access fault (R360). -/
def accessFault (wr : Bool) (a : Word) : TrapInfo := { cause := if wr then 7 else 5, val := a, info := 0 }
/-- A misaligned access (R166). -/
def misaligned (wr : Bool) (a : Word) : TrapInfo := { cause := if wr then 6 else 4, val := a, info := 0 }

/-- The key check of a `.vlt` byte range (R228 code 5, R370): the slot of the owner must serve the tenant. -/
def State.keyCheck (s : State) (c : Nat) (sp : Space) (a n tenant : Nat) (val : Word) : Option Stop :=
  if sp != .vlt then none
  else
    match [a, a + n - 1].find? fun b => !s.slotUsable (s.vltSlot c b) tenant with
    | none => none
    | some b =>
      let t : TrapInfo := { cause := 58, val, info := 5 }
      if s.slotForeign (s.vltSlot c b) tenant then some (.freeze .key t) else some (.trap t)

/-- A stop where there is one. -/
def stopIf (o : Option Stop) : Except Stop Unit :=
  match o with
  | some t => .error t
  | none => .ok ()

/-- A trap where there is one. -/
def trapIf (o : Option TrapInfo) : Except Stop Unit := stopIf (o.map .trap)

/-- A stall where a condition holds. -/
def stallIf (b : Bool) : Except Stop Unit := if b then .error .stall else .ok ()

/-! ### What an access waits for -/

/-- Whether an access is to a local space of its cell. -/
def Acc.isLocal (a : Acc) : Bool := a.sp == .loc || a.sp == .acc || a.sp == .vlt

/-- Whether an access writes. -/
def Acc.writes (a : Acc) : Bool :=
  match a.op with
  | .load => false
  | _ => true

/-- The synchronous accesses of a cell that hold a registration point (R186, R188): they passed their check and are not
performed yet, since a memory error keeps them in the retry ring. -/
def Cell.points (x : Cell) : List Acc :=
  ((x.retry.filterMap fun e => e.2.held) ++ (x.retryWait.filterMap fun e => e.1.acc)).filter (·.isLocal)

/-- Whether an access that holds a registration point conflicts with an access to a byte interval (R188). -/
def Acc.clashes (a : Acc) (sp : Space) (addr n : Nat) (wr : Bool) : Bool :=
  a.sp == sp && (a.writes || wr) && n ≠ 0 && a.lanes.any fun l => granLo l.addr < granHi addr n && granLo addr < granHi l.addr l.len

/-- The synchronous check of R188: whether an access to a byte interval conflicts with an entry present, or with an access
that holds a registration point. -/
def Cell.conflicts (x : Cell) (sp : Space) (a n : Nat) (wr : Bool) : Bool :=
  (x.sb.any fun e => (e.write || wr) && e.hits sp a n) || x.points.any fun b => b.clashes sp a n wr

/-! ### The order of performing (R204, R205, R207) -/

/-- The accesses of a task of a context that are on their way and not performed: not those whose value is fixed, not
those a retry-ring entry holds. -/
def State.movingOf (s : State) (c i : Nat) (task : Word) : List Acc :=
  ((s.flights.filterMap fun f => match f.pay with
      | .stationReq a | .glb a | .peer a | .peerAbsent a | .atomicReq a => some a
      | _ => none)
    ++ s.stations.flatMap (fun x => x.2.walks.flatMap (·.waiting))
    ++ s.cells.flatMap (fun x => (x.2.in8 ++ x.2.over8).filterMap fun q => match q with
      | .atomic a => some a
      | _ => none)
    ++ s.scAccs).filter fun a => a.cell == c && a.ctx == i && a.task == task

/-- Those of the context's present work. -/
def State.moving (s : State) (c i : Nat) : List Acc := s.movingOf c i (s.ctxTask c i)

/-- The accesses of a context that retry-ring entries hold, those that wait for an entry among them. -/
def State.ringHeld (s : State) (c i : Nat) : List Acc :=
  (((s.cell c).retry.filterMap fun e => e.2.held) ++ ((s.cell c).retryWait.filterMap fun e => e.1.acc)).filter fun a =>
    a.ctx == i && a.task == s.ctxTask c i

/-- Whether a context has an unresolved store or atomic entry, behind which its later `.glb` accesses wait (R231). -/
def State.glbHeld (s : State) (c i : Nat) : Bool := (s.ringHeld c i).any fun a => a.op != .load

/-- Whether an earlier access on its way keeps a later local access of its context waiting (R204, R207, R212): it is not
translated yet, it is of kind S, it is an acquire, or it is an atomic on a local space whose registration point context 8 is to
take. -/
def Acc.holdsLocal (a : Acc) : Bool := !a.done || a.kind == .S || a.ordAcq || a.isLocal

/-- Whether an access that the retry ring holds keeps a later local access of its context waiting: its page is S, or not known yet, or
it is an acquire (R204, R207; log entry 52). -/
def Acc.holdsFromRing (a : Acc) : Bool := !a.done || a.kind == .S || a.ordAcq

/-- Whether two accesses touch a common byte at their homes. -/
def Acc.meets (a b : Acc) : Bool := a.pieces.any fun p => b.pieces.any fun q => overlaps p.home p.len q.home q.len

/-- Whether a load may return the bytes of a write of its context that waits at the station (R205). -/
def Acc.forwards (a b : Acc) : Bool :=
  a.op == .load && a.sp == .glb && a.kind != .S && b.op == .store && b.sp == .glb && b.kind != .S && b.done

/-- Whether an earlier access on its way keeps a release at a scope waiting (R207): kinds S and R, an access not
translated yet counting as such; at scope context or cell a `.glb` write that has reached its station suffices. -/
def Acc.holdsRelease (a : Acc) (sc : Scope) : Bool :=
  !a.done || (a.kind != .U && !((sc == .ctx || sc == .cell) && a.op == .store && a.sp == .glb))

/-- Whether an earlier access b of its context must be performed before a (R201, R204, R205, R207); `waits` says that b
waits at its station to be performed. -/
def Acc.mustFollow (a b : Acc) (waits : Bool) : Bool :=
  b.seq < a.seq
    && (!b.done
      || (b.kind == .S || (b.kind == .R && a.kind == .S)) && !(b.kind == .U || (b.kind == .R && a.kind != .S))
      || (b.ordAcq && a.kind != .U)
      || (a.ordRel && b.holdsRelease a.scope)
      || (a.meets b && !(waits && a.forwards b)))

/-- Whether an access may be performed now as far as its own context's earlier accesses go, those that retry-ring entries
hold among them. -/
def State.inOrder (s : State) (a : Acc) : Bool :=
  (s.allAccs.filter fun b => b.cell == a.cell && b.ctx == a.ctx && b.task == a.task && b.seq < a.seq).all fun b =>
    (s.flights.any fun f => match f.pay with
      | .value x _ => x == b
      | .atomicResult x _ => x == b
      | _ => false)
    || !a.mustFollow b (s.net.any fun f => f.pay == .glb b)

/-- Whether, for a release of a cell at a scope, some flights hold writes that stand at its column's station, where contexts may have read
them, so that they happen before it (R205, R207, R215): none for a release within the cell. A write of kind U is one where it is itself
a release (R208). -/
def State.seenWrites (s : State) (fs : List Flight) (c : Nat) (sc : Scope) : Bool :=
  !(sc == .ctx || sc == .cell) && fs.any fun f => match f.pay with
    | .glb b => stationOf b.cell == stationOf c && b.op == .store && (b.kind != .U || b.ordRel) && s.inOrder b
    | _ => false

/-- Whether the context may go on with a release at a scope (R207, R209). -/
def State.releaseReady (s : State) (c i : Nat) (sc : Scope) : Bool :=
  (s.moving c i).all (fun a => !a.holdsRelease sc) && (s.ringHeld c i).all (fun a => a.done && a.kind == .U)
    && !s.seenWrites s.net c sc

/-- Whether the context's earlier loads that an acquire fence waits for have returned (R217). -/
def State.acquireReady (s : State) (c i : Nat) : Bool :=
  (s.accs c i).all fun a => !a.isLoad || (a.done && a.kind == .U)

/-- Whether every access of the context is performed and every load returned, and so is what happens before (R213, R215, R217 full). -/
def State.fullReady (s : State) (c i : Nat) : Bool := (s.accs c i).isEmpty && !s.seenWrites s.net c .mod

/-- Whether a local access must wait for the context's earlier accesses (R201, R204, R207). -/
def State.localHeld (s : State) (c i : Nat) (homes : List (Nat × Nat)) : Bool :=
  let meets (a : Acc) : Bool := a.pieces.any fun p => homes.any fun h => overlaps p.home p.len h.1 h.2
  (s.moving c i).any (fun a => a.holdsLocal || meets a) || (s.ringHeld c i).any fun a => a.holdsFromRing || meets a

/-- Whether a context's next registration waits for an atomic of it on a local space that context 8 is to perform: each context takes
its registration points in program order (R212). -/
def State.pointHeld (s : State) (c i : Nat) : Bool := (s.moving c i).any (·.isLocal)

/-- The accesses of a context that are under way, those of its ended tasks among them (R196). -/
def State.ctxAccs (s : State) (c i : Nat) : List Acc := s.allAccs.filter fun a => a.cell == c && a.ctx == i

/-- The owner requests of a context that await a reply. -/
def State.ownerWaits (s : State) (c i : Nat) : Nat :=
  match (s.ctxAt c i).st with
  | .waiting (.owner _) => 1
  | _ => 0

/-- The loads class of a context: its loads, and a request that awaits its owner's reply (R196, R257). -/
def State.loadCount (s : State) (c i : Nat) : Nat := ((s.ctxAccs c i).filter (·.isLoad)).length + s.ownerWaits c i
/-- The stores class of a context (R196). -/
def State.storeCount (s : State) (c i : Nat) : Nat := ((s.ctxAccs c i).filter (·.isStore)).length

/-- The requests a cell has at its station, on their way or walking (R230). -/
def State.stationLoad (s : State) (c : Nat) : Nat :=
  (s.flights.filter fun f => match f.pay with | .stationReq a => a.cell == c | _ => false).length
    + (s.stations.flatMap (fun x => x.2.walks.flatMap (·.waiting)) |>.filter (·.cell == c)).length

/-! ### Filling a register -/

/-- The value of little-endian bytes in a scalar: extended by the type (R167). -/
def loadWord (t : Ty) (bs : List Byte) : Word := ext64 (8 * bs.length) (tySigned t) (leNat bs : Nat)

/-- An access whose lanes lie in a local space, with its home pieces. -/
def Acc.atLocal (a : Acc) (c : Nat) (sp : Space) : Acc :=
  { a with
    pieces := a.lanes.zipIdx.map fun l => { lane := l.2, off := 0, len := l.1.len, home := localHome c sp l.1.addr }
    done := true }

/-- The context with the destination of an access filled from the bytes of its lanes (R128, R167 to R169, R378). -/
def Acc.fill (a : Acc) (bs : List (List Byte)) (x : Ctx) : Ctx :=
  let all := bs.flatten
  if a.dest < 64 then x.wsN a.dest (loadWord a.ty all)
  else if h : a.dest < 96 then x.wv ⟨a.dest - 64, by omega⟩ (BitVec.ofNat 512 (leNat all))
  else if a.dest = 110 then { x with tbl := BitVec.ofNat 128 (leNat all) }
  else x

/-- The state with the retry-ring entry freed from which a completed access was issued again (R363, R378). -/
def State.freeEntry (s : State) (a : Acc) : State :=
  match a.retry with
  | none => s
  | some k =>
    match Assoc.get? k (s.cell a.cell).retry with
    | none => s
    | some e =>
      if e.out && e.task == a.task && e.ctx == a.ctx then s.modCell a.cell fun x => { x with retry := Assoc.erase k x.retry }
      else s

/-- The state with the destination of an access filled, if its task is still resident. -/
def State.fillDest (s : State) (a : Acc) (bs : List (List Byte)) : State :=
  let s := s.freeEntry a
  if s.ctxTask a.cell a.ctx = a.task && (s.ctxAt a.cell a.ctx).st != .idle then s.modCtx a.cell a.ctx (a.fill bs) else s

/-- A context that holds for an access goes on (R161): it retires the instruction. -/
def State.wake (s : State) (c i : Nat) (task : Word) (w : Wait) : State :=
  if s.ctxTask c i = task && (s.ctxAt c i).st = .waiting w then
    s.modCtx c i fun x => { x with st := .running }.retire
  else s

/-! ### The retry ring -/

/-- The number of tenants present on a cell (R363). -/
def State.tenantsOn (s : State) (c : Nat) : Nat :=
  (s.regions.filter fun r => r.2.parent == 0 && r.2.grants.any fun g => g.cell == c).length

/-- Whether a ring entry of a tenant may be made now: one is free and the tenant's share is not full (R363). -/
def State.ringRoom (s : State) (c tenant : Nat) : Bool :=
  let r := (s.cell c).retry
  r.length < 64 && (r.filter fun e => e.2.tenant == tenant).length < 64 / max 1 (s.tenantsOn c)

/-- The index that a faulted access or copy keeps: that of the entry from which it was issued again (R363). -/
def Cell.keptIndex (x : Cell) (e : REntry) : Option Nat :=
  (x.retry.find? fun y => y.2.out && y.2.ctx == e.ctx && y.2.task == e.task && y.2.kind == e.kind
    && (match y.2.acc, e.acc with
      | some a, some b => a.seq == b.seq
      | none, none => y.2.data == e.data
      | _, _ => false)).map (·.1)

/-- The state with a retry-ring entry made, at the index that it keeps or the lowest free one, and its notice or asynchronous trap
raised (R363); where there is none, it waits. -/
def State.ringPut (s : State) (c : Nat) (e : REntry) (t : TrapInfo) (async : Bool) : State :=
  match (match (s.cell c).keptIndex e with
    | some k => some k
    | none => Assoc.firstFree (s.cell c).retry 0 64) with
  | none => s.modCell c fun x => { x with retryWait := x.retryWait ++ [(e, t, async)] }
  | some idx =>
    let s := s.modCell c fun x => { x with retry := Assoc.put idx e x.retry }
    if async then s.addAsync c e.ctx e.region e.task t (some idx) else s.ringNotice c idx e t

/-- Whether a fault of a tenant waits for an entry that nothing but the room for it holds back (R363). -/
def Cell.ringQueued (x : Cell) (tenant : Nat) : Bool :=
  x.retryWait.any fun w => w.1.tenant == tenant && (x.ctx w.1.ctx).frozen.isNone

/-- The state with a fault that needs a retry-ring entry: it takes one, or waits for one, behind those of its tenant that wait; a
fault that recurs after `rretry` keeps its index (R363). A fault of context 9's own access ends its run
(R358). `t` is the trap as R360 gives it: the entry's words are those of R364. -/
def State.ringAdd (s : State) (c : Nat) (e : REntry) (t : TrapInfo) (async : Bool) : State :=
  if e.ctx = 9 then s.trapIn9 c t
  else if ((s.cell c).keptIndex e).isSome || (s.ringRoom c e.tenant && !(s.cell c).ringQueued e.tenant) then s.ringPut c e t async
  else s.modCell c fun x => { x with retryWait := x.retryWait ++ [(e, t, async)] }

/-- The kind code of a ring entry (R364). -/
def AccOp.ringKind : AccOp → Nat
  | .load => 0
  | .store => 1
  | .copy _ => 2
  | .atomic _ => 3

/-- The size code of a number of bytes (R38). -/
def sizeCode (n : Nat) : Nat := Nat.log2 n

/-- The ring entry of a faulted access (R364): its address is that of the run that failed's lane. The access keeps its kind
and its homes, where it had them, as its context's later accesses see them. -/
def Acc.entry (a : Acc) (cause : Nat) (addr info : Word) : REntry where
  kind := a.op.ringKind
  ctx := a.ctx
  cause := cause
  dest := if a.isLoad then a.dest else 0
  size := sizeCode (((a.lanes.head?).map (·.len)).getD 1)
  vec := a.vec
  acls := match a.op with | .atomic k => k | _ => 0
  pc := a.pc
  addr := addr
  data := match a.op with
    | .store => if a.vec || a.dest ≥ 64 then 0 else word (leNat (((a.lanes.head?).map (·.data)).getD []))
    | .atomic _ => a.v
    | _ => 0
  info := info
  tenant := 0
  region := a.region
  task := a.task
  acc := some { a with retry := none }
  out := false

/-- The effective address of the lane that holds an address. -/
def Acc.laneAddr (a : Acc) (va : Nat) : Word :=
  word (((a.lanes.find? fun l => l.addr % 2 ^ 56 ≤ va && va < l.addr % 2 ^ 56 + l.len).map (·.addr)).getD va)

/-- The retry-ring entry of a faulted access, for a trap and the effective address of the lane that failed (R364). -/
def State.entryFor (s : State) (a : Acc) (addr : Word) (t : TrapInfo) : REntry :=
  { a.entry t.cause addr t.info with tenant := s.tenantOf a.region }

/-- The state with an access faulted after it left its context: a retry-ring entry; while its task is gone, a load is
discarded and a store's event reported (R216, R231, R361). -/
def State.faultAcc (s : State) (a : Acc) (addr : Word) (t : TrapInfo) : State :=
  if s.ctxTask a.cell a.ctx = a.task && (s.ctxAt a.cell a.ctx).st != .idle then
    s.ringAdd a.cell (s.entryFor a addr t) t false
  else if a.isLoad then s.freeEntry a
  else (s.freeEntry a).pushEvent a.region a.cell 12 a.task (word t.cause) t.val t.info 0

/-- The trap of a memory error in a vault unit (R234, R360). -/
def memError (u : Nat) : TrapInfo := { cause := 59, val := word (u * 64), info := 0 }

/-- The state with a memory error met by an access in a vault unit (R234). -/
def State.faultMem (s : State) (a : Acc) (u : Nat) : State :=
  let lane := (a.pieces.find? fun p => overlaps p.home p.len (u * 64) 64).bind fun p => a.lanes[p.lane]?
  s.faultAcc a ((lane.map fun l => word l.addr).getD a.firstAddr) (memError u)

/-- The state with a precise trap of an access that its context has passed (R157, R206, R345, R392): taken at the PC of the access; a
load's destination keeps its value (log entry 53). -/
def State.lateAcc (s : State) (a : Acc) (t : TrapInfo) : State :=
  let s := s.freeEntry a
  if s.resident a.cell a.ctx a.task then
    s.modCtx a.cell a.ctx fun x => { x with asyncs := x.asyncs ++ [{ info := t, entry := none, at_ := some a.pc }] }
  else if a.isLoad then s
  else s.pushEvent a.region a.cell 12 a.task (word t.cause) t.val t.info 0

/-! ### Copies that fault after issue (R193) -/

/-- The coordinates of a byte of a copy: row, run and byte within the run (R193). -/
def Layout.coords (l : Layout) (pos : Nat) : Word :=
  word (pos % l.run + pos / l.run % l.n1 * 2 ^ 32 + pos / (l.run * l.n1) * 2 ^ 48)

/-- The state with an operation's scoreboard entries removed, and what that lets go on. -/
def State.dropSb (s : State) (c key : Nat) : State :=
  (s.modCell c fun x => { x with sb := x.sb.filter fun e => e.key != key }).settle c

/-- The deepest region of a cell whose grant holds a byte range of a space. -/
def State.deepest (s : State) (c : Nat) (sp : Space) (a n : Nat) : Option Nat :=
  (s.regions.foldl (fun (best : Option (Nat × Nat)) r =>
    match s.granted r.1 c sp a n, best with
    | true, none => some (r.1, r.2.depth)
    | true, some b => if b.2 < r.2.depth then some (r.1, r.2.depth) else best
    | false, _ => best) none).map (·.1)

/-- The destination's region of a chunk at a cell (R183): the deepest whose grant holds its bytes, or the tile's; else
the issuing region. -/
def State.chunkRegion (s : State) (c : Nat) (x : Chunk) : Nat :=
  match x.dst with
  | .mem _ _ sp _ => (s.deepest c sp x.lo (x.hi - x.lo)).getD x.region
  | .tile _ h => (((s.cell c).handleTile h).map (·.region)).getD x.region
  | .glb _ => x.region

/-- The state with the charge of a chunk that leaves the spill area credited (R412). -/
def State.creditChunk (s : State) (y : Chunk) : State :=
  match y.spill with
  | some p => s.credit p.1 (y.size + 16)
  | none => s

/-- Whether a chunk belongs to a copy of a cell and lies at or beyond a position. -/
def Chunk.after (x : Chunk) (c key pos : Nat) : Bool := x.cell == c && x.key == key && x.link.isNone && pos ≤ x.pos

/-- Whether a `.glb` write is a chunk of a copy of a cell at or beyond a position. -/
def Acc.after (a : Acc) (c key pos : Nat) : Bool := a.op == .copy key && a.cell == c && pos ≤ a.seq

/-- Whether a flight carries such a chunk. -/
def Pay.after (p : Pay) (c key pos : Nat) : Bool :=
  match p with
  | .chunk x => x.after c key pos
  | .stationReq a | .glb a => a.after c key pos
  | _ => false

/-- The state without a copy's chunks at or beyond a position, wherever they are: the faulting chunk and everything after
it are not written (R193); spilled ones give their charge back (R412). -/
def State.purgeCopy (s : State) (c key pos : Nat) : State :=
  let walks (ws : List Walk) : List Walk := ws.map fun w => { w with waiting := w.waiting.filter fun a => !a.after c key pos }
  let s := { s with net := s.net.filter (fun f => !f.pay.after c key pos),
                    stations := s.stations.map fun (x : Nat × Station) => (x.1, { x.2 with walks := walks x.2.walks }) }
  let spilled := s.cells.flatMap fun x => x.2.inSpill.filter fun y => y.after c key pos
  let s := spilled.foldl (fun s y => s.creditChunk y) s
  { s with cells := s.cells.map fun (x : Nat × Cell) =>
      (x.1, { x.2 with inbound := x.2.inbound.filter (fun y => !y.after c key pos),
                       inSpill := x.2.inSpill.filter (fun y => !y.after c key pos) }) }

/-- Whether a copy stands faulted. -/
def CopyOp.isFaulted (o : CopyOp) : Bool :=
  match o.phase with
  | .faulted _ => true
  | _ => false

/-- The state without a copy of a cell: its place in the queue, its scoreboard entries, its retry-ring entry (R189, R193, R363). -/
def State.dropCopy (s : State) (c : Nat) (o : CopyOp) : State :=
  let its (e : REntry) : Bool := e.kind == 2 && e.data == o.id
  (s.modCell c fun x =>
    { x with copyq := x.copyq.filter (·.key != o.key), retry := x.retry.filter (fun e => !its e.2),
             retryWait := x.retryWait.filter fun e => !its e.1 }).dropSb c o.key

/-- The trap of a copy at a position (R193): its xval is the layout record address and its xinfo the coordinates; the causes 57
to 59 keep those that R360 gives them (log entry 56). -/
def CopyOp.trapAt (o : CopyOp) (pos : Nat) (t : TrapInfo) : TrapInfo :=
  if 57 ≤ t.cause && t.cause ≤ 59 then t else { t with val := Sys2Proof.word o.layAddr, info := o.lay.coords pos }

/-- The state with a copy abandoned (R183): its entries and chunks go, with no completion action, and its context takes an
asynchronous trap, or its region's fault handler is told. -/
def State.abandonCopy (s : State) (c key pos : Nat) (t : TrapInfo) : State :=
  match (s.cell c).copyq.find? fun o => o.key == key with
  | none => s
  | some o =>
    ((s.purgeCopy c key pos).dropCopy c o).addAsync c o.ctx o.region o.task (o.trapAt pos t) none

/-- A fault that a copy meets after issue (R193): it stops at the point reached, with a retry-ring entry, which holds the layout
record address and the coordinates (R364), and an asynchronous trap. The operation goes when its task has ended, and the region's
fault handler is told, or when context 9 issued it, whose run the trap ends (R358). -/
def State.copyFault (s : State) (c key pos : Nat) (t : TrapInfo) : State :=
  match (s.cell c).copyq.find? fun o => o.key == key with
  | none => s
  | some o =>
    let s := s.purgeCopy c key pos
    let t := o.trapAt pos t
    let live := s.resident c o.ctx o.task
    if live && o.ctx = 9 then (s.dropCopy c o).trapIn9 c t
    else if live then
      let s := s.modCell c fun x =>
        { x with copyq := modifyFirst (fun o => o.key == key) (fun o => { o with phase := .faulted t, pos }) x.copyq }
      let e : REntry :=
        { kind := 2, ctx := o.ctx, cause := t.cause, dest := 0, size := 0, vec := false, acls := 0, pc := o.pc, addr := word o.layAddr,
          data := o.id, info := o.lay.coords pos, tenant := o.tenant, region := o.region, task := o.task, acc := none,
          out := false }
      s.ringAdd c e t true
    else (s.dropCopy c o).pushEvent o.region c 12 o.task (word t.cause) t.val t.info 0

/-- A key fault of a copy on a slot of another tenant (R370): the contexts of its region on the cell freeze, and the issuing one takes
the trap when it is thawed (R372). -/
def State.copyFreeze (s : State) (c key pos : Nat) (t : TrapInfo) : State :=
  match (s.cell c).copyq.find? fun o => o.key == key with
  | none => s
  | some o =>
    if o.ctx = 9 && s.resident c 9 o.task then ((s.purgeCopy c key pos).dropCopy c o).takeFreeze c 9 .key (o.trapAt pos t)
    else (s.freezeRegion c o.region .key).copyFault c key pos t

end Sys2Proof.Machine
end

