-- ==== Sys2Proof/Machine/Memory.lean ====
section
/-! DEFINITION. The synchronous memory instructions: loads and stores (R166 to R168), gather and scatter (R169), `ldtab`
(R128), `accrd` and `accwr` (R146), `fence` (R217), `wait` (R196), `sbstat` (R197). -/
namespace Sys2Proof.Machine

/-- A memory request of an instruction: a write or a read, its space (with the tile a handle names), the effective
address of each lane, bytes per lane, alignment, data of a write, destination and type of a read, qualifiers, whether the
base operand is s2 (R76), and whether a handle's tag is the tile's. -/
structure MemReq where
  wr : Bool
  sp : Space
  rank : Word
  tile : Option (Nat × Nat)
  eas : List Word
  len : Nat
  align : Nat
  data : List (List Byte)
  dest : Nat
  ty : Ty
  vec : Bool
  acq : Bool
  rel : Bool
  scope : Scope
  cons : Bool
  spBase : Bool
  tagOk : Bool

/-- The tile checks of a lane of a local access (R157, R166): in handle mode the tag and the tile's bounds; a consuming access
lies wholly in one tile, whose count step it would pass now (R155, R161); any other access is one that every tile it touches
takes. -/
def State.laneTile (s : State) (c i : Nat) (q : MemReq) (ea : Word) : Option TrapInfo :=
  let a := ea.toNat
  let x := s.cell c
  let inside : Bool := match q.tile with
    | none => true
    | some t => match Assoc.get? t.1 x.pools with
      | some p => p.addrOf t.2 ≤ a && a + q.len ≤ p.addrOf t.2 + p.size
      | none => false
  match q.tile, inside with
  | some t, false =>
    if q.tagOk then some { cause := 53, val := ea, info := word (t.1 * 2 ^ 10) }
    else some { cause := if q.cons then 49 else 50, val := ea, info := x.handleOf c t }
  | h, _ =>
    if !q.tagOk then h.map fun t => { cause := if q.cons then 49 else 50, val := ea, info := x.handleOf c t }
    else if q.cons then
      match (match h with | some t => some t | none => x.tileOf q.sp a q.len) with
      | none => some { cause := 53, val := ea, info := word (((x.touched q.sp a q.len).head?.map (·.1)).getD 0 * 2 ^ 10) }
      | some t => (x.tile t).bind fun e => ((e.on .consume true (e.mine c i)).2).map fun k => s.tileTrap c t k ea
    else s.tileCheck c q.sp a q.len q.wr ea

/-- The checks of one lane of a local access in the order of R166: alignment, grant, stack limit, tile, and the key of a
`.vlt` access. -/
def State.laneCheck (s : State) (c i : Nat) (q : MemReq) (ea : Word) : Option Stop :=
  let a := ea.toNat
  if a % q.align ≠ 0 then some (.trap (misaligned q.wr ea))
  else if q.sp == .glb || q.sp == .peer then none
  else if !s.grantCheck c i q.sp a q.len q.wr then some (.trap (accessFault q.wr ea))
  else if q.spBase && q.sp == .loc && a < s.me.xsl.toNat % 2 ^ 21 then some (.trap { cause := 27, val := ea, info := 0 })
  else
    match s.laneTile c i q ea with
    | some t => some (.trap t)
    | none => s.keyCheck c q.sp a q.len (s.tenantOf (s.ctxRegion c i)) ea

/-- The access of a request as it travels or waits. -/
def State.newAcc (s : State) (q : MemReq) : Acc where
  cell := s.cur.cell
  ctx := s.cur.ctx
  task := s.ctxTask s.cur.cell s.cur.ctx
  seq := s.me.seq
  region := s.ctxRegion s.cur.cell s.cur.ctx
  asid := s.asidOf s.cur.cell s.cur.ctx
  pc := s.me.pc
  op := if q.wr then .store else .load
  sp := q.sp
  peer := none
  lanes := (List.range q.eas.length).map fun k => { addr := (q.eas.getD k 0).toNat, len := q.len, data := q.data.getD k [] }
  dest := q.dest
  ty := q.ty
  vec := q.vec
  ordAcq := q.acq
  ordRel := q.rel
  scope := q.scope
  cons := q.cons
  sc := false
  v := 0
  v2 := 0
  pieces := []
  kind := .R
  rank := 0
  done := false
  retry := none

/-- An access that has left the executing context, which goes on; one that holds its context waits for its value (R161). -/
def State.issuedAcc (s : State) (a : Acc) : State :=
  if a.cons then s.modMe fun x => { x with seq := x.seq + 1, st := .waiting .access, stalled := false }
  else s.modMe fun x => { x with seq := x.seq + 1 }.retire

/-- The place of a station. -/
def stationPlace (cell : Nat) : Place := .station (cell / 240) (cell % 16)

/-- The state with an access on its way to its column's station: an atomic, as the message that it is, by the outbound buffer (R326,
R334). -/
def State.toStation (s : State) (a : Acc) : State :=
  if a.isAtomic then s.post a.cell (stationPlace a.cell) (.stationReq a) else s.send (.cell a.cell) (stationPlace a.cell) (.stationReq a)

/-- Whether an access must wait to leave for its station: an atomic for the outbound buffer, another for an atomic of its context that
stands there (R230, R326). -/
def State.leaveHeld (s : State) (a : Acc) : Bool :=
  if a.isAtomic then s.outHeld a.cell (stationPlace a.cell)
  else (s.cell a.cell).outbuf.any fun f => match f.pay with
    | .stationReq b => b.ctx == a.ctx
    | _ => false

/-- A `.glb` access at issue (R201, R206, R230, R231): after its precise traps it waits for class limits, for the unresolved entries it may not
overtake, for a station credit and for its way; then it goes to its column's station. -/
def State.issueGlb (s : State) (a : Acc) : Res := do
  let c := s.cur.cell
  let i := s.cur.ctx
  trapIf (s.issueTrap a)
  stallIf (s.glbHeld c i || 16 ≤ s.stationLoad c || s.leaveHeld a)
  .ok ((s.toStation a).modMe fun x => { x with seq := x.seq + 1 }.retire)

/-- The cell of a peer's rank, as the issuing cell knows it (R166, R345). -/
def State.peerCell (s : State) (rank : Word) : Option Nat :=
  match s.me.task with
  | none => none
  | some t =>
    if 8 ≤ s.cur.ctx then none
    else (t.cluster.bind fun k => Assoc.get? k s.clusters).bind fun x =>
      (x.cells[rank.toNat]?).filter fun c => !x.departed.contains c

/-- A `.peer` access at issue (R19, R157, R166): the rank, the peer's grant and, for one that does not consume, the peer's tiles
are checked, and it goes to the peer's cell. A consuming one holds its context until the peer answers (R161). -/
def State.issuePeer (s : State) (q : MemReq) (a : Acc) : Res := do
  let ea := q.eas.getD 0 0
  match s.peerCell q.rank with
  | none => Res.trap 28 ea q.rank
  | some k =>
    if !s.granted a.region k .loc ea.toNat q.len then .error (.trap (accessFault q.wr ea))
    else do
      trapIf (if q.cons then none else s.tileCheck k .loc ea.toNat q.len q.wr ea)
      let piece : Piece := { lane := 0, off := 0, len := q.len, home := locA k ea.toNat }
      let a := { a with peer := some k, pieces := [piece], done := true, rank := q.rank.toNat }
      let s := s.send (.cell s.cur.cell) (.cell k) (.peer a)
      .ok (s.issuedAcc a)

/-- The count step of a consuming access that has read its tile's bytes (R155, R161): the state after it, and its fault. -/
def State.consumeAt (s : State) (c : Nat) (sp : Space) (a n : Nat) (val : Word) (cell ctx : Nat) : State × Option TrapInfo :=
  match (s.cell c).tileOf sp a n with
  | none => (s, some { cause := 53, val, info := word ((((s.cell c).touched sp a n).head?.map (·.1)).getD 0 * 2 ^ 10) })
  | some t =>
    let r := s.tileEvent c t .consume true cell ctx
    (r.1, r.2.map fun k => r.1.tileTrap c t k val)

/-- The homes of a local request's lanes. -/
def MemReq.homes (q : MemReq) (c : Nat) : List (Nat × Nat) := q.eas.map fun e => (localHome c q.sp e.toNat, q.len)

/-- A local access (R12, R188, R196, R204): after its checks it waits for the scoreboard, for the context's earlier
accesses and for a release; then it is performed at once. A memory error becomes a retry-ring entry (R234). -/
def State.issueLocal (s : State) (q : MemReq) (a : Acc) : Res := do
  let c := s.cur.cell
  let i := s.cur.ctx
  stallIf (q.eas.any fun e => (s.cell c).conflicts q.sp e.toNat q.len q.wr)
  stallIf (s.localHeld c i (q.homes c) || (q.rel && !s.releaseReady c i q.scope))
  let bad := q.eas.findSome? fun e =>
    (s.poisoned (localHome c q.sp e.toNat) q.len).bind fun u =>
      if q.wr && covers (localHome c q.sp e.toNat) q.len u then none else some u
  match bad with
  | some u => .ok ((s.issuedAcc a).faultMem (a.atLocal c q.sp) u)
  | none =>
    if q.wr then
      let s := (List.range q.eas.length).foldl (fun s k =>
        s.writeLocal c q.sp (q.eas.getD k 0).toNat (q.data.getD k [])) s
      .ok (s.modMe fun x => { x with seq := x.seq + 1 }.retire)
    else
      let bs := q.eas.map fun e => s.readLocal c q.sp e.toNat q.len
      if q.cons then
        let r := s.consumeAt c q.sp (q.eas.getD 0 0).toNat q.len (q.eas.getD 0 0) c i
        match r.2 with
        | some t => .ok (r.1.takeTrap c i t)
        | none => .ok (r.1.modMe fun x => { a.fill bs x with seq := x.seq + 1 }.retire)
      else .ok (s.modMe fun x => { a.fill bs x with seq := x.seq + 1 }.retire)

/-- The state after a consuming access that a trap ends at its checks: one that finds its tile Unsealed publishes it (R155). -/
def State.publish (s : State) (c : Nat) (q : MemReq) (t : TrapInfo) : State :=
  if q.cons && t.cause = 52 then (s.consumeAt c q.sp (q.eas.getD 0 0).toNat q.len 0 c s.cur.ctx).1 else s

/-- The check of lane k of a request that finds the lanes before it good: of its address, and in `.glb` of its page (R166, R169, R206,
R392). -/
def State.reqCheck (s : State) (q : MemReq) (k : Nat) : Option Stop :=
  (s.laneCheck s.cur.cell s.cur.ctx q (q.eas.getD k 0)).orElse fun _ =>
    if q.sp == .glb then
      let a := s.newAcc q
      (s.issueTrap { a with lanes := a.lanes.take (k + 1) }).map .trap
    else none

/-- A memory request: every check of every lane in lane order (R166, R169), the class limits (R196), then its space. -/
def State.access (s : State) (q : MemReq) : Res :=
  let c := s.cur.cell
  let i := s.cur.ctx
  match (List.range q.eas.length).findSome? (s.reqCheck q) with
  | some (.trap t) => .ok ((s.publish c q t).takeTrap c i t)
  | some t => .error t
  | none => do
    stallIf (if q.wr then 32 ≤ s.storeCount c i else 16 ≤ s.loadCount c i)
    match q.sp with
    | .glb => s.issueGlb (s.newAcc q)
    | .peer => s.issuePeer q (s.newAcc q)
    | _ => s.issueLocal q (s.newAcc q)

/-- The tile that a handle operand names, with the checks of R166 that need no address (form, cell, pool and index), and
whether its tag is the tile's. -/
def State.handleTarget (s : State) (h : Word) : Except Stop ((Nat × Nat) × Bool) :=
  let x := s.cell s.cur.cell
  let q := (hPool h, hIdx h)
  if !hFormed h || hCell h ≠ s.cur.cell then Res.trap 54 h 0
  else
    match x.handleTile h with
    | none => Res.trap 54 h 0
    | some t => .ok (q, t.tag == hTag h)

/-- The address of a memory operand, resolved: the tile a handle names, the space, the peer's rank, the address, and whether
a handle's tag is the tile's (R166). -/
def State.resolve (s : State) (m : MAddr) : Except Stop (Option (Nat × Nat) × Space × Word × Word × Bool) :=
  let x := s.me
  if m.handle then do
    let r ← s.handleTarget (x.rs m.base)
    let q := r.1
    match Assoc.get? q.1 (s.cell s.cur.cell).pools with
    | none => Res.trap 54 (x.rs m.base) 0
    | some p =>
      let off := (x.rs m.index <<< m.scale.val) + m.disp.signExtend 64
      .ok (some q, p.spaceOf q.2, 0, word (p.addrOf q.2) + off, r.2)
  else if m.space = .peer then .ok (none, .peer, x.rs m.index, x.rs m.base + m.disp.signExtend 64, true)
  else .ok (none, m.space, 0, x.eaOf m, true)

/-- A load or store of one contiguous run (R167, R168). -/
def State.memOp (s : State) (m : MAddr) (wr cons : Bool) (len align : Nat) (data : List Byte) (dest : Nat) (ty : Ty)
    (acq rel : Bool) (scope : Scope) : Res := do
  let r ← s.resolve m
  s.access { wr, sp := r.2.1, rank := r.2.2.1, tile := r.1, eas := [r.2.2.2.1], len, align, data := [data], dest, ty,
             vec := false, acq, rel, scope, cons, spBase := m.base.val = 2, tagOk := r.2.2.2.2 }

/-- A scalar load (R167). -/
def State.loadScalar (s : State) (x : ArgLd) (cons : Bool) : Res :=
  s.memOp x.addr false cons (tyBytes x.ty) (tyBytes x.ty) [] x.data.val x.ty (x.ord == .acq) false x.scope

/-- A vector load (R168). -/
def State.loadVector (s : State) (x : ArgVld) (cons : Bool) : Res :=
  s.memOp x.addr false cons 64 4 [] (64 + x.data.val) .i64 (x.ord == .acq) false x.scope

/-- `ld` (R167). -/
def execLd (x : ArgLd) (s : State) : Host.Outcome State Fault Refusal :=
  issue (.ld x) x.g anyCtx (fun s => s.loadScalar x false) s

/-- `ldc`: the count step of the tile follows the read (R161, R167). -/
def execLdc (x : ArgLd) (s : State) : Host.Outcome State Fault Refusal :=
  issue (.ldc x) x.g anyCtx (fun s => s.loadScalar x true) s

/-- `st` (R167). -/
def execSt (x : ArgLd) (s : State) : Host.Outcome State Fault Refusal :=
  issue (.st x) x.g anyCtx (fun s =>
    s.memOp x.addr true false (tyBytes x.ty) (tyBytes x.ty) (leBytes (tyBytes x.ty) (s.me.rs x.data).toNat)
      x.data.val x.ty false (x.ord == .rel) x.scope) s

/-- `vld` (R168). -/
def execVld (x : ArgVld) (s : State) : Host.Outcome State Fault Refusal :=
  issue (.vld x) x.g anyCtx (fun s => s.loadVector x false) s

/-- `vldc` (R168). -/
def execVldc (x : ArgVld) (s : State) : Host.Outcome State Fault Refusal :=
  issue (.vldc x) x.g anyCtx (fun s => s.loadVector x true) s

/-- `vst` (R168). -/
def execVst (x : ArgVld) (s : State) : Host.Outcome State Fault Refusal :=
  issue (.vst x) x.g anyCtx (fun s =>
    s.memOp x.addr true false 64 4 (leBytes 64 (s.me.rv x.data).toNat) (64 + x.data.val) .i64 false (x.ord == .rel) x.scope) s

/-- The sixteen lane addresses of a gather or scatter (R169). -/
def gatherAddrs (x : ArgVgat) (y : Ctx) : List Word :=
  (lanesOf (y.rv x.index)).map fun k => y.rs x.base + (word k <<< x.scale.val) + x.disp.signExtend 64

/-- The request of a gather or scatter. -/
def gatherReq (x : ArgVgat) (wr : Bool) (y : Ctx) : MemReq where
  wr := wr
  sp := x.space
  rank := 0
  tile := none
  eas := gatherAddrs x y
  len := 4
  align := 4
  data := if wr then (lanesOf (y.rv x.data)).map fun n => leBytes 4 n else []
  dest := 64 + x.data.val
  ty := .i32
  vec := true
  acq := x.ord == .acq
  rel := x.ord == .rel
  scope := x.scope
  cons := false
  spBase := x.base.val = 2
  tagOk := true

/-- `vgat` (R169). -/
def execVgat (x : ArgVgat) (s : State) : Host.Outcome State Fault Refusal :=
  issue (.vgat x) x.g anyCtx (fun s => s.access (gatherReq x false s.me)) s

/-- `vsca`: the higher lane wins on equal addresses (R169). -/
def execVsca (x : ArgVgat) (s : State) : Host.Outcome State Fault Refusal :=
  issue (.vsca x) x.g anyCtx (fun s => s.access (gatherReq x true s.me)) s

/-- `ldtab` (R128). -/
def execLdtab (x : ArgLdtab) (s : State) : Host.Outcome State Fault Refusal :=
  issue (.ldtab x) x.g anyCtx (fun s => s.memOp x.addr false x.cons 16 16 [] 110 .i64 false false .ctx) s

/-- `accrd` (R146). -/
def execAccrd (x : ArgAccrd) (s : State) : Host.Outcome State Fault Refusal :=
  issue (.accrd x) x.g anyCtx (fun s =>
    s.access { wr := false, sp := .acc, rank := 0, tile := none, eas := [s.me.rs x.a], len := 64, align := 64, data := [],
               dest := 64 + x.d.val, ty := .i64, vec := false, acq := x.acq, rel := false, scope := x.scope, cons := false,
               spBase := false, tagOk := true }) s

/-- `accwr` (R146). -/
def execAccwr (x : ArgAccwr) (s : State) : Host.Outcome State Fault Refusal :=
  issue (.accwr x) x.g anyCtx (fun s =>
    s.access { wr := true, sp := .acc, rank := 0, tile := none, eas := [s.me.rs x.a], len := 64, align := 64,
               data := [leBytes 64 (s.me.rv x.b).toNat], dest := 0, ty := .i64, vec := false, acq := false, rel := x.rel,
               scope := x.scope, cons := false, spBase := false, tagOk := true }) s

/-- `fence`: it stalls its context until its condition holds (R217). -/
def execFence (x : ArgFence) (s : State) : Host.Outcome State Fault Refusal :=
  issue (.fence x) x.g anyCtx (fun s =>
    let c := s.cur.cell
    let i := s.cur.ctx
    let ok := match x.kind with
      | .acq => s.acquireReady c i
      | .rel => s.releaseReady c i x.scope
      | .acqrel => s.acquireReady c i && s.releaseReady c i x.scope
      | .full => s.fullReady c i
    if ok then .ok s.retire else Res.stall) s

/-- The tile operations of a context that count for `wait` until they retire (R133, R196). -/
def State.tileCount (s : State) (c i : Nat) : Nat := ((s.cell c).tileq.filter (·.ctx == i)).length
/-- The copies of a context that count for `wait` until they retire (R189, R196). -/
def State.copyCount (s : State) (c i : Nat) : Nat := ((s.cell c).copyq.filter (·.ctx == i)).length

/-- `wait`: it holds until each class count is at most its value; a value at or above the class limit never waits
(R196). -/
def execWait (x : ArgWait) (s : State) : Host.Outcome State Fault Refusal :=
  issue (.wait x) x.g anyCtx (fun s =>
    let c := s.cur.cell
    let i := s.cur.ctx
    let ok (v limit n : Nat) : Bool := limit ≤ v || n ≤ v
    if ok x.l.val 16 (s.loadCount c i) && ok x.s.val 32 (s.storeCount c i) && ok x.c.val 16 (s.copyCount c i)
        && ok x.t.val 8 (s.tileCount c i) then .ok s.retire
    else Res.stall) s

/-- The two words of a scoreboard entry (R187). -/
def SbEntry.word (e : SbEntry) (hi : Bool) : Word :=
  if hi then Sys2Proof.word (e.hi % 2 ^ 26)
  else
    let sp := match e.space with
      | .acc => 1
      | .vlt => 2
      | _ => 0
    Sys2Proof.word (2 ^ 63 + sp * 2 ^ 61 + b2n e.write * 2 ^ 60 + e.ctx % 16 * 2 ^ 56 + e.op % 256 * 2 ^ 48 + e.lo % 2 ^ 26)

/-- The entries that operations at issue hold: at most 56 (R190). -/
def Cell.issueEntries (x : Cell) : Nat := (x.sb.filter fun e => e.ctx ≠ 15).length
/-- The entries open to operations at issue (R190): of the 56, and of the 64. -/
def Cell.openEntries (x : Cell) : Nat := min (56 - x.issueEntries) (64 - x.sb.length)
/-- The free entries of the eight kept for incoming writes (R190). -/
def Cell.keptEntries (x : Cell) : Nat := 8 - (x.sb.length - x.issueEntries)

/-- `sbstat` (R197). -/
def execSbstat (x : ArgSbstat) (s : State) : Host.Outcome State Fault Refusal :=
  issue (.sbstat x) x.g anyCtx (fun s =>
    let y := s.cell s.cur.cell
    let i := s.cur.ctx
    let r := s.ctxRegion s.cur.cell i
    let v : Word := match x.sel with
      | .status n =>
        match n.val with
        | 0 => word y.openEntries
        | 1 => word y.keptEntries
        | 2 => word ((y.sb.filter fun e => e.ctx == i).length)
        | 3 => word y.copyq.length
        | _ => word y.spilled
      | .entry n =>
        match y.sb.find? fun e => e.idx == n.val / 2 with
        | some e => if e.region = r || i = 9 then e.word (n.val % 2 == 1) else 0
        | none => 0
    s.update fun z => z.ws x.d v) s

end Sys2Proof.Machine
end

