-- ==== Sys2Proof/Machine/Global.lean ====
section
/-! DEFINITION. Accesses under way: the order in which they may be performed (R204, R205, R207), stations and walks (R228
to R231), peers (R345), the retry ring's waiting faults (R363), sequentially consistent operations (R213, R214, R218),
and `xlat`, `tinv`, `keyset` (R236 to R238). -/
namespace Sys2Proof.Machine

/-! ### Flights -/

/-- Whether a flight is held for a context that stands frozen: the answer to its `talloc`, its `talloc.try`, which never joins a queue
(R158, R175), and the owner's reply that it waits for (R267). -/
def State.heldFlight (s : State) (f : Flight) : Bool :=
  match f.pay with
  | .grant _ r _ _ | .talloc _ _ r true => s.reqFrozen r
  | .ownerReply q _ _ => q.action.isNone && (s.ctxAt q.cell q.ctx).frozen.isSome && s.ctxTask q.cell q.ctx == q.task
  | _ => false

/-- The k-th flight, if no earlier one has the same sender and receiver, but for those held: the network does not reorder those
(R20). -/
def State.arriving (s : State) (k : Nat) : Option Flight :=
  (s.net[k]?).filter fun f => !s.heldFlight f && !((s.net.take k).any fun g => g.src == f.src && g.dst == f.dst && !s.heldFlight g)

/-- The ways of the messages that arrived in the last 4,096 c, the k-th flight among them (R402). -/
def State.ways (s : State) (k : Nat) : List (Place × Place × Nat) :=
  ((s.net[k]?).map fun f => (f.src, f.dst, s.clock)).toList ++ s.passed.filter fun w => s.clock < w.2.2 + 4096

/-- The routers that stay gated when the k-th flight passes: those on its way wake (R402). Until they do it goes by the bypass ring,
which changes its timing only (R20). -/
def State.stillGated (s : State) (k : Nat) : List Nat :=
  match s.net[k]? with
  | some f => s.gated.filter fun p => !(wayOf f.src f.dst).contains p
  | none => s.gated

/-- The state with the k-th flight arrived and gone. -/
def State.land (s : State) (k : Nat) : State := { s with net := dropAt k s.net, passed := s.ways k, gated := s.stillGated k }

/-! ### What an access reads and writes at its home -/

/-- The key tag of an access's home byte: its leaf's slot in global memory, the owner's slot in a `.vlt` window
(R232). -/
def State.homeTag (s : State) (key home : Nat) : Nat × Nat :=
  if isVault home && home % 2 ^ 30 < 2 ^ 30 - s.globalShare (home / 2 ^ 30) then s.vltTag (home / 2 ^ 30) (home % 2 ^ 30)
  else s.slotTag key

/-- The bytes of a piece of a store. -/
def Acc.pieceData (a : Acc) (p : Piece) : List Byte :=
  ((((a.lanes[p.lane]?).map (·.data)).getD []).drop p.off).take p.len

/-- The byte that a write of kind R or U waiting at a station, among flights, holds for a home address: the last one
(R205). -/
def waitingByte (st : Place) (home : Nat) : List Flight → Option Byte
  | [] => none
  | f :: fs =>
    match waitingByte st home fs with
    | some b => some b
    | none =>
      match f.pay with
      | .glb b =>
        if f.src = st && !b.isLoad && b.kind != .S then
          b.pieces.findSome? fun p =>
            if p.home ≤ home && home < p.home + p.len then (b.pieceData p)[home - p.home]? else none
        else none
      | _ => none

/-- The flights before the k-th that carry a write which a context may see wait at its station (R205): its own writes, and
those of other contexts that nothing but their way to their home holds back. -/
def State.visible (s : State) (k : Nat) (a : Acc) : List Flight :=
  (s.net.take k).filter fun f => match f.pay with
    | .glb b => !b.isLoad && ((b.cell == a.cell && b.ctx == a.ctx && b.task == a.task) || s.inOrder b)
    | _ => false

/-- Whether a write that a context may have seen waits at a station and meets an access of it (R215). -/
def State.waitsFor (s : State) (k : Nat) (st : Place) (a : Acc) : Bool :=
  (s.visible k a).any fun f => match f.pay with
    | .glb b => f.src = st && b.meets a
    | _ => false

/-- The bytes of a piece as a load served by the k-th flight reads them: at the home, or, for kinds R and U, from a
write that waits at its station before it (R205). -/
def State.pieceBytes (s : State) (k : Nat) (st : Place) (a : Acc) (p : Piece) : List Byte :=
  let home := s.readUnder (s.homeTag p.key p.home) p.home p.len
  if a.kind == .S then home
  else home.zipIdx.map fun b => (waitingByte st (p.home + b.2) (s.visible k a)).getD b.1

/-- The bytes of each lane of an access from those of its pieces. -/
def Acc.laneBytes (a : Acc) (read : Piece → List Byte) : List (List Byte) :=
  (List.range a.lanes.length).map fun l => (a.pieces.filter (·.lane == l)).flatMap read

/-- The poisoned unit that keeps an access from being performed: any for a read, one not fully covered for a write
(R234). -/
def State.badUnit (s : State) (a : Acc) : Option Nat :=
  a.pieces.findSome? fun p =>
    (s.poisoned p.home p.len).bind fun u =>
      if (match a.op with | .store | .copy _ => true | _ => false) && covers p.home p.len u then none else some u

/-- The state with a write performed at its home: bytes of host memory leave through the gateway of the tenant's virtual
function (R224). -/
def State.performWrite (s : State) (a : Acc) : State :=
  let vf := s.vfOf (s.tenantOf a.region)
  a.pieces.foldl (fun s p => s.writeHome vf (s.homeTag p.key p.home) p.home (a.pieceData p)) (s.freeEntry a)

/-- A fault of an access, with the effective address of the lane that failed, in place of which its master freezes (R370), or
which it takes: its retry-ring entry, or the copy's trap (R193, R231). -/
def State.deliverFault (s : State) (a : Acc) (addr : Word) (t : TrapInfo) (foreign : Bool) : State :=
  match a.op with
  | .copy key => if foreign then s.copyFreeze a.cell key a.seq t else s.copyFault a.cell key a.seq t
  | _ =>
    if foreign && a.ctx = 9 && s.resident a.cell 9 a.task then s.takeFreeze a.cell 9 .key t
    else if foreign then
      let s := if s.ctxTask a.cell a.ctx = a.task then s.freezeCtx a.cell a.ctx .key a.region else s
      let s := s.freezeRegion a.cell a.region .key
      s.modCell a.cell fun x => { x with retryWait := x.retryWait ++ [(s.entryFor a addr t, t, false)] }
    else s.faultAcc a addr t

/-- A translation fault of an access at a virtual address as a trap (R228, R360). -/
def Acc.pageFault (a : Acc) (va : Nat) (f : XFault) : TrapInfo :=
  match f.bad with
  | some u => memError u
  | none => { cause := f.cause a.op.need.2, val := a.laneAddr va, info := f.info }

/-- A trap that a station finds (R206, R392): a copy's, or the access's precise one. -/
def State.lateTrap (s : State) (a : Acc) (t : TrapInfo) : State :=
  match a.op with
  | .copy key => s.copyFault a.cell key a.seq t
  | _ => s.lateAcc a t

/-! ### Stations and walks -/

/-- An access that joins or starts a walk for a page it has no leaf for (R229); it stays where it is while all walkers of its
share are busy. -/
def State.joinWalk (s : State) (st : Nat) (a : Acc) (va : Nat) : Option State :=
  let x := s.station st
  let page := va / 65536 * 65536
  let part := s.asidPartition a.asid
  if x.walks.any fun w => w.asid == a.asid && w.page == page then
    some (s.modStation st fun x =>
      { x with walks := modifyFirst (fun w => w.asid == a.asid && w.page == page) (fun w => { w with waiting := w.waiting ++ [a] }) x.walks })
  else if (x.walks.filter fun w => s.shareAt st (s.asidPartition w.asid) == s.shareAt st part).length < (s.stationShare st part).2 then
    some (s.modStation st fun x => { x with walks := x.walks ++ [{ asid := a.asid, page, waiting := [a] }] })
  else none

/-- The cell of a home address. -/
def homeCell (home : Nat) : Nat :=
  if home < 2 ^ 50 then home / 2 ^ 30 else if home < 2 ^ 51 then (home - 2 ^ 50) / 2 ^ 21 else (home - 2 ^ 51) / 2 ^ 18

/-- The place of an access's home: a cell, or the host link whose gateway carries the tenant's virtual function (R224). -/
def State.homePlace (s : State) (a : Acc) (home : Nat) : Place :=
  if isHost home then .host (((Assoc.get? (s.vfOf (s.asidTenant a.asid)) s.vfs).map (·.link)).getD 0) else .cell (homeCell home)

/-- What a station does with an access (R230, R231): it sends it to its home, walks, or delivers the fault. -/
def State.stationTake (s : State) (st : Nat) (a : Acc) : Option State :=
  let here : Place := .station (st / 16) (st % 16)
  match s.xlatAt st a with
  | .miss va => s.joinWalk st a va
  | .fault va f => some (s.deliverFault a (a.laneAddr va) (a.pageFault va f) (s.foreign a.asid f))
  | .ok ps =>
    match s.pageTrap a ps with
    | some t => some (s.lateTrap a t)
    | none =>
      let a' := a.translated ps
      let home := s.homePlace a (((ps.head?).map (·.home)).getD 0)
      some (s.send here home (match a.op with | .atomic _ => .atomicReq a' | _ => .glb a'))

/-- Whether the k-th flight's request must wait at its station (R230, R231): an earlier request of its context stands before it
or walks for another page than it would, or its context has an earlier unresolved store or atomic entry. -/
def State.stationHeld (s : State) (k st : Nat) (a : Acc) : Bool :=
  let same (b : Acc) : Bool := b.cell == a.cell && b.ctx == a.ctx && b.task == a.task && b.seq ≤ a.seq
  let earlier := (s.net.take k).any fun f => match f.pay with | .stationReq b => same b | _ => false
  let joins (w : Walk) : Bool := match s.xlatAt st a with
    | .miss va => w.asid == a.asid && w.page == va / 65536 * 65536
    | _ => false
  let walking := (s.station st).walks.any fun w => w.waiting.any same && !joins w
  let held := match a.op with
    | .copy _ => false
    | _ => (s.ringHeld a.cell a.ctx).any fun b => b.op != .load && b.seq < a.seq && b.task == a.task
  earlier || walking || held

/-- Whether a flight from the sender of the k-th to its receiver stands before it and has not been taken for its order's sake
only: the network delivers in order (R20), and what has arrived and must wait is passed. -/
def State.passes (s : State) (k : Nat) (waits : Nat → Flight → Bool) : Option Flight :=
  (s.net[k]?).filter fun f => (s.net.take k).zipIdx.all fun g => !(g.1.src == f.src && g.1.dst == f.dst) || s.heldFlight g.1 || waits g.2 g.1

/-- Whether a request that has reached its station waits there: for its context's order or for a walker. -/
def State.stationWaits (s : State) (st k : Nat) (f : Flight) : Bool :=
  match f.pay with
  | .stationReq a => s.stationHeld k st a || (s.stationTake st a).isNone
  | _ => false

/-- A request reaches its station (R230): in the order of its context's requests, behind its context's walk, and not past
an unresolved store or atomic entry (R231). -/
def execStationRequest (s : State) : Host.Outcome State Fault Refusal :=
  let k := s.cur.k
  match s.net[k]? with
  | some { src := _, dst := .station d c, pay := .stationReq a } =>
    let st := d * 16 + c
    if s.stationHeld k st a || (s.passes k (s.stationWaits st)).isNone then event s
    else event (((s.land k).stationTake st a).getD s)
  | _ => event s

/-- A walk ends (R228, R229): the tables are read as they stand. With a leaf, the accesses that waited stand at their station again, in
their order (R230); without one, each faults. -/
def execWalkComplete (die column walk : Nat) (s : State) : Host.Outcome State Fault Refusal :=
  let st := die * 16 + column
  match (s.station st).walks[walk]? with
  | none => event s
  | some w =>
    let s := s.modStation st fun x => { x with walks := dropAt walk x.walks }
    match s.walk w.asid w.page (false, false) with
    | .ok l =>
      let back : List Flight := w.waiting.map fun a => { src := .cell a.cell, dst := .station die column, pay := .stationReq a }
      event { s.cacheLeaf st l with net := back ++ s.net }
    | .error _ =>
      event (w.waiting.foldl (fun s a =>
        match s.walk w.asid w.page a.op.need with
        | .error f =>
          let va := ((a.runs.find? fun r => r.2.2.1 / 65536 * 65536 == w.page).map (·.2.2.1)).getD w.page
          s.deliverFault a (a.laneAddr va) (a.pageFault va f) (s.foreign a.asid f)
        | .ok _ => s) s)

/-- The state with a load's value in its register, and a context that holds for it going on. -/
def State.deliver (s : State) (a : Acc) (bs : List (List Byte)) : State :=
  (s.fillDest a bs).wake a.cell a.ctx a.task .access

/-- Whether an earlier chunk of the same copy is on its way: the model performs a copy's `.glb` chunks in order, so that
a fault leaves those after it unwritten (R193). -/
def State.earlierChunk (s : State) (a : Acc) : Bool :=
  match a.op with
  | .copy key => s.allAccs.any fun b => b.op == .copy key && b.cell == a.cell && b.seq < a.seq
  | _ => false

/-- Whether a release wider than its cell, or column, waits for writes at its station before the k-th flight that its context may have
seen there (R207, R215). -/
def State.seenWait (s : State) (k : Nat) (a : Acc) : Bool := a.ordRel && s.seenWrites (s.net.take k) a.cell a.scope

/-- The order S on announced operations: window, cell, context, program order (R213). -/
def ScOp.before (a b : ScOp) : Bool :=
  a.window < b.window || (a.window == b.window && (a.cell < b.cell || (a.cell == b.cell &&
    (a.ctx < b.ctx || (a.ctx == b.ctx && a.seq < b.seq)))))

/-- The first announced operation in the order S. -/
def firstSc : List ScOp → Option ScOp
  | [] => none
  | o :: os =>
    match firstSc os with
    | none => some o
    | some p => if p.before o then some p else some o

/-- The operation whose turn it is in the order S: the first, once every cell knows it and its window has closed (R213). -/
def State.scNext (s : State) : Option ScOp := (firstSc s.scOps).filter fun o => o.ready && 32 * (o.window + 1) + 96 ≤ s.clock

/-- Whether an announced operation is that of an access. -/
def ScOp.of (o : ScOp) (a : Acc) : Bool := o.cell == a.cell && o.ctx == a.ctx && o.seq == a.seq

/-- The state without the announced operation of an access: it has had its turn. -/
def State.scDone (s : State) (a : Acc) : State := if a.sc then { s with scOps := s.scOps.filter (!·.of a) } else s

/-- Whether a sequentially consistent access must wait at its home: for its turn in the order S (R213), or for a write that its context
may have seen at its station (R215). -/
def State.scWaits (s : State) (a : Acc) : Bool :=
  !((s.scNext.map (·.of a)).getD false) || s.waitsFor s.net.length (stationPlace a.cell) a

/-- Whether an access that has reached its home waits there for its order: its context's (R204), a copy's earlier chunk
(R193), a write from the same station to a common location (R205), the writes that its context may have seen (R215), or its turn in the
order S (R214). -/
def State.homeWaits (s : State) (k : Nat) (f : Flight) : Bool :=
  match f.pay with
  | .glb a => !s.inOrder a || s.earlierChunk a || ((a.op != .load || a.kind == .S) && s.waitsFor k f.src a) || s.seenWait k a
  | .atomicReq a => (a.sc && s.scWaits a) || !s.inOrder a || s.waitsFor k f.src a || s.seenWait (if a.peer.isSome then s.net.length else k) a
  | _ => false

/-- Whether a flight is a write of kind R or U that may wait at its station while loads go on (R205). -/
def Flight.standsAtStation (f : Flight) : Bool :=
  match f.pay with
  | .glb b => !b.isLoad && b.kind != .S
  | _ => false

/-- A load's value is fixed at its home and reaches its register (R201): a `.glb` load in its order, past the writes that wait at its
station (R205), or the value that a peer sent. -/
def execLoadValueReturned (s : State) : Host.Outcome State Fault Refusal :=
  let k := s.cur.k
  match s.passes k fun n f => f.standsAtStation || s.homeWaits n f with
  | some { src := st, dst := d, pay := .glb a } =>
    if a.op != .load || s.homeWaits k { src := st, dst := d, pay := .glb a } then event s
    else
      match s.badUnit a with
      | some u => event ((s.land k).faultMem a u)
      | none =>
        let bs := a.laneBytes (s.pieceBytes k st a)
        event ((s.land k).deliver a bs)
  | some { src := _, dst := _, pay := .value a bs } => event ((s.land k).deliver a bs)
  | _ => event s

/-- The state with a copy's `.glb` chunk taken by its home: the acknowledgement goes to the engine (R189). -/
def State.ackCopy (s : State) (a : Acc) : State :=
  match a.op with
  | .copy key => s.send (s.homePlace a (((a.pieces.head?).map (·.home)).getD 0)) (.cell a.cell) (.chunkAck a.cell key none false (a.seq + a.lanes.foldl (fun n l => n + l.len) 0) a.cons
      (s.tenantOf a.region))
  | _ => s

/-- A write is performed at its home (R201, R205): in its context's order, and after the writes from the same station to
a common location that came before it. -/
def execWritePerformedAtHome (s : State) : Host.Outcome State Fault Refusal :=
  let k := s.cur.k
  match s.passes k s.homeWaits with
  | some { src := st, dst := d, pay := .glb a } =>
    if a.isLoad || s.homeWaits k { src := st, dst := d, pay := .glb a } then event s
    else
      match s.badUnit a with
      | some u =>
        match a.op with
        | .copy _ => event ((s.land k).deliverFault a 0 (memError u) false)
        | _ => event ((s.land k).faultMem a u)
      | none => event (((s.land k).performWrite a).ackCopy a)
  | _ => event s

/-! ### Peers -/

/-- Whether a cell is a present member of the cluster that an access's task belongs to (R345). -/
def State.peerPresent (s : State) (a : Acc) (c : Nat) : Bool :=
  s.clusters.any fun x => x.2.tasks.contains a.task && x.2.cells.contains c && !x.2.departed.contains c

/-- A trap that a peer's cell raises, precise (R157): of an access whose context holds for it (R161), or at the PC of one that its
context has passed. -/
def State.peerTrap (s : State) (a : Acc) (t : TrapInfo) : State :=
  if a.cons then
    let s := s.freeEntry a
    if s.ctxTask a.cell a.ctx = a.task && (s.ctxAt a.cell a.ctx).st = .waiting .access then
      s.takeTrap a.cell a.ctx t
    else s
  else s.lateAcc a t

/-- The state with the access of the k-th flight at its peer's cell, where it waits (R345). -/
def State.arrived (s : State) (k : Nat) : State :=
  let mark (p : Pay) : Pay := match p with
    | .peer a => .peer { a with arrived := true }
    | .atomicReq a => .atomicReq { a with arrived := a.peer.isSome }
    | p => p
  { s with net := modifyAt (fun f => { f with pay := mark f.pay }) k s.net }

/-- A `.peer` access is performed at the peer (R188, R345): it returns when it reaches one that has departed; it waits for the
scoreboard of the peer's cell, for its context's order and, a release, for the writes its context may have seen; a fault of the tiles
there goes back. -/
def execPeerAccessArrival (s : State) : Host.Outcome State Fault Refusal :=
  let k := s.cur.k
  match s.arriving k with
  | some { src := _, dst := .cell c, pay := .peer a } =>
    let p := (a.pieces.headD { lane := 0, off := 0, len := 0, home := 0 })
    let addr := p.home - locA c 0
    let wr := a.op == .store
    let val := a.firstAddr
    if !a.arrived && !s.peerPresent a c then event ((s.land k).send (.cell c) (.cell a.cell) (.peerAbsent a))
    else if !s.inOrder a || s.seenWait s.net.length a || (s.cell c).conflicts .loc addr p.len wr then event (s.arrived k)
    else
      let s := s.land k
      if a.cons then
        let bs := [s.readBytes p.home p.len]
        let r := s.consumeAt c .loc addr p.len val a.cell a.ctx
        match r.2 with
        | some t => event (r.1.peerTrap a t)
        | none => event (r.1.send (.cell c) (.cell a.cell) (.value a bs))
      else
        match s.tileCheck c .loc addr p.len wr val with
        | some t => event (s.peerTrap a t)
        | none =>
          if wr then event ((s.freeEntry a).writeBytes p.home (a.pieceData p))
          else event (s.send (.cell c) (.cell a.cell) (.value a [s.readBytes p.home p.len]))
  | _ => event s

/-- The state with the value of a sequentially consistent operation given to the context that waits for it, which goes on. -/
def State.finishSc (s : State) (a : Acc) (bs : List (List Byte)) : State :=
  let s := s.freeEntry a
  if s.ctxTask a.cell a.ctx = a.task && (s.ctxAt a.cell a.ctx).st = .waiting .sc then
    s.modCtx a.cell a.ctx fun x => { (if a.isLoad then a.fill bs x else x) with st := .running }.retire
  else s

/-- A trap that a sequentially consistent operation's home raises: precise, since its context holds for it. -/
def State.trapSc (s : State) (a : Acc) (t : TrapInfo) : State :=
  let s := s.freeEntry a
  if s.ctxTask a.cell a.ctx = a.task && (s.ctxAt a.cell a.ctx).st = .waiting .sc then s.takeTrap a.cell a.ctx t else s

/-- A `.peer` access comes back from a departed peer (R345): a retry-ring entry with cause 28; precise for a context that
holds for it. -/
def execPeerAbsentReturn (s : State) : Host.Outcome State Fault Refusal :=
  let k := s.cur.k
  match s.arriving k with
  | some { src := _, dst := _, pay := .peerAbsent a } =>
    let s := s.land k
    let t : TrapInfo := { cause := 28, val := a.firstAddr, info := word a.rank }
    if a.sc then event ((s.scDone a).trapSc a t)
    else if a.cons then event (s.peerTrap a t) else event (s.faultAcc a t.val t)
  | _ => event s

/-- The oldest fault that waits for a retry-ring entry takes one when there is room for its tenant; those of frozen
contexts wait for the thaw (R363, R371). -/
def execRingEntryFreed (s : State) : Host.Outcome State Fault Refusal :=
  let c := s.cur.cell
  let x := s.cell c
  match indexWhere (fun e => s.ringRoom c e.1.tenant && (x.ctx e.1.ctx).frozen.isNone) x.retryWait with
  | none => event s
  | some i =>
    match x.retryWait[i]? with
    | none => event s
    | some e => event ((s.setCell c { x with retryWait := dropAt i x.retryWait }).ringPut c e.1 e.2.1 e.2.2)

/-! ### Atomics and sequentially consistent operations -/

/-- The atomic operations on two values of w bits, by class; `acas` writes its new value where it succeeds (R334). -/
def atomicNew (cls w : Nat) (sg : Bool) (old v v2 : Nat) : Nat :=
  let less (a b : Nat) : Bool := if sg then asInt w a < asInt w b else a < b
  match cls with
  | 0 => (old + v) % 2 ^ w
  | 1 => old &&& v
  | 2 => old ||| v
  | 3 => old ^^^ v
  | 4 => if less old v then v else old
  | 5 => if less v old then v else old
  | 6 => v
  | _ => if old = v then v2 else old

/-- An atomic performed at its home: the old value and the state with the new one; a failed compare writes nothing
(R334). -/
def State.performAtomic (s : State) (a : Acc) (cls : Nat) : State × Word :=
  let w := tyBits a.ty
  let p := a.pieces.headD { lane := 0, off := 0, len := 0, home := 0 }
  let old := leNat (s.readUnder (s.homeTag p.key p.home) p.home p.len)
  let v := a.v.toNat % 2 ^ w
  let new := atomicNew cls w (tySigned a.ty) old v (a.v2.toNat % 2 ^ w)
  let fails := cls = 7 && old ≠ v
  (if fails then s else s.writeUnder (s.homeTag p.key p.home) p.home (leBytes p.len new), word old)

/-- The state with a sequentially consistent operation announced to every cell (R213). -/
def State.announceAcc (s : State) (a : Acc) : State :=
  let w := s.clock / 32
  let o : ScOp := { window := w, cell := a.cell, ctx := a.ctx, seq := a.seq, acc := a, ready := false }
  { s with scOps := s.scOps ++ [o] }.send (.cell a.cell) .network (.announce w a.cell a.ctx a.seq)

/-- The state with the message of a sequentially consistent atomic on its way to its home, once it is announced (R334). -/
def State.sendSc (s : State) (a : Acc) : State :=
  if a.isAtomic then s.post a.cell (.cell (homeCell (((a.pieces.head?).map (·.home)).getD 0))) (.atomicReq a) else s

/-- Whether that message must wait for the outbound buffer (R326). -/
def State.scLeaveHeld (s : State) (a : Acc) : Bool :=
  a.isAtomic && s.outHeld a.cell (.cell (homeCell (((a.pieces.head?).map (·.home)).getD 0)))

/-- A sequentially consistent operation announced by the executing context, which waits until it has been performed
(R213). -/
def State.announce (s : State) (a : Acc) : State :=
  ((s.announceAcc a).sendSc a).modMe fun x => { x with seq := x.seq + 1, st := .waiting .sc, stalled := false }

/-- The announcement of a sequentially consistent operation, once its message can leave. -/
def State.announceWhen (s : State) (a : Acc) : Res := do
  stallIf (s.scLeaveHeld a)
  .ok (s.announce a)

/-- The translation of a sequentially consistent `.glb` operation, before it is announced, with a credit at its station (R230); its
faults are precise (R214, R218). Host memory is out of the order's scope, and out of every atomic's reach (R334). -/
def State.translateSc (s : State) (a : Acc) : Except Stop (State × Acc) := do
  stallIf (16 ≤ s.stationLoad a.cell)
  match s.translateNow a 2 with
  | (_, .fault va f) => .error (if s.foreign a.asid f then .freeze .key (a.pageFault va f) else .trap (a.pageFault va f))
  | (_, .miss _) => .error .stall
  | (s, .ok ps) =>
    if ps.any fun p => isHost p.home then
      (match a.op with
       | .atomic _ => .error (.trap (accessFault true a.firstAddr))
       | _ => Res.trap 30 a.firstAddr 0)
    else .ok (s, a.translated ps)

/-- The issue of a sequentially consistent `.glb` operation (R214, R218). -/
def State.issueScGlb (s : State) (a : Acc) : Res := do
  let r ← s.translateSc a
  r.1.announceWhen r.2

/-- `ldsc` and `stsc` (R218): checks by R166, a full fence, then the announcement. -/
def State.scAccess (s : State) (q : MemReq) : Res := do
  let c := s.cur.cell
  let i := s.cur.ctx
  stopIf (s.laneCheck c i q (q.eas.getD 0 0))
  stallIf (!s.fullReady c i)
  let a : Acc := { s.newAcc q with sc := true }
  if q.sp = .glb then s.issueScGlb a else s.announceWhen (a.atLocal c q.sp)

/-- The request of `ldsc` or `stsc`. -/
def scReq (x : ArgLdsc) (wr : Bool) (y : Ctx) : MemReq where
  wr := wr
  sp := x.addr.space
  rank := 0
  tile := none
  eas := [y.eaOf x.addr]
  len := tyBytes x.ty
  align := tyBytes x.ty
  data := [if wr then leBytes (tyBytes x.ty) (y.rs x.data).toNat else []]
  dest := x.data.val
  ty := x.ty
  vec := false
  acq := false
  rel := false
  scope := .mod
  cons := false
  spBase := x.addr.base.val = 2
  tagOk := true

/-- `ldsc` (R218); no handler may issue it (R330). -/
def execLdsc (x : ArgLdsc) (s : State) : Host.Outcome State Fault Refusal :=
  issue (.ldsc x) x.g notHandler (fun s => s.scAccess (scReq x false s.me)) s

/-- `stsc` (R218); no handler may issue it (R330). -/
def execStsc (x : ArgLdsc) (s : State) : Host.Outcome State Fault Refusal :=
  issue (.stsc x) x.g notHandler (fun s => s.scAccess (scReq x true s.me)) s

/-- An announcement has reached every cell (R213). -/
def execScAnnouncementArrival (s : State) : Host.Outcome State Fault Refusal :=
  let k := s.cur.k
  match s.arriving k with
  | some { src := _, dst := _, pay := .announce w c i n } =>
    let f (o : ScOp) : ScOp := if o.window = w && o.cell = c && o.ctx = i && o.seq = n then { o with ready := true } else o
    event { s.land k with scOps := s.scOps.map f }
  | _ => event s

/-- The local byte range of a home address: cell, space, address; none in global memory. -/
def State.localOf (s : State) (home : Nat) : Option (Nat × Space × Nat) :=
  if isVault home then
    if home % 2 ^ 30 < 2 ^ 30 - s.globalShare (home / 2 ^ 30) then some (home / 2 ^ 30, .vlt, home % 2 ^ 30) else none
  else if isHost home then none
  else if home < 2 ^ 51 then some ((home - 2 ^ 50) / 2 ^ 21, .loc, (home - 2 ^ 50) % 2 ^ 21)
  else some ((home - 2 ^ 51) / 2 ^ 18, .acc, (home - 2 ^ 51) % 2 ^ 18)

/-- Whether the scoreboard of an access's home cell keeps it waiting (R188). -/
def State.homeConflict (s : State) (a : Acc) (wr : Bool) : Bool :=
  a.pieces.any fun p => match s.localOf p.home with
    | some (c, sp, x) => (s.cell c).conflicts sp x p.len wr
    | none => false

/-- A window has closed (R213): its home performs the load or store that is first in the order S, when the scoreboard lets it (R188). An
atomic runs in its home's context 8 instead (R334). A memory error reaches the retry ring while the context holds on (R234; log entry
54). -/
def execWindowClose (s : State) : Host.Outcome State Fault Refusal :=
  match s.scNext with
  | none => event s
  | some o =>
    let a := o.acc
    if a.isAtomic || s.scWaits a || s.homeConflict a (a.op != .load) then event s
    else
      let s := { s with scOps := eraseFirst (· == o) s.scOps }
      match s.badUnit a with
      | some u => event (s.faultMem a u)
      | none =>
        if a.op = .load then event (s.finishSc a (a.laneBytes fun p => s.readUnder (s.homeTag p.key p.home) p.home p.len))
        else event ((s.performWrite a).finishSc a [])

/-! ### xlat, tinv, keyset -/

/-- The result of a probe that translates (R236); the physical address is the supervisor's. -/
def probeWord (l : Leaf) (va : Nat) (super : Bool) : Word :=
  let kind := match l.kind with
    | .S => 0
    | .R => 1
    | .U => 2
  word (kind * 2 ^ 61 + l.size * 2 ^ 59 + l.key * 2 ^ 49 + b2n l.w * 2 ^ 48
    + if super then l.frame + va % 2 ^ l.bits else 0)

/-- The result of a probe that faults (R236). -/
def probeFault (f : XFault) : Word := word (2 ^ 63 + f.code + f.level * 16)

/-- A probe of a translation by the cell's station (R236): it walks and fills the station as an access would. -/
def State.probe (s : State) (d : SReg) (va : Nat) (wr : Bool) : Res :=
  let c := s.cur.cell
  let asid := s.asidOf c s.cur.ctx
  let need := (!wr, wr)
  let st := stationOf c
  let fin (s : State) (w : Word) : Res := s.update fun x => x.ws d w
  let use (s : State) (l : Leaf) : Res :=
    match s.leafHome l need va with
    | .error f => fin s (probeFault f)
    | .ok _ => fin s (probeWord l va (s.cur.ctx == 9))
  match (s.station st).leaves.find? fun l => l.serves asid va with
  | some l => use s l
  | none =>
    match s.walk asid va need with
    | .error f => fin s (probeFault f)
    | .ok l => use (s.cacheLeaf st l) l

/-- `xlat r` (R236). -/
def execXlatR (x : ArgDA) (s : State) : Host.Outcome State Fault Refusal :=
  issue (.xlatR x) x.g anyCtx (fun s => s.probe x.d ((s.me.rs x.a).toNat % 2 ^ 56) false) s

/-- `xlat w` (R236). -/
def execXlatW (x : ArgDA) (s : State) : Host.Outcome State Fault Refusal :=
  issue (.xlatW x) x.g anyCtx (fun s => s.probe x.d ((s.me.rs x.a).toNat % 2 ^ 56) true) s

/-- A word of an interleave set; a set number above 63 is illegal instruction (R221, R236). -/
def State.setWord (s : State) (i : Instr) (d a : SReg) (hi : Bool) : Res :=
  let n := (s.me.rs a).toNat
  if 63 < n then .error (.trap (encTrap 2 i))
  else
    s.update fun x => x.ws d (match Assoc.get? n s.sets with
      | some q => if hi then q.w1 else q.w0
      | none => 0)

/-- `xlat set0` (R236). -/
def execXlatSet0 (x : ArgDA) (s : State) : Host.Outcome State Fault Refusal :=
  issue (.xlatSet0 x) x.g superCtx (fun s => s.setWord (.xlatSet0 x) x.d x.a false) s

/-- `xlat set1` (R236). -/
def execXlatSet1 (x : ArgDA) (s : State) : Host.Outcome State Fault Refusal :=
  issue (.xlatSet1 x) x.g superCtx (fun s => s.setWord (.xlatSet1 x) x.d x.a true) s

/-- The translated accesses to global memory that are not performed: on their way to their home, waiting there for context 8, or
announced. -/
def State.glbMoving (s : State) : List Acc :=
  ((s.net.filterMap fun f => match f.pay with
      | .glb a | .atomicReq a => some a
      | _ => none)
    ++ s.cells.flatMap (fun x => (x.2.in8 ++ x.2.over8).filterMap fun q => match q with
      | .atomic a => some a
      | _ => none)
    ++ s.scAccs).filter fun a => a.sp == .glb && a.done

/-- The dropping of the cached leaves that a test names (R237): a release at module scope first, then it waits for the
accesses translated through them, then they go at every station. A freed ASID all of whose entries went may be given
again (R225). -/
def State.invalidate (s : State) (drop : Leaf → Bool) (whole : Nat → Bool) : Res := do
  stallIf (!s.releaseReady s.cur.cell s.cur.ctx .mod)
  let under (a : Acc) : Bool := a.pieces.any fun p => match p.leaf with
    | some l => drop l
    | none => false
  stallIf (s.glbMoving.any under)
  let t : State := { s with stations := s.stations.map (fun (x : Nat × Station) =>
    (x.1, { x.2 with leaves := x.2.leaves.filter (fun l => !drop l) })), staleAsids := s.staleAsids.filter fun n => !whole n }
  .ok t.retire

/-- `tinv all` (R237). -/
def execTinvAll (x : ArgG) (s : State) : Host.Outcome State Fault Refusal :=
  issue (.tinvAll x) x.g superCtx (fun s => s.invalidate (fun _ => true) fun _ => true) s

/-- `tinv asid` (R237). -/
def execTinvAsid (x : ArgA) (s : State) : Host.Outcome State Fault Refusal :=
  issue (.tinvAsid x) x.g superCtx (fun s =>
    let n := (s.me.rs x.a).toNat % 2 ^ 14
    s.invalidate (fun l => l.asid == n) fun a => a == n) s

/-- `tinv page` (R237). -/
def execTinvPage (x : ArgAB) (s : State) : Host.Outcome State Fault Refusal :=
  issue (.tinvPage x) x.g superCtx (fun s =>
    let n := (s.me.rs x.a).toNat % 2 ^ 14
    let va := (s.me.rs x.b).toNat % 2 ^ 56
    s.invalidate (fun l => l.serves n va) fun _ => false) s

/-- A key slot. -/
def State.keySlot (s : State) (k : Nat) : KeySlot := s.keys.getD k { st := .empty, owner := 0, gen := 0 }

/-- The tenant of the executing context. -/
def State.myTenant (s : State) : Nat := s.tenantOf (s.ctxRegion s.cur.cell s.cur.ctx)

/-- The status of an install by a key blob (R238): the session and the reserved field, the slot's owner, its state, the
tag, the two keys. -/
def State.installStatus (s : State) (blob : List Byte) : Nat :=
  let slot := leNat ((blob.drop 4).take 4)
  if !s.sessions.contains (leNat (blob.take 4)) || leNat ((blob.drop 20).take 12) ≠ 0 then 2
  else if slot = 0 || 1023 < slot || s.slotForeign slot s.myTenant then 3
  else if (s.keySlot slot).st ≠ .empty then 4
  else
    match Config.openBlob blob with
    | none => 1
    | some true => 5
    | some false => 0

/-- `keyset inst`: the blob is read as a synchronous load; a slot that it installs holds a new key (R233, R238). -/
def execKeysetInst (x : ArgDA) (s : State) : Host.Outcome State Fault Refusal :=
  issue (.keysetInst x) x.g superCtx (fun s => do
    let c := s.cur.cell
    let a := s.me.rs x.a
    trapIf (if a.toNat % 16 ≠ 0 then some (misaligned false a)
      else if !s.grantCheck c 9 .loc a.toNat 112 false then some (accessFault false a)
      else s.tileCheck c .loc a.toNat 112 false a)
    stallIf ((s.cell c).conflicts .loc a.toNat 112 false || s.localHeld c 9 [])
    let blob := s.readLocal c .loc a.toNat 112
    let st := s.installStatus blob
    let slot := leNat ((blob.drop 4).take 4)
    let k := s.keySlot slot
    let s := if st = 0 then
        s.setKey slot { st := .installed, owner := s.myTenant, gen := k.gen + 1 }
      else s
    s.update fun y => y.ws x.d (word st)) s

/-- Whether nothing uses a key slot any longer: no station holds a leaf that names it, no access translated under it is
unperformed (R233). -/
def State.slotIdle (s : State) (k : Nat) : Bool :=
  !(s.stations.any fun x => x.2.leaves.any fun l => l.key == k)
    && !(s.glbMoving.any fun a => a.pieces.any (·.key == k))

/-- `keyset ret`: the slot retires and the context waits until it is Empty (R233, R238). -/
def execKeysetRet (x : ArgDA) (s : State) : Host.Outcome State Fault Refusal :=
  issue (.keysetRet x) x.g superCtx (fun s =>
    let n := (s.me.rs x.a).toNat
    let k := s.keySlot n
    if n = 0 || 1023 < n || s.slotForeign n s.myTenant then s.update fun y => y.ws x.d 3
    else if k.st = .empty then s.update fun y => y.ws x.d 4
    else
      let s := s.setKey n { k with st := .retiring }
      .ok (s.modMe fun y => { y with st := .waiting (.keyset x.d n), stalled := false })) s

/-- `keyset st`: the slot's state word (R238); the result for a slot above 1023 is a free value (log entry 14). -/
def execKeysetSt (x : ArgDA) (s : State) : Host.Outcome State Fault Refusal :=
  issue (.keysetSt x) x.g superCtx (fun s =>
    let n := (s.me.rs x.a).toNat
    let k := s.keySlot n
    let st := match k.st with
      | .empty => 0
      | .installed => 1
      | .retiring => 2
    let vf := if k.owner = 0 then 0 else ((s.region k.owner).map (·.vf)).getD 0
    let w : Word := if 1023 < n then Config.unstated 0 (word n)
      else word (st * 2 ^ 62 + if k.st = .empty then 0 else vf % 2 ^ 16)
    s.update fun y => y.ws x.d w) s

/-- A retiring key slot that nothing uses any longer is Empty, and its key overwritten (R233): the contexts that wait for
it go on. -/
def execKeySlotEmpty (slot : Nat) (s : State) : Host.Outcome State Fault Refusal :=
  if (s.keySlot slot).st ≠ .retiring || !s.slotIdle slot then event s
  else
    let s := s.setKey slot { st := .empty, owner := 0, gen := (s.keySlot slot).gen + 1 }
    let waits (x : Ctx) : Bool := match x.st with
      | .waiting (.keyset _ k) => k == slot
      | _ => false
    event ((s.ctxsWhere waits).foldl (fun s p => s.modCtx p.1 p.2 fun x =>
      match x.st with
      | .waiting (.keyset d _) => { x.ws d 0 with st := .running }.retire
      | _ => x) s)

end Sys2Proof.Machine
end

