-- ==== Sys2Proof/Machine/Records.lean ====
section
/-! DEFINITION. Ready records, join counters and futures: the checks of R254, the sending of records (R258, R275), the
owner's routines (R262, R264, R265), continuations (R252), and the task instructions (R257 to R266). -/
namespace Sys2Proof.Machine

/-! ### Checks (R254) -/

/-- A task reference fault (R254). -/
def taskFault (w : Word) (reason : Nat) : TrapInfo := { cause := 60, val := w, info := word reason }

/-- Whether a cell lies in a tenant's partition (R254, R279): among the cells of its isolation partition, or, where
that has not been configured, of its grant. -/
def State.inPartition (s : State) (tenant c : Nat) : Bool :=
  match s.region tenant with
  | none => false
  | some x =>
    match Assoc.get? x.partition s.partitions with
    | some cs => cs.contains c
    | none => x.grants.any fun g => g.cell == c

/-- Whether the reserved fields of a head word are zero (R242). -/
def headFormed (h : Word) : Bool := slice h.toNat 48 16 == 0 && slice h.toNat 24 8 == 0

/-- The fault of a head word that `spawn` and `callat` send (R254 reasons 1 and 2). -/
def State.headFault (s : State) (tenant : Nat) (h : Word) : Option TrapInfo :=
  match s.taskType tenant (headType h) with
  | none => some (taskFault h 1)
  | some t =>
    if t.actor then some (taskFault h 1)
    else if !headFormed h || 8 < headArgc h then some (taskFault h 2)
    else none

/-- The fault of a target word (R254 reason 3, R257); with the placer bit its cell is ignored. -/
def State.targetFault (s : State) (tenant : Nat) (t : Word) : Option TrapInfo :=
  if 2 ^ 11 ≤ t.toNat then some (taskFault t 3)
  else if bit t.toNat 10 then none
  else if 959 < t.toNat % 2 ^ 10 || !s.inPartition tenant (t.toNat % 2 ^ 10) then some (taskFault t 3)
  else none

/-- The fault of a join or future reference with n significant bits (R250, R251, R254 reason 3). -/
def State.refFault (s : State) (tenant n : Nat) (r : Word) : Option TrapInfo :=
  if 2 ^ n ≤ r.toNat || 959 < refCell r || !s.inPartition tenant (refCell r) then some (taskFault r 3) else none

/-- The fault of a count (R254 reason 5). -/
def countFault (n : Word) : Option TrapInfo :=
  if n.toNat = 0 || 2 ^ 32 ≤ n.toNat then some (taskFault n 5) else none

/-- The fault of a continuation (R252, R254 reasons 6 and 3). -/
def State.contFault (s : State) (tenant : Nat) (k : Word) : Option TrapInfo :=
  let n := k.toNat
  if 2 ^ 62 ≤ n then some (taskFault k 6)
  else
    match slice n 60 2 with
    | 0 =>
      if slice n 27 33 ≠ 0 then some (taskFault k 6)
      else if !bit n 26 && (959 < slice n 16 10 || !s.inPartition tenant (slice n 16 10)) then some (taskFault k 3)
      else none
    | 1 => s.refFault tenant 25 (word (n % 2 ^ 60))
    | _ => some (taskFault k 6)

/-! ### Sending records -/

/-- Where a record that a cell sends goes: a target cell or, by the placer bit or for a cluster type, a placer (R242, R252, R258,
R275). -/
def State.recordPlace (s : State) (c tenant : Nat) (r : Rec) (placer : Bool) (target : Nat) : Place :=
  let cluster := ((s.taskType tenant (headType r.head)).map (·.cluster)).getD false
  if placer then .placer (c / 240) else if cluster then .placer (target / 240) else .cell target

/-- A record as it travels to a place. -/
def Rec.pay (r : Rec) (tenant : Nat) (p : Place) : Pay :=
  match p with
  | .cell _ => .ready r tenant
  | _ => .place r

/-- The state with a record that hardware sends from a cell; the sent counter of its region counts it (R278). -/
def State.sendRecord (s : State) (c tenant : Nat) (r : Rec) (placer : Bool) (target : Nat) : State :=
  let p := s.recordPlace c tenant r placer target
  (s.countSent (headRegion r.head) c).send (.cell c) p (r.pay tenant p)

/-- The state with a record that a context or a routine of a cell sends, counted (R278), in the outbound buffer (R326). -/
def State.relayRecord (s : State) (c tenant : Nat) (r : Rec) (placer : Bool) (target : Nat) : State :=
  let p := s.recordPlace c tenant r placer target
  (s.countSent (headRegion r.head) c).post c p (r.pay tenant p)

/-- The signal of a context that sends a record: the outbound buffer must be free (R326), then the record leaves (R249, R278). -/
def State.postRecord (s : State) (c tenant : Nat) (r : Rec) (placer : Bool) (target : Nat) : Except Stop State :=
  if s.outHeld c (s.recordPlace c tenant r placer target) then .error .stall else .ok (s.relayRecord c tenant r placer target)

/-- A completed signal of the executing task (R249). -/
def State.signal (s : State) : State :=
  s.modMe fun x => { x with task := x.task.map fun t => { t with signals := t.signals + 1, lastSig := x.pc } }

/-- The signal count of a task that waited for an owner (R249). -/
def Ctx.signalled (x : Ctx) : Ctx :=
  { x with task := x.task.map fun t => { t with signals := t.signals + 1, lastSig := x.pc } }

/-- The wait for a signal's release at module scope (R209, R257). -/
def State.releaseWait (s : State) (sc : Scope) : Except Stop Unit :=
  stallIf (!s.releaseReady s.cur.cell s.cur.ctx sc)

/-! ### Synchronous accesses of instructions to their cell's scratchpad -/

/-- A synchronous read of n bytes of `.loc` with alignment al, under R166: alignment, grant, tiles, then scoreboard and
order. -/
def State.syncRead (s : State) (a : Word) (n al : Nat) : Except Stop (List Byte) := do
  let c := s.cur.cell
  let i := s.cur.ctx
  trapIf (if a.toNat % al ≠ 0 then some (misaligned false a)
    else if !s.grantCheck c i .loc a.toNat n false then some (accessFault false a)
    else s.tileCheck c .loc a.toNat n false a)
  stallIf ((s.cell c).conflicts .loc a.toNat n false || s.localHeld c i [(locA c a.toNat, n)])
  .ok (s.readLocal c .loc a.toNat n)

/-- A 64-bit word of a synchronous read. -/
def State.syncWord (s : State) (a : Word) : Except Stop Word := (s.syncRead a 8 8).map fun bs => word (leNat bs)

/-- A synchronous write of bytes to `.loc` with alignment al, under R166. -/
def State.syncWrite (s : State) (a : Word) (al : Nat) (bs : List Byte) : Except Stop State := do
  let c := s.cur.cell
  let i := s.cur.ctx
  trapIf (if a.toNat % al ≠ 0 then some (misaligned true a)
    else if !s.grantCheck c i .loc a.toNat bs.length true then some (accessFault true a)
    else s.tileCheck c .loc a.toNat bs.length true a)
  stallIf ((s.cell c).conflicts .loc a.toNat bs.length true || s.localHeld c i [(locA c a.toNat, bs.length)])
  .ok (s.writeLocal c .loc a.toNat bs)

/-! ### Signals (R249, R258, R259) -/

/-- The words of a record's arguments that `spawn` takes: below argc, from the register or from the template (R258). -/
def State.spawnArgs (s : State) (mask : Nat) (t : Word) : Nat → Except Stop (List Word)
  | 0 => .ok []
  | n + 1 => do
    let xs ← s.spawnArgs mask t n
    let v ← if bit mask n then .ok (s.me.rsN (4 + n)) else s.syncWord (t + word (16 + 8 * n))
    .ok (xs ++ [v])

/-- `spawn` (R258). -/
def execSpawn (x : ArgSpawn) (s : State) : Host.Outcome State Fault Refusal :=
  issue (.spawn x) x.g anyCtx (fun s => do
    let c := s.cur.cell
    let r := s.ctxRegion c s.cur.ctx
    let tenant := s.tenantOf r
    let t := word (slice s.me.sptmpl.toNat 3 18 * 8)
    let head ← if x.hReg then .ok (s.me.rs x.h) else s.syncWord t
    let reply ← if x.rReg then .ok (s.me.rs x.r) else s.syncWord (t + 8)
    trapIf (s.headFault tenant head)
    trapIf (s.targetFault tenant (s.me.rs x.a))
    let n := headArgc head
    let args ← s.spawnArgs x.mask.toNat t n
    s.releaseWait .mod
    let rec_ : Rec := { head := mkHead r 0 n (headType head), reply, args := args ++ List.replicate (8 - n) 0 }
    let a := (s.me.rs x.a).toNat
    let s ← s.postRecord c tenant rec_ (bit a 10) (a % 2 ^ 10)
    .ok s.signal.retire) s

/-- `callat` (R259). -/
def execCallat (x : ArgCallat) (s : State) : Host.Outcome State Fault Refusal :=
  issue (.callat x) x.g anyCtx (fun s => do
    let c := s.cur.cell
    let r := s.ctxRegion c s.cur.ctx
    let tenant := s.tenantOf r
    let t := (s.me.srcB x.t).toNat
    let head := word (4 * 2 ^ 16 + t % 2 ^ 16)
    trapIf (if 2 ^ 16 ≤ t then some (taskFault (s.me.srcB x.t) 1) else s.headFault tenant head)
    trapIf (s.targetFault tenant (s.me.rs x.a))
    trapIf (s.refFault tenant 27 (s.me.rs x.c))
    s.releaseWait .mod
    let rec_ : Rec := { head := mkHead r 1 4 t, reply := s.me.rs x.c,
                        args := [s.me.rsN 4, s.me.rsN 5, s.me.rsN 6, s.me.rsN 7, 0, 0, 0, 0] }
    let a := (s.me.rs x.a).toNat
    let s ← s.postRecord c tenant rec_ (bit a 10) (a % 2 ^ 10)
    .ok s.signal.retire) s

/-! ### Requests to owners (R253, R257, R329) -/

/-- The requests of a cell that expect a reply and are outstanding: owner requests and atomics (R329). -/
def State.replyLoad (s : State) (c : Nat) : Nat :=
  ((List.range 10).map fun i => s.ownerWaits c i).sum
    + (s.allAccs.filter fun a => a.cell == c && (match a.op with | .atomic _ => true | _ => false)).length

/-- An owner request of the executing context. -/
def State.ownReq (s : State) (k : OwnKind) (ref : Word) : OwnReq :=
  let c := s.cur.cell
  let r := s.ctxRegion c s.cur.ctx
  { kind := k, ref, cell := c, ctx := s.cur.ctx, task := s.ctxTask c s.cur.ctx, region := r, tenant := s.tenantOf r,
    action := none }

/-- The state with an owner request that the engine of a cell sends (R181). -/
def State.sendOwner (s : State) (q : OwnReq) : State := s.send (.cell q.cell) (.cell (refCell q.ref)) (.owner q)

/-- The owner request of a context: the outbound buffer must be free (R326), then it leaves. -/
def State.postOwner (s : State) (q : OwnReq) : Except Stop State :=
  if s.outHeld q.cell (.cell (refCell q.ref)) then .error .stall else .ok (s.post q.cell (.cell (refCell q.ref)) (.owner q))

/-- A request that holds its context until the owner replies (R257). -/
def State.askOwner (s : State) (k : OwnKind) (ref : Word) (d : Option SReg) : Res := do
  s.releaseWait .mod
  stallIf (64 ≤ s.replyLoad s.cur.cell)
  let t ← s.postOwner (s.ownReq k ref)
  .ok (t.modMe fun x => { x with st := .waiting (.owner d), stalled := false })

/-- `reply` (R260). -/
def execReply (x : ArgA) (s : State) : Host.Outcome State Fault Refusal :=
  issue (.reply x) x.g notHandler (fun s => do
    let ref := (s.me.task.map (·.record.reply)).getD 0
    let tenant := s.tenantOf (s.ctxRegion s.cur.cell s.cur.ctx)
    trapIf (if ref = 0 then some (taskFault 0 4) else s.refFault tenant 27 ref)
    s.askOwner (.fres true ((s.me.rs x.a).toNat % 2 ^ 62)) ref none) s

/-- `fres` (R264). -/
def execFres (x : ArgFres) (s : State) : Host.Outcome State Fault Refusal :=
  issue (.fres x) x.g notHandler (fun s => do
    let ref := s.me.rs x.a
    trapIf (s.refFault (s.tenantOf (s.ctxRegion s.cur.cell s.cur.ctx)) 27 ref)
    s.askOwner (.fres (!x.fault) ((s.me.rs x.b).toNat % 2 ^ 62)) ref none) s

/-- `freg` (R265). -/
def execFreg (x : ArgDAB) (s : State) : Host.Outcome State Fault Refusal :=
  issue (.freg x) x.g notHandler (fun s => do
    let ref := s.me.rs x.a
    let tenant := s.tenantOf (s.ctxRegion s.cur.cell s.cur.ctx)
    trapIf (s.refFault tenant 27 ref)
    trapIf (s.contFault tenant (s.me.rs x.b))
    s.askOwner (.freg (s.me.rs x.b).toNat) ref (some x.d)) s

/-- `jdec` (R262): the issuer does not wait. -/
def execJdec (x : ArgABi) (s : State) : Host.Outcome State Fault Refusal :=
  issue (.jdec x) x.g anyCtx (fun s => do
    let ref := s.me.rs x.a
    let n := s.me.srcB x.b
    trapIf (s.refFault (s.tenantOf (s.ctxRegion s.cur.cell s.cur.ctx)) 25 ref)
    trapIf (countFault n)
    s.releaseWait .mod
    let s ← s.postOwner (s.ownReq (.jdec n.toNat) ref)
    .ok s.signal.retire) s

/-- `jnew` (R261). -/
def execJnew (x : ArgDABi) (s : State) : Host.Outcome State Fault Refusal :=
  issue (.jnew x) x.g anyCtx (fun s => do
    let a := s.me.rs x.a
    let n := s.me.srcB x.b
    let r := s.ctxRegion s.cur.cell s.cur.ctx
    trapIf (countFault n)
    let ref := word (s.cur.cell + a.toNat / 64 % 2 ^ 15 * 2 ^ 10)
    let s ← s.syncWrite a 64 (leBytes 8 (2 ^ 62 + r * 2 ^ 32 + n.toNat))
    .ok (s.modMe fun y => { (y.ws x.d ref) with seq := y.seq + 1 }.retire)) s

/-- `fnew` (R263). -/
def execFnew (x : ArgDA) (s : State) : Host.Outcome State Fault Refusal :=
  issue (.fnew x) x.g anyCtx (fun s => do
    let a := s.me.rs x.a
    let r := s.ctxRegion s.cur.cell s.cur.ctx
    let ref := word (s.cur.cell + a.toNat / 16 % 2 ^ 17 * 2 ^ 10)
    let s ← s.syncWrite a 16 (leBytes 8 0 ++ leBytes 8 r)
    .ok (s.modMe fun y => { (y.ws x.d ref) with seq := y.seq + 1 }.retire)) s

/-- `tid` (R266); every selector reads 0 in contexts 8 and 9. -/
def execTid (x : ArgTid) (s : State) : Host.Outcome State Fault Refusal :=
  issue (.tid x) x.g anyCtx (fun s =>
    let v : Word := match s.me.task with
      | none => 0
      | some t =>
        match x.sel.val with
        | 0 => t.ptr
        | 1 => t.record.head
        | 2 => t.record.reply
        | 3 => word (if t.cluster.isSome then t.rank else 0)
        | 4 => if t.cluster.isSome then word (t.ch * 2 ^ 8 + t.cw) else word (2 ^ 8 + 1)
        | 5 => word t.signals
        | _ => t.lastSig
    s.update fun y => y.ws x.d (if s.cur.ctx < 8 then v else 0)) s

/-! ### The owner's routines (R253, R262, R264, R265) -/

/-- The object's address in the owner cell's `.loc`. -/
def OwnReq.addr (q : OwnReq) : Nat :=
  match q.kind with
  | .jdec _ => slice q.ref.toNat 10 15 * 64
  | _ => slice q.ref.toNat 10 17 * 16

/-- Whether the owner's accesses wait for the scoreboard (R188, R253). -/
def State.ownerHeld (s : State) (c : Nat) (q : OwnReq) : Bool :=
  let n := match q.kind with
    | .jdec _ => 64
    | _ => 16
  (s.cell c).conflicts .loc q.addr 8 true || (s.cell c).conflicts .loc q.addr n false

/-- A word of `.loc` at the owner cell. -/
def State.locWord (s : State) (c a : Nat) : Nat := leNat (s.readLocal c .loc a 8)

/-- The state with the owner's answer on its way, where one is awaited: to a context, or a fault to the engine whose
completion action asked (R181, R257). A fault of R254's table carries the owning region. -/
def State.ownerAnswer (s : State) (c : Nat) (q : OwnReq) (status : Nat) (st : Word) : State :=
  if q.ctx = 15 || (q.action.isSome && status = 0) then s
  else s.post c (.cell q.cell) (.ownerReply q status st)

/-- The region that is told of a fault at an owner: the one that owns the object or, where its word names none, the requester's. -/
def State.ownerOf (s : State) (region : Nat) (q : OwnReq) : Nat := if (s.region region).isSome then region else q.region

/-- The state with the region that owns an object told of a fault that a request met there (R254, R262): event 7. -/
def State.joinFault (s : State) (c region : Nat) (q : OwnReq) (reason : Nat) : State :=
  s.pushEvent (s.ownerOf region q) c 7 q.task (word reason) q.ref (taskWord q.task) 0

/-- The fault of a `jdec` at its owner: event 7 of the owning region (R262); for a completion action's the engine is told (R181). -/
def State.jdecFault (s : State) (c region : Nat) (q : OwnReq) (reason : Nat) : State :=
  if q.action.isSome then s.ownerAnswer c q (100 + reason) (word (s.ownerOf region q)) else s.joinFault c region q reason

/-- The owner's `jdec` (R262). -/
def State.ownerJdec (s : State) (c : Nat) (q : OwnReq) (n : Nat) : State :=
  let a := q.addr
  let ctl := s.locWord c a
  let region := slice ctl 32 16
  let count := ctl % 2 ^ 32
  let put (s : State) (st k : Nat) : State := s.writeLocal c .loc a (leBytes 8 (st * 2 ^ 62 + region * 2 ^ 32 + k))
  if slice ctl 62 2 ≠ 1 || s.tenantOf region ≠ q.tenant || q.tenant = 0 then s.jdecFault c region q 7
  else if count < n then (put s 3 count).jdecFault c region q 8
  else if count = n then
    let h := word (s.locWord c (a + 8))
    if !headFormed h || 6 < headArgc h then (put s 3 0).jdecFault c region q 2
    else
      let args := (List.range 6).map fun k => word (s.locWord c (a + 16 + 8 * k))
      let rec_ : Rec := { head := mkHead region 2 (headArgc h) (headType h), reply := 0, args := args ++ [0, 0] }
      (put s 2 0).relayRecord c q.tenant rec_ false c
  else put s 1 (count - n)

/-- A continuation run with a future's value and state (R252). -/
def State.continuation (s : State) (c : Nat) (q : OwnReq) (region cont value st : Nat) : State :=
  let tenant := s.tenantOf region
  if slice cont 60 2 = 0 then
    let rec_ : Rec := { head := mkHead region 4 2 (cont % 2 ^ 16), reply := 0,
                        args := [word value, word st, 0, 0, 0, 0, 0, 0] }
    s.relayRecord c tenant rec_ (bit cont 26) (slice cont 16 10)
  else
    s.post c (.cell (cont % 2 ^ 10))
      (.owner { kind := .jdec 1, ref := word (cont % 2 ^ 60), cell := c, ctx := 15, task := q.task, region, tenant, action := none })

/-- The owner's operation on a future: resolution (R264) or registration (R265). The answer's status is 0, or a fault:
61, or 100 and the reason of cause 60. -/
def State.ownerFuture (s : State) (c : Nat) (q : OwnReq) : State :=
  let a := q.addr
  let w0 := s.locWord c a
  let region := s.locWord c (a + 8) % 2 ^ 16
  let st := slice w0 62 2
  if s.tenantOf region ≠ q.tenant || q.tenant = 0 then s.ownerAnswer c q 107 (word (s.ownerOf region q))
  else
    match q.kind with
    | .jdec _ => s
    | .fres ok v =>
      let new := if ok then 2 else 3
      if 2 ≤ st then s.ownerAnswer c q 61 (word w0)
      else
        let s := s.writeLocal c .loc a (leBytes 8 (new * 2 ^ 62 + v))
        let s := if st = 1 then s.continuation c q region (w0 % 2 ^ 62) v new else s
        s.ownerAnswer c q 0 0
    | .freg k =>
      if st = 0 then (s.writeLocal c .loc a (leBytes 8 (2 ^ 62 + k % 2 ^ 62))).ownerAnswer c q 0 0
      else if st = 1 then s.ownerAnswer c q 106 0
      else (s.continuation c q region k (w0 % 2 ^ 62) st).ownerAnswer c q 0 (word st)

/-- The region that an object's words name. -/
def State.objectRegion (s : State) (c : Nat) (q : OwnReq) : Nat :=
  match q.kind with
  | .jdec _ => slice (s.locWord c q.addr) 32 16
  | _ => s.locWord c (q.addr + 8) % 2 ^ 16

/-- The region to which a torn-down region's bytes went back, for a request whose object it held: the bytes are zero (R267; log entry
32). -/
def State.tornUnder (s : State) (c : Nat) (q : OwnReq) : Option Nat :=
  if s.locWord c q.addr ≠ 0 || s.objectRegion c q ≠ 0 then none
  else (s.torn.find? fun t => t.cell == c && t.lo ≤ q.addr && q.addr < t.hi && s.tenantOf t.parent == q.tenant).map (·.parent)

/-- The hardware routine of an owner request (R253). A request for an object of a region that is being torn down, or has been, is dropped
and counted in its fault record, or that of the region its bytes went back to (R267; log entry 32). A request whose sender has ended
stands (R249, R267). -/
def State.ownerRoutine (s : State) (c : Nat) (q : OwnReq) : State :=
  if (s.region q.tenant).isNone then s
  else if s.isDying (s.objectRegion c q) then s.frBump (s.objectRegion c q) c 0x28 1
  else
    match s.tornUnder c q with
    | some r => s.frBump r c 0x28 1
    | none =>
      match q.kind with
      | .jdec n => s.ownerJdec c q n
      | _ => s.ownerFuture c q

/-- The trap of an owner's faulting answer (R254, R264). -/
def ownerTrap (q : OwnReq) (status : Nat) (st : Word) : TrapInfo :=
  if status = 61 then { cause := 61, val := q.ref, info := st } else taskFault q.ref (status - 100)

/-- A record arrives at its ring, or at a placer's queue (R243, R275). -/
def execReadyRecordArrival (s : State) : Host.Outcome State Fault Refusal :=
  let k := s.cur.k
  match s.arriving k with
  | some { src := _, dst := .cell c, pay := .ready r tenant } =>
    let s := s.land k
    if (s.region (headRegion r.head)).isNone then event s else event (s.pushRecord c tenant r)
  | some { src := _, dst := .placer d, pay := .place r } =>
    let s := s.land k
    if (s.region (headRegion r.head)).isNone then event s
    else
      let q := s.placers.getD d []
      event { s with placers := Assoc.put d (q ++ [{ record := r, since := s.clock, reserved := none }]) s.placers }
  | _ => event s

/-- The owner's reply reaches the context that waits for it (R249, R257): the signal completes, or its fault is precise.
A fault of a completion action goes to the issuing context while its task is resident, else to the issuing region as event 9 (R181), and
one of R254's table to the owning region as event 7 too (R254). -/
def execOwnerReplyArrival (s : State) : Host.Outcome State Fault Refusal :=
  let k := s.cur.k
  match s.arriving k with
  | some { src := _, dst := .cell c, pay := .ownerReply q status st } =>
    let s := s.land k
    match q.action with
    | some id =>
      let t := ownerTrap q status st
      if s.ctxTask c q.ctx = q.task && (s.ctxAt c q.ctx).st != .idle then event (s.addAsync c q.ctx q.region q.task t none)
      else
        let s := if t.cause = 60 then s.joinFault (refCell q.ref) st.toNat q t.info.toNat else s
        event (s.pushEvent q.region c 9 q.task (word t.cause) id t.val 0)
    | none =>
      if s.ctxTask c q.ctx = q.task then
        match (s.ctxAt c q.ctx).st with
        | .waiting (.owner d) =>
          if status = 0 then
            event (s.modCtx c q.ctx fun x =>
              let x := match d with
                | some r => x.ws r st
                | none => x
              { x.signalled with st := .running }.retire)
          else event (s.takeTrap c q.ctx (ownerTrap q status st))
        | _ => event s
      else event s
  | _ => event s

end Sys2Proof.Machine
end

