-- ==== Sys2Proof/Machine/Ports.lean ====
section
/-! DEFINITION. Ports: names and the directory (R285, R309), the checks of a slot (R300), offers and their completion
(R302 to R304, R312, R314, R315), binding (R288, R305), `portst` (R306). -/
namespace Sys2Proof.Machine

/-! ### Names (R285) -/

/-- Whether a port name's reserved fields are zero. -/
def portFormed (n : Word) : Bool := n.toNat < 2 ^ 45 && slice n.toNat 32 8 == 0 && slice n.toNat 8 8 == 0
/-- Whether a port name is remote. -/
def portRemote (n : Word) : Bool := bit n.toNat 40
/-- The link of a remote port name. -/
def portLink (n : Word) : Nat := slice n.toNat 41 4
/-- The connector number of a port name. -/
def portConn (n : Word) : Nat := slice n.toNat 16 16
/-- The port index of a port name. -/
def portIndex (n : Word) : Nat := slice n.toNat 0 8
/-- The name of a local port. -/
def mkPort (conn index : Nat) : Word := word (conn * 2 ^ 16 + index)

/-- A local port's name without its link field, which only a remote name uses (R285). -/
def localName (name : Word) : Word := if portFormed name && !portRemote name then mkPort (portConn name) (portIndex name) else name

/-- The hub cell and slot of a local port of a tenant (R309). -/
def State.lookup (s : State) (tenant : Nat) (name : Word) : Option (Nat × Nat) :=
  (s.directory.find? fun e => e.1 == tenant && e.2.1 == localName name).map fun e => (e.2.2.1, e.2.2.2)

/-- A loaded slot of a hub. -/
def State.hubSlot (s : State) (c j : Nat) : Option HubSlot := Assoc.get? j (s.cell c).hub

/-- The entry of a hub image for a port index. -/
def HubImage.entry (m : HubImage) (index : Nat) : Option HubPort := m.ports.find? fun p => p.index == index

/-- The entry of a local port of a tenant, with its hub slot. -/
def State.portEntry (s : State) (tenant : Nat) (name : Word) : Option (HubPort × HubSlot) :=
  (s.lookup tenant name).bind fun l => (s.hubSlot l.1 l.2).bind fun h => (h.image.entry (portIndex name)).map fun p => (p, h)

/-- Whether a Wale link is up. -/
def State.linkUp (s : State) (l : Nat) : Bool := ((Assoc.get? l s.links).map (·.st)) == some .up

/-- Whether a tenant may send over a link: it is up and a share of it is paired with the tenant (R178, R360, R383). -/
def State.linkOpen (s : State) (l tenant : Nat) : Bool :=
  s.linkUp l && ((Assoc.get? l s.links).map fun x => x.shares.any fun h => h.tenant == tenant) == some true

/-! ### Offers -/

/-- A fault of a completion action: to the issuing context while its task is resident, else to the region's fault handler
as event 9. -/
def State.actFault (s : State) (c : Nat) (e : EndAct) (t : TrapInfo) : State :=
  if s.resident c e.ctx e.task then s.addAsync c e.ctx e.region e.task t none
  else s.pushEvent e.region c 9 e.task (word t.cause) e.id t.val 0

/-- A port fault (R300). -/
def portFault (v : Word) (reason : Nat) : TrapInfo := { cause := 62, val := v, info := word reason }

/-- A message fault (R332). -/
def msgFault (v : Word) (reason : Nat) : TrapInfo := { cause := 63, val := v, info := word reason }

/-- The fault of an operation at a remote port whose link is not up for the tenant (R386): message, reason 1, with the port's name. -/
def State.linkFault (s : State) (tenant : Nat) (name : Word) : Option TrapInfo :=
  if portRemote name && !s.linkOpen (portLink name) tenant then some (msgFault name 1) else none

/-- The reason for which a slot of the executing task may not be used (R300), for a direction, `out` or `in`; any
direction is right where none is given. -/
def State.slotReason (s : State) (k : Nat) (wantIn : Option Bool) : Option Nat :=
  let x := s.me
  let tenant := (x.task.map (·.tenant)).getD 0
  let region := (x.task.map (·.region)).getD 0
  if (x.task.map (·.ports)).getD 0 ≤ k then some 1
  else
    match x.slots.getD k none with
    | none => some 1
    | some p =>
      if portRemote p.name then
        if p.isIn || wantIn == some true then some 2 else none
      else
        match s.portEntry tenant p.name with
        | none => some 1
        | some (e, h) =>
          if e.actor then some 1
          else if !s.inSubtree region h.region then some 2
          else if wantIn.isSome && wantIn != some p.isIn then some 3
          else if p.conflict then some 4
          else none

/-- Where an offer goes, to its port's hub or over the link of a remote port, and what travels. -/
def State.offerTo (s : State) (tenant : Nat) (o : Offer) : Option (Place × Pay) :=
  if portRemote o.name then some (.link (portLink o.name), .offer o (portConn o.name) tenant 0 0)
  else
    (s.lookup tenant o.name).map fun l =>
      (.cell l.1, .offer o (portConn o.name) tenant l.2 (((s.hubSlot l.1 l.2).map (·.region)).getD 0))

/-- The state with the offer of a completion action on its way, which the engine sends. -/
def State.sendOffer (s : State) (c tenant : Nat) (o : Offer) : State :=
  match s.offerTo tenant o with
  | some t => s.send (.cell c) t.1 t.2
  | none => s

/-- The offers of a context: the outbound buffer must be free (R326), then they leave. -/
def State.postOffers (s : State) (c tenant : Nat) (os : List Offer) : Except Stop State :=
  let dsts := os.filterMap (s.offerTo tenant)
  if dsts.any fun t => s.outHeld c t.1 then .error .stall else .ok (dsts.foldl (fun s t => s.post c t.1 t.2) s)

/-- The tenant of the executing task. -/
def State.taskTenant (s : State) : Nat := (s.me.task.map (·.tenant)).getD 0

/-- An offer of the executing context through a slot. -/
def State.mkOffer (s : State) (k : Nat) (item : Option Word) (alt : Option Nat) : Offer :=
  let p := (s.me.slots.getD k none).getD { name := 0, isStatic := false, conflict := false, isIn := false, hub := 0, slot := 0 }
  { port := portIndex p.name, name := p.name, item,
    by_ := .ctx s.cur.cell s.cur.ctx (s.ctxTask s.cur.cell s.cur.ctx) k, alt, link := none, age := 0, arrival := 0, spilled := false,
    tenant := s.taskTenant }

/-- The scope of the release wait of an offer: system for a remote port (R209, R302). -/
def State.offerScope (s : State) (k : Nat) : Scope :=
  match s.me.slots.getD k none with
  | some p => if portRemote p.name then .sys else .mod
  | none => .mod

/-- `put` (R302). -/
def execPut (x : ArgPut) (s : State) : Host.Outcome State Fault Refusal :=
  issue (.put x) x.g taskCtx (fun s => do
    trapIf ((s.slotReason x.k.val (some false)).map fun r => portFault (word x.k.val) r)
    trapIf ((s.me.slots.getD x.k.val none).bind fun p => s.linkFault s.taskTenant p.name)
    s.releaseWait (s.offerScope x.k.val)
    let o := s.mkOffer x.k.val (some (s.me.rs x.a)) none
    let t ← s.postOffers s.cur.cell s.taskTenant [o]
    .ok (t.modMe fun y => { y with st := .waiting (.port x.d [x.k.val] none false false), stalled := false })) s

/-- `get` (R302). -/
def execGet (x : ArgGet) (s : State) : Host.Outcome State Fault Refusal :=
  issue (.get x) x.g taskCtx (fun s => do
    trapIf ((s.slotReason x.k.val (some true)).map fun r => portFault (word x.k.val) r)
    let t ← s.postOffers s.cur.cell s.taskTenant [s.mkOffer x.k.val none none]
    .ok (t.modMe fun y => { y with st := .waiting (.port x.d [x.k.val] none false false), stalled := false })) s

/-- The slots of an `alt` mask, rising. -/
def maskSlots (m : Nat) : List Nat := (List.range 16).filter (bit m)

/-- `alt` (R304). -/
def execAlt (x : ArgAlt) (s : State) : Host.Outcome State Fault Refusal :=
  issue (.alt x) x.g taskCtx (fun s => do
    let ks := maskSlots x.mask.toNat
    trapIf (ks.findSome? fun k =>
      ((if ((s.me.slots.getD k none).map fun p => portRemote p.name) == some true then some 2
        else s.slotReason k none)).map fun r => portFault (word k) r)
    let hubs := (ks.filterMap fun k => (s.me.slots.getD k none).map (·.hub)).eraseDups
    trapIf (if 1 < hubs.length then some (portFault (word (ks.headD 0)) 5) else none)
    if ks.any fun k => ((s.me.slots.getD k none).map (·.isIn)) == some false then s.releaseWait .mod
    let n := s.me.seq
    let t ← s.postOffers s.cur.cell s.taskTenant (ks.zipIdx.map fun k =>
      let isIn := ((s.me.slots.getD k.1 none).map (·.isIn)).getD false
      s.mkOffer k.1 (if isIn then none else some (s.me.rsN (x.a.val + k.2))) (some n))
    .ok (t.modMe fun y => { y with seq := n + 1, st := .waiting (.port x.d ks (some x.a) true false), stalled := false })) s

/-! ### Completion (R302, R304, R312, R314) -/

/-- The place of the context that made an offer. -/
def Offer.place (o : Offer) : Option Place :=
  match o.link, o.by_ with
  | some l, _ => some (.link l)
  | none, .ctx c _ _ _ => some (.cell c)
  | none, .action _ _ => none

/-- The region in which the offering task runs: that of its task pointer (R246), or of the completion action. -/
def Offer.region (o : Offer) : Nat :=
  match o.by_ with
  | .ctx _ _ t _ => slice t.toNat 14 16
  | .action _ e => e.region

/-- The state with an answer to an offer on its way from its hub. -/
def State.answerOffer (s : State) (hub : Nat) (o : Offer) (j : Nat) (e : PortEnd) (f : FiringAt) : State :=
  match o.place with
  | some p => s.send (.cell hub) p (.portDone o j e f)
  | none => s

/-- The words of a lost-firing entry (R315). -/
def lostWords (o : Offer) (v : Word) (task : Word) (f : FiringAt) : List Nat :=
  [o.name.toNat, v.toNat, task.toNat,
   f.hub % 2 ^ 10 + f.slot % 2 ^ 4 * 2 ^ 10 + f.trans % 2 ^ 6 * 2 ^ 14 + f.cycle % 2 ^ 40 * 2 ^ 24]

/-- A completion that finds no task (R314, R315): a lost-firing entry of the region's fault record, and event 4. -/
def State.lostFiring (s : State) (c : Nat) (o : Offer) (task : Word) (v : Word) (f : FiringAt) : State :=
  let r := o.region
  if (s.region r).isNone then s
  else
    let idx := s.frRead r c 0x44 4
    let n := s.frRead r c 0x10 8
    let off := 0x4100 + 32 * idx
    let s := ((lostWords o v task f).zipIdx).foldl (fun s w => s.frWrite r c (off + 8 * w.2) 8 w.1) s
    let s := s.frBump r c 0x10 1
    let s := if 512 ≤ n then s.frBump r c 0x38 1 else s
    let s := s.frWrite r c 0x44 4 ((idx + 1) % 512)
    let s := if o.link.isSome then s else s.modCell f.hub fun x => { x with hub := Assoc.modify f.slot (fun h => { h with lost := h.lost + 1 }) x.hub }
    s.pushEvent r c 4 task 0 o.name 0 (word off)

/-- The context with the results of a completed port instruction (R302, R304); `k` is the slot whose offer fired, j its place
among the slots of an `alt`, whose status is written before the item. -/
def Ctx.portResult (x : Ctx) (d : SReg) (slots : List Nat) (run : Option SReg) (isAlt : Bool) (k : Nat) (item : Option Word)
    (status : Nat) : Ctx :=
  let j := (indexWhere (· == k) slots).getD 0
  let y :=
    if isAlt then
      let y := x.ws d (word ((if item.isSome then 0 else status) * 2 ^ 8 + j))
      match item, run with
      | some v, some a => y.wsN (a.val + j) v
      | _, _ => y
    else match item with
      | some v => x.ws d v
      | none => x.ws d (word status)
  let zero := (item.isNone && status ≠ 1) || (isAlt && item.isSome)
  { y with portDone := x.portDone + 1, portZero := x.portZero + b2n zero, st := .running }.retire

/-- A hub's answer reaches the offering context (R302, R303, R312, R314): the instruction completes, is withdrawn, or
takes the port trap; a completion whose task is gone is a lost firing. An offer of a completion action that the far side of a link
refuses is the action's fault (R181, R408). -/
def execPortCompletionArrival (s : State) : Host.Outcome State Fault Refusal :=
  let k := s.cur.k
  match s.arriving k with
  | some { src := _, dst := .cell c, pay := .portDone o _ e f } =>
    let s := s.land k
    match o.by_ with
    | .action _ a =>
      match e with
      | .withdrawn (some r) => event (s.actFault c a (portFault o.name r))
      | _ => event s
    | .ctx _ i task slot =>
      let here := s.ctxTask c i == task && i < 8
      match e, (s.ctxAt c i).st with
      | .fired item status, .waiting (.port d slots run isAlt _) =>
        if here then event (s.modCtx c i fun x => x.portResult d slots run isAlt slot item status)
        else event (s.lostFiring c o task (item.getD (word status)) f)
      | .fired item status, _ => event (s.lostFiring c o task (item.getD (word status)) f)
      | .withdrawn none, .waiting (.port _ _ _ _ true) =>
        if here then event (s.modCtx c i fun x => { x with st := .running }) else event s
      | .withdrawn (some r), .waiting (.port _ _ _ _ _) =>
        if here then event (s.takeTrap c i (portFault (word slot) r)) else event s
      | _, _ => event s
  | _ => event s

/-! ### Binding (R288, R305) -/

/-- The state with the port of a context's slot unbound and the slot empty. -/
def State.unbindSlot (s : State) (c i k : Nat) : State :=
  let s := match (s.ctxAt c i).slots.getD k none with
    | none => s
    | some p => s.unbindPort c i k p
  s.modCtx c i fun x => { x with slots := modifyAt (fun _ => none) k x.slots }

/-- The number under which a binding from across a link is recorded, which is no cell's. -/
def farCell (l c : Nat) : Nat := c + 1024 * (l + 1)

/-- Whether a local port of a tenant is bound to a live slot at its hub. -/
def State.isBound (s : State) (hub tenant : Nat) (name : Word) : Bool :=
  (s.cell hub).binds.any fun b => b.name == localName name && b.tenant == tenant

/-- The check of a `pbind` at the port's home hub (R300): reason 2 or 4, or none. -/
def State.bindReason (s : State) (tenant region hub : Nat) (name : Word) (remote : Bool) : Option Nat :=
  match s.portEntry tenant name with
  | none => some 2
  | some (e, h) =>
    if !remote && !s.inSubtree region h.region then some 2
    else if remote && e.isIn then some 2
    else if e.actor || s.isBound hub tenant name then some 4
    else none

/-- The slot that a port gives, once bound. -/
def State.boundSlot (s : State) (tenant : Nat) (name : Word) (isStatic : Bool) : Option PortSlot :=
  match s.lookup tenant name, s.portEntry tenant name with
  | some (hub, j), some (e, _) => some { name, isStatic, conflict := false, isIn := e.isIn, hub, slot := j }
  | _, _ => none

/-- The state with a binding recorded at a hub. -/
def State.recordBind (s : State) (hub : Nat) (b : Binding) : State :=
  s.modCell hub fun x => { x with binds := x.binds ++ [{ b with name := localName b.name }] }

/-- The state after a task's static bindings at dispatch (R288): a port bound elsewhere leaves the slot conflicted, a
port that no longer exists leaves it empty. -/
def State.bindStatic (s : State) (c i tenant : Nat) (task : Word) (binds : List (Nat × Nat)) : State :=
  binds.foldl (fun s b =>
    let name := word b.2
    match s.boundSlot tenant name true, s.portEntry tenant name with
    | some p, some (e, _) =>
      let bound := s.isBound p.hub tenant name
      let s := if bound || e.actor then s else s.recordBind p.hub { name, tenant, cell := c, ctx := i, slot := b.1, task }
      s.modCtx c i fun x => { x with slots := modifyAt (fun _ => some { p with conflict := bound }) b.1 x.slots }
    | _, _ => s) s

/-- `pbind` (R305). -/
def execPbind (x : ArgPbind) (s : State) : Host.Outcome State Fault Refusal :=
  issue (.pbind x) x.g taskCtx (fun s => do
    let c := s.cur.cell
    let i := s.cur.ctx
    let name := s.me.rs x.a
    let tenant := s.taskTenant
    let region := (s.me.task.map (·.region)).getD 0
    let k := x.k.val
    let fault (s : State) (r : Nat) : Res := .ok (s.takeTrap c i (portFault name r))
    let request (s : State) (p : Place) (link : Option Nat) : Res :=
      let s := s.send (.cell c) p (.pbind c i (s.ctxTask c i) k name region tenant)
      .ok (s.modMe fun y => { y with st := .waiting (.pbind name link), stalled := false })
    if (s.me.task.map (·.ports)).getD 0 ≤ k then
      if x.a.val = 0 then Res.trap 62 0 1 else Res.trap 62 name 1
    else
      let s := s.unbindSlot c i k
      if x.a.val = 0 then .ok s.retire
      else if !portFormed name then fault s 2
      else if portRemote name then
        match s.linkFault tenant name with
        | some t => .ok (s.takeTrap c i t)
        | none => request s (.link (portLink name)) (some (portLink name))
      else
        match s.lookup tenant name with
        | none => fault s 2
        | some (hub, _) => request s (.cell hub) none) s

/-- Whether a context waits for the answer to a `pbind`. -/
def Ctx.bindWaits (x : Ctx) : Bool :=
  match x.st with
  | .waiting (.pbind _ _) => true
  | _ => false

/-- The state with a `pbind`'s answer given to the context that waits for it. -/
def State.bindAnswer (s : State) (c i : Nat) (task : Word) (k : Nat) (name : Word) (p : Option PortSlot) (reason : Nat) :
    State :=
  if s.ctxTask c i = task && (s.ctxAt c i).bindWaits then
    match p with
    | some p => s.modCtx c i fun x => { x with st := .running, slots := modifyAt (fun _ => some p) k x.slots }.retire
    | none => s.takeTrap c i (portFault name reason)
  else s

/-- A `pbind` reaches its port's home hub, which checks and binds, and its answer the waiting context (R305); a request
from across a link is answered across it. -/
def execPbindRequestArrival (s : State) : Host.Outcome State Fault Refusal :=
  let k := s.cur.k
  match s.arriving k with
  | some { src, dst := .cell hub, pay := .pbind c i task slot name region tenant } =>
    let s := s.land k
    let remote := match src with
      | .link _ => true
      | _ => false
    let owner := match src with
      | .link l => farCell l c
      | _ => c
    match s.bindReason tenant region hub name remote with
    | some r =>
      if remote then event (s.send (.cell hub) src (.pbindAnswer c i task slot name none r tenant))
      else event (s.bindAnswer c i task slot name none r)
    | none =>
      let p := s.boundSlot tenant name false
      let live := remote || (s.ctxTask c i == task && (s.ctxAt c i).bindWaits)
      let s := if live then s.recordBind hub { name, tenant, cell := owner, ctx := i, slot, task } else s
      if remote then event (s.send (.cell hub) src (.pbindAnswer c i task slot name p 0 tenant))
      else event (s.bindAnswer c i task slot name p 0)
  | some { src := .link l, dst := .cell hub, pay := .unbind name c i _ _ } =>
    event ((s.land k).modCell hub fun h =>
      { h with binds := h.binds.filter fun b => !(b.cell == farCell l c && b.ctx == i && b.name == name) })
  | some { src := _, dst := .cell c, pay := .pbindAnswer _ i task slot name p r _ } =>
    event ((s.land k).bindAnswer c i task slot name p r)
  | _ => event s

/-- The state word of a port slot (R306). -/
def PortSlot.word (p : PortSlot) : Word :=
  Sys2Proof.word (2 ^ 63 + b2n p.isStatic * 2 ^ 62 + b2n p.conflict * 2 ^ 61 + b2n p.isIn * 2 ^ 60 + p.hub % 2 ^ 10 * 2 ^ 42
    + p.slot % 2 ^ 4 * 2 ^ 38 + p.name.toNat % 2 ^ 32)

/-- `portst` (R306); it reads 0 in contexts 8 and 9 (R301). A slot that names a port which no longer exists reads as
empty (R288). -/
def execPortst (x : ArgPortst) (s : State) : Host.Outcome State Fault Refusal :=
  issue (.portst x) x.g anyCtx (fun s =>
    let n := x.sel.val
    let y := s.me
    let v : Word :=
      if 8 ≤ s.cur.ctx then 0
      else if n = 16 then word y.portDone
      else if n = 17 then word y.portZero
      else match y.slots.getD n none with
        | none => 0
        | some p => if portRemote p.name || (s.lookup s.taskTenant p.name).isSome then p.word else 0
    s.update fun z => z.ws x.d v) s

end Sys2Proof.Machine
end

