-- ==== Sys2Proof/Machine/Hubs.lean ====
section
/-! DEFINITION. Connector hubs: the hub image (R317, R318), offers and FIFO items at a hub (R297, R310), the decision step
and the firing (R311, R312), stage governors (R256), `cload`, `cdrop`, `cstat` (R319 to R322). -/
namespace Sys2Proof.Machine

/-! ### The hub image (R317, R318) -/

/-- A little-endian field of a byte string. -/
def fieldLe (bs : List Byte) (off n : Nat) : Nat := leNat ((bs.drop off).take n)
/-- Whether a range of a byte string is zero. -/
def zeros (bs : List Byte) (off n : Nat) : Bool := fieldLe bs off n == 0

/-- Whether a source code names an entry (R318). -/
def sourceOk (nports nfifo code : Nat) : Bool := code < nports || (16 ≤ code && code < 16 + nfifo)

/-- The port entries of an image header, none where one is malformed. -/
def parsePorts (bs : List Byte) (n : Nat) : Option (List HubPort) :=
  let entry (i : Nat) : Nat := fieldLe bs (16 + 2 * i) 2
  let ok (i : Nat) : Bool :=
    if n ≤ i then entry i == 0 else slice (entry i) 13 3 == 0 && (bit (entry i) 9 || slice (entry i) 10 3 == 0)
  if (List.range 16).all ok then
    some ((List.range n).map fun i =>
      { index := entry i % 256, isIn := bit (entry i) 8, actor := bit (entry i) 9, aslot := slice (entry i) 10 3 })
  else none

/-- The FIFO entries of an image header, none where one is malformed. -/
def parseFifos (bs : List Byte) (n : Nat) : Option (List HubFifo) :=
  let entry (i : Nat) : Nat := fieldLe bs (48 + 8 * i) 8
  let ok (i : Nat) : Bool :=
    if n ≤ i then entry i == 0 else entry i < 2 ^ 34 && slice (entry i) 8 7 ≠ 0 && slice (entry i) 24 10 ≤ 959
  if (List.range 8).all ok then
    some ((List.range n).map fun i =>
      { number := entry i % 256, cap := slice (entry i) 8 7, here := bit (entry i) 15, outRegion := slice (entry i) 16 8,
        home := slice (entry i) 24 10 })
  else none

/-- A guard term (R318). -/
def parseTerm (nports nfifo : Nat) (bs : List Byte) : Option HubTerm :=
  let src := fieldLe bs 0 1
  let ty := fieldLe bs 1 1
  let op := fieldLe bs 2 1
  if sourceOk nports nfifo src && ty < 8 && op < 6 && zeros bs 3 5 then
    some { src, ty, op, mask := word (fieldLe bs 8 8), const := word (fieldLe bs 16 8) }
  else none

/-- A transition record (R318); a port that it routes, as source or as sink, is in its mask (R320). -/
def parseTrans (nports nfifo nterms : Nat) (bs : List Byte) : Option HubTrans :=
  let ports := fieldLe bs 0 2
  let gives := fieldLe bs 6 1
  let fl := fieldLe bs 7 1
  let takes := (List.range 8).map fun j => slice (fieldLe bs 8 4) (4 * j) 4
  let rp := (List.range 16).map fun i => fieldLe bs (16 + i) 1
  let rf := (List.range 8).map fun i => fieldLe bs (32 + i) 1
  let source (k : Nat) : Bool := sourceOk nports nfifo k && (16 ≤ k || bit ports k)
  let ok := ports < 2 ^ nports && fieldLe bs 2 2 < 2 ^ nterms && fieldLe bs 4 2 < 2 ^ nterms && gives < 2 ^ nfifo && fl < 4
    && takes.zipIdx.all (fun t => t.1 ≤ 8 && (t.1 = 0 || t.2 < nfifo))
    && rp.zipIdx.all (fun r => r.1 = 255 || (source r.1 && bit ports r.2))
    && rf.zipIdx.all (fun r => r.1 = 255 || (source r.1 && bit gives r.2))
    && zeros bs 12 4 && zeros bs 40 24
  if ok then
    some { ports, gTrue := fieldLe bs 2 2, gFalse := fieldLe bs 4 2, gives, fallback := bit fl 0, pushes := bit fl 1, takes,
           routeP := rp, routeF := rf }
  else none

/-- The options of a list all together. -/
def allSome {α : Type} : List (Option α) → Option (List α)
  | [] => some []
  | none :: _ => none
  | some x :: xs => (allSome xs).map (x :: ·)

/-- The size in bytes that an image's header gives it. -/
def hubImageSize (bs : List Byte) : Nat := 128 + 24 * fieldLe bs 9 1 + 64 * fieldLe bs 8 1

/-- A hub image, or the status of `cload` for a bad one: 1 for a malformed one, 2 for a count over its limit (R320). -/
def parseHub (bs : List Byte) : Except Nat HubImage :=
  let nports := fieldLe bs 6 1
  let nfifo := fieldLe bs 7 1
  let ntrans := fieldLe bs 8 1
  let nterms := fieldLe bs 9 1
  let caps := (List.range nfifo).any fun i => 64 < slice (fieldLe bs (48 + 8 * i) 8) 8 7
  if fieldLe bs 0 4 ≠ 0x0142484e || fieldLe bs 4 2 ≠ 1 || !zeros bs 15 1 || !zeros bs 112 16 || nports = 0 || ntrans = 0 then
    .error 1
  else if 16 < nports || 8 < nfifo || 64 < ntrans || 16 < nterms || caps then .error 2
  else
    let terms := allSome ((List.range nterms).map fun k => parseTerm nports nfifo (bs.drop (128 + 24 * k)))
    let trans := allSome ((List.range ntrans).map fun k =>
      parseTrans nports nfifo nterms (bs.drop (128 + 24 * nterms + 64 * k)))
    match parsePorts bs nports, parseFifos bs nfifo, terms, trans with
    | some ports, some fifos, some terms, some trans =>
      let ty := fieldLe bs 12 2
      .ok { ports, fifos, terms, trans, actor := if ty = 0xffff then none else some ty, creg := fieldLe bs 14 1 }
    | _, _, _, _ => .error 1

/-- The width of a guard term's type (R42, R291). -/
def termWidth (ty : Nat) : Nat :=
  match ty % 4 with
  | 0 => 64
  | 1 => 32
  | 2 => 16
  | _ => 8

/-- A filter predicate on an item (R291). -/
def HubTerm.holds (t : HubTerm) (item : Word) : Bool :=
  let w := termWidth t.ty
  let m := (item &&& t.mask).toNat % 2 ^ w
  let k := t.const.toNat % 2 ^ w
  match t.op with
  | 0 => m = k
  | 1 => m ≠ k
  | 2 => asInt w m < asInt w k
  | 3 => m < k
  | 4 => asInt w k ≤ asInt w m
  | _ => k ≤ m

/-! ### Offers and items at a hub -/

/-- Whether an offer is held off: its context is frozen, its region parked or, for a completion action's, frozen
(R303). -/
def State.offerHeld (s : State) (o : Offer) : Bool :=
  match o.by_ with
  | .ctx c i t _ =>
    o.link.isNone && ((s.ctxTask c i == t && (s.ctxAt c i).frozen.isSome) || s.isParked o.region)
  | .action c e => s.isParked e.region || s.isFrozen e.region c

/-- The offers of a hub that stand in its store. -/
def Cell.storedOffers (x : Cell) : Nat := ((x.hub.flatMap fun h => h.2.offers).filter fun o => !o.spilled).length

/-- The state with spilled offers of a hub back in its store, oldest first, while it has room (R310). -/
def State.unspillOffers (s : State) (c : Nat) : Nat → State
  | 0 => s
  | n + 1 =>
    let x := s.cell c
    let sp := (x.hub.flatMap fun h => h.2.offers.map fun o => (h.1, o)).filter fun o => o.2.spilled
    if 512 ≤ x.storedOffers then s
    else
      match (sp.map fun o => o.2.arrival).min? with
      | none => s
      | some a =>
        match sp.find? fun o => o.2.arrival == a with
        | none => s
        | some (j, o) =>
          let r := ((Assoc.get? j x.hub).map (·.region)).getD 0
          let s := s.credit r 32
          let f (h : HubSlot) : HubSlot :=
            { h with dirty := true, offers := h.offers.map fun p => if p.arrival = o.arrival then { p with spilled := false } else p }
          (s.modCell c fun x => { x with hub := Assoc.modify j f x.hub }).unspillOffers c n

/-- The state with the offers of a hub slot that meet a test removed, spilled ones credited, the slot dirty. -/
def State.removeOffers (s : State) (c j : Nat) (p : Offer → Bool) : State :=
  match s.hubSlot c j with
  | none => s
  | some h =>
    let gone := h.offers.filter p
    if gone.isEmpty then s
    else
      let s := s.credit h.region (32 * (gone.filter (·.spilled)).length)
      let s := s.modCell c fun x =>
        { x with hub := Assoc.modify j (fun h => { h with dirty := true, offers := h.offers.filter fun o => !p o }) x.hub }
      s.unspillOffers c 512

/-- The alternatives that an offer belongs to. -/
def Offer.group (o : Offer) : Option (Nat × Nat × Word × Nat) :=
  match o.by_, o.alt with
  | .ctx c i t _, some n => some (c, i, t, n)
  | _, _ => none

/-- Whether an offer is one of some alternatives. -/
def Offer.among (o : Offer) (groups : List (Nat × Nat × Word × Nat)) : Bool := (o.group.map fun g => groups.contains g).getD false

/-- The state with the other offers of some alternatives withdrawn in the same hub step (R303), those still on their way
to the hub too: exactly one offer of an `alt` completes (R304). -/
def State.dropAlts (s : State) (c : Nat) (groups : List (Nat × Nat × Word × Nat)) : State :=
  let moving (f : Flight) : Bool := match f.pay with
    | .offer o _ _ _ _ => o.among groups
    | _ => false
  ((s.cell c).hub.map (·.1)).foldl (fun s k => s.removeOffers c k fun o => o.among groups) 
    { s with net := s.net.filter (!moving ·)
             cells := s.cells.map fun (x : Nat × Cell) => (x.1, { x.2 with outbuf := x.2.outbuf.filter (!moving ·) }) }

/-- Why an offer from across a link may not be made at a port of the tenant that its share is paired with (R300, R408): reason 2 for
a port that is not loaded or an actor's, 3 for an `in` port. -/
def State.linkedReason (s : State) (tenant : Nat) (name : Word) : Option Nat :=
  match s.portEntry tenant name with
  | none => some 2
  | some (e, _) => if e.actor then some 2 else if e.isIn then some 3 else none

/-- An offer arrives at its port's hub (R310): stored, spilled, or refused for want of spill budget. One from across a link that
names no `out` port of its share's tenant is refused (R408). One for a region that is gone is discarded and counted (R321). -/
def execOfferArrival (s : State) : Host.Outcome State Fault Refusal :=
  let k := s.cur.k
  match s.arriving k with
  | some { src, dst := .cell c, pay := .offer o conn tenant slot region } =>
    let s := s.land k
    let link := match src with
      | .link l => some l
      | _ => none
    let o := { o with link := link.orElse fun _ => o.link }
    let refuse (c j reason : Nat) : Host.Outcome State Fault Refusal :=
      event (s.answerOffer c o j (.withdrawn (some reason)) { hub := c, slot := j, trans := 0, cycle := s.clock })
    let at_ : Option (Nat × Nat) := if link.isSome then s.lookup tenant (mkPort conn o.port) else some (c, slot)
    match link.bind (fun _ => s.linkedReason tenant (mkPort conn o.port)), at_.bind fun p => (s.hubSlot p.1 p.2).map fun h => (p.1, p.2, h) with
    | some r, _ => refuse c 0 r
    | none, none => event (s.frBump region c 0x20 1)
    | none, some (c, j, h) =>
      if h.conn ≠ conn || h.tenant ≠ tenant || (h.image.entry o.port).isNone then event (s.frBump region c 0x20 1)
      else
        let x := s.cell c
        let add (s : State) (spilled : Bool) : State := s.modCell c fun x =>
          { x with nextKey := x.nextKey + 1
                   hub := Assoc.modify j (fun h =>
                     { h with dirty := true, offers := h.offers ++ [{ o with age := 0, arrival := x.nextKey, spilled }] }) x.hub }
        if x.storedOffers < 512 then event (add s false)
        else
          match s.charge h.region 32 with
          | some s => event (add s true)
          | none =>
            match o.by_ with
            | .ctx _ _ _ _ =>
              event ((s.dropAlts c o.group.toList).answerOffer c o j (.withdrawn (some 6)) { hub := c, slot := j, trans := 0, cycle := s.clock })
            | .action _ _ => event (s.pushEvent h.region c 3 0 5 (o.item.getD 0) 0 0)
  | _ => event s

/-- What a FIFO does with an item that reaches it: takes it, discards it for want of spill budget (R298), or finds its region gone
(R321). -/
inductive FifoEnd where
  | took | cut | gone
deriving DecidableEq, Repr

/-- The state after an item reached a FIFO (R312): a `put` whose item went only to FIFOs has status 1 as soon as one of them took it;
when the last of them did not, 2 where one discarded it by R298, else 0. `cut` says that one has discarded it before. -/
def State.fifoAnswers (s : State) (c : Nat) (fwd : List Offer) (cut : Bool) (f : FiringAt) (e : FifoEnd) : State :=
  fwd.foldl (fun s o =>
    let carries (g : Flight) : Bool := match g.pay with
      | .fifoItem _ _ _ _ _ _ fwd _ at_ => at_ == f && fwd.contains o
      | _ => false
    let change (k : List Offer → Bool → List Offer × Bool) (g : Flight) : Flight := match g.pay with
      | .fifoItem a b r n item name fwd cut at_ =>
        if at_ = f && fwd.contains o then { g with pay := .fifoItem a b r n item name (k fwd cut).1 (k fwd cut).2 at_ } else g
      | _ => g
    let spared : State := { s with net := s.net.map (change fun fwd cut => (fwd.filter (· != o), cut)) }
    let marked : State := { s with net := s.net.map (change fun fwd _ => (fwd, true)) }
    if e = .took then spared.answerOffer c o f.slot (.fired none 1) f
    else if s.net.any carries then (if e = .cut then marked else s)
    else s.answerOffer c o f.slot (.fired none (if cut || e = .cut then 2 else 0)) f) s

/-- A FIFO item arrives at the hub that holds its output end (R297, R298): the first n stay in the hub, those beyond in
the spill area; with the budget exhausted, or no place, it is discarded, and the event names its port too (log entry 61). The `put`s
whose item went only to FIFOs are completed (R312). -/
def execFifoItemArrival (s : State) : Host.Outcome State Fault Refusal :=
  let k := s.cur.k
  match s.arriving k with
  | some { src := _, dst := .cell c, pay := .fifoItem tenant conn region number item name fwd cut f } =>
    let s := s.land k
    let slot := (s.cell c).hub.find? fun h =>
      h.2.tenant == tenant && h.2.conn == conn && h.2.image.fifos.any fun q => q.here && q.number == number
    match slot with
    | none => event ((s.frBump region c 0x20 1).fifoAnswers c fwd cut f .gone)
    | some (j, h) =>
      let e := (indexWhere (fun q => q.here && q.number == number) h.image.fifos).getD 0
      let cap := ((h.image.fifos[e]?).map (·.cap)).getD 0
      let len := ((h.fifo[e]?).map (·.length)).getD 0
      let change (f : HubSlot → HubSlot) (s : State) : State := s.modCell c fun x =>
        { x with hub := Assoc.modify j (fun h => { f h with dirty := true }) x.hub }
      if len < cap then event ((change (fun h => { h with fifo := modifyAt (· ++ [item]) e h.fifo }) s).fifoAnswers c fwd cut f .took)
      else
        match (s.charge h.region 8).bind fun s => (s.spillPlace h.region c 8 8).map fun a => (a, s.spillWrite c a (leBytes 8 item.toNat)) with
        | some (a, s) => event ((change (fun h => { h with beyond := modifyAt (· ++ [a]) e h.beyond }) s).fifoAnswers c fwd cut f .took)
        | none => event ((s.pushEvent h.region c 3 0 4 item name 0).fifoAnswers c fwd cut f .cut)
  | _ => event s

/-- A cancel reaches a hub (R314): offers still held are withdrawn and the hub answers; an offer that has fired stands,
and its completion is the answer. A cancel that comes before its offer waits behind it. -/
def execHubCancelArrival (s : State) : Host.Outcome State Fault Refusal :=
  let k := s.cur.k
  match s.arriving k with
  | some { src, dst := .cell c, pay := .hubCancel cell ctx task n tenant } =>
    let s := s.land k
    let link := match src with
      | .link l => some l
      | _ => none
    let his (o : Offer) : Bool := o.link == link && (match o.by_ with
      | .ctx a i t _ => a == cell && i == ctx && t == task
      | .action _ _ => false)
    let t := ((s.cell c).hub.map (·.1)).foldl (fun s j => s.removeOffers c j his) s
    let underWay := t.net.any fun g => match g.pay with
      | .portDone o _ _ _ => his o
      | .fifoItem _ _ _ _ _ _ fwd _ _ => fwd.any his
      | _ => false
    let coming := t.net.find? fun g => match g.pay with
      | .offer o _ _ _ _ => his { o with link := match g.src with
          | .link l => some l
          | _ => none }
      | _ => false
    if underWay then event t
    else if let some g := coming then event (t.send src g.dst (.hubCancel cell ctx task n tenant))
    else
      let o : Offer := { port := 0, name := 0, item := none, by_ := .ctx cell ctx task 0, alt := none, link, age := 0, arrival := 0,
                         spilled := false, tenant }
      event (t.answerOffer c o 0 (.withdrawn none) { hub := c, slot := 0, trans := 0, cycle := t.clock })
  | _ => event s

/-! ### Deciding (R311) -/

/-- The oldest offer at port entry i that may take part in a decision. -/
def State.portOffer (s : State) (h : HubSlot) (i : Nat) : Option Offer :=
  (h.image.ports[i]?).bind fun p =>
    ((h.offers.find? fun o => o.port == p.index).filter fun o => !o.spilled && !s.offerHeld o)

/-- The number of items that a FIFO entry of a hub slot holds, in the hub and in the spill area. -/
def HubSlot.held (h : HubSlot) (e : Nat) : Nat := ((h.fifo[e]?).map (·.length)).getD 0 + ((h.beyond[e]?).map (·.length)).getD 0

/-- The items that a FIFO entry of a hub slot holds, oldest first, those of the spill area read from it (R297). -/
def State.fifoItems (s : State) (c : Nat) (h : HubSlot) (e : Nat) : List Word :=
  h.fifo.getD e [] ++ (h.beyond.getD e []).map (s.spillWord c)

/-- The item that a source code names: an offered item, or the head of a FIFO. -/
def State.sourceItem (s : State) (h : HubSlot) (code : Nat) : Option Word :=
  if code < 16 then (s.portOffer h code).bind (·.item)
  else ((h.fifo[code - 16]?).bind (·.head?))

/-- The port entries of a transition. -/
def HubTrans.portList (t : HubTrans) : List Nat := maskSlots t.ports

/-- Whether a transition is enabled (R311 Eall). -/
def State.transEnabled (s : State) (h : HubSlot) (t : HubTrans) : Bool :=
  let os := t.portList.filterMap (s.portOffer h)
  let groups := os.filterMap (·.group)
  let term (k : Nat) (want : Bool) : Bool :=
    match h.image.terms[k]? with
    | none => false
    | some q =>
      match s.sourceItem h q.src with
      | none => false
      | some v => q.holds v == want
  t.takes.zipIdx.all (fun q => q.1 = 0 || q.1 ≤ h.held q.2)
    && t.portList.all (fun i => ((h.image.ports[i]?).map (·.actor)).getD false || (s.portOffer h i).isSome)
    && (maskSlots t.gTrue).all (term · true) && (maskSlots t.gFalse).all (term · false)
    && groups.eraseDups.length = groups.length

/-- The transition a decision chooses, of those enabled (R311): preferred ones before fallback ones; those with the
earliest-arrived offer of age 4; then the rotation pointer. -/
def State.choose (s : State) (h : HubSlot) (eall : List (HubTrans × Nat)) : Option (HubTrans × Nat) :=
  let pref := eall.filter fun t => !t.1.fallback
  let e := if pref.isEmpty then eall else pref
  let aged := e.flatMap fun t => (t.1.portList.filterMap (s.portOffer h)).filter fun o => o.age == 4
  let e := match (aged.map (·.arrival)).min? with
    | none => e
    | some a => e.filter fun t => (t.1.portList.filterMap (s.portOffer h)).any fun o => o.arrival == a
  match e.find? fun t => h.ptr ≤ t.2 with
  | some t => some t
  | none => e.head?

/-! ### Firing (R312) -/

/-- Whether a source feeds a sink of a transition: an `in` port of the region; a FIFO. -/
def HubTrans.feedsPort (t : HubTrans) (code : Nat) : Bool := t.routeP.any (· == code)
/-- The FIFO entries that a source feeds. -/
def HubTrans.feedsFifos (t : HubTrans) (code : Nat) : List Nat :=
  (List.range 8).filter fun j => bit t.gives j && t.routeF.getD j 255 == code

/-- The completions of a firing: one for each offering context, but for the `put`s whose item goes only to FIFOs, which
the FIFO's hub completes (R312). -/
def State.completions (s : State) (c j : Nat) (h : HubSlot) (t : HubTrans) (f : FiringAt) : State :=
  t.portList.foldl (fun u i =>
    match s.portOffer h i, h.image.ports[i]? with
    | some o, some p =>
      if p.isIn then u.answerOffer c o j (.fired (s.sourceItem h (t.routeP.getD i 255)) 0) f
      else if t.feedsPort i then u.answerOffer c o j (.fired none 1) f
      else if (t.feedsFifos i).isEmpty then u.answerOffer c o j (.fired none 0) f
      else u
    | _, _ => u) s

/-- The items that a firing gives to FIFOs, sent to the hubs that hold their output ends (R312), with the port each came from. -/
def State.giveItems (s : State) (c : Nat) (h : HubSlot) (t : HubTrans) (f : FiringAt) (u : State) : State :=
  (List.range 8).foldl (fun u j =>
    if bit t.gives j then
      match h.image.fifos[j]?, s.sourceItem h (t.routeF.getD j 255) with
      | some q, some item =>
        let code := t.routeF.getD j 255
        let fwd : List Offer :=
          if code < 16 && !t.feedsPort code then
            (match s.portOffer h code with
             | some o => [o]
             | none => [])
          else []
        let name : Word := if code < 16 then ((h.image.ports[code]?).map fun p => mkPort h.conn p.index).getD 0 else 0
        u.send (.cell c) (.cell (if q.here then c else q.home)) (.fifoItem h.tenant h.conn h.region q.number item name fwd false f)
      | _, _ => u
    else u) u

/-- The items an actor's firing consumes, by the actor's port slots (R255). -/
def State.actorItems (s : State) (c : Nat) (h : HubSlot) (t : HubTrans) : List Word :=
  (List.range 8).flatMap fun a =>
    (List.range h.image.ports.length).flatMap fun i =>
      match h.image.ports[i]? with
      | some p =>
        if p.actor && p.aslot = a && bit t.ports i then
          let code := t.routeP.getD i 255
          if 16 ≤ code then (s.fifoItems c h (code - 16)).take (t.takes.getD (code - 16) 0) else []
        else []
      | none => []

/-- The state after an actor's firing pushed its record with the items that it consumes (R255, R256): to the eligible cells in
turn. -/
def State.actorFire (s : State) (c j : Nat) (h : HubSlot) (items : List Word) : State :=
  match h.image.actor with
  | none => s
  | some ty =>
    let target := match h.eligible.find? fun e => h.next ≤ e with
      | some e => e
      | none => h.eligible.headD c
    let rec_ : Rec := { head := mkHead h.region 3 items.length ty, reply := 0, args := items ++ List.replicate (8 - items.length) 0 }
    let s := s.modCell c fun x => { x with hub := Assoc.modify j (fun h => { h with next := target + 1 }) x.hub }
    s.sendRecord c h.tenant rec_ false target

/-- The hub slot after a transition's takes: what leaves a FIFO leaves the hub's entries, which are refilled from the spill area, oldest
first (R297). -/
def State.takeItems (s : State) (c : Nat) (h : HubSlot) (t : HubTrans) : HubSlot :=
  let rest (e : Nat) : List Word := (s.fifoItems c h e).drop (t.takes.getD e 0)
  let cap (e : Nat) : Nat := ((h.image.fifos[e]?).map (·.cap)).getD 0
  { h with fifo := (List.range h.fifo.length).map fun e => (rest e).take (cap e),
           beyond := h.beyond.zipIdx.map fun q => q.1.drop (q.1.length - ((rest q.2).length - cap q.2)) }

/-- The number of a hub slot's items in the spill area. -/
def HubSlot.spilt (h : HubSlot) : Nat := (h.beyond.map (·.length)).sum

/-- A decision of a hub slot, and its firing (R311, R312). -/
def State.decide (s : State) (c j : Nat) (h : HubSlot) : State :=
  let h := { h with dirty := false, busyUntil := s.clock + 4 }
  let s := s.modCell c fun x => { x with hub := Assoc.put j h x.hub }
  let eall := h.image.trans.zipIdx.filter fun t => s.transEnabled h t.1
  match s.choose h eall with
  | none => s
  | some (t, n) =>
    let f : FiringAt := { hub := c, slot := j, trans := n, cycle := s.clock }
    let fired := t.portList.filterMap (s.portOffer h)
    let seen := (eall.flatMap fun q => q.1.portList.filterMap (s.portOffer h)).map (·.arrival)
    let groups := fired.filterMap (·.group)
    let u := s.giveItems c h t f (s.completions c j h t f)
    let left := (h.offers.filter fun o => !(fired.any fun p => p.arrival == o.arrival)).map fun o =>
      if seen.contains o.arrival then { o with age := min (o.age + 1) 4 } else o
    let items := (s.actorItems c h t).take 8
    let h' := { s.takeItems c h t with dirty := true, offers := left, ptr := (n + 1) % h.image.trans.length
                                       decisions := (h.decisions + 1) % 2 ^ 64 }
    let u := u.credit h.region (8 * (h.spilt - h'.spilt))
    let u := u.modCell c fun x => { x with hub := Assoc.put j h' x.hub }
    let u := u.dropAlts c groups
    let u := u.unspillOffers c 512
    if t.pushes then u.actorFire c j h items else u

/-- A hub decides one of its dirty slots that are not busy, cyclically from the one after the last started (R311); a slot
of a parked region takes part in no decision. -/
def execDecide (s : State) : Host.Outcome State Fault Refusal :=
  let c := s.cur.cell
  let x := s.cell c
  let order := (List.range 16).map fun k => (x.hubNext + k) % 16
  let ready (j : Nat) : Bool := match Assoc.get? j x.hub with
    | some h => h.dirty && h.busyUntil ≤ s.clock && !s.isParked h.region
    | none => false
  match order.find? ready with
  | none => event s
  | some j =>
    match Assoc.get? j x.hub with
    | none => event s
    | some h => event ((s.setCell c { x with hubNext := (j + 1) % 16 }).decide c j h)

/-! ### Stage governors (R256) -/

/-- The candidate cells of a slot's actor: the launch set of its image, rising. -/
def State.candidates (s : State) (h : HubSlot) : List Nat :=
  match h.image.actor.bind (s.taskType h.tenant) with
  | some t => t.launch
  | none => []

/-- The stage governor of an actor's hub slot samples it (R256): every 256 c. -/
def execStageGovernor (cell slot : Nat) (s : State) : Host.Outcome State Fault Refusal :=
  match s.hubSlot cell slot with
  | none => event s
  | some h =>
    match h.image.actor.bind (s.taskType h.tenant) with
    | none => event s
    | some ty =>
      if s.clock < h.sampled + 256 then event s
      else
        let q := ((List.range h.image.fifos.length).map fun j =>
          if ((h.image.fifos[j]?).map (·.here)).getD false then h.held j else 0).sum
        let off := (s.candidates h).filter fun k => !h.eligible.contains k
        let el :=
          if ty.high < q && !off.isEmpty then (s.candidates h).filter fun k => h.eligible.contains k || some k == off.head?
          else if q < ty.low && 1 < h.eligible.length then h.eligible.dropLast
          else h.eligible
        event (s.modCell cell fun x =>
          { x with hub := Assoc.modify slot (fun h => { h with eligible := el, sampled := s.clock }) x.hub })

/-! ### cload, cdrop, cstat -/

/-- The state with measurement 3 extended by a hub image's digest (R393). -/
def State.measure (s : State) (image : List Byte) : State :=
  let d (x : Digest) : List Byte := leBytes 64 x.toNat
  let old := s.meas.getD 2 0
  { s with meas := modifyAt (fun _ => Config.sha512 (d old ++ d (Config.sha512 image))) 2 s.meas }

/-- The number of hub slots of a cell that a region owns. -/
def State.slotsOwned (s : State) (c r : Nat) : Nat := ((s.cell c).hub.filter fun h => h.2.region == r).length

/-- The names of an image's ports under a connector number. -/
def HubImage.names (m : HubImage) (conn : Nat) : List Word := m.ports.map fun p => mkPort conn p.index

/-- The slot a loaded image gives: pointer 0, no offers, empty FIFOs (R320); an actor's mask holds its lowest candidate
(R256). -/
def State.freshSlot (s : State) (m : HubImage) (conn region tenant : Nat) : HubSlot :=
  let h : HubSlot :=
    { image := m, conn, region, tenant, ptr := 0, dirty := false, busyUntil := 0, offers := [],
      fifo := List.replicate m.fifos.length [], beyond := List.replicate m.fifos.length [], decisions := 0, lost := 0, eligible := [], next := 0, sampled := s.clock }
  { h with eligible := (s.candidates h).take 1 }

/-- The outcome of loading a hub image for a connector of a region (R320): the status, or the slot with the state. The slots of a
cell in another tenant's disjoint partition are none that it can have, status 3 (R279, R308; log entry 59); a region whose tear-down
has begun is not active. -/
def State.loadHub (s : State) (c : Nat) (bs : List Byte) (conn region tenant : Nat) : Except Nat (Nat × State) :=
  match parseHub bs with
  | .error e => .error e
  | .ok m =>
    match (if s.cellClosed tenant (((s.region region).map (·.partition)).getD 0) c then none else Assoc.firstFree (s.cell c).hub 0 16) with
    | none => .error 3
    | some j =>
      match (s.region region).filter fun _ => !s.isDying region with
      | none => .error 5
      | some x =>
        if x.hubQuota ≤ s.slotsOwned c region then .error 4
        else if x.tenant ≠ tenant || tenant = 0 then .error 5
        else if (m.names conn).any fun n => (s.lookup tenant n).isSome then .error 6
        else
          let s := s.modCell c fun y => { y with hub := Assoc.put j (s.freshSlot m conn region tenant) y.hub }
          let s := { s with directory := s.directory ++ (m.names conn).map fun n => (tenant, n, c, j) }
          .ok (j, s.measure bs)

/-- `cload` (R320). -/
def execCload (x : ArgDAB) (s : State) : Host.Outcome State Fault Refusal :=
  issue (.cload x) x.g superCtx (fun s => do
    let c := s.cur.cell
    let a := s.me.rs x.a
    let w := (s.me.rs x.b).toNat
    let head ← s.syncRead a 128 64
    let bs ← s.syncRead a (hubImageSize head) 64
    let fin (s : State) (v : Nat) : Res := s.update fun y => y.ws x.d (word v)
    match s.loadHub c bs (w % 2 ^ 16) (if 2 ^ 32 ≤ w then 0 else slice w 16 16) s.myTenant with
    | .error e => fin s e
    | .ok (j, s) => fin s (j * 2 ^ 8)) s

/-- The state with the port slots empty that name a port of a hub slot: its ports cease to exist (R288). -/
def State.emptySlots (s : State) (c j tenant : Nat) : State :=
  let names (p : PortSlot) : Bool := p.hub == c && p.slot == j && !portRemote p.name
  let holds (x : Ctx) : Bool := (x.task.map (·.tenant)) == some tenant && x.slots.any fun p => (p.map names).getD false
  (s.ctxsWhere holds).foldl (fun s p => s.modCtx p.1 p.2 fun x => { x with slots := x.slots.map fun q => q.filter fun p => !names p }) s

/-- Whether a completion action made an offer: no instruction waits for its answer. -/
def Offer.isAction (o : Offer) : Bool :=
  match o.by_ with
  | .ctx _ _ _ _ => false
  | .action _ _ => true

/-- One offer of each `alt` among some offers, the first, and every other one. -/
def onePerAlt : List Offer → List Offer
  | [] => []
  | o :: os => o :: (onePerAlt os).filter fun p => !p.among o.group.toList

/-- The state with a hub slot dropped (R321): its offers answered with reason 2, and the other offers of their `alt`s withdrawn
(R300), its items discarded and counted, its directory entries gone, the slot free. -/
def State.dropHub (s : State) (c j : Nat) : State :=
  match s.hubSlot c j with
  | none => s
  | some h =>
    let f : FiringAt := { hub := c, slot := j, trans := 0, cycle := s.clock }
    let s := ((onePerAlt h.offers).filter (!·.isAction)).foldl (fun s o => s.answerOffer c o j (.withdrawn (some 2)) f) s
    let items := (h.fifo.map (·.length)).sum + h.spilt
    let s := s.credit h.region (8 * h.spilt + 32 * (h.offers.filter (·.spilled)).length)
    let s := if items = 0 then s else s.frBump h.region c 0x20 items
    let s := s.modCell c fun x =>
      { x with hub := Assoc.erase j x.hub, binds := x.binds.filter fun b => !(b.tenant == h.tenant && (h.image.names h.conn).contains b.name) }
    let s : State := { s with directory := s.directory.filter fun e => !(e.2.2.1 == c && e.2.2.2 == j) }
    ((s.emptySlots c j h.tenant).dropAlts c (h.offers.filterMap (·.group))).unspillOffers c 512

/-- `cdrop` (R321). -/
def execCdrop (x : ArgDA) (s : State) : Host.Outcome State Fault Refusal :=
  issue (.cdrop x) x.g superCtx (fun s =>
    let c := s.cur.cell
    let w := (s.me.rs x.a).toNat
    let fin (s : State) (v : Nat) : Res := s.update fun y => y.ws x.d (word v)
    let hit (h : HubSlot) : Bool := w < 2 ^ 24 && h.conn == w % 2 ^ 16 && h.image.creg == slice w 16 8
    match (s.cell c).hub.find? fun h => hit h.2 && h.2.tenant == s.myTenant with
    | some (j, _) => fin (s.dropHub c j) 0
    | none => fin s (if (s.cell c).hub.any fun h => hit h.2 then 3 else 1)) s

/-- The slot word of a hub slot (R322). -/
def State.slotWord (s : State) (h : HubSlot) : Word :=
  let held := s.isParked h.region || h.offers.any (s.offerHeld ·)
  word (2 ^ 63 + b2n held * 2 ^ 62 + h.region % 2 ^ 16 * 2 ^ 32 + h.conn % 2 ^ 16 * 2 ^ 16 + h.image.creg % 2 ^ 8 * 2 ^ 8 + h.ptr % 2 ^ 6)

/-- A statistic of a hub slot (R322). -/
def State.hubStat (s : State) (h : HubSlot) : CSel → Word
  | .slot => s.slotWord h
  | .decisions => word h.decisions
  | .held => word h.offers.length
  | .lost => word h.lost
  | .fifo n => word (h.held n.val)
  | .offer n =>
    match h.image.ports[n.val]? with
    | none => 0
    | some p =>
      let os := h.offers.filter fun o => o.port == p.index
      match os.head? with
      | none => 0
      | some o => word (2 ^ 63 + b2n (o.age == 4) * 2 ^ 62 + o.age % 8 * 2 ^ 59 + os.length % 2 ^ 16)
  | .item n =>
    match h.image.ports[n.val]? with
    | none => 0
    | some p => ((h.offers.find? fun o => o.port == p.index).bind (·.item)).getD 0

/-- `cstat` (R322). -/
def execCstat (x : ArgCstat) (s : State) : Host.Outcome State Fault Refusal :=
  issue (.cstat x) x.g anyCtx (fun s =>
    let w := s.me.rs x.a
    let hub := w.toNat % 2 ^ 10
    let j := slice w.toNat 10 4
    if 2 ^ 14 ≤ w.toNat || 959 < hub then Res.trap 62 w 2
    else
      let v : Word := match s.hubSlot hub j with
        | none => 0
        | some h => if h.tenant = s.myTenant then s.hubStat h x.sel else 0
      s.update fun y => y.ws x.d v) s

end Sys2Proof.Machine
end

