-- ==== Sys2Proof/Machine/Shares.lean ====
section
/-! DEFINITION. What the tenants of a cell share: the deficit counters (R271), the frame area (R247, R328, R357), and the
wait of a queue for an operation's region. -/
namespace Sys2Proof.Machine

/-- The resources of the deficit counters (R271), by number. -/
inductive Resource where
  | dispatch | issue | tile | copy | handler
deriving DecidableEq, Repr

/-- A resource's place in a tenant's list of counters. -/
def Resource.idx : Resource → Nat
  | .dispatch => 0
  | .issue => 1
  | .tile => 2
  | .copy => 3
  | .handler => 4

/-- A resource's quantum (R271). -/
def Resource.quantum : Resource → Nat
  | .tile => 64
  | .copy => 4096
  | _ => 1

/-- What a tenant gains at a refill, and the most it holds: weight × q (R271). -/
def State.gain (s : State) (tenant : Nat) (k : Resource) : Int := ((((s.region tenant).map (·.weight)).getD 1) * k.quantum : Nat)

/-- A tenant's counter on a cell; weight × q when the tenant has just arrived (R271). -/
def State.deficit (s : State) (c tenant : Nat) (k : Resource) : Int :=
  match (Assoc.get? tenant (s.cell c).deficits).bind (·[k.idx]?) with
  | some d => d
  | none => s.gain tenant k

/-- The state with a tenant's counter set. -/
def State.setDeficit (s : State) (c tenant : Nat) (k : Resource) (d : Int) : State :=
  let all := [Resource.dispatch, .issue, .tile, .copy, .handler].map fun q => if q = k then d else s.deficit c tenant q
  s.modCell c fun x => { x with deficits := Assoc.put tenant all x.deficits }

/-- The tenants present on a cell (R271). -/
def State.tenantsAt (s : State) (c : Nat) : List Nat :=
  (s.regions.filter fun r => r.2.parent == 0 && r.2.grants.any fun g => g.cell == c).map (·.1)

/-- The number of refills until a counter is not negative. -/
def refills (d g : Int) : Nat := if 0 ≤ d then 0 else if g ≤ 0 then 0 else ((-d + g - 1) / g).toNat

/-- The better of two tenants by their counters: the greater; then higher priority, then the lower number (R271). -/
def State.better (s : State) (c : Nat) (k : Resource) (a b : Nat) : Bool :=
  let da := s.deficit c a k
  let db := s.deficit c b k
  let pa := ((s.region a).map (·.priority)).getD 0
  let pb := ((s.region b).map (·.priority)).getD 0
  db < da || (da == db && (pb < pa || (pa == pb && a < b)))

/-- The best tenant of a list. -/
def State.best (s : State) (c : Nat) (k : Resource) : List Nat → Option Nat
  | [] => none
  | t :: ts =>
    match s.best c k ts with
    | none => some t
    | some u => if s.better c k t u then some t else some u

/-- The tenant chosen among those with a candidate, and the state after the refills that the choice took (R271): as many
as the tenant nearest to zero needs; each adds weight × q to every tenant present, up to weight × q. -/
def State.chooseTenant (s : State) (c : Nat) (k : Resource) (es : List Nat) : Option (Nat × State) :=
  if es.isEmpty then none
  else
    let n := ((es.map fun t => refills (s.deficit c t k) (s.gain t k)).min?).getD 0
    let s := if n = 0 then s
      else (s.tenantsAt c).foldl (fun u t =>
        let g := s.gain t k
        let d := s.deficit c t k + n * g
        u.setDeficit c t k (if g < d then g else d)) s
    let fit := es.filter fun t => 0 ≤ s.deficit c t k
    (s.best c k (if fit.isEmpty then es else fit)).map fun t => (t, s)

/-- The state with a grant's cost taken from a tenant's counter (R271). -/
def State.spend (s : State) (c tenant : Nat) (k : Resource) (cost : Nat) : State :=
  s.setDeficit c tenant k (s.deficit c tenant k - cost)

/-- The state with one grant of a resource to a tenant, the only candidate: the refills that it takes, and its cost (R271). -/
def State.chargeTo (s : State) (c tenant : Nat) (k : Resource) (cost : Nat) : State :=
  (((s.chooseTenant c k [tenant]).map (·.2)).getD s).spend c tenant k cost

/-! ### Frames (R247, R328, R357) -/

/-- The frames held on a cell, as base and size: those of tasks, of installed handlers, and the supervisor's at the top
of each tenant's frame area. -/
def State.framesHeld (s : State) (c : Nat) : List (Nat × Nat) :=
  ((List.range 8).filterMap fun i => ((s.ctxAt c i).task.map fun t => (t.frameLo, t.frameHi - t.frameLo)))
    ++ (s.cell c).htab.map (fun h => (h.2.frameLo, h.2.frameHi - h.2.frameLo))
    ++ (s.tenantsAt c).filterMap fun t =>
      match s.region t, s.grant t c with
      | some x, some g => (s.taskType t x.sup).map fun ty => (g.fhi - ty.frame, ty.frame)
      | _, _ => none

/-- The lowest place of a frame of a size in a region's frame area on a cell, in 256-byte units (R247). -/
def State.frameFit (s : State) (c region size : Nat) : Option Nat :=
  match s.grant region c with
  | none => none
  | some g => firstFit (s.framesHeld c) size g.fhi 256 ((g.fhi - g.flo) / 256 + 1) g.flo

end Sys2Proof.Machine
end

