-- ==== Sys2Proof/Machine/Messages.lean ====
section
/-! DEFINITION. Messages, handlers, endpoints and atomics: context 8's queue (R329), the owner requests that reach it
(R253), user handlers (R330), endpoints (R325, R327, R331, R337, R338), `amsg`, `htab` and the atomics (R332 to R336). -/
namespace Sys2Proof.Machine

/-! ### Context 8's queue (R329) -/

/-- The tenant for which context 8 serves a request. -/
def State.reqTenant (s : State) : Req8 → Nat
  | .handler _ r => s.tenantOf r
  | .owner q => q.tenant
  | .atomic a => s.tenantOf a.region

/-- The region whose spill budget a request is charged to while it stands in the overflow area: the sender of one that expects no
reply (R329, R412). -/
def Req8.charged (q : Req8) : Option Nat :=
  match q with
  | .handler m _ => if m.link.isSome then none else some m.region
  | .owner o => match o.kind with
    | .jdec _ => some o.region
    | _ => none
  | .atomic _ => none

/-- The state with the charge of a request that leaves the overflow area credited (R412). -/
def State.credit8 (s : State) (q : Req8) : State :=
  match q.charged with
  | some r => s.credit r 48
  | none => s

/-- The word that the spill-exhausted event of a request carries: a message's name, a reference (R369). -/
def Req8.item (q : Req8) : Word :=
  match q with
  | .handler m _ => m.name
  | .owner o => o.ref
  | .atomic _ => 0

/-- The state with a request at the end of a cell's queue (R329): beyond 64 entries it overflows, and one that expects no
reply is charged to its sender's spill budget. -/
def State.enqueue8 (s : State) (c : Nat) (q : Req8) : State :=
  let x := s.cell c
  let spill (s : State) : State := s.modCell c fun x => { x with over8 := x.over8 ++ [q] }
  if x.in8.length < 64 && x.over8.isEmpty then s.modCell c fun x => { x with in8 := x.in8 ++ [q] }
  else
    match q.charged with
    | none => spill s
    | some r =>
      match s.charge r 48 with
      | some s => spill s
      | none => s.pushEvent r c 3 0 6 q.item 0 0

/-- The state with a cell's queue filled up again from its overflow area, whose charges are credited (R329). -/
def State.refill8 (s : State) (c : Nat) : Nat → State
  | 0 => s
  | n + 1 =>
    let x := s.cell c
    match x.over8 with
    | [] => s
    | q :: qs =>
      if 64 ≤ x.in8.length then s
      else ((s.setCell c { x with in8 := x.in8 ++ [q], over8 := qs }).credit8 q).refill8 c n

/-! ### The atomic routine (R334) -/

/-- The class of an atomic access. -/
def Acc.cls (a : Acc) : Nat :=
  match a.op with
  | .atomic k => k
  | _ => 0

/-- Whether an atomic waits for the scoreboard of its home (R188). -/
def State.atomicHeld (s : State) (a : Acc) : Bool := s.homeConflict a true

/-- The state with an atomic's old value in its register; a context that waits in the order S goes on. -/
def State.atomicDone (s : State) (a : Acc) (old : Word) : State :=
  let bs := [leBytes (tyBytes a.ty) old.toNat]
  if a.sc then s.finishSc a bs else s.fillDest a bs

/-- The routine of an atomic at its home: a tile fault or a memory error goes back to its issuer; else the read and the write, and
the old value to the issuer. -/
def State.runAtomic (s : State) (c : Nat) (a : Acc) (cls : Nat) : State :=
  let p := a.pieces.headD { lane := 0, off := 0, len := 0, home := 0 }
  let s := s.scDone a
  match if a.peer.isSome then s.tileCheck c .loc (p.home - locA c 0) p.len true a.firstAddr else none, s.badUnit a with
  | some t, _ => if a.sc then s.trapSc a t else s.peerTrap a t
  | none, some u => s.faultMem a u
  | none, none =>
    let r := s.performAtomic a cls
    if a.cell = c then r.1.atomicDone a r.2 else r.1.post c (.cell a.cell) (.atomicResult a r.2)

/-- The state with an atomic of context 8's own run performed in line (R330), as one issued again: a memory error makes a retry-ring
entry (R234). -/
def State.performHere (s : State) (a : Acc) : State :=
  match s.badUnit a with
  | some u => s.faultMem a u
  | none =>
    let r := s.performAtomic a a.cls
    r.1.fillDest a [leBytes (tyBytes a.ty) r.2.toNat]

/-- A remote atomic's old value reaches its context (R334). -/
def execAtomicResultArrival (s : State) : Host.Outcome State Fault Refusal :=
  let k := s.cur.k
  match s.arriving k with
  | some { src := _, dst := _, pay := .atomicResult a old } =>
    event ((s.land k).atomicDone a old)
  | _ => event s

/-! ### User handlers (R328, R330) -/

/-- A message's header word as its handler reads it (R330). -/
def Msg.header (m : Msg) : Word :=
  word (m.hops % 2 ^ 4 * 2 ^ 28 + m.ctx % 2 ^ 4 * 2 ^ 24 + m.cell % 2 ^ 10 * 2 ^ 14 + b2n m.link.isSome * 2 ^ 13
    + m.n % 2 ^ 3 * 2 ^ 5 + m.cls % 2 ^ 5)

/-- Context 8 at the entry of a handler (R330). -/
def handlerRegs (x : Ctx) (m : Msg) (e : HEntry) (pc : Word) : Ctx :=
  let y : Ctx := { Ctx.reset with seq := x.seq, opSeq := x.opSeq, st := .running, pc := pc, xsl := word e.frameLo }
  let y := (y.ws 2 (word e.frameHi)).ws 8 m.header
  let y := y.ws 9 m.name
  (List.range 4).foldl (fun y k => y.wsN (4 + k) (if k < m.n then m.words.getD k 0 else 0)) y

/-- The run of a user handler started for a message (R330); its entry PC is checked by R30. -/
def State.startHandler (s : State) (c : Nat) (m : Msg) (region : Nat) : State :=
  match Assoc.get? m.cls (s.cell c).htab with
  | none => s
  | some e =>
    match s.taskType (s.tenantOf region) e.ty with
    | none => s
    | some ty =>
      let s := s.modCell c fun x => { x with run8 := some { msg := m, region, start := s.clock, cap := min ty.budget 16384, stopped := 0, frozenAt := none } }
      let s := s.modCtx c 8 fun x => handlerRegs x m e (word ty.entry)
      match s.checkTarget region c (word ty.entry) with
      | some t => s.takeTrap c 8 t
      | none => s

/-- Whether an endpoint's delivery stands still for an `epmov` (R337). -/
def State.endpointMoves (s : State) (c n : Nat) : Bool :=
  match Assoc.get? n (s.cell c).eps with
  | some e => e.st == .moving
  | none => false

/-- Whether the answer of a routine to a cell finds the outbound buffer occupied (R326). -/
def State.replyHeld (s : State) (c who : Nat) : Bool := s.outHeld c (.cell who)

/-- Whether context 8 can serve a request now: a handler's region is neither frozen nor parked, its endpoint is not being moved
(R337); a routine passes the scoreboard (R188), and what it may send has the outbound buffer (R326). -/
def State.canServe (s : State) (c : Nat) : Req8 → Bool
  | .handler m r => !s.isFrozen r c && !s.isParked r && !s.endpointMoves c (slice m.target.toNat 10 15)
  | .owner q => !s.ownerHeld c q && (s.cell c).outbuf.isEmpty
  | .atomic a => !s.atomicHeld a && !s.replyHeld c a.cell

/-- A request served. -/
def State.serve (s : State) (c : Nat) : Req8 → State
  | .handler m r => s.startHandler c m r
  | .owner q => s.ownerRoutine c q
  | .atomic a => s.runAtomic c a a.cls

/-- Context 8, when it is free, serves the next request (R329, R330): the tenant by the deficit counters, then its oldest
request. -/
def execHandlerRun (s : State) : Host.Outcome State Fault Refusal :=
  let c := s.cur.cell
  let x := s.cell c
  if x.run8.isSome then event s
  else
    let first (t : Nat) : Option Req8 := x.in8.find? fun q => s.reqTenant q == t
    let ts := ((x.in8.map s.reqTenant).eraseDups).filter fun t => match first t with
      | some q => s.canServe c q
      | none => false
    match s.chooseTenant c .handler ts with
    | none => event s
    | some (t, s) =>
      match first t with
      | none => event s
      | some q =>
        let s := (s.modCell c fun x => { x with in8 := eraseFirst (· == q) x.in8 }).refill8 c 64
        event ((s.spend c t .handler 1).serve c q)

/-- A handler at its run cap is killed, with no extension (R330); the time that it stood frozen does not count (R272, log entry
34). -/
def execHandlerCap (s : State) : Host.Outcome State Fault Refusal :=
  let c := s.cur.cell
  match (s.cell c).run8 with
  | none => event s
  | some r =>
    if s.clock < r.start + r.stopped + r.cap || (s.ctxAt c 8).frozen.isSome then event s
    else event (s.kill c 8 6 false (s.ctxAt c 8).pc { cause := 0, val := 0, info := 0 })

/-- A request that reaches its cell: served at once by a free context 8 with nothing before it, else queued (R253, R271,
R329). -/
def State.arrive8 (s : State) (c : Nat) (q : Req8) : State :=
  let x := s.cell c
  let isHandler := match q with
    | .handler _ _ => true
    | _ => false
  if x.run8.isNone && x.in8.isEmpty && x.over8.isEmpty && !isHandler && s.canServe c q then
    (s.chargeTo c (s.reqTenant q) .handler 1).serve c q
  else s.enqueue8 c q

/-- An owner request that arrives. -/
def State.ownerArrival (s : State) (p : OwnKind → Bool) : Host.Outcome State Fault Refusal :=
  let k := s.cur.k
  match s.arriving k with
  | some { src := _, dst := .cell c, pay := .owner q } =>
    if p q.kind then event ((s.land k).arrive8 c (.owner q)) else event s
  | _ => event s

/-- A `jdec` reaches its owner (R253, R262). -/
def execJdecArrival (s : State) : Host.Outcome State Fault Refusal :=
  s.ownerArrival fun k => match k with
    | .jdec _ => true
    | _ => false

/-- A resolution reaches its owner (R253, R264). -/
def execFresArrival (s : State) : Host.Outcome State Fault Refusal :=
  s.ownerArrival fun k => match k with
    | .fres _ _ => true
    | _ => false

/-- A registration reaches its owner (R253, R265). -/
def execFregArrival (s : State) : Host.Outcome State Fault Refusal :=
  s.ownerArrival fun k => match k with
    | .freg _ => true
    | _ => false

/-! ### Endpoints (R324 to R327, R331) -/

/-- The fields of an endpoint name: cell. -/
def epCell (n : Word) : Nat := slice n.toNat 0 10
/-- The fields of an endpoint name: number. -/
def epNumber (n : Word) : Nat := slice n.toNat 10 15
/-- The fields of an endpoint name: ASID. -/
def epAsid (n : Word) : Nat := slice n.toNat 25 14
/-- Whether an endpoint name is remote. -/
def epRemote (n : Word) : Bool := bit n.toNat 39
/-- The link of an endpoint name. -/
def epLink (n : Word) : Nat := slice n.toNat 40 4
/-- The name of an endpoint of this module. -/
def mkEp (asid number cell : Nat) : Word := word (asid * 2 ^ 25 + number * 2 ^ 10 + cell)

/-- The place a returned message goes to. -/
def Msg.home (m : Msg) : Place :=
  match m.link with
  | some l => .link l
  | none => .cell m.cell

/-- The state with a message on its way back to its sender (R327). -/
def State.returnMsg (s : State) (c : Nat) (m : Msg) (reason : Nat) : State := s.send (.cell c) m.home (.returned m reason)

/-- The entry that a name's number finds at a cell (R327). -/
def State.endpointAt (s : State) (c : Nat) (n : Word) : Option Endpoint := Assoc.get? (epNumber n) (s.cell c).eps

/-- The 48 bytes of a message in a save area: header word, name, four words (R331). -/
def Msg.bytes (m : Msg) : List Byte :=
  leBytes 8 m.header.toNat ++ leBytes 8 m.name.toNat ++ (List.range 4).flatMap fun k => leBytes 8 (m.words.getD k 0).toNat

/-- A message as the bytes of its save-area unit give it; what they do not hold is as it was. -/
def Msg.reread (m : Msg) (bs : List Byte) : Msg :=
  let w (k : Nat) : Nat := leNat ((bs.drop (8 * k)).take 8)
  { m with name := word (w 1), cls := slice (w 0) 0 5, n := slice (w 0) 5 3, cell := slice (w 0) 14 10, ctx := slice (w 0) 24 4,
           hops := slice (w 0) 28 4, words := (List.range (min 4 (slice (w 0) 5 3))).map fun k => word (w (2 + k)) }

/-- The state with a message appended to a parked endpoint's save-area queue, in the spill area of its region on the cell (R331);
with the budget or the area exhausted it is discarded, and its region told. -/
def State.parkMsg (s : State) (c number : Nat) (e : Endpoint) (q : List (Nat × Msg)) (byPark : Bool) (m : Msg) : State :=
  match (s.charge e.region 48).bind fun s => (s.spillPlace e.region c 48 8).map fun p => (p, s.spillWrite c p m.bytes) with
  | some (p, s) => s.modCell c fun x => { x with eps := Assoc.put number { e with st := .parked (q ++ [(p, m)]) byPark } x.eps }
  | none => s.pushEvent e.region c 3 0 6 m.name 0 0

/-- A message at a cell it has reached (R327). While an `epmov` stops delivery it stands in context 8's queue (R337). -/
def State.deliverMsg (s : State) (c : Nat) (m : Msg) : State :=
  match s.endpointAt c m.target with
  | none => s.returnMsg c m 3
  | some e =>
    match e.st with
    | .stub succ =>
      if m.hops = 4 then s.returnMsg c m 4
      else s.send (.cell c) (.cell (epCell succ)) (.message { m with target := succ, hops := m.hops + 1 })
    | .parked q b => s.parkMsg c (epNumber m.target) e q b m
    | .resident | .moving =>
      match Assoc.get? m.cls (s.cell c).htab with
      | none => s.returnMsg c m 5
      | some h => if h.region = e.region then s.enqueue8 c (.handler m e.region) else s.returnMsg c m 5

/-- Whether the tenant of a link's far side is paired with that of an ASID here (R324, R383). -/
def State.pairedAsid (s : State) (l tenant asid : Nat) : Bool :=
  s.regions.any (fun r => r.2.asid == asid && r.2.tenant == tenant)
    && ((Assoc.get? l s.links).map fun x => x.shares.any fun h => h.tenant == tenant) == some true

/-- A message or an atomic reaches a cell (R327, R334): forwarded, queued, parked or returned; an atomic in the order of
its context's accesses. A message from across a link for an ASID not paired there is returned with reason 2. -/
def execMessageArrival (s : State) : Host.Outcome State Fault Refusal :=
  let k := s.cur.k
  match s.passes k s.homeWaits with
  | some { src := src, dst := .cell c, pay := .atomicReq a } =>
    if a.peer.isSome && !a.arrived && !s.peerPresent a c then event ((s.land k).send (.cell c) (.cell a.cell) (.peerAbsent a))
    else if s.homeWaits k { src := src, dst := .cell c, pay := .atomicReq a } then event (s.arrived k)
    else event ((s.land k).arrive8 c (.atomic a))
  | some { src := _, dst := .cell c, pay := .message m } =>
    let s := s.land k
    match m.link with
    | some l => if m.hops = 0 && !s.pairedAsid l m.tenant (epAsid m.target) then event (s.returnMsg c m 2) else event (s.deliverMsg c m)
    | none => event (s.deliverMsg c m)
  | _ => event s

/-- A returned message reaches its sender (R327): cause 63 in the sending context, or event 8. -/
def execReturnedMessageArrival (s : State) : Host.Outcome State Fault Refusal :=
  let k := s.cur.k
  match s.arriving k with
  | some { src := _, dst := .cell c, pay := .returned m reason } =>
    let s := s.land k
    if s.ctxTask c m.ctx = m.task && (s.ctxAt c m.ctx).st != .idle then
      event (s.addAsync c m.ctx m.region m.task { cause := 63, val := m.name, info := word reason } none)
    else event (s.pushEvent m.region c 8 m.task (word reason) m.name m.header 0)
  | _ => event s

/-- The message in a cell's outbound buffer enters the mesh, whole (R326). -/
def execMessageInjection (s : State) : Host.Outcome State Fault Refusal :=
  let c := s.cur.cell
  match (s.cell c).outbuf with
  | [] => event s
  | f :: fs => event { (s.modCell c fun x => { x with outbuf := fs }) with net := s.net ++ [f] }

/-- `amsg` (R335): the name's checks, the release wait, then the message is assembled in the outbound buffer. Naming an
ASID of another tenant freezes the sender (R370). -/
def execAmsg (x : ArgAmsg) (s : State) : Host.Outcome State Fault Refusal :=
  issue (.amsg x) x.g anyCtx (fun s => do
    let c := s.cur.cell
    let i := s.cur.ctx
    let name := s.me.rs x.a
    let region := s.ctxRegion c i
    let remote := epRemote name
    trapIf (if 2 ^ 44 ≤ name.toNat || (remote && !s.linkOpen (epLink name) s.myTenant) then some (msgFault name 1) else none)
    stopIf (if !remote && !(s.regions.any fun r => r.2.asid == epAsid name && r.2.tenant == s.myTenant) then
      some (.freeze .message (msgFault name 2)) else none)
    s.releaseWait (if remote then .sys else .mod)
    stallIf (!(s.cell c).outbuf.isEmpty)
    let m : Msg :=
      { name, target := name, cls := x.cls.val, n := x.n.val, words := (List.range x.n.val).map fun k => s.me.rsN (x.b.val + k),
        hops := 0, cell := c, ctx := i, task := s.ctxTask c i, region, tenant := s.myTenant, link := none }
    let f : Flight := { src := .cell c, dst := if remote then .link (epLink name) else .cell (epCell name), pay := .message m }
    .ok (s.modCell c fun y => { y with outbuf := [f] }).retire) s

/-! ### htab (R336) -/

/-- A failure word of `htab`, `epmov` and `eppark`. -/
def failWord (n : Nat) : Word := word (2 ^ 63 + n)

/-- The requests for context 8 that meet a test taken out of a cell's queue. -/
def State.takeRequests (s : State) (c : Nat) (p : Msg → Nat → Bool) : List Msg × State :=
  let hit (q : Req8) : Bool := match q with
    | .handler m r => p m r
    | _ => false
  let x := s.cell c
  let msgs := (x.in8 ++ x.over8).filterMap fun q => match q with
    | .handler m r => if p m r then some m else none
    | _ => none
  let spilled := x.over8.filter hit
  let s := spilled.foldl (fun s q => s.credit8 q) s
  (msgs, (s.modCell c fun x => { x with in8 := x.in8.filter fun q => !hit q, over8 := x.over8.filter fun q => !hit q }).refill8 c 64)

/-- `htab set`: the status, or the state with the entry installed (R328, R336). -/
def State.htabSet (s : State) (c region cls : Nat) (ty : Word) : Except Nat State :=
  let held := Assoc.get? cls (s.cell c).htab
  if cls < 8 || ((held.map (·.region)).getD region) ≠ region then .error 1
  else
    match (if ty.toNat < 2 ^ 16 then s.taskType (s.tenantOf region) ty.toNat else none) with
    | none => .error 2
    | some t =>
      if t.actor || 32 < t.sregs || 8 < t.vregs then .error 2
      else
        let u := s.modCell c fun x => { x with htab := Assoc.erase cls x.htab }
        match u.frameFit c region t.frame with
        | none => .error 3
        | some lo =>
          .ok (u.modCell c fun x =>
            { x with htab := Assoc.put cls { region, ty := ty.toNat, frameLo := lo, frameHi := lo + t.frame } x.htab })

/-- `htab set` (R336). -/
def execHtabSet (x : ArgHtab) (s : State) : Host.Outcome State Fault Refusal :=
  issue (.htabSet x) x.g taskCtx (fun s =>
    let c := s.cur.cell
    match s.htabSet c (s.ctxRegion c s.cur.ctx) x.cls.val (s.me.rs x.a) with
    | .error e => s.update fun y => y.ws x.d (failWord e)
    | .ok s => s.update fun y => y.ws x.d 0) s

/-- `htab clr` (R336): messages queued for the entry are returned with reason 5. -/
def execHtabClr (x : ArgHtab) (s : State) : Host.Outcome State Fault Refusal :=
  issue (.htabClr x) x.g taskCtx (fun s =>
    let c := s.cur.cell
    let r := s.ctxRegion c s.cur.ctx
    let k := x.cls.val
    match Assoc.get? k (s.cell c).htab with
    | none => s.update fun y => y.ws x.d (failWord (if k < 8 then 1 else 4))
    | some e =>
      if e.region ≠ r then s.update fun y => y.ws x.d (failWord 1)
      else
        let s := s.modCell c fun y => { y with htab := Assoc.erase k y.htab }
        let (ms, s) := s.takeRequests c fun m q => m.cls == k && q == r
        let s := ms.foldl (fun s m => s.returnMsg c m 5) s
        s.update fun y => y.ws x.d 0) s

/-- The lowest free endpoint number of a cell whose store has room. -/
def Cell.freeEp (x : Cell) : Option Nat := if x.eps.length < 64 then Assoc.firstFree x.eps 0 65 else none

/-- `htab epnew` (R336). -/
def execHtabEpnew (x : ArgD) (s : State) : Host.Outcome State Fault Refusal :=
  issue (.htabEpnew x) x.g taskCtx (fun s =>
    let c := s.cur.cell
    let r := s.ctxRegion c s.cur.ctx
    match (s.cell c).freeEp with
    | none => s.update fun y => y.ws x.d (failWord 3)
    | some n =>
      let s := s.modCell c fun y => { y with eps := Assoc.put n { region := r, st := .resident } y.eps }
      s.update fun y => y.ws x.d (mkEp (s.asidOf c s.cur.ctx) n c)) s

/-- The endpoint entry of a region that one of its local names finds at the executing cell (R324): the name's link field is of no
use. -/
def State.ownEndpoint (s : State) (c region : Nat) (n : Word) : Option Endpoint :=
  if n.toNat < 2 ^ 44 && !epRemote n && epCell n == c && ((s.region region).map (·.asid)) == some (epAsid n) then
    (s.endpointAt c n).filter fun e => e.region == region
  else none

/-- `htab epdel` (R336): queued messages are returned with reason 3. -/
def execHtabEpdel (x : ArgDA) (s : State) : Host.Outcome State Fault Refusal :=
  issue (.htabEpdel x) x.g taskCtx (fun s =>
    let c := s.cur.cell
    let r := s.ctxRegion c s.cur.ctx
    let n := s.me.rs x.a
    let gone := match s.ownEndpoint c r n with
      | none => false
      | some e => match e.st with
        | .resident | .stub _ => true
        | _ => false
    if !gone then s.update fun y => y.ws x.d (failWord 4)
    else
      let s := s.modCell c fun y => { y with eps := Assoc.erase (epNumber n) y.eps }
      let (ms, s) := s.takeRequests c fun m q => epNumber m.target == epNumber n && q == r
      let s := ms.foldl (fun s m => s.returnMsg c m 3) s
      s.update fun y => y.ws x.d 0) s

/-- `htab rd` (R328, R336). -/
def execHtabRd (x : ArgHtab) (s : State) : Host.Outcome State Fault Refusal :=
  issue (.htabRd x) x.g taskCtx (fun s =>
    let c := s.cur.cell
    let k := x.cls.val
    let v : Word :=
      if k < 8 then word (2 ^ 63 + 2 ^ 62)
      else match Assoc.get? k (s.cell c).htab with
        | none => 0
        | some e => if e.region = s.ctxRegion c s.cur.ctx then word (2 ^ 63 + e.region * 2 ^ 32 + e.ty * 2 ^ 16) else word (2 ^ 63)
    s.update fun y => y.ws x.d v) s

/-! ### epmov and eppark (R337, R338) -/

/-- `epmov` (R337): delivery stops and the target is asked; the context holds. -/
def execEpmov (x : ArgDAB) (s : State) : Host.Outcome State Fault Refusal :=
  issue (.epmov x) x.g taskCtx (fun s =>
    let c := s.cur.cell
    let i := s.cur.ctx
    let r := s.ctxRegion c i
    let name := s.me.rs x.a
    let t := (s.me.rs x.b).toNat
    if 959 < t || (s.grant r t).isNone then Res.trap 63 name 1
    else
      match (s.ownEndpoint c r name).filter fun e => e.st == .resident with
      | none => s.update fun y => y.ws x.d (failWord 1)
      | some e =>
        let n := epNumber name
        let s := s.modCell c fun y => { y with eps := Assoc.put n { e with st := .moving } y.eps }
        let s := s.send (.cell c) (.cell t) (.epmov name n r (s.asidOf c i) c i (s.ctxTask c i))
        .ok (s.modMe fun y => { y with st := .waiting (.epmov x.d), stalled := false })) s

/-- The state with an `epmov` answered to the context that waits for it. -/
def State.epmovAnswer (s : State) (c i : Nat) (task : Word) (v : Word) : State :=
  if s.ctxTask c i = task then
    match (s.ctxAt c i).st with
    | .waiting (.epmov d) => s.modCtx c i fun x => { (x.ws d v) with st := .running }.retire
    | _ => s
  else s

/-- An `epmov` reaches its target (R337): the target makes a resident entry, the old one becomes a stub, the queued
messages follow in order; or the target's store is full and the endpoint stays. -/
def execEpmovTargetArrival (s : State) : Host.Outcome State Fault Refusal :=
  let k := s.cur.k
  match s.arriving k with
  | some { src := _, dst := .cell t, pay := .epmov _ n r asid c i task } =>
    let s := s.land k
    match Assoc.get? n (s.cell c).eps with
    | some { region := q, st := .moving } =>
      if q ≠ r then event (s.epmovAnswer c i task (failWord 1))
      else
        match (s.cell t).freeEp with
        | none =>
          let s := s.modCell c fun y => { y with eps := Assoc.put n { region := r, st := .resident } y.eps }
          event (s.epmovAnswer c i task (failWord 3))
        | some k =>
          let new := mkEp asid k t
          let (ms, s) := s.takeRequests c fun m q => epNumber m.target == n && q == r
          let s := s.modCell t fun y => { y with eps := Assoc.put k { region := r, st := .resident } y.eps }
          let s := s.modCell c fun y => { y with eps := Assoc.put n { region := r, st := .stub new } y.eps }
          let s := ms.foldl (fun s m => s.send (.cell c) (.cell t) (.message { m with target := new })) s
          event (s.epmovAnswer c i task new)
    | _ => event (s.epmovAnswer c i task (failWord 1))
  | _ => event s

/-- The state with a resident endpoint parked: its queue moves to its save area (R331, R338). -/
def State.parkEndpoint (s : State) (c n : Nat) (e : Endpoint) (byPark : Bool) : State :=
  let (ms, s) := s.takeRequests c fun m q => epNumber m.target == n && q == e.region
  let s := s.modCell c fun y => { y with eps := Assoc.put n { e with st := .parked [] byPark } y.eps }
  ms.foldl (fun s m =>
    match Assoc.get? n (s.cell c).eps with
    | some { region := r, st := .parked q b } => s.parkMsg c n { region := r, st := .parked q b } q b m
    | _ => s) s

/-- The state with a parked endpoint resident again: its queue is replayed in order, as its save area holds it (R331). -/
def State.resumeEndpoint (s : State) (c n : Nat) (e : Endpoint) (q : List (Nat × Msg)) : State :=
  let ms := q.map fun p => p.2.reread (s.spillBytes c p.1 48)
  let s := s.credit e.region (48 * q.length)
  let s := s.modCell c fun y => { y with eps := Assoc.put n { e with st := .resident } y.eps }
  ms.foldl (fun s m => s.deliverMsg c m) s

/-- `eppark park` (R338). -/
def execEpparkPark (x : ArgDA) (s : State) : Host.Outcome State Fault Refusal :=
  issue (.epparkPark x) x.g taskCtx (fun s =>
    let c := s.cur.cell
    let name := s.me.rs x.a
    match (s.ownEndpoint c (s.ctxRegion c s.cur.ctx) name).filter fun e => e.st == .resident with
    | none => s.update fun y => y.ws x.d (failWord 1)
    | some e =>
      let s := s.parkEndpoint c (epNumber name) e true
      s.update fun y => y.ws x.d 0) s

/-- `eppark resume` (R338). -/
def execEpparkResume (x : ArgDA) (s : State) : Host.Outcome State Fault Refusal :=
  issue (.epparkResume x) x.g taskCtx (fun s =>
    let c := s.cur.cell
    let name := s.me.rs x.a
    match s.ownEndpoint c (s.ctxRegion c s.cur.ctx) name with
    | some { region := r, st := .parked q b } =>
      let s := s.resumeEndpoint c (epNumber name) { region := r, st := .parked q b } q
      s.update fun y => y.ws x.d 0
    | _ => s.update fun y => y.ws x.d (failWord 1)) s

/-! ### Atomics (R333, R334) -/

/-- The access of an atomic. -/
def State.newAtomic (s : State) (x : ArgAtom) (cls : Nat) (ea : Word) : Acc where
  cell := s.cur.cell
  ctx := s.cur.ctx
  task := s.ctxTask s.cur.cell s.cur.ctx
  seq := s.me.seq
  region := s.ctxRegion s.cur.cell s.cur.ctx
  asid := s.asidOf s.cur.cell s.cur.ctx
  pc := s.me.pc
  op := .atomic cls
  sp := x.space
  peer := none
  lanes := [{ addr := ea.toNat, len := tyBytes x.ty, data := [] }]
  dest := x.data.val
  ty := x.ty
  vec := false
  ordAcq := x.ord == .acq || x.acqrel || x.failAcq
  ordRel := x.ord == .rel || x.acqrel
  scope := x.scope
  cons := false
  sc := x.ord == .sc
  v := s.me.rs x.index
  v2 := s.me.rsN (x.index.val + 1)
  pieces := []
  kind := .R
  rank := 0
  done := false
  retry := none

/-- The effective address of an atomic: base and displacement; for `.peer` the offset of the peer address word (R333). -/
def Ctx.atomicEa (y : Ctx) (x : ArgAtom) : Word :=
  if x.space = .peer then word ((y.rs x.base).toNat % 2 ^ 21) + x.disp.signExtend 64 else y.rs x.base + x.disp.signExtend 64

/-- The checks of an atomic before translation (R166, R333, R334). -/
def State.atomicCheck (s : State) (x : ArgAtom) (ea : Word) : Option TrapInfo :=
  let c := s.cur.cell
  let n := tyBytes x.ty
  if x.space = .peer && slice (s.me.rs x.base).toNat 21 35 ≠ 0 then some (accessFault true (s.me.rs x.base))
  else if ea.toNat % n ≠ 0 then some (misaligned true ea)
  else if x.space = .glb || x.space = .peer then none
  else if !s.grantCheck c s.cur.ctx x.space ea.toNat n true then some (accessFault true ea)
  else if x.base.val = 2 && x.space = .loc && ea.toNat < s.me.xsl.toNat % 2 ^ 21 then some { cause := 27, val := ea, info := 0 }
  else s.tileCheck c x.space ea.toNat n true ea

/-- The state with an access counted and its context gone on. -/
def State.issued (s : State) : State := s.modMe fun y => { y with seq := y.seq + 1 }.retire

/-- An atomic on a local space (R334): performed at once when context 8 is free, or in line by context 8 itself; else it
waits for context 8. A memory error makes a retry-ring entry (R234). -/
def State.atomicLocal (s : State) (x : ArgAtom) (cls : Nat) (ea : Word) : Res := do
  let c := s.cur.cell
  let i := s.cur.ctx
  let n := tyBytes x.ty
  let a := (s.newAtomic x cls ea).atLocal c x.space
  stopIf (s.keyCheck c x.space ea.toNat n (s.tenantOf a.region) ea)
  stallIf (s.localHeld c i [(localHome c x.space ea.toNat, n)] || (a.ordRel && !s.releaseReady c i x.scope))
  let y := s.cell c
  let free := i = 8 || (y.run8.isNone && y.in8.isEmpty && y.over8.isEmpty)
  if free then do
    stallIf (s.atomicHeld a)
    match s.badUnit a with
    | some u => .ok (s.issued.faultMem a u)
    | none =>
      let s := if i = 8 then s else s.chargeTo c (s.tenantOf a.region) .handler 1
      let r := s.performAtomic a cls
      .ok (r.1.modMe fun y => { (a.fill [leBytes n r.2.toNat] y) with seq := y.seq + 1 }.retire)
  else do
    stallIf (64 ≤ s.replyLoad c)
    .ok ((s.enqueue8 c (.atomic a)).issued)

/-- An atomic on a peer's scratchpad (R333). -/
def State.atomicPeer (s : State) (x : ArgAtom) (cls : Nat) (ea : Word) : Res := do
  let c := s.cur.cell
  let rank := word (slice (s.me.rs x.base).toNat 56 8)
  match s.peerCell rank with
  | none => Res.trap 28 ea rank
  | some k =>
    let n := tyBytes x.ty
    let a := s.newAtomic x cls ea
    trapIf (if s.granted a.region k .loc ea.toNat n then none else some (accessFault true ea))
    stallIf (64 ≤ s.replyLoad c || s.outHeld c (.cell k))
    let piece : Piece := { lane := 0, off := 0, len := n, home := locA k ea.toNat }
    .ok ((s.post c (.cell k) (.atomicReq { a with peer := some k, pieces := [piece], done := true, rank := rank.toNat })).issued)

/-- Whether an atomic of context 8 that is performed in line waits for its place in its context's order, or for a write at its station
(R205, R215). -/
def State.lineHeld (s : State) (a : Acc) : Bool :=
  !s.inOrder a || s.waitsFor s.net.length (stationPlace a.cell) a || s.seenWait s.net.length a

/-- An atomic on global memory (R334); context 8 translates it first and performs it in line, where its home is the
handler's own cell (R330). -/
def State.atomicGlb (s : State) (x : ArgAtom) (cls : Nat) (ea : Word) : Res := do
  let c := s.cur.cell
  let a := s.newAtomic x cls ea
  stallIf (64 ≤ s.replyLoad c)
  if s.cur.ctx ≠ 8 then s.issueGlb a
  else do
    stallIf (s.glbHeld c 8 || 16 ≤ s.stationLoad c || (s.moving c 8).any (!·.done))
    match s.translateNow a 2 with
    | (_, .miss _) => Res.stall
    | (s, .fault va f) => .ok (s.issued.deliverFault a (a.laneAddr va) (a.pageFault va f) (s.foreign a.asid f))
    | (s, .ok ps) =>
      let home := ((ps.head?).map (·.home)).getD 0
      let a := a.translated ps
      trapIf (s.pageTrap a ps)
      if homeCell home ≠ c then Res.trap 63 ea 7
      else do
        stallIf (s.lineHeld a)
        match s.badUnit a with
        | some u => .ok (s.issued.faultMem a u)
        | none =>
          let r := s.performAtomic a cls
          .ok (r.1.modMe fun y => { (a.fill [leBytes (tyBytes x.ty) r.2.toNat] y) with seq := y.seq + 1 }.retire)

/-- A sequentially consistent atomic: a full fence, then the announcement, then its message to its home (R213, R218, R334). -/
def State.atomicSc (s : State) (x : ArgAtom) (cls : Nat) (ea : Word) : Res := do
  let c := s.cur.cell
  let a := s.newAtomic x cls ea
  let n := tyBytes x.ty
  stallIf (!s.fullReady c s.cur.ctx || 64 ≤ s.replyLoad c)
  match x.space with
  | .glb => s.issueScGlb a
  | .peer =>
    let rank := word (slice (s.me.rs x.base).toNat 56 8)
    match s.peerCell rank with
    | none => Res.trap 28 ea rank
    | some k =>
      trapIf (if s.granted a.region k .loc ea.toNat n then none else some (accessFault true ea))
      let piece : Piece := { lane := 0, off := 0, len := n, home := locA k ea.toNat }
      s.announceWhen { a with peer := some k, pieces := [piece], done := true, rank := rank.toNat }
  | sp => do
    stopIf (s.keyCheck c sp ea.toNat n (s.tenantOf a.region) ea)
    s.announceWhen (a.atLocal c sp)

/-- An atomic instruction (R333, R334). -/
def State.atomic (s : State) (x : ArgAtom) (cls : Nat) : Res := do
  let ea := s.me.atomicEa x
  trapIf (s.atomicCheck x ea)
  stallIf (16 ≤ s.loadCount s.cur.cell s.cur.ctx)
  if x.ord = .sc then s.atomicSc x cls ea
  else
    match x.space with
    | .glb => s.atomicGlb x cls ea
    | .peer => s.atomicPeer x cls ea
    | _ => s.atomicLocal x cls ea

/-- The contexts that may issue an atomic: the `.sc` forms not context 8 (R330). -/
def atomicCtx (x : ArgAtom) (i : Nat) : Bool := i ≠ 8 || x.ord != .sc

/-- `aadd` (R334). -/
def execAadd (x : ArgAtom) (s : State) : Host.Outcome State Fault Refusal :=
  issue (.aadd x) x.g (atomicCtx x) (fun s => s.atomic x 0) s

/-- `aand` (R334). -/
def execAand (x : ArgAtom) (s : State) : Host.Outcome State Fault Refusal :=
  issue (.aand x) x.g (atomicCtx x) (fun s => s.atomic x 1) s

/-- `aor` (R334). -/
def execAor (x : ArgAtom) (s : State) : Host.Outcome State Fault Refusal :=
  issue (.aor x) x.g (atomicCtx x) (fun s => s.atomic x 2) s

/-- `axor` (R334). -/
def execAxor (x : ArgAtom) (s : State) : Host.Outcome State Fault Refusal :=
  issue (.axor x) x.g (atomicCtx x) (fun s => s.atomic x 3) s

/-- `amax` (R334). -/
def execAmax (x : ArgAtom) (s : State) : Host.Outcome State Fault Refusal :=
  issue (.amax x) x.g (atomicCtx x) (fun s => s.atomic x 4) s

/-- `amin` (R334). -/
def execAmin (x : ArgAtom) (s : State) : Host.Outcome State Fault Refusal :=
  issue (.amin x) x.g (atomicCtx x) (fun s => s.atomic x 5) s

/-- `aswp` (R334). -/
def execAswp (x : ArgAtom) (s : State) : Host.Outcome State Fault Refusal :=
  issue (.aswp x) x.g (atomicCtx x) (fun s => s.atomic x 6) s

/-- `acas` (R211, R334). -/
def execAcas (x : ArgAtom) (s : State) : Host.Outcome State Fault Refusal :=
  issue (.acas x) x.g (atomicCtx x) (fun s => s.atomic x 7) s

end Sys2Proof.Machine
end

