-- ==== Sys2Proof/Machine/Engines.lean ====
section
/-! DEFINITION. What the copy engine and the matrix unit share: registration in the scoreboard (R185 to R190), transfer
ids (R180), the acquire and the release of an operation (R210), and completion actions (R181). -/
namespace Sys2Proof.Machine

/-! ### Registration -/

/-- A byte interval that an operation reads or writes (R185). -/
structure Interval where
  space : Space
  lo : Nat
  n : Nat
  write : Bool
deriving DecidableEq, Repr

/-- One of the numbers below n that are not in use, by a free choice. -/
def freeNumber (used : List Nat) (n kind fresh : Nat) : Nat :=
  let fs := (List.range n).filter fun k => !used.contains k
  fs.getD (Config.pick kind fresh % max 1 fs.length) 0

/-- The op field of a transfer id (R180). -/
def idOp (id : Word) : Nat := slice id.toNat 14 8

/-- The operation ids in use at a cell: those of its operations, and of incoming writes (R180, R187). -/
def Cell.idsInUse (x : Cell) : List Nat :=
  x.tileq.map (fun o => idOp o.id) ++ x.copyq.map (fun o => idOp o.id) ++ (x.sb.filter (·.ctx == 15)).map (·.op)

/-- An operation id that is free at a cell; which one is a free choice (R48, R180). -/
def State.freshOp (s : State) (c : Nat) : Nat := freeNumber (s.cell c).idsInUse 256 1 s.fresh

/-- The transfer id of the next operation of a context (R180). -/
def State.transferId (s : State) (c i op : Nat) : Word :=
  word (((s.ctxAt c i).opSeq + 1) % 2 ^ 40 * 2 ^ 22 + op * 2 ^ 14 + i * 2 ^ 10 + c)

/-- The state with intervals registered for an operation, one entry each, at free indices of the scoreboard (R185,
R186). -/
def State.register (s : State) (c ctx key op region : Nat) (xs : List Interval) : State :=
  xs.foldl (fun s v =>
    s.modCell c fun x =>
      let e : SbEntry :=
        { idx := freeNumber (x.sb.map (·.idx)) 64 2 s.fresh, space := v.space, lo := granLo v.lo, hi := granHi v.lo v.n,
          write := v.write, ctx, op, key, region }
      { x with sb := x.sb ++ [e] }) s

/-- Whether two entries conflict (R188). -/
def SbEntry.conflicts (e f : SbEntry) : Bool :=
  e.space == f.space && (e.write || f.write) && decide (e.lo < f.hi) && decide (f.lo < e.hi) && e.key != f.key

/-- Whether an access that holds a registration point conflicts with an entry (R188): the point is the earlier of the two,
since an access that conflicts with an entry present passes no check. -/
def SbEntry.meetsPoint (e : SbEntry) (a : Acc) : Bool :=
  a.sp == e.space && (a.writes || e.write) && a.lanes.any fun l => decide (granLo l.addr < e.hi) && decide (e.lo < granHi l.addr l.len)

/-- Whether the operation with a key is startable: no entry registered before one of its entries conflicts with it, and no
access that holds a registration point (R188). -/
def Cell.startable (x : Cell) (key : Nat) : Bool :=
  x.sb.zipIdx.all fun f => f.1.key != key
    || ((x.sb.take f.2).all (fun e => !e.conflicts f.1) && !(x.points.any fun a => f.1.meetsPoint a))

/-- Whether every access of kind R or S of a task that precedes an operation in program order has been performed, as a
scope asks (R207, R210). -/
def State.opReady (s : State) (c i : Nat) (task : Word) (seq : Nat) (sc : Scope) : Bool :=
  let ring := ((s.cell c).retry.filterMap fun e => e.2.held) ++ ((s.cell c).retryWait.filterMap fun e => e.1.acc)
  (s.movingOf c i task).all (fun a => seq ≤ a.seq || !a.holdsRelease sc)
    && ring.all (fun a => !(a.ctx == i && a.task == task && a.seq < seq) || (a.done && a.kind == .U))
    && !s.seenWrites s.net c sc

/-- Whether an operation's acquire is done (R210): every access of kind R or S that precedes it is performed, those that wait at
a station among them, and so is what happens before them. -/
def State.acqReady (s : State) (c i : Nat) (task : Word) (seq : Nat) : Bool := s.opReady c i task seq .mod

/-- Whether the issuing context of an operation is frozen, its task resident (R147, R198). -/
def State.opFrozen (s : State) (c i : Nat) (task : Word) : Bool := s.resident c i task && (s.ctxAt c i).frozen.isSome

/-! ### Completion actions (R181) -/

/-- The fault of a `port` action that may not offer at a name (R181, R300), or whose link is not up (R386). -/
def State.actPortFault (s : State) (tenant region : Nat) (name : Word) : Option TrapInfo :=
  if !portFormed name then some (portFault name 2)
  else if portRemote name then s.linkFault tenant name
  else
    match s.portEntry tenant name with
    | none => some (portFault name 2)
    | some (e, h) =>
      if e.actor || !s.inSubtree region h.region then some (portFault name 2)
      else if e.isIn then some (portFault name 3)
      else none

/-- An owner request that a completion action sends. -/
def EndAct.request (e : EndAct) (c tenant : Nat) (k : OwnKind) : OwnReq :=
  { kind := k, ref := e.word, cell := c, ctx := e.ctx, task := e.task, region := e.region, tenant, action := some e.id }

/-- A completion action performed (R181). -/
def State.doAct (s : State) (c : Nat) (e : EndAct) : State :=
  let tenant := s.tenantOf e.region
  match e.act with
  | .none => s
  | .join =>
    match s.refFault tenant 25 e.word with
    | some t => s.actFault c e t
    | none => s.sendOwner (e.request c tenant (.jdec 1))
  | .future =>
    match s.refFault tenant 27 e.word with
    | some t => s.actFault c e t
    | none => s.sendOwner (e.request c tenant (.fres true e.id.toNat))
  | .handler =>
    let n := e.word.toNat
    let head := mkHead e.region 5 1 n
    match if 2 ^ 16 ≤ n then some (taskFault e.word 1) else s.headFault tenant (word (2 ^ 16 + n)) with
    | some t => s.actFault c e { t with val := e.word }
    | none => s.sendRecord c tenant { head, reply := 0, args := [e.id, 0, 0, 0, 0, 0, 0, 0] } false c
  | .port =>
    match s.actPortFault tenant e.region e.word with
    | some t => s.actFault c e t
    | none =>
      s.sendOffer c tenant
        { port := portIndex e.word, name := e.word, item := some e.item, by_ := .action c e, alt := none,
          link := none, age := 0, arrival := 0, spilled := false, tenant }

/-- A completion action due: it waits with its context while that is frozen (R147, R198). -/
def State.finishAct (s : State) (c : Nat) (e : EndAct) : State :=
  if s.opFrozen c e.ctx e.task then s.modCell c fun x => { x with heldActs := x.heldActs ++ [e] } else s.doAct c e

end Sys2Proof.Machine
end

