-- ==== Sys2Proof/Machine/Transcendental.lean ====
section
/-! DEFINITION. The special functions of R106, 1/x, 1/√x, 2^x and log₂ x, correctly rounded: the first two exactly, the
last two from rational bounds computed in fixed point of 160 fraction bits. Where the two bounds round differently the
result is a free value (log entry 12). -/
namespace Sys2Proof.Machine

/-- One, in fixed point of 160 fraction bits. -/
def fxOne : Nat := 2 ^ 160

/-- The quotient rounded up. -/
def ceilDiv (n d : Nat) : Nat := (n + d - 1) / d

/-- Bounds of ln 2 = Σ 1/(k 2^k), from term k on, in fixed point. -/
def ln2Sum (up : Bool) : Nat → Nat → Nat
  | 0, _ => if up then 1 else 0
  | n + 1, k => (if up then ceilDiv fxOne (k * 2 ^ k) else fxOne / (k * 2 ^ k)) + ln2Sum up n (k + 1)

/-- A lower bound of ln 2. -/
def ln2Lo : Nat := ln2Sum false 170 1
/-- An upper bound of ln 2. -/
def ln2Hi : Nat := ln2Sum true 170 1

/-- A bound of e^y for 0 ≤ y < 1 in fixed point: the sum of the terms from y^k/k! = t on. -/
def expSum (up : Bool) (y : Nat) : Nat → Nat → Nat → Nat
  | 0, _, t => if up then 2 * t + 1 else 0
  | n + 1, k, t =>
    t + expSum up y n (k + 1) (if up then ceilDiv (ceilDiv (t * y) fxOne) k else t * y / fxOne / k)

/-- A bound of Σ z^(2k+1)/(2k+1) = atanh z for 0 ≤ z ≤ 1/3 in fixed point: p is the power reached, j its exponent. -/
def atanhSum (up : Bool) (zz : Nat) : Nat → Nat → Nat → Nat
  | 0, _, p => if up then 2 * p + 1 else 0
  | n + 1, j, p =>
    (if up then ceilDiv p j else p / j)
      + atanhSum up zz n (j + 2) (if up then ceilDiv (p * zz) fxOne else p * zz / fxOne)

/-- The rounding of an irrational value strictly between lo and hi in units of 2^e: inexact, and the same wherever in
between it lies, or none. -/
def between (neg : Bool) (lo hi : Nat) (e : Int) : Option (Nat × Nat) :=
  let a := roundRat 24 .rne neg (2 * lo + 1) 2 e
  let b := roundRat 24 .rne neg (2 * hi - 1) 2 e
  if a = b then some a else none

/-- The free value of a special function that the bounds do not settle: its pattern, inexact. -/
def unsettled (fn a : Nat) : Nat × Nat := ((Config.transcendental fn (BitVec.ofNat 32 a)).toNat, flNx)

/-- 1/x (R106). -/
def rcp32 (v : FVal) : Nat × Nat := div32 .rne (.fin false 1 0) v

/-- 1/√x (R106). -/
def rsqrt32 (v : FVal) : Nat × Nat :=
  match v with
  | .nan b => FVal.f32 .rne (.nan b)
  | .zero s => ((FVal.f32 .rne (.inf s)).1, flDz)
  | .inf false => FVal.f32 .rne (.zero false)
  | .inf true => FVal.f32 .rne (.nan true)
  | .fin true _ _ => FVal.f32 .rne (.nan true)
  | .fin false m e =>
    let odd := e % 2 != 0
    let m' := if odd then 2 * m else m
    let h : Int := (if odd then e - 1 else e) / 2
    let n := 2 ^ 120 / m'
    let r := isqrt n 62 0
    stickyRound .rne false r (r * r * m' == 2 ^ 120) (-60 - h)

/-- 2^x of a nonzero finite x = ±m × 2^e, with its operand pattern (R106). -/
def exp2Fin (a : Nat) (s : Bool) (m : Nat) (e : Int) : Nat × Nat :=
  let big : Bool := 9 < ratLog m 1 + e
  if big then (if s then FVal.f32 .rne (.fin false 1 (-400)) else FVal.f32 .rne (.fin false 1 400))
  else
    -- x as an integer part k and a fraction f / 2^g with 0 ≤ f < 2^g
    let g := (-e).toNat
    let n : Int := (m * 2 ^ e.toNat : Nat)
    let x : Int := if s then -n else n
    let k : Int := x.fdiv (2 ^ g)
    let f : Nat := (x - k * 2 ^ g).toNat
    if f = 0 then FVal.f32 .rne (.fin false 1 k)
    else
      let lo := expSum false (f * ln2Lo / 2 ^ g) 50 1 fxOne
      let hi := expSum true (ceilDiv (f * ln2Hi) (2 ^ g)) 50 1 fxOne
      (between false lo hi (k - 160)).getD (unsettled 0 a)

/-- 2^x (R106). -/
def exp2F32 (a : Nat) : Nat × Nat :=
  match f32Val a with
  | .nan b => FVal.f32 .rne (.nan b)
  | .zero _ => FVal.f32 .rne (.fin false 1 0)
  | .inf s => FVal.f32 .rne (if s then .zero false else .inf false)
  | .fin s m e => exp2Fin a s m e

/-- log₂ x of a positive finite x = m × 2^e (R106). -/
def log2Fin (a m : Nat) (e : Int) : Nat × Nat :=
  let l := Nat.log2 m
  let k : Int := e + l
  if m = 2 ^ l then FVal.f32 .rne (intVal k)
  else
    let zn := (m - 2 ^ l) * fxOne
    let zd := m + 2 ^ l
    let zlo := zn / zd
    let zhi := ceilDiv zn zd
    let lo := atanhSum false (zlo * zlo / fxOne) 60 1 zlo
    let hi := atanhSum true (ceilDiv (zhi * zhi) fxOne) 60 1 zhi
    let flo : Int := (2 * lo * fxOne / ln2Hi : Nat)
    let fhi : Int := (ceilDiv (2 * hi * fxOne) ln2Lo : Nat)
    let x := k * fxOne + flo
    let y := k * fxOne + fhi
    let r :=
      if 0 ≤ x then between false x.toNat y.toNat (-160)
      else if y ≤ 0 then between true (-y).toNat (-x).toNat (-160)
      else none
    r.getD (unsettled 1 a)

/-- log₂ x (R106). -/
def log2F32 (a : Nat) : Nat × Nat :=
  match f32Val a with
  | .nan b => FVal.f32 .rne (.nan b)
  | .zero _ => ((FVal.f32 .rne (.inf true)).1, flDz)
  | .inf false => FVal.f32 .rne (.inf false)
  | .inf true => FVal.f32 .rne (.nan true)
  | .fin true _ _ => FVal.f32 .rne (.nan true)
  | .fin false m e => log2Fin a m e

end Sys2Proof.Machine
end

