-- ==== Sys2Proof/Machine/Vector.lean ====
section
/-! DEFINITION. The meanings of the number chapter: scalar floating point (R110 to R116) and the vector unit (R117 to
R127). -/
namespace Sys2Proof.Machine

/-- A scalar float result: 0 : value, with its flags (R110). -/
def State.wsFloat (s : State) (d : SReg) (r : Nat × Nat) : Res :=
  s.update fun y => (y.ws d (word r.1)).addFlags r.2

/-- The low 32 bits of a scalar (R94). -/
def Ctx.rf (y : Ctx) (r : SReg) : Nat := (y.rs r).toNat % 2 ^ 32

/-- A rounded scalar operation on two FP32 operands (R111). -/
def floatArith (x : ArgFAr) (op : Rnd → FVal → FVal → Nat × Nat) (s : State) : Res :=
  s.wsFloat x.d (op (s.me.mode x.r) (f32Val (s.me.rf x.a)) (f32Val (s.me.srcF x.b)))

/-- The sum of two values rounded to FP32. -/
def fadd32 (md : Rnd) (a b : FVal) : Nat × Nat := sum32 md [a, b]
/-- The difference of two values rounded to FP32. -/
def fsub32 (md : Rnd) (a b : FVal) : Nat × Nat := sum32 md [a, b.negate]
/-- The product of two values rounded to FP32. -/
def fmul32 (md : Rnd) (a b : FVal) : Nat × Nat := (a.mul b).f32 md
/-- a × b + c rounded once to FP32 (R112). -/
def fma32 (md : Rnd) (a b c : FVal) : Nat × Nat := sum32 md [a.mul b, c]

/-- A vector result of sixteen 32-bit lanes with its flags. -/
def State.wvLanes (s : State) (d : VReg) (rs : List (Nat × Nat)) : Res :=
  s.update fun y => (y.wv d (vecOf 32 (rs.map (·.1)))).addFlags (orFlags rs)

/-- An integer lane result: clamped with the saturation flag, or taken modulo 2^32 (R118). -/
def intLane (sg sat : Bool) (v : Int) : Nat × Nat :=
  if sat then
    let c := clampTo 32 sg v
    (bitsOf32 c.1, flagIf c.2 flSat)
  else (bitsOf32 v, 0)
where
  /-- The 32 bits of an integer. -/
  bitsOf32 (v : Int) : Nat := (v % 2 ^ 32).toNat

/-- An integer lane as a value. -/
def laneInt (sg : Bool) (n : Nat) : Int := if sg then asInt 32 n else n

/-- An element-wise operation: on FP32 values in a mode, or on integers (R118). -/
def vecArith (x : ArgV) (ff : Rnd → Nat → Nat → Nat × Nat) (fi : Int → Int → Int) (s : State) : Res :=
  let a := lanesOf (s.me.rv x.a)
  let b := lanesOf (s.me.srcV x.b)
  let sg := tySigned x.ty
  s.wvLanes x.d (List.zipWith (fun p q =>
    if x.ty = .f32 then ff (s.me.mode x.r) p q
    else intLane sg x.sat (fi (laneInt sg p) (laneInt sg q))) a b)

/-- An element-wise operation on the bits of the lanes, its integer result taken by `intLane` (R118). -/
def vecBits (x : ArgV) (f : Nat → Nat → Int) (s : State) : Res :=
  s.wvLanes x.d (List.zipWith (fun p q => intLane (tySigned x.ty) x.sat (f p q)) (lanesOf (s.me.rv x.a))
    (lanesOf (s.me.srcV x.b)))

/-- A special function on each lane (R122). -/
def vecSpecial (x : ArgVV) (f : Nat → Nat × Nat) (s : State) : Res :=
  s.wvLanes x.d ((lanesOf (s.me.rv x.a)).map f)

/-- The bits of an integer conversion result extended to a scalar (R115). -/
def cvtWord (t : Ty) (v : Int) : Word := ext64 (tyBits t) (tySigned t) v

/-- An integer or BF16 pattern of a type, rounded to FP32 (R115). -/
def toF32 (t : Ty) (md : Rnd) (n : Nat) : Nat × Nat := (elemVal 0 t n 0).f32 md

/-- The exact sum of a list of integers. -/
def sumInt (xs : List Int) : Int := xs.foldl (· + ·) 0

/-- The scale operand of R126: lane 0 of operand b, a scalar or an immediate. -/
def Ctx.scaleF (y : Ctx) (b : SrcB) : FVal := f32Val (y.srcF b)

/-- One quotient of `vqnt` (R107, R126): bits of the element and flags. -/
def quantize (w : Nat) (sg : Bool) (md : Rnd) (v sc : FVal) : Nat × Nat :=
  let put (z : Int) : Nat := (z % 2 ^ w).toNat
  match sc, v with
  | .fin t n f, .fin u m e =>
    let neg := t != u
    let r := roundUnits md neg m n (e - f) 0
    let q : Int := if neg then -(r.1 : Int) else r.1
    let c := clampTo w sg q
    (put c.1, flagIf r.2 flNx + flagIf c.2 flSat)
  | .fin _ _ _, .zero _ => (0, 0)
  | .fin _ _ _, .nan _ => (0, flNv)
  | .fin t _ _, .inf u => (put (if t != u then tyLo w sg else tyHi w sg), flSat)
  | _, _ => (0, flNv)

/-- The bytes of a vector. -/
def bytesOfV (v : VWord) : List Nat := (List.range 64).map (elemOf 8 v)

/-- The executing context's NT4 table. -/
def State.tbl (s : State) : BitVec 128 := s.me.tbl

/-- `fadd` (R111). -/
def execFadd (x : ArgFAr) (s : State) : Host.Outcome State Fault Refusal :=
  issue (.fadd x) x.g anyCtx (floatArith x fadd32) s

/-- `fsub` (R111). -/
def execFsub (x : ArgFAr) (s : State) : Host.Outcome State Fault Refusal :=
  issue (.fsub x) x.g anyCtx (floatArith x fsub32) s

/-- `fmul` (R111). -/
def execFmul (x : ArgFAr) (s : State) : Host.Outcome State Fault Refusal :=
  issue (.fmul x) x.g anyCtx (floatArith x fmul32) s

/-- `fdiv` (R111). -/
def execFdiv (x : ArgFAr) (s : State) : Host.Outcome State Fault Refusal :=
  issue (.fdiv x) x.g anyCtx (floatArith x div32) s

/-- `fmin` (R111). -/
def execFmin (x : ArgFAr) (s : State) : Host.Outcome State Fault Refusal :=
  issue (.fmin x) x.g anyCtx (fun s => s.wsFloat x.d (minmax32 true (s.me.rf x.a) (s.me.srcF x.b))) s

/-- `fmax` (R111). -/
def execFmax (x : ArgFAr) (s : State) : Host.Outcome State Fault Refusal :=
  issue (.fmax x) x.g anyCtx (fun s => s.wsFloat x.d (minmax32 false (s.me.rf x.a) (s.me.srcF x.b))) s

/-- `fma`: one rounding (R112). -/
def execFma (x : ArgFma) (s : State) : Host.Outcome State Fault Refusal :=
  issue (.fma x) x.g anyCtx (fun s =>
    s.wsFloat x.d (fma32 (s.me.mode x.r) (f32Val (s.me.rf x.a)) (f32Val (s.me.srcF x.b)) (f32Val (s.me.rf x.c)))) s

/-- `fsqrt` (R113). -/
def execFsqrt (x : ArgFsqrt) (s : State) : Host.Outcome State Fault Refusal :=
  issue (.fsqrt x) x.g anyCtx (fun s => s.wsFloat x.d (sqrt32 (s.me.mode x.r) (f32Val (s.me.rf x.a)))) s

/-- `fcmp` (R114). -/
def execFcmp (x : ArgFcmp) (s : State) : Host.Outcome State Fault Refusal :=
  issue (.fcmp x) x.g anyCtx (fun s =>
    let r := fcond x.cond (s.me.rf x.a) (s.me.srcF x.b)
    s.update fun y => (y.wp x.pd r.1).addFlags r.2) s

/-- `fcvt` (R115). -/
def execFcvt (x : ArgFcvt) (s : State) : Host.Outcome State Fault Refusal :=
  issue (.fcvt x) x.g anyCtx (fun s =>
    let md := s.me.mode x.r
    if x.fromTy then s.wsFloat x.d (toF32 x.ty md (s.me.rs x.a).toNat)
    else if x.ty = .bf16 then s.wsFloat x.d ((f32Val (s.me.rf x.a)).bf16 md)
    else
      let r := cvtToInt (tyBits x.ty) (tySigned x.ty) md (f32Val (s.me.rf x.a))
      s.update fun y => (y.ws x.d (cvtWord x.ty r.1)).addFlags r.2) s

/-- `fclass` (R116). -/
def execFclass (x : ArgTDA) (s : State) : Host.Outcome State Fault Refusal :=
  issue (.fclass x) x.g anyCtx (fun s =>
    let n := if x.ty = .bf16 then (s.me.rs x.a).toNat % 2 ^ 16 * 2 ^ 16 else s.me.rf x.a
    s.wsFloat x.d (2 ^ fclassBit (slice n 23 8) (slice n 0 23) (f32Val n), 0)) s

/-- `vadd` (R118). -/
def execVadd (x : ArgV) (s : State) : Host.Outcome State Fault Refusal :=
  issue (.vadd x) x.g anyCtx (vecArith x (fun md p q => fadd32 md (f32Val p) (f32Val q)) (· + ·)) s

/-- `vsub` (R118). -/
def execVsub (x : ArgV) (s : State) : Host.Outcome State Fault Refusal :=
  issue (.vsub x) x.g anyCtx (vecArith x (fun md p q => fsub32 md (f32Val p) (f32Val q)) (· - ·)) s

/-- `vmul` (R118). -/
def execVmul (x : ArgV) (s : State) : Host.Outcome State Fault Refusal :=
  issue (.vmul x) x.g anyCtx (vecArith x (fun md p q => fmul32 md (f32Val p) (f32Val q)) (· * ·)) s

/-- `vfma` (R118). -/
def execVfma (x : ArgVfma) (s : State) : Host.Outcome State Fault Refusal :=
  issue (.vfma x) x.g anyCtx (fun s =>
    let md := s.me.mode x.r
    let ab := List.zipWith (fun p q => (f32Val p).mul (f32Val q)) (lanesOf (s.me.rv x.a)) (lanesOf (s.me.srcV x.b))
    s.wvLanes x.d (List.zipWith (fun t r => sum32 md [t, f32Val r]) ab (lanesOf (s.me.rv x.c)))) s

/-- `vmin` (R118). -/
def execVmin (x : ArgV) (s : State) : Host.Outcome State Fault Refusal :=
  issue (.vmin x) x.g anyCtx (vecArith x (fun _ => minmax32 true) fun a b => if b < a then b else a) s

/-- `vmax` (R118). -/
def execVmax (x : ArgV) (s : State) : Host.Outcome State Fault Refusal :=
  issue (.vmax x) x.g anyCtx (vecArith x (fun _ => minmax32 false) fun a b => if a < b then b else a) s

/-- `vabs`: the sign cleared, or the absolute value (R118). -/
def execVabs (x : ArgVun) (s : State) : Host.Outcome State Fault Refusal :=
  issue (.vabs x) x.g anyCtx (fun s =>
    s.wvLanes x.d ((lanesOf (s.me.rv x.a)).map fun p =>
      if x.ty = .f32 then (p % 2 ^ 31, 0) else intLane true x.sat ((asInt 32 p).natAbs))) s

/-- `vneg`: the sign flipped, or the negation (R118). -/
def execVneg (x : ArgVun) (s : State) : Host.Outcome State Fault Refusal :=
  issue (.vneg x) x.g anyCtx (fun s =>
    s.wvLanes x.d ((lanesOf (s.me.rv x.a)).map fun p =>
      if x.ty = .f32 then (p ^^^ 2 ^ 31, 0) else intLane true x.sat (-asInt 32 p))) s

/-- `vand` (R118). -/
def execVand (x : ArgV) (s : State) : Host.Outcome State Fault Refusal :=
  issue (.vand x) x.g anyCtx (vecBits x fun p q => (p &&& q : Nat)) s

/-- `vor` (R118). -/
def execVor (x : ArgV) (s : State) : Host.Outcome State Fault Refusal :=
  issue (.vor x) x.g anyCtx (vecBits x fun p q => (p ||| q : Nat)) s

/-- `vxor` (R118). -/
def execVxor (x : ArgV) (s : State) : Host.Outcome State Fault Refusal :=
  issue (.vxor x) x.g anyCtx (vecBits x fun p q => (p ^^^ q : Nat)) s

/-- `vshl` (R118). -/
def execVshl (x : ArgV) (s : State) : Host.Outcome State Fault Refusal :=
  issue (.vshl x) x.g anyCtx (vecBits x fun p q => laneInt (tySigned x.ty) p * 2 ^ (q % 32)) s

/-- `vshr` (R118). -/
def execVshr (x : ArgV) (s : State) : Host.Outcome State Fault Refusal :=
  issue (.vshr x) x.g anyCtx (vecBits x fun p q => (p / 2 ^ (q % 32) : Nat)) s

/-- `vsra` (R118). -/
def execVsra (x : ArgV) (s : State) : Host.Outcome State Fault Refusal :=
  issue (.vsra x) x.g anyCtx (vecBits x fun p q => asInt 32 p / 2 ^ (q % 32)) s

/-- `vcmp` (R119). -/
def execVcmp (x : ArgVcmp) (s : State) : Host.Outcome State Fault Refusal :=
  issue (.vcmp x) x.g anyCtx (fun s =>
    let a := lanesOf (s.me.rv x.a)
    let b := lanesOf (s.me.srcV x.b)
    let rs := List.zipWith (fun p q =>
      match x.cond with
      | .signed c => (condHolds c 32 (asInt 32 p) (asInt 32 q), 0)
      | .unsigned c => (condHolds c 32 p q, 0)
      | .float c => fcond c p q) a b
    let n := (rs.zipIdx.map fun r => if r.1.1 then 2 ^ r.2 else 0).sum
    s.wsFloat x.d (n, rs.foldl (fun f r => f ||| r.2) 0)) s

/-- `vsel` (R119). -/
def execVsel (x : ArgVsel) (s : State) : Host.Outcome State Fault Refusal :=
  issue (.vsel x) x.g anyCtx (fun s =>
    let c := (s.me.rs x.c).toNat
    let ab := List.zip (lanesOf (s.me.rv x.a)) (lanesOf (s.me.srcV x.b))
    s.wvLanes x.d (ab.zipIdx.map fun r => (if bit c r.2 then r.1.1 else r.1.2, 0))) s

/-- `vcvt` (R120). -/
def execVcvt (x : ArgVcvt) (s : State) : Host.Outcome State Fault Refusal :=
  issue (.vcvt x) x.g anyCtx (fun s =>
    let md := s.me.mode x.r
    let a := s.me.rv x.a
    if x.fromTy then
      s.wvLanes x.d ((List.range 16).map fun i => toF32 x.ty md (elemOf (tyBits x.ty) a i))
    else if x.ty = .bf16 then
      let rs := (lanesOf a).map fun p => (f32Val p).bf16 md
      s.update fun y => (y.wv x.d (vecOf 16 (rs.map (·.1)))).addFlags (orFlags rs)
    else
      s.wvLanes x.d ((lanesOf a).map fun p =>
        let r := cvtToInt 32 (tySigned x.ty) md (f32Val p)
        ((r.1 % 2 ^ 32).toNat, r.2))) s

/-- `vexpand`: exact FP32 values of sixteen elements (R121). -/
def execVexpand (x : ArgVexp) (s : State) : Host.Outcome State Fault Refusal :=
  issue (.vexpand x) x.g anyCtx (fun s =>
    let n := (s.me.rv x.a).toNat
    s.wvLanes x.d ((List.range 16).map fun i => (((elemVal s.tbl x.ty n (16 * x.grp.val + i)).f32 .rne).1, 0))) s

/-- `vrcp` (R106, R122). -/
def execVrcp (x : ArgVV) (s : State) : Host.Outcome State Fault Refusal :=
  issue (.vrcp x) x.g anyCtx (vecSpecial x fun p => rcp32 (f32Val p)) s

/-- `vrsqrt` (R106, R122). -/
def execVrsqrt (x : ArgVV) (s : State) : Host.Outcome State Fault Refusal :=
  issue (.vrsqrt x) x.g anyCtx (vecSpecial x fun p => rsqrt32 (f32Val p)) s

/-- `vexp2` (R106, R122). -/
def execVexp2 (x : ArgVV) (s : State) : Host.Outcome State Fault Refusal :=
  issue (.vexp2 x) x.g anyCtx (vecSpecial x exp2F32) s

/-- `vlog2` (R106, R122). -/
def execVlog2 (x : ArgVV) (s : State) : Host.Outcome State Fault Refusal :=
  issue (.vlog2 x) x.g anyCtx (vecSpecial x log2F32) s

/-- `vredsum` (R123). -/
def execVredsum (x : ArgVred) (s : State) : Host.Outcome State Fault Refusal :=
  issue (.vredsum x) x.g anyCtx (fun s =>
    let a := lanesOf (s.me.rv x.a)
    let c := s.me.rs x.c
    if x.ty = .f32 then s.wsFloat x.d (sum32 (s.me.mode x.r) (f32Val (c.toNat % 2 ^ 32) :: a.map f32Val))
    else
      let v := c.toInt + sumInt (a.map (asInt 32))
      let r := clampTo 64 true v
      s.update fun y =>
        if x.sat then (y.ws x.d (ext64 64 true r.1)).addFlags (flagIf r.2 flSat) else y.ws x.d (ext64 64 true v)) s

/-- `vredmax` (R123). -/
def execVredmax (x : ArgVred) (s : State) : Host.Outcome State Fault Refusal :=
  issue (.vredmax x) x.g anyCtx (fun s =>
    let a := lanesOf (s.me.rv x.a)
    let c := s.me.rf x.c
    if x.ty = .f32 then
      s.wsFloat x.d (a.foldl (fun r p => let q := minmax32 false r.1 p; (q.1, r.2 ||| q.2)) (minmax32 false c c))
    else
      let sg := tySigned x.ty
      let v := a.foldl (fun (r : Int) p => if r < laneInt sg p then laneInt sg p else r) (laneInt sg c)
      s.update fun y => y.ws x.d (ext64 32 sg v)) s

/-- `vdot` (R124). -/
def execVdot (x : ArgVdot) (s : State) : Host.Outcome State Fault Refusal :=
  issue (.vdot x) x.g anyCtx (fun s =>
    let a := (s.me.rv x.a).toNat
    let b := (s.me.rv x.b).toNat
    let c := s.me.rf x.c
    if x.ty = .i8 then
      let v := asInt 32 c + sumInt ((List.range 64).map fun i =>
        asInt 8 (a / 2 ^ (8 * i) % 256) * asInt 8 (b / 2 ^ (8 * i) % 256))
      let r := clampTo 32 true v
      s.update fun y =>
        if x.sat then (y.ws x.d (ext64 32 true r.1)).addFlags (flagIf r.2 flSat) else y.ws x.d (ext64 32 true v)
    else
      let n := if x.ty = .bf16 then 32 else 16
      s.wsFloat x.d (sum32 (s.me.mode x.r) (f32Val c :: (List.range n).map fun i =>
        (elemVal 0 x.ty a i).mul (elemVal 0 x.ty b i)))) s

/-- `vsplat` (R125). -/
def execVsplat (x : ArgVsplat) (s : State) : Host.Outcome State Fault Refusal :=
  issue (.vsplat x) x.g anyCtx (fun s =>
    let w := tyBits x.ty
    s.update fun y => y.wv x.d (vecOf w (List.replicate (512 / w) ((y.rs x.a).toNat % 2 ^ w)))) s

/-- `vperm` (R125). -/
def execVperm (x : ArgVperm) (s : State) : Host.Outcome State Fault Refusal :=
  issue (.vperm x) x.g anyCtx (fun s =>
    s.wvLanes x.d ((lanesOf (s.me.rv x.b)).map fun k => (elemOf 32 (s.me.rv x.a) (k % 16), 0))) s

/-- `vidx` (R125). -/
def execVidx (x : ArgVidx) (s : State) : Host.Outcome State Fault Refusal :=
  issue (.vidx x) x.g anyCtx (fun s =>
    let a := (s.me.rs x.a).toNat
    let b := (s.me.srcB x.b).toNat
    s.wvLanes x.d ((List.range 16).map fun i => ((a + i * b) % 2 ^ 32, 0))) s

/-- `vmovs` in its four forms (R125). -/
def execVmovs (x : ArgVmovs) (s : State) : Host.Outcome State Fault Refusal :=
  issue (.vmovs x) x.g anyCtx (fun s =>
    s.update fun y =>
      match x.mv with
      | .toScalar d a n => y.ws d (word (elemOf 32 (y.rv a) n.val))
      | .toLane d a n =>
        y.wv d (vecOf 32 ((lanesOf (y.rv d)).zipIdx.map fun p => if p.2 = n.val then y.rf a else p.1))
      | .toTbl a => { y with tbl := (y.rv a).setWidth 128 }
      | .fromTbl d => y.wv d (y.tbl.setWidth 512)) s

/-- `vqnt`: sixteen exact quotients rounded once and clamped, the other bytes kept (R107, R126). -/
def execVqnt (x : ArgVq) (s : State) : Host.Outcome State Fault Refusal :=
  issue (.vqnt x) x.g anyCtx (fun s =>
    let md := s.me.mode x.r
    let sc := s.me.scaleF x.b
    let rs := (lanesOf (s.me.rv x.a)).map fun p => quantize 8 (tySigned x.ty) md (f32Val p) sc
    let old := bytesOfV (s.me.rv x.d)
    let g := 16 * x.grp.val
    let new := old.take g ++ rs.map (·.1) ++ old.drop (g + 16)
    s.update fun y => (y.wv x.d (vecOf 8 new)).addFlags (orFlags rs)) s

/-- `vdqnt`: element times scale, rounded once (R126). -/
def execVdqnt (x : ArgVq) (s : State) : Host.Outcome State Fault Refusal :=
  issue (.vdqnt x) x.g anyCtx (fun s =>
    let md := s.me.mode x.r
    let sc := s.me.scaleF x.b
    let n := (s.me.rv x.a).toNat
    s.wvLanes x.d ((List.range 16).map fun i => ((elemVal s.tbl x.ty n (16 * x.grp.val + i)).mul sc).f32 md)) s

/-- `vscacc`: vd + s × a with one rounding (R127). -/
def execVscacc (x : ArgVscacc) (s : State) : Host.Outcome State Fault Refusal :=
  issue (.vscacc x) x.g anyCtx (fun s =>
    let md := s.me.mode x.r
    let sc := s.me.scaleF x.b
    let n := (s.me.rv x.a).toNat
    s.wvLanes x.d ((lanesOf (s.me.rv x.d)).zipIdx.map fun p => sum32 md [f32Val p.1, sc.mul (elemVal 0 x.ty n p.2)])) s

end Sys2Proof.Machine
end

