-- ==== Sys2Proof/Machine/Matrix.lean ====
section
/-! DEFINITION. The matrix unit: the tile operations `mma`, `accz`, `accsc`, `accst` and `accld` (R131 to R145): their
checks and queueing, the arithmetic of a product, and the start and retirement of an operation. -/
namespace Sys2Proof.Machine

/-- M of a height code (R135). -/
def rowsOf : MCode → Nat
  | .m16 => 16
  | .m32 => 32
  | .m64 => 64

/-- The types of A and B, K and the bytes of a column of B (R135). -/
def pairShape : Pair → Ty × Ty × Nat × Nat
  | .bf16 => (.bf16, .bf16, 32, 64)
  | .i8 => (.i8, .i8, 64, 64)
  | .ts8 => (.ts8, .bf16, 64, 128)
  | .nt4 => (.nt4, .bf16, 128, 256)
  | .nt4x8 => (.nt4, .i8, 128, 128)

/-- Whether a pair's accumulator is INT32 (R135). -/
def pairInt : Pair → Bool
  | .i8 | .nt4x8 => true
  | _ => false

/-! ### Operands and their checks (R134, R136) -/

/-- An operand of a tile operation: its space, address, bytes, whether it is written, and the shape of an `.acc` tile. -/
structure Opnd where
  sp : Space
  a : Word
  n : Nat
  wr : Bool
  m : Nat
  cols : Nat

/-- The `.acc` tile of M rows and N columns at an address, with its bounding interval (R134). -/
def accTile (a : Word) (m n : Nat) (wr : Bool) : Opnd := { sp := .acc, a, n := 4096 * (m - 1) + 4 * n, wr, m, cols := n }
/-- A `.loc` operand. -/
def locOpnd (a : Word) (n : Nat) (wr : Bool) : Opnd := { sp := .loc, a, n, wr, m := 0, cols := 0 }

/-- The interval that an operand registers (R134). -/
def Opnd.interval (o : Opnd) : Interval := { space := o.sp, lo := o.a.toNat, n := o.n, write := o.wr }

/-- An operand that is not aligned, of one space (R136). -/
def Opnd.unaligned (sp : Space) (o : Opnd) : Option TrapInfo :=
  if o.sp == sp && o.a.toNat % 64 ≠ 0 then some (misaligned o.wr o.a) else none

/-- An `.acc` tile that leaves the rows or the columns (R136). -/
def Opnd.unshaped (o : Opnd) : Option TrapInfo :=
  if o.sp == .acc && (64 < o.a.toNat / 4096 + o.m || 1024 < o.a.toNat % 4096 / 4 + o.cols) then some (accessFault o.wr o.a)
  else none

/-- The issue of a tile operation (R133, R136, R137): the checks of its operands in order, then the limits of the queue and
the scoreboard; then its intervals are registered, and it enters the queue while its context goes on. -/
def State.issueTile (s : State) (fn : TileFn) (md : Rnd) (m n : Nat) (ops : List Opnd) (used : List Opnd) (ca cb : Bool)
    (d a b : Word) (f : Compl) : Res := do
  let c := s.cur.cell
  let i := s.cur.ctx
  let x := s.cell c
  trapIf (ops.findSome? (Opnd.unaligned .loc))
  trapIf (ops.findSome? (Opnd.unaligned .acc))
  trapIf (ops.findSome? Opnd.unshaped)
  trapIf (ops.findSome? fun o => if s.grantCheck c i o.sp o.a.toNat o.n o.wr then none else some (accessFault o.wr o.a))
  trapIf (used.findSome? fun o =>
    if (x.tileOf .loc o.a.toNat o.n).isSome then none
    else some { cause := 53, val := o.a, info := word ((((x.touched .loc o.a.toNat o.n).head?.map (·.1)).getD 0) * 2 ^ 10) })
  stallIf (s.pointHeld c i)
  stallIf (32 ≤ x.tileq.length || 8 ≤ (x.tileq.filter (·.ctx == i)).length)
  stallIf (x.openEntries < ops.length)
  let op := s.freshOp c
  let r := s.ctxRegion c i
  let o : TileOp :=
    { key := x.nextKey, id := s.transferId c i op, ctx := i, task := s.ctxTask c i, region := r, seq := s.me.seq, pc := s.me.pc,
      fn, m, n, d := d.toNat, a := a.toNat, b := b.toNat, md, tbl := s.me.tbl, ca, cb, act := f.act, word := s.me.rs f.c,
      acq := f.acq, rel := f.rel, scope := f.scope, started := false, suppressed := false }
  let s := s.modCell c fun x => { x with tileq := x.tileq ++ [o], nextKey := x.nextKey + 1 }
  let s := s.register c i o.key op r (ops.map Opnd.interval)
  .ok (s.modMe fun y => { y with opSeq := y.opSeq + 1 }.retire)

/-- `mma` (R142). -/
def execMma (x : ArgMma) (s : State) : Host.Outcome State Fault Refusal :=
  issue (.mma x) x.g anyCtx (fun s =>
    let m := rowsOf x.m
    let n := 16 * x.n6.toNat
    let a := locOpnd (s.me.rs x.a) (64 * m) false
    let b := locOpnd (s.me.rs x.b) ((pairShape x.pair).2.2.2 * n) false
    s.issueTile (.mma x.set x.pair) (s.me.mode x.r) m n [accTile (s.me.rs x.d) m n true, a, b]
      ((if x.ca then [a] else []) ++ if x.cb then [b] else []) x.ca x.cb (s.me.rs x.d) a.a b.a x.fin) s

/-- `accz` (R143). -/
def execAccz (x : ArgAccz) (s : State) : Host.Outcome State Fault Refusal :=
  issue (.accz x) x.g anyCtx (fun s =>
    let m := rowsOf x.m
    let n := 16 * x.n6.toNat
    s.issueTile .accz .rne m n [accTile (s.me.rs x.d) m n true] [] false false (s.me.rs x.d) 0 0 x.fin) s

/-- `accsc` (R144). -/
def execAccsc (x : ArgAccsc) (s : State) : Host.Outcome State Fault Refusal :=
  issue (.accsc x) x.g anyCtx (fun s =>
    let m := rowsOf x.m
    let n := 16 * x.n6.toNat
    s.issueTile (.accsc x.set x.i32) (s.me.mode x.r) m n
      [accTile (s.me.rs x.d) m n true, accTile (s.me.rs x.a) m n false, locOpnd (s.me.rs x.b) (4 * (m + n)) false]
      [] false false (s.me.rs x.d) (s.me.rs x.a) (s.me.rs x.b) x.fin) s

/-- `accst` (R145). -/
def execAccst (x : ArgAccmv) (s : State) : Host.Outcome State Fault Refusal :=
  issue (.accst x) x.g anyCtx (fun s =>
    let m := rowsOf x.m
    let n := 16 * x.n6.toNat
    s.issueTile (.accst x.i32 x.ty) (s.me.mode x.r) m n
      [locOpnd (s.me.rs x.d) (m * n * tyBytes x.ty) true, accTile (s.me.rs x.a) m n false]
      [] false false (s.me.rs x.d) (s.me.rs x.a) 0 x.fin) s

/-- `accld` (R145). -/
def execAccld (x : ArgAccmv) (s : State) : Host.Outcome State Fault Refusal :=
  issue (.accld x) x.g anyCtx (fun s =>
    let m := rowsOf x.m
    let n := 16 * x.n6.toNat
    s.issueTile (.accld x.i32 x.ty) (s.me.mode x.r) m n
      [accTile (s.me.rs x.d) m n true, locOpnd (s.me.rs x.a) (m * n * tyBytes x.ty) false]
      [] false false (s.me.rs x.d) (s.me.rs x.a) 0 x.fin) s

/-! ### The arithmetic (R137, R143 to R145) -/

/-- One element of a product (R137): row and column as the numbers that their bytes spell, and the old element. -/
def mmaElem (set : Bool) (p : Pair) (md : Rnd) (tbl : BitVec 128) (row col acc : Nat) : Nat × Nat :=
  let sh := pairShape p
  if pairInt p then
    let val (t : Ty) (n k : Nat) : Int :=
      if t == .nt4 then nt4Int tbl (n / 2 ^ (4 * k) % 16) else asInt 8 (n / 2 ^ (8 * k) % 256)
    let v := sumInt ((List.range sh.2.2.1).map fun k => val sh.1 row k * val sh.2.1 col k)
    let r := clampTo 32 true (if set then v else v + asInt 32 acc)
    ((r.1 % 2 ^ 32).toNat, flagIf r.2 flSat)
  else
    let ps := (List.range sh.2.2.1).map fun k => (elemVal tbl sh.1 row k).mul (elemVal tbl sh.2.1 col k)
    sum32 md (if set then ps else f32Val acc :: ps)

/-- The exact product of three values: invalid when a zero and an infinity are among them, whatever NaNs are (R102, R105). -/
def mul3 (a b c : FVal) : FVal :=
  let isInf (x : FVal) : Bool := match x with | .inf _ => true | _ => false
  let isZero (x : FVal) : Bool := match x with | .zero _ => true | _ => false
  if (isInf a || isInf b || isInf c) && (isZero a || isZero b || isZero c) then .nan true else (a.mul b).mul c

/-- One element of a scaling (R144): the row and column scales, the element of P, the old element. -/
def scaleElem (set i32 : Bool) (md : Rnd) (sa sb p acc : Nat) : Nat × Nat :=
  let v := if i32 then intVal (asInt 32 p) else f32Val p
  let t := mul3 (f32Val sa) (f32Val sb) v
  if set then t.f32 md else sum32 md [f32Val acc, t]

/-- One element stored to the scratchpad (R145). -/
def storeElem (i32 : Bool) (t : Ty) (md : Rnd) (p : Nat) : Nat × Nat :=
  match i32, t with
  | false, .bf16 => (f32Val p).bf16 md
  | true, .f32 => (intVal (asInt 32 p)).f32 md
  | true, .i16 | true, .i8 =>
    let r := clampTo (tyBits t) true (asInt 32 p)
    ((r.1 % 2 ^ tyBits t).toNat, flagIf r.2 flSat)
  | _, _ => (p, 0)

/-- One element loaded from the scratchpad (R145). -/
def loadElem (i32 : Bool) (t : Ty) (md : Rnd) (p : Nat) : Nat × Nat :=
  match i32, t with
  | false, .f32 => (p, 0)
  | false, _ => toF32 t md p
  | true, _ => ((asInt (tyBits t) p % 2 ^ 32).toNat, 0)

/-- A little-endian value of n bytes of a local space. -/
def State.localVal (s : State) (c : Nat) (sp : Space) (a n : Nat) : Nat := leNat (s.readLocal c sp a n)

/-- The address of element (m, n) of an `.acc` tile (R131). -/
def accAt (a m n : Nat) : Nat := a + 4096 * m + 4 * n

/-- The result of one element of an operation, from the memory as it stands: its space, its address, its width in bytes,
and its bits with the flags. -/
def State.tileElem (s : State) (c : Nat) (o : TileOp) (m n : Nat) : Space × Nat × Nat × (Nat × Nat) :=
  let old := s.localVal c .acc (accAt o.d m n) 4
  match o.fn with
  | .mma set p =>
    let col := (pairShape p).2.2.2
    (.acc, accAt o.d m n, 4,
      mmaElem set p o.md o.tbl (s.localVal c .loc (o.a + 64 * m) 64) (s.localVal c .loc (o.b + col * n) col) old)
  | .accz => (.acc, accAt o.d m n, 4, (0, 0))
  | .accsc set i32 =>
    (.acc, accAt o.d m n, 4,
      scaleElem set i32 o.md (s.localVal c .loc (o.b + 4 * m) 4) (s.localVal c .loc (o.b + 4 * (o.m + n)) 4)
        (s.localVal c .acc (accAt o.a m n) 4) old)
  | .accst i32 t =>
    (.loc, o.d + (m * o.n + n) * tyBytes t, tyBytes t, storeElem i32 t o.md (s.localVal c .acc (accAt o.a m n) 4))
  | .accld i32 t =>
    (.acc, accAt o.d m n, 4, loadElem i32 t o.md (s.localVal c .loc (o.a + (m * o.n + n) * tyBytes t) (tyBytes t)))

/-- Every element of an operation, rows first. -/
def State.tileElems (s : State) (c : Nat) (o : TileOp) : List (Space × Nat × Nat × (Nat × Nat)) :=
  (List.range o.m).flatMap fun m => (List.range o.n).map fun n => s.tileElem c o m n

/-- The state with an operation's elements written, all computed before any of them is written (R144), and the flags. -/
def State.tileWrite (s : State) (c : Nat) (o : TileOp) : State × Nat :=
  let es := s.tileElems c o
  (es.foldl (fun t e => t.writeLocal c e.1 e.2.1 (leBytes e.2.2.1 e.2.2.2.1)) s, orFlags (es.map (·.2.2.2)))

/-- The occupancy of an operation in cycles, its cost in the deficit counters (R133, R142 to R145). -/
def TileOp.occupancy (o : TileOp) : Nat :=
  match o.fn with
  | .mma _ p => if p == .bf16 then o.m * o.n * 32 / 2048 else o.m * o.n * (pairShape p).2.2.1 / 4096
  | .accz => o.m * o.n / 256
  | _ => o.m * o.n / 64

/-! ### Start and retirement (R133, R138) -/

/-- Whether an operation can start: startable, its context not frozen (R147), its acquire done (R210). -/
def State.tileReady (s : State) (c : Nat) (o : TileOp) : Bool :=
  !o.started && (s.cell c).startable o.key && !s.opFrozen c o.ctx o.task
    && (!o.acq || s.acqReady c o.ctx o.task o.seq)

/-- The state with a tile operation gone from the queue, and its entries from the scoreboard. -/
def State.dropTile (s : State) (c key : Nat) : State :=
  (s.modCell c fun x => { x with tileq := x.tileq.filter fun o => o.key != key }).dropSb c key

/-- An operation abandoned at the fault of a consumed operand (R138): no element is written, and its context takes the
tile's cause, or its region's fault handler is told. -/
def State.abandonTile (s : State) (c : Nat) (o : TileOp) (t : TrapInfo) : State :=
  (s.dropTile c o.key).addAsync c o.ctx o.region o.task t none

/-- The count step of a consumed operand (R138): the state after it, and its fault. -/
def State.consumeOpnd (s : State) (c : Nat) (o : TileOp) (a n : Nat) : State × Option TrapInfo :=
  s.consumeAt c .loc a n (word a) c o.ctx

/-- The operands of an operation that it consumes, with their lengths. -/
def TileOp.consumed (o : TileOp) : List (Nat × Nat) :=
  match o.fn with
  | .mma _ p => (if o.ca then [(o.a, 64 * o.m)] else []) ++ if o.cb then [(o.b, (pairShape p).2.2.2 * o.n)] else []
  | _ => []

/-- The count steps of an operation: when one fails, no operand is counted down, and only what the failing step itself
leaves stands (R138, R155). -/
def State.consumeAll (s : State) (c : Nat) (o : TileOp) : State × Option TrapInfo :=
  let step (r : State × Option TrapInfo) (q : Nat × Nat) : State × Option TrapInfo :=
    match r.2 with
    | some _ => r
    | none =>
      let u := r.1.consumeOpnd c o q.1 q.2
      match u.2 with
      | none => u
      | some t => (if t.cause = 52 then (s.consumeOpnd c o q.1 q.2).1 else s, some t)
  o.consumed.foldl step (s, none)

/-- The free matrix unit starts a startable operation: the tenant by the deficit counters, then the one registered first
(R133); its consumed operands are counted down when they have been read (R138). -/
def execTileOpStart (s : State) : Host.Outcome State Fault Refusal :=
  let c := s.cur.cell
  let q := (s.cell c).tileq
  let cands := if q.any (·.started) then [] else q.filter (s.tileReady c)
  match s.chooseTenant c .tile ((cands.map fun o => s.tenantOf o.region).eraseDups) with
  | none => event s
  | some (t, s) =>
    match cands.find? fun o => s.tenantOf o.region == t with
    | none => event s
    | some o =>
      let s := s.spend c t .tile o.occupancy
      let r := s.consumeAll c o
      match r.2 with
      | some f => event (r.1.abandonTile c o f)
      | none =>
        event (r.1.modCell c fun x =>
          { x with tileq := modifyFirst (·.key == o.key) (fun o => { o with started := true }) x.tileq })

/-- The operation that the unit executes retires, once its release is done (R133, R210): its elements are written, its
flags reach the task's fcsr while that is resident (R137), its entries go, and its completion action follows, if it was not
suppressed (R147). -/
def execTileOpRetire (s : State) : Host.Outcome State Fault Refusal :=
  let c := s.cur.cell
  match (s.cell c).tileq.find? (·.started) with
  | none => event s
  | some o =>
    if o.rel && !s.opReady c o.ctx o.task o.seq o.scope then event s
    else
      let r := s.tileWrite c o
      let s := if r.1.resident c o.ctx o.task then r.1.modCtx c o.ctx (·.addFlags r.2) else r.1
      let s := s.dropTile c o.key
      event (if o.suppressed then s
        else s.finishAct c { ctx := o.ctx, task := o.task, region := o.region, act := o.act, word := o.word, id := o.id, item := o.id })

end Sys2Proof.Machine
end

