-- ==== Sys2Proof/Machine/Copy.lean ====
section
/-! DEFINITION. The copy engine: `send`, `sendt`, `fill` and their layout forms (R177 to R195), the reading of chunks with
the bandwidth tokens (R184, R277), the acceptance of chunks at the destination (R183, R190, R191), acknowledgement and
retirement (R189). -/
namespace Sys2Proof.Machine

/-! ### Layouts (R179) -/

/-- A contiguous transfer (R179). -/
def Layout.flat (n : Nat) : Layout := { run := n, n1 := 1, n2 := 1, sstr1 := 0, sstr2 := 0, dstr1 := 0, dstr2 := 0 }

/-- The bytes of a transfer. -/
def Layout.total (l : Layout) : Nat := l.run * l.n1 * l.n2

/-- The bounding interval of one side: its first byte and the one after its last (R179). -/
def Layout.bound (l : Layout) (b : Nat) (t1 t2 : Int) : Int × Int :=
  let e (n : Nat) (t : Int) : Int := min 0 (((n : Int) - 1) * t)
  let f (n : Nat) (t : Int) : Int := max 0 (((n : Int) - 1) * t)
  ((b : Int) + e l.n1 t1 + e l.n2 t2, (b : Int) + f l.n1 t1 + f l.n2 t2 + l.run)

/-- The address of byte `pos` of a transfer on a side with base b and strides t1, t2 (R195). -/
def Layout.at_ (l : Layout) (b : Nat) (t1 t2 : Int) (pos : Nat) : Int :=
  (b : Int) + (pos / (l.run * l.n1) : Nat) * t2 + (pos / l.run % l.n1 : Nat) * t1 + (pos % l.run : Nat)

/-- The contiguous pieces of n bytes from position `pos` on, none beyond a run: offset and length (R195). The fuel is the
number of pieces. -/
def Layout.pieces (l : Layout) (pos : Nat) : Nat → Nat → List (Nat × Nat)
  | 0, _ => []
  | k + 1, n =>
    if n = 0 then []
    else
      let m := min n (l.run - pos % l.run)
      (pos, m) :: l.pieces (pos + m) k (n - m)

/-- A signed 64-bit field of a record's bytes. -/
def signedAt (bs : List Byte) (off : Nat) : Int := asInt 64 (leNat ((bs.drop off).take 8))
/-- An unsigned field of n bytes. -/
def fieldAt (bs : List Byte) (off n : Nat) : Nat := leNat ((bs.drop off).take n)

/-- The layout that a record's 64 bytes give; none with a nonzero reserved field or a count outside its limits (R179,
R192). -/
def layoutOf (bs : List Byte) : Option Layout :=
  let ok (n : Nat) : Bool := 1 ≤ n && n ≤ 65536
  let run := fieldAt bs 0 4
  let n1 := fieldAt bs 4 4
  let n2 := fieldAt bs 8 4
  if ok run && ok n1 && ok n2 && fieldAt bs 12 4 = 0 && fieldAt bs 48 16 = 0 then
    some { run, n1, n2, sstr1 := signedAt bs 16, sstr2 := signedAt bs 24, dstr1 := signedAt bs 32, dstr2 := signedAt bs 40 }
  else none

/-- The layout record at an address, read once at issue as a synchronous load (R179, R192). -/
def State.readLayout (s : State) (a : Nat) : Except Stop Layout := do
  let bs ← s.syncRead (word a) 64 64
  match layoutOf bs with
  | some l => .ok l
  | none => Res.trap 55 (word a) 0

/-! ### Checks at issue (R192) -/

/-- Whether a `.vlt` byte range of a cell touches an execute unit anywhere (R29). -/
def State.execTouched (s : State) (c a n : Nat) : Bool :=
  s.regions.any fun r => r.2.exec.any fun u => u.1 == c && overlaps (u.2 * 65536) 65536 a n

/-- Whether a byte interval of a cell lies in a region's grant and off the execute units, and, to be written, off the
fault records (R29, R192, R367). -/
def State.copyRange (s : State) (r c : Nat) (sp : Space) (lo hi : Int) (wr : Bool) : Bool :=
  0 ≤ lo && lo < hi && s.granted r c sp lo.toNat (hi - lo).toNat
    && (sp != .vlt || (!s.execTouched c lo.toNat (hi - lo).toNat && !(wr && s.touchesRecord c lo.toNat (hi - lo).toNat)))

/-- The fault of a destination word (R178). -/
def State.destFault (s : State) (tenant : Nat) (glb : Bool) (w : Word) : Option TrapInfo :=
  let n := w.toNat
  if glb then (if 2 ^ 56 ≤ n then some (accessFault true w) else none)
  else if 2 ^ 45 ≤ n || 959 < slice n 30 10 then some (accessFault true w)
  else if bit n 40 && !s.linkOpen (slice n 41 4) tenant then some (accessFault true w)
  else none

/-- The destination that a word names. -/
def destOf (sp : Space) (w : Word) : CopyDst :=
  if sp == .glb then .glb w.toNat
  else .mem (if bit w.toNat 40 then some (slice w.toNat 41 4) else none) (slice w.toNat 30 10) sp (slice w.toNat 0 30)

/-- What a copy's issue needs beyond its checks of the destination. -/
structure CopyReq where
  src : Space
  base : Nat
  dst : CopyDst
  lay : Layout
  layAddr : Nat
  cons : Bool
  fill : Bool
  handle : Option Word
  d : SReg
  item : Option Word
  fin : Compl

/-- The space and offset of a destination in the memory of the cell that issues the copy. -/
def CopyDst.localTo (c : Nat) : CopyDst → Option (Space × Nat)
  | .mem none k sp off => if k = c then some (sp, off) else none
  | _ => none

/-- The bounding interval of a copy's source (R179). -/
def CopyReq.from_ (q : CopyReq) : Int × Int := q.lay.bound q.base q.lay.sstr1 q.lay.sstr2
/-- The bounding interval of a copy's destination in the issuing cell's memory (R179). -/
def CopyReq.to_ (c : Nat) (q : CopyReq) : Int × Int :=
  q.lay.bound (((q.dst.localTo c).map (·.2)).getD 0) q.lay.dstr1 q.lay.dstr2
/-- The intervals that a copy registers: its source, and the scratchpad bytes that a fill writes (R186). -/
def CopyReq.intervals (c : Nat) (q : CopyReq) : List Interval :=
  { space := q.src, lo := q.from_.1.toNat, n := (q.from_.2 - q.from_.1).toNat, write := false }
    :: if q.fill then [{ space := .loc, lo := (q.to_ c).1.toNat, n := ((q.to_ c).2 - (q.to_ c).1).toNat, write := true }] else []

/-- The tile that a copy's source lies in: that of a source handle, or, to be consumed, the one that holds the bounding
interval (R157, R192). -/
def State.sourceTile (s : State) (q : CopyReq) (lo hi : Int) : Except Stop (Option (Nat × Nat × Option Nat)) :=
  let x := s.cell s.cur.cell
  match q.handle with
  | some h => .ok (some (hPool h, hIdx h, some (hTag h)))
  | none =>
    if !q.cons then .ok none
    else
      match x.tileOf q.src lo.toNat (hi - lo).toNat with
      | some t => .ok (some (t.1, t.2, (x.tile t).map (·.tag)))
      | none =>
        Res.trap 53 (word q.base) (word ((((x.touched q.src lo.toNat (hi - lo).toNat).head?.map (·.1)).getD 0) * 2 ^ 10))

/-- The issue of a copy (R184, R190, R192, R195): the source and local destination intervals, the source tile, then what is
left of the checks, then the limits of the engine and the scoreboard; then the id is written and the copy queued. -/
def State.issueCopy (s : State) (q : CopyReq) (dstCheck late : Option TrapInfo) : Res := do
  let c := s.cur.cell
  let i := s.cur.ctx
  let r := s.ctxRegion c i
  let x := s.cell c
  trapIf (if s.copyRange r c q.src q.from_.1 q.from_.2 false then none else some (accessFault false (word q.base)))
  trapIf dstCheck
  trapIf (match q.dst.localTo c with
    | some (sp, off) =>
      if s.copyRange r c sp (q.to_ c).1 (q.to_ c).2 true then none else some (accessFault true (word off))
    | none => none)
  let tile ← s.sourceTile q q.from_.1 q.from_.2
  trapIf late
  stallIf (s.pointHeld c i)
  stallIf (32 ≤ x.copyq.length || 16 ≤ (x.copyq.filter (·.ctx == i)).length)
  stallIf (x.openEntries < (q.intervals c).length)
  let op := s.freshOp c
  let id := s.transferId c i op
  let o : CopyOp :=
    { key := x.nextKey, id, ctx := i, task := s.ctxTask c i, region := r, tenant := s.tenantOf r, seq := s.me.seq, pc := s.me.pc,
      src := q.src, base := q.base, dst := q.dst, lay := q.lay, layAddr := q.layAddr, cons := q.cons, fill := q.fill, tile,
      act := q.fin.act, word := s.me.rs q.fin.c, item := q.item.getD id, acq := q.fin.acq, rel := q.fin.rel,
      scope := q.fin.scope, phase := .queued, begun := false, pos := 0, attempt := 0, acked := false, counted := !q.cons, suppressed := false }
  let s := s.modCell c fun x => { x with copyq := x.copyq ++ [o], nextKey := x.nextKey + 1 }
  let s := s.register c i o.key op r (q.intervals c)
  .ok (s.modMe fun y => { (y.ws q.d id) with opSeq := y.opSeq + 1 }.retire)

/-- The layout of a copy: n contiguous bytes, or the record at n. -/
def State.layoutFor (s : State) (record : Bool) (n : Nat) : Except Stop Layout :=
  if record then s.readLayout n else .ok (Layout.flat n)

/-- `send` and `send.lay` (R195). -/
def State.sendCopy (s : State) (x : ArgSend) (record : Bool) : Res := do
  let lay ← s.layoutFor record x.n.toNat
  let w := s.me.rs x.b
  let tenant := s.tenantOf (s.ctxRegion s.cur.cell s.cur.ctx)
  s.issueCopy
    { src := x.sspace, base := (s.me.rs x.a).toNat, dst := destOf x.dspace w, lay, layAddr := if record then x.n.toNat else 0,
      cons := x.cons, fill := false, handle := none, d := x.d, item := none, fin := x.fin }
    (s.destFault tenant (x.dspace == .glb) w) none

/-- `send` (R195). -/
def execSend (x : ArgSend) (s : State) : Host.Outcome State Fault Refusal :=
  issue (.send x) x.g anyCtx (fun s => s.sendCopy x false) s

/-- `send.lay` (R195). -/
def execSendLay (x : ArgSend) (s : State) : Host.Outcome State Fault Refusal :=
  issue (.sendLay x) x.g anyCtx (fun s => s.sendCopy x true) s

/-- `fill` and `fill.lay` (R195). -/
def State.fillCopy (s : State) (x : ArgFill) (record : Bool) : Res := do
  let lay ← s.layoutFor record x.n.toNat
  s.issueCopy
    { src := .vlt, base := (s.me.rs x.a).toNat, dst := .mem none s.cur.cell .loc (s.me.rs x.b).toNat, lay,
      layAddr := if record then x.n.toNat else 0, cons := x.cons, fill := true, handle := none, d := x.d, item := none,
      fin := x.fin } none none

/-- `fill` (R195). -/
def execFill (x : ArgFill) (s : State) : Host.Outcome State Fault Refusal :=
  issue (.fill x) x.g anyCtx (fun s => s.fillCopy x false) s

/-- `fill.lay` (R195). -/
def execFillLay (x : ArgFill) (s : State) : Host.Outcome State Fault Refusal :=
  issue (.fillLay x) x.g anyCtx (fun s => s.fillCopy x true) s

/-- `sendt`: the source handle names a tile of the cell; the destination handle is formed, and its link up (R195). -/
def execSendt (x : ArgSendt) (s : State) : Host.Outcome State Fault Refusal :=
  issue (.sendt x) x.g anyCtx (fun s => do
    let c := s.cur.cell
    let h := s.me.rs x.a
    let t := s.me.rs x.b
    let tenant := s.tenantOf (s.ctxRegion c s.cur.ctx)
    let late : Option TrapInfo :=
      if !hFormed t then some { cause := 54, val := t, info := 0 }
      else if x.remote && !s.linkOpen x.link.val tenant then some (accessFault true t)
      else none
    match (if hFormed h && hCell h = c then Assoc.get? (hPool h) (s.cell c).pools else none) with
    | none => Res.trap 54 h 0
    | some p =>
      if p.tiles.length ≤ hIdx h then Res.trap 54 h 0
      else
        s.issueCopy
          { src := p.spaceOf (hIdx h), base := p.addrOf (hIdx h), dst := .tile (if x.remote then some x.link.val else none) t,
            lay := Layout.flat p.size, layAddr := 0, cons := x.cons, fill := false, handle := some h, d := x.d,
            item := some t, fin := x.fin } none late) s

/-! ### Bandwidth tokens (R277) -/

/-- Whether a region's isolation partition is shared with another tenant (R279). -/
def State.sharedPartition (s : State) (r : Nat) : Bool :=
  match s.region r with
  | none => false
  | some x => !s.disjoint.contains x.partition && s.regions.any fun q => q.2.partition == x.partition && q.2.tenant != x.tenant

/-- The tokens of a region on a cell. -/
def State.tokensOf (s : State) (r c : Nat) : Nat := ((s.region r).map fun x => x.tokens.getD c 0).getD 0

/-- The state with a region's tokens on a cell set. -/
def State.setTokens (s : State) (r c n : Nat) : State := s.modRegion r fun x => { x with tokens := Assoc.put c n x.tokens }

/-- The regions that may lend tokens to a region on a cell: of its partition, with a full bucket (R277). -/
def State.lenders (s : State) (r c : Nat) : List Nat :=
  let part := ((s.region r).map (·.partition)).getD 0
  if !s.sharedPartition r then []
  else (s.regions.filter fun q => q.1 != r && q.2.partition == part && q.2.grants.any (·.cell == c)
    && q.2.tokens.getD c 0 == q.2.tokDepth).map (·.1)

/-- The state with n tokens borrowed by a region on a cell from its lenders in turn, each loan a debt to its lender; none when
they hold too few (R277). -/
def State.borrow (s : State) (r c : Nat) : Nat → List Nat → Option State
  | 0, _ => some s
  | _, [] => none
  | n, l :: ls =>
    let m := min n (s.tokensOf l c)
    ((s.setTokens l c (s.tokensOf l c - m)).modRegion r fun x => { x with debts := x.debts ++ [(l, c, m)] }).borrow r c (n - m) ls

/-- The state with n tokens drawn by a region on a cell, its own and, in a shared partition, the lack of them borrowed; none when
there are too few (R277). A copy whose region is torn down completes its chunks without tokens (R198). -/
def State.draw (s : State) (r c n : Nat) : Option State :=
  let have_ := s.tokensOf r c
  if (s.region r).isNone then some s
  else if n ≤ have_ then some (s.setTokens r c (have_ - n))
  else (s.setTokens r c 0).borrow r c (n - have_) (s.lenders r c)

/-- The refill of a debtor: its lenders first, in the order of the loans, on its cell; the tokens that are left. -/
def State.repay (s : State) (c : Nat) : Nat → List (Nat × Nat × Nat) → State × Nat × List (Nat × Nat × Nat)
  | n, [] => (s, n, [])
  | n, (l, k, d) :: ds =>
    if k ≠ c || n = 0 then
      let r := s.repay c n ds
      (r.1, r.2.1, (l, k, d) :: r.2.2)
    else
      let m := min n d
      let depth := ((s.region l).map (·.tokDepth)).getD 0
      let s := s.setTokens l c (min depth (s.tokensOf l c + m))
      let r := s.repay c (n - m) ds
      (r.1, r.2.1, if m = d then r.2.2 else (l, k, d - m) :: r.2.2)

/-- Every 1,024 cycles a region's bucket on a cell gains its rate, up to its depth, its debts first (R277). -/
def execCopyTokenRefill (region cell : Nat) (s : State) : Host.Outcome State Fault Refusal :=
  match s.region region with
  | none => event s
  | some x =>
    let done := x.refilled.getD cell 0
    if s.clock / 1024 ≤ done || !(x.grants.any (·.cell == cell)) then event s
    else
      let r := s.repay cell x.tokRate x.debts
      event (r.1.modRegion region fun y =>
        { y with tokens := Assoc.put cell (min y.tokDepth (y.tokens.getD cell 0 + r.2.1)) y.tokens,
                 debts := r.2.2, refilled := Assoc.put cell (done + 1) y.refilled })

/-! ### Reading (R184, R189, R193) -/

/-- The most data bytes of a chunk: 512, or 256 across a link (R183, R411). -/
def CopyOp.chunkMax (o : CopyOp) : Nat :=
  match o.dst with
  | .mem (some _) _ _ _ | .tile (some _) _ => 256
  | _ => 512

/-- The bytes of a copy's next chunk; a `.glb` chunk stays within one run (R206). -/
def CopyOp.nextSize (o : CopyOp) : Nat :=
  let n := min o.chunkMax (o.lay.total - o.pos)
  match o.dst with
  | .glb _ => min n (o.lay.run - o.pos % o.lay.run)
  | _ => n

/-- The pieces of a copy's next chunk on its source side: address and length. -/
def CopyOp.sources (o : CopyOp) (n : Nat) : List (Nat × Nat) :=
  (o.lay.pieces o.pos n n).map fun p => ((o.lay.at_ o.base o.lay.sstr1 o.lay.sstr2 p.1).toNat, p.2)

/-- The base of a copy's destination side. -/
def CopyOp.dstBase (o : CopyOp) : Nat :=
  match o.dst with
  | .mem _ _ _ off => off
  | .glb va => va
  | .tile _ _ => 0

/-- What keeps the engine from reading a copy's next chunk (R155, R193, R232, R234): a key that does not serve the tenant,
an unreadable vault unit, a tile that may not be read; with whether the engine freezes (R370). -/
def State.readFault (s : State) (c : Nat) (o : CopyOp) (ps : List (Nat × Nat)) : Option (TrapInfo × Bool) :=
  let key := ps.findSome? fun p => match s.keyCheck c o.src p.1 p.2 o.tenant (word p.1) with
    | some (.freeze _ t) => some (t, true)
    | some (.trap t) => some (t, false)
    | _ => none
  let bad := (ps.findSome? fun p => s.poisoned (localHome c o.src p.1) p.2).map fun u => (memError u, false)
  let of (k : Nat) : TrapInfo := { cause := k, val := 0, info := 0 }
  let tile := if o.cons then none
    else match o.tile with
      | some (p, i, tag) =>
        match (s.cell c).tile (p, i) with
        | none => some (of 50, false)
        | some t => ((t.on .read (tag.isNone || tag == some t.tag) true).2).map fun k => (of k, false)
      | none => (ps.findSome? fun p => s.tileCheck c o.src p.1 p.2 false 0).map fun t => (t, false)
  match key, bad with
  | some k, _ => some k
  | none, some k => some k
  | none, none => tile

/-- The count step at the end of a consuming copy's reading: the state after it, and its fault (R155, R195). -/
def State.countCopy (s : State) (c : Nat) (o : CopyOp) : State × Option Nat :=
  if o.counted then (s, none)
  else
    match o.tile with
    | none => (s, some 53)
    | some (p, i, tag) =>
      let now := ((s.cell c).tile (p, i)).map (·.tag)
      s.tileEvent c (p, i) .consume (tag.isNone || tag == now) c o.ctx

/-- The state with a copy changed. -/
def State.modCopy (s : State) (c key : Nat) (f : CopyOp → CopyOp) : State :=
  s.modCell c fun x => { x with copyq := modifyFirst (·.key == key) f x.copyq }

/-- The state with the read entries of an operation retired (R189). -/
def State.endReads (s : State) (c key : Nat) : State :=
  (s.modCell c fun x => { x with sb := x.sb.filter fun e => !(e.key == key && !e.write) }).settle c

/-- The `.glb` write of a copy's chunk; context 15 keeps it apart from the accesses of the context (R182). -/
def State.glbChunk (s : State) (c : Nat) (o : CopyOp) (ps : List (Nat × Nat)) (data : List Byte) (last : Bool) : Acc :=
  { cell := c, ctx := 15, task := o.task, seq := o.pos, region := o.region,
    asid := ((s.region o.region).map (·.asid)).getD 0, pc := o.pc, op := .copy o.key, sp := .glb, peer := none,
    lanes := ps.map fun p =>
      { addr := (o.lay.at_ o.dstBase o.lay.dstr1 o.lay.dstr2 p.1 % 2 ^ 56).toNat, len := p.2, data := (data.drop (p.1 - o.pos)).take p.2 },
    dest := 0, ty := .i64, vec := false, ordAcq := false, ordRel := false, scope := .mod, cons := last, sc := false, v := 0, v2 := 0,
    pieces := [], kind := .R, rank := 0, done := false, retry := none }

/-- The state with a chunk of a copy handed on: written at once by a fill, whose write entry retires with the last byte; sent to
its cell or over its link, or to the station (R183, R189). -/
def State.putChunk (s : State) (c : Nat) (o : CopyOp) (n : Nat) (data : List Byte) (last : Bool) : State :=
  let ps := o.lay.pieces o.pos n n
  let segs := ps.map fun p => ((o.lay.at_ o.dstBase o.lay.dstr1 o.lay.dstr2 p.1).toNat, (data.drop (p.1 - o.pos)).take p.2)
  let b := o.lay.bound o.dstBase o.lay.dstr1 o.lay.dstr2
  let ch : Chunk :=
    { cell := c, key := o.key, ctx := o.ctx, task := o.task, region := o.region, tenant := o.tenant, link := none, dst := o.dst,
      lo := if b.1 < 0 then 2 ^ 62 else b.1.toNat, hi := if b.1 < 0 then 2 ^ 62 + o.lay.run else b.2.toNat, segs, last,
      pos := o.pos, attempt := o.attempt, size := n, arrival := 0, entry := 0, spill := none }
  if o.fill then
    let s := segs.foldl (fun s g => s.writeLocal c .loc g.1 g.2) s
    if last then (s.modCopy c o.key fun o => { o with acked := true }).dropSb c o.key else s
  else
    match o.dst with
    | .mem (some l) _ _ _ | .tile (some l) _ => s.send (.cell c) (.link l) (.chunk ch)
    | .mem none k _ _ => s.send (.cell c) (.cell k) (.chunk ch)
    | .tile none h => s.send (.cell c) (.cell (hCell h)) (.chunk ch)
    | .glb _ =>
      if n = 0 then s.modCopy c o.key fun o => { o with acked := true }
      else s.send (.cell c) (stationPlace c) (.stationReq (s.glbChunk c o ps data last))

/-- One chunk of an active copy read and handed on (R184, R189): the reads end with the last one, after the count step of a
consumed source; a fault stops the copy at this chunk (R193). -/
def State.readChunk (s : State) (c : Nat) (o : CopyOp) : State :=
  let n := o.nextSize
  let last := o.lay.total ≤ o.pos + n
  let src := o.sources n
  let straddle : Option TrapInfo := match o.dst with
    | .glb _ =>
      if o.pos % o.lay.run = 0 && n ≠ 0 then
        s.issueTrap { s.glbChunk c o [(o.pos, o.lay.run)] [] false with lanes :=
          [{ addr := (o.lay.at_ o.dstBase o.lay.dstr1 o.lay.dstr2 o.pos % 2 ^ 56).toNat, len := o.lay.run, data := [] }] }
      else none
    | _ => none
  match if n = 0 then none else s.readFault c o src, straddle with
  | some (t, true), _ => s.copyFreeze c o.key o.pos t
  | some (t, false), _ => s.copyFault c o.key o.pos t
  | none, some t => s.copyFault c o.key o.pos t
  | none, none =>
    let data := src.flatMap fun p => s.readLocal c o.src p.1 p.2
    let r := if last then s.countCopy c o else (s, none)
    match r.2 with
    | some k => r.1.copyFault c o.key o.pos { cause := k, val := 0, info := 0 }
    | none =>
      let s := r.1.putChunk c o n data last
      let s := s.modCopy c o.key fun o =>
        { o with pos := o.pos + n, counted := o.counted || last, phase := if last then .sent else o.phase }
      if last then s.endReads c o.key else s

/-- Whether a copy may take a slot of the engine: one that has not begun and is startable, its context not frozen (R198), its acquire
done (R182, R210), or one that goes on; its engine not frozen for its region (R370). -/
def State.copyReady (s : State) (c : Nat) (o : CopyOp) : Bool :=
  !(s.cell c).noCopy.contains o.region && (o.phase == .queued || o.phase == .paused)
    && (o.begun || ((s.cell c).startable o.key && !s.opFrozen c o.ctx o.task && (!o.acq || s.acqReady c o.ctx o.task o.seq)))

/-- Whether the engine can read an active copy's next chunk: it is not frozen for the region, the region has tokens (R277), and a
`.glb` chunk has a credit at the station (R230). -/
def State.chunkReady (s : State) (c : Nat) (o : CopyOp) : Bool :=
  let glb : Bool := match o.dst with | .glb _ => true | _ => false
  !(s.cell c).noCopy.contains o.region && (s.draw o.region c o.nextSize).isSome && !(glb && 16 ≤ s.stationLoad c)

/-- The active copy whose chunk is next: round-robin, in the order of registration after the one served last (R184). -/
def nextCopy (turn : Nat) (live : List CopyOp) : Option CopyOp :=
  match live.find? (turn < ·.key) with
  | some o => some o
  | none => live.head?

/-- The copy engine: with a slot free it takes a copy that may start, the tenant by the deficit counters, then the one registered
first; else it reads a chunk of an active copy, in turn (R184, R277). -/
def execCopyStart (s : State) : Host.Outcome State Fault Refusal :=
  let c := s.cur.cell
  let x := s.cell c
  let active := x.copyq.filter fun o => o.phase == .active
  let cands := if 4 ≤ active.length then [] else x.copyq.filter (s.copyReady c)
  match s.chooseTenant c .copy ((cands.map (·.tenant)).eraseDups) with
  | some (t, s) =>
    match cands.find? (·.tenant == t) with
    | none => event s
    | some o =>
      event ((if o.begun then s else s.spend c t .copy o.lay.total).modCopy c o.key fun o => { o with phase := .active, begun := true })
  | none =>
    match nextCopy x.copyTurn (active.filter (s.chunkReady c)) with
    | none => event s
    | some o =>
      let s := (s.draw o.region c o.nextSize).getD s
      event ((s.modCell c fun x => { x with copyTurn := o.key }).readChunk c o)

/-! ### The destination (R183, R190, R191) -/

/-- Whether two chunks belong to one copy. -/
def Chunk.same (a b : Chunk) : Bool := a.cell == b.cell && a.key == b.key && a.link == b.link

/-- The place of the engine that a chunk came from. -/
def Chunk.place (a : Chunk) : Place :=
  match a.link with
  | some l => .link l
  | none => .cell a.cell

/-- The accepted header of a chunk's copy at a cell. -/
def Cell.header (x : Cell) (a : Chunk) : Option Chunk := x.accepted.find? (·.same a)

/-- What the acceptance of a header finds: the bytes written, the region they belong to, or the fault; in place of a fault the freeze of
the issuing engine, or, for a key slot of another tenant, of the region's contexts (R191, R370, R408). -/
inductive Accept where
  | ok (sp : Space) (lo n region : Nat)
  | fault (cause : Nat)
  | foreign
  | freeze
deriving DecidableEq, Repr

/-- Whether a byte interval of a cell lies in a grant of a tenant. -/
def State.tenantHas (s : State) (tenant c : Nat) (sp : Space) (lo n : Nat) : Bool :=
  s.regions.any fun r => r.2.tenant == tenant && s.granted r.1 c sp lo n

/-- The acceptance of a header at a cell: grants, execute units and fault records, keys, and the tiles it writes (R29,
R155, R191, R195, R228, R367, R370, R408). -/
def State.accept (s : State) (c : Nat) (a : Chunk) : Accept :=
  match a.dst with
  | .glb _ => .fault 7
  | .mem _ _ sp _ =>
    let n := a.hi - a.lo
    if !s.tenantHas a.tenant c sp a.lo n then (if a.link.isSome then .fault 7 else .freeze)
    else
      let r := if a.link.isSome then (s.deepest c sp a.lo n).getD a.region else a.region
      if !s.copyRange r c sp a.lo a.hi true then .fault 7
      else
        match s.keyCheck c sp a.lo n a.tenant 0, s.tileCheck c sp a.lo n true 0 with
        | some (.freeze _ _), _ => .foreign
        | some _, _ => .fault 58
        | none, some t => .fault t.cause
        | none, none => .ok sp a.lo n (s.chunkRegion c a)
  | .tile _ h =>
    match Assoc.get? (hPool h) (s.cell c).pools, (s.cell c).handleTile h with
    | some p, some t =>
      match (t.on .write (t.tag == hTag h) false).2 with
      | some k => .fault k
      | none =>
        if s.tenantOf p.owner ≠ a.tenant then (if a.link.isSome then .fault 7 else .freeze)
        else if p.size ≠ a.hi - a.lo then .fault 53
        else if p.inVlt (hIdx h) && s.execTouched c (p.addrOf (hIdx h)) p.size then .fault 7
        else .ok (p.spaceOf (hIdx h)) (p.addrOf (hIdx h)) p.size t.region
    | _, _ => .fault 54

/-- A list of chunks, the earliest arrival first, with one more. -/
def insertChunk (a : Chunk) : List Chunk → List Chunk
  | [] => [a]
  | b :: bs => if a.arrival < b.arrival then a :: b :: bs else b :: insertChunk a bs

/-- The chunks that a cell's inbound buffer and spill area hold, as they arrived (R186). -/
def Cell.waiting (x : Cell) : List Chunk := x.inSpill.foldr insertChunk x.inbound

/-- The state with a chunk taken out of the buffer, or of the spill area with its charge (R412). -/
def State.takeChunk (s : State) (c : Nat) (a : Chunk) : State :=
  (s.creditChunk a).modCell c fun x => { x with inbound := eraseFirst (· == a) x.inbound, inSpill := eraseFirst (· == a) x.inSpill }

/-- The state with a chunk's fault on its way to its engine, and nothing of the copy's attempt from that chunk on written (R191,
R193); with the spill budget exhausted the copy is abandoned (R183). -/
def State.refuseChunk (s : State) (c : Nat) (a : Chunk) (fault : Option TrapInfo) (freeze : Bool) : State :=
  let s := s.send (.cell c) a.place (.chunkAck a.cell a.key fault freeze a.pos false a.tenant)
  let gone := (s.cell c).waiting.filter fun b => b.same a && a.pos ≤ b.pos
  let abandons : Bool := (fault.map (·.cause)) == some 56 || (s.cell c).refused.any fun r => r.1.same a && r.2
  (gone.foldl (fun s b => s.takeChunk c b) s).modCell c fun x =>
    { x with refused := ({ a with segs := [] }, abandons) :: x.refused.filter fun r => !r.1.same a }

/-- Whether what a chunk belongs to has been refused here (R193): the attempt that sent it, or, with its copy abandoned, all of it. -/
def Cell.discards (x : Cell) (a : Chunk) : Bool := x.refused.any fun r => r.1.same a && (r.2 || a.attempt ≤ r.1.attempt)

/-- The trap of a chunk refused with a cause: a key fault names the address with reason 5 (R228, R360). -/
def chunkTrap (a : Chunk) (cause : Nat) : TrapInfo :=
  { cause, val := word a.lo, info := if cause = 58 then 5 else 0 }

/-- The state with a chunk refused for what its acceptance finds, a fault of its own where that finds none. -/
def State.rejectChunk (s : State) (c : Nat) (a : Chunk) (cause : Nat) : State :=
  match s.accept c a with
  | .fault k => s.refuseChunk c a (some (chunkTrap a k)) false
  | .foreign => s.refuseChunk c a (some (chunkTrap a 58)) true
  | .freeze => s.refuseChunk c a none true
  | .ok _ _ _ _ => s.refuseChunk c a (some (chunkTrap a cause)) false

/-- The state with a header accepted: its write entry registered (R185, R191). -/
def State.acceptChunk (s : State) (c : Nat) (a : Chunk) : State :=
  match s.accept c a with
  | .ok sp lo n r =>
    let key := (s.cell c).nextKey
    let op := s.freshOp c
    let h : Chunk := { a with segs := [], entry := key, lo, hi := lo + n, dst := .mem none c sp lo }
    let s := s.modCell c fun x => { x with nextKey := key + 1, accepted := x.accepted ++ [h] }
    s.register c 15 key op r [{ space := sp, lo, n, write := true }]
  | _ => s.rejectChunk c a 7

/-- Whether the acceptance of a chunk's header finds no fault. -/
def State.acceptable (s : State) (c : Nat) (a : Chunk) : Bool :=
  match s.accept c a with
  | .ok _ _ _ _ => true
  | _ => false

/-- The bytes of a segment list taken from a byte string, in order. -/
def reSegment : List (Nat × List Byte) → List Byte → List (Nat × List Byte)
  | [], _ => []
  | g :: gs, bs => (g.1, bs.take g.2.length) :: reSegment gs (bs.drop g.2.length)

/-- A chunk as the spill area holds it now: its data bytes stand behind 16 others (R183, R412). -/
def State.unspilled (s : State) (c : Nat) (a : Chunk) : Chunk :=
  match a.spill with
  | none => a
  | some p => { a with segs := reSegment a.segs (s.readLocal c .vlt (p.2 + 16) a.size) }

/-- The state with a chunk in the spill area of a region on a cell, charged to it, none where it has no room (R183, R412). What
the 16 bytes before its data hold the spec does not state: free values (log entry 57). -/
def State.spillChunk (s : State) (c r : Nat) (a : Chunk) : Option State :=
  (s.charge r (a.size + 16)).bind fun s => (s.spillPlace r c (a.size + 16) 8).map fun p =>
    let bs := leBytes 8 (Config.unstated 2 (word s.fresh)).toNat ++ leBytes 8 (Config.unstated 2 (word (s.fresh + 1))).toNat
      ++ a.segs.flatMap (·.2)
    ({ s with fresh := s.fresh + 2 }.spillWrite c p bs).modCell c fun x =>
      { x with inSpill := x.inSpill ++ [{ a with spill := some (r, p) }], spilled := (x.spilled + 1) % 2 ^ 64 }

/-- The state with a chunk of an accepted copy written; the last one retires the write entry and is acknowledged (R189,
R191). A vault unit that cannot be read keeps a partial write from it, or the chunk's own bytes from the spill area (R234). -/
def State.writeChunk (s : State) (c : Nat) (h a : Chunk) : State :=
  let sp := match h.dst with
    | .mem _ _ sp _ => sp
    | _ => .loc
  let base := match a.dst with
    | .tile _ _ => h.lo
    | _ => 0
  let bad := (a.spill.bind fun p => s.poisoned (vltA c (p.2 + 16)) a.size).orElse fun _ => a.segs.findSome? fun g =>
    (s.poisoned (localHome c sp (base + g.1)) g.2.length).bind fun u =>
      if covers (localHome c sp (base + g.1)) g.2.length u then none else some u
  match bad with
  | some u => s.refuseChunk c a (some (memError u)) false
  | none =>
    let segs := (s.unspilled c a).segs
    let s := s.takeChunk c a
    let s := segs.foldl (fun s g => s.writeLocal c sp (base + g.1) g.2) s
    if !a.last then s
    else
      let s := s.modCell c fun x => { x with accepted := x.accepted.filter (!·.same a) }
      (s.dropSb c h.entry).send (.cell c) a.place (.chunkAck a.cell a.key none false (a.pos + a.size) true a.tenant)

/-- Whether a chunk of a copy is on its way or waits. -/
def State.chunkUnderWay (s : State) (c : Nat) (a : Chunk) : Bool :=
  (s.cell c).waiting.any (·.same a) || s.net.any fun f => match f.pay with
    | .chunk b => b.same a
    | _ => false

/-- The accepted headers whose copies are gone from their engines, or abandoned, with every chunk taken: their entries are of no more
use (R183, R193, R198). -/
def State.staleHeader (s : State) (c : Nat) : Option Chunk :=
  (s.cell c).accepted.find? fun h =>
    (h.link.isNone && !((s.cell h.cell).copyq.any (·.key == h.key)) && !s.chunkUnderWay c h)
      || ((s.cell c).refused.any (fun r => r.1.same h && r.2) && !(s.cell c).waiting.any (·.same h))

/-- The state with a chunk without bytes answered that ends a copy of which nothing was accepted here (R378). -/
def State.answerEmpty (s : State) (c : Nat) (a : Chunk) : State :=
  (s.takeChunk c a).send (.cell c) a.place (.chunkAck a.cell a.key none false a.pos true a.tenant)

/-- One thing that a cell's inbound side can do: accept a header for which there is an entry, write a chunk whose entry is
startable, drop an entry of no more use (R188, R190, R191); with whether it registered a group. -/
def State.inboundOnce (s : State) (c : Nat) : Option (State × Bool) :=
  let x := s.cell c
  let first (a : Chunk) : Bool := x.waiting.all fun b => !b.same a || a.pos ≤ b.pos
  let head := x.waiting.find? fun a => first a && (x.header a).isNone && (a.size = 0 || x.sb.length < 64 || !s.acceptable c a)
  match head with
  | some a => if a.size = 0 then some (s.answerEmpty c a, false) else some (s.acceptChunk c a, s.acceptable c a)
  | none =>
    let ready := x.waiting.find? fun a => first a && (match x.header a with
      | some h => x.startable h.entry
      | none => false)
    match ready.bind fun a => (x.header a).map fun h => (h, a) with
    | some (h, a) => some (s.writeChunk c h a, false)
    | none =>
      (s.staleHeader c).map fun h =>
        ((s.modCell c fun x => { x with accepted := x.accepted.filter (!·.same h) }).dropSb c h.entry, false)

/-- The inbound side of a cell goes on, at most n things, until it has registered a group: one at a time (R186). -/
def State.drain (s : State) (c : Nat) : Nat → State
  | 0 => s
  | n + 1 =>
    match s.inboundOnce c with
    | none => s
    | some (s, true) => s
    | some (s, false) => s.drain c n

/-- The inbound side of a cell goes on as far as it can now. -/
def State.drainAll (s : State) (c : Nat) : State :=
  s.drain c (2 * (s.cell c).waiting.length + (s.cell c).accepted.length + 1)

/-- A chunk enters the inbound buffer, of 16 KiB, or the spill area, charged to the destination's region; with that
exhausted it is discarded, and its copy abandoned (R183). -/
def State.bufferChunk (s : State) (c : Nat) (a : Chunk) : State :=
  let x := s.cell c
  let a := { a with arrival := s.clock }
  let held := (x.inbound.map (·.size)).sum
  if held + a.size ≤ 16384 && !x.inSpill.any (·.same a) then s.modCell c fun x => { x with inbound := x.inbound ++ [a] }
  else
    let r := s.chunkRegion c a
    match s.spillChunk c r a with
    | some s => s
    | none => (s.refuseChunk c a (some { cause := 56, val := 0, info := 0 }) false).pushEvent r c 3 0 2 (word a.lo) 0 0

/-- Whether the region that an accepted header writes for is torn down (R198). -/
def State.headerGone (s : State) (c : Nat) (h : Chunk) : Bool :=
  (s.cell c).sb.any fun e => e.key == h.entry && ((s.region e.region).isNone || s.isDying e.region)

/-- A copy chunk arrives (R183, R191): after the inbound buffer takes it, headers are accepted and chunks written. A chunk
that follows a refused one is discarded; one of an accepted header whose region is torn down faults (R198). -/
def execCopyChunkArrival (s : State) : Host.Outcome State Fault Refusal :=
  let k := s.cur.k
  match s.arriving k with
  | some { src := _, dst := .cell c, pay := .chunk a } =>
    let s := s.land k
    if (s.cell c).discards a then event s
    else
      let s := s.modCell c fun x => { x with refused := x.refused.filter (!·.1.same a) }
      match ((s.cell c).header a).filter fun h => s.headerGone c h with
      | some h =>
        event ((((s.rejectChunk c a 7).modCell c fun x => { x with accepted := x.accepted.filter (!·.same h) }).dropSb c h.entry).drainAll c)
      | none => event ((s.bufferChunk c a).drainAll c)
  | _ => event s

/-- The state with a copy's engine frozen for its region (R370): the copy stands at its chunk. -/
def State.freezeEngine (s : State) (c : Nat) (o : CopyOp) (pos : Nat) : State :=
  let s := (s.purgeCopy c o.key pos).modCopy c o.key fun o => { o with phase := .paused, pos, attempt := o.attempt + 1 }
  let s := s.modCell c fun x => { x with noCopy := o.region :: x.noCopy.filter (· ≠ o.region) }
  { s with hostOut := s.hostOut ++ [.freeze .engine o.region c] }

/-- The destination's answer reaches the engine (R182, R189, R193): all bytes taken, or a fault; a second one of an attempt moves the
point reached only. -/
def execCopyAcknowledgement (s : State) : Host.Outcome State Fault Refusal :=
  let k := s.cur.k
  match s.arriving k with
  | some { src := _, dst := .cell c, pay := .chunkAck _ key fault freeze pos final _ } =>
    let s := s.land k
    match (s.cell c).copyq.find? (·.key == key) with
    | none => event s
    | some o =>
      match fault with
      | some f =>
        if f.cause = 56 then event (s.abandonCopy c key pos f)
        else if o.isFaulted then event (s.modCopy c key fun o => { o with pos := min o.pos pos })
        else event (if freeze then s.copyFreeze c key pos f else s.copyFault c key pos f)
      | none =>
        if freeze then event (s.freezeEngine c o pos)
        else event (s.modCopy c key fun o => { o with acked := o.acked || final })
  | _ => event s

/-- Whether a copy can retire (R189): read, taken by its destination, its `.glb` writes performed, its release done
(R182, R210). -/
def State.copyDone (s : State) (c : Nat) (o : CopyOp) : Bool :=
  o.phase == .sent && o.acked && !(s.allAccs.any fun a => a.op == .copy o.key && a.cell == c)
    && (!o.rel || s.opReady c o.ctx o.task o.seq o.scope)

/-- A copy retires (R189): its entries go, and its completion action follows (R181), if it was not suppressed (R198). What
waits in the inbound buffer goes on. -/
def execCopyRetire (s : State) : Host.Outcome State Fault Refusal :=
  let c := s.cur.cell
  match (s.cell c).copyq.find? (s.copyDone c) with
  | none => event (s.drainAll c)
  | some o =>
    let s := s.dropCopy c o
    let s := if o.suppressed then s
      else s.finishAct c { ctx := o.ctx, task := o.task, region := o.region, act := o.act, word := o.word, id := o.id, item := o.item }
    event (s.drainAll c)

end Sys2Proof.Machine
end

