-- ==== Sys2Proof/Machine/Pools.lean ====
section
/-! DEFINITION. The tile instructions and the pool controllers: allocation (R158 to R160, R171), handle operations (R159,
R172), `poolcfg` and `poolst` (R173, R174), abandoned tiles (R163), the stall watchdog (R165). -/
namespace Sys2Proof.Machine

/-! ### Allocation -/

/-- A pool request fault (R157). -/
def poolFault (w : Word) (reads : Nat) : TrapInfo := { cause := 54, val := w, info := word (reads % 256) }

/-- The designator of a pool of this module (R153). -/
def designator (cell pool : Nat) : Word := word (cell + pool * 2 ^ 10)

/-- The fault of a designator as its cell finds it (R153). -/
def State.designatorBad (s : State) (tenant : Nat) (w : Word) : Bool :=
  2 ^ 18 ≤ w.toNat || 959 < slice w.toNat 0 10 || (bit w.toNat 13 && !s.linkOpen (slice w.toNat 14 4) tenant)

/-- `talloc` and `talloc.try`: the request goes to the pool's controller and the context waits (R158, R159, R171). -/
def State.allocate (s : State) (d : SReg) (try_ : Option PReg) (w reads : Word) : Res := do
  let c := s.cur.cell
  let i := s.cur.ctx
  let r := s.ctxRegion c i
  trapIf (if s.designatorBad (s.tenantOf r) w || 255 < reads.toNat || (reads.toNat = 0 && bit w.toNat 13) then
    some (poolFault w reads.toNat) else none)
  let q : PoolReq := { cell := c, ctx := i, task := s.ctxTask c i, region := r, reads := reads.toNat, link := none, tenant := s.tenantOf r }
  let t := s.send (.cell c) (desPlace w) (.talloc (desPool w) (desCell w) q try_.isSome)
  .ok (t.modMe fun x => { x with st := .waiting (.talloc try_ d w reads.toNat false), stalled := false })

/-- `talloc` (R171). -/
def execTalloc (x : ArgDABi) (s : State) : Host.Outcome State Fault Refusal :=
  issue (.talloc x) x.g notHandler (fun s => s.allocate x.d none (s.me.rs x.a) (s.me.srcB x.b)) s

/-- `talloc.try` (R171). -/
def execTallocTry (x : ArgSel) (s : State) : Host.Outcome State Fault Refusal :=
  issue (.tallocTry x) x.g anyCtx (fun s => s.allocate x.d (some x.p) (s.me.rs x.a) (s.me.srcB x.b)) s

/-- Whether a request may take tiles of a pool (R151): of the owner's region or a descendant; across a link, of the owner's
tenant (R408), whose number the request then carries. -/
def State.poolServes (s : State) (p : Pool) (r : PoolReq) : Bool :=
  if r.link.isSome then s.tenantOf p.owner == r.region && r.region != 0 else s.inSubtree r.region p.owner

/-- A request reaches its controller (R151, R158, R159): the blocking form queues; the try form takes a tile only when
nothing is queued and one is free. -/
def execTallocRequestArrival (s : State) : Host.Outcome State Fault Refusal :=
  let k := s.cur.k
  match s.arriving k with
  | some { src := _, dst := .cell c, pay := .talloc pool _ r try_ } =>
    let s := s.land k
    let answer (f : Bool) : State := s.send (.cell c) r.place (.grant pool r none f)
    match Assoc.get? pool (s.cell c).pools with
    | none => event (answer true)
    | some p =>
      if !s.poolServes p r then event (answer true)
      else if try_ && !(p.queue.isEmpty && !p.free.isEmpty) then event (answer false)
      else
        let s := s.modCell c fun x => { x with pools := Assoc.put pool { p with queue := p.queue ++ [r] } x.pools }
        event (s.settle c)
  | _ => event s

/-- A cancel reaches the controller (R160, R361): a request still queued leaves the queue, and the answer says so. -/
def execTallocCancel (s : State) : Host.Outcome State Fault Refusal :=
  let k := s.cur.k
  match s.arriving k with
  | some { src := _, dst := .cell c, pay := .tallocCancel pool _ cell ctx task link _ } =>
    let s := s.land k
    let mine (r : PoolReq) : Bool := r.cell == cell && r.ctx == ctx && r.task == task && r.link == link
    match Assoc.get? pool (s.cell c).pools with
    | none => event s
    | some p =>
      match p.queue.find? mine with
      | none => event s
      | some r =>
        let s := s.modCell c fun x => { x with pools := Assoc.put pool { p with queue := eraseFirst mine p.queue } x.pools }
        event (s.send (.cell c) r.place (.grant pool r none false))
  | _ => event s

/-- The context that waits for its grant goes on (R158, R171): with the handle; with the failure of the try form; withdrawn,
when its cancel took effect (R361); or with the trap. -/
def State.finishTalloc (s : State) (r : PoolReq) (handle : Option Word) (fault : Bool) (try_ : Option PReg) (d : SReg)
    (w : Word) : State :=
  let done (v : Word) (ok : Bool) : State :=
    s.modCtx r.cell r.ctx fun x =>
      let x := x.ws d v
      let x := match try_ with
        | some p => x.wp p ok
        | none => x
      { x with st := .running }.retire
  match handle with
  | some h => done h true
  | none =>
    if fault then s.takeTrap r.cell r.ctx (poolFault w r.reads)
    else if try_.isSome then done 0 false
    else s.modCtx r.cell r.ctx fun x => { x with st := .running, stalled := false }

/-- The controller's answer arrives (R159, R160), at once or when its context's freeze ends (R175). A grant for a task that is gone
is returned: the tile goes back to the free list, and the region's fault record counts it. -/
def execGrantReplyArrival (s : State) : Host.Outcome State Fault Refusal :=
  let k := s.cur.k
  match s.arriving k with
  | some { src := src, dst := .cell c, pay := .grant _ r handle fault } =>
    let s := s.land k
    match s.ctxTask c r.ctx == r.task, (s.ctxAt c r.ctx).st with
    | true, .waiting (.talloc try_ d w _ _) => event (s.finishTalloc r handle fault try_ d w)
    | _, _ =>
      match handle with
      | none => event s
      | some h =>
        let s := s.send (.cell c) src (.handleOp 3 h 0 c r.ctx r.task r.tenant)
        event (s.frBump r.region c 8 1)
  | _ => event s

/-! ### Handle operations (R159, R172) -/

/-- The event of a handle operation by its number: 0 `tseal`, 1 `tdrop`, 2 `tcount`. -/
def handleEv (kind n : Nat) : TileEv :=
  match kind with
  | 0 => .seal n
  | 1 => .drop
  | _ => .count

/-- A handle operation at the tile's cell: the state after it, the count that it returns, and its fault. -/
def State.handleAt (s : State) (c kind : Nat) (h : Word) (n cell ctx : Nat) : State × Nat × Option TrapInfo :=
  let q := (hPool h, hIdx h)
  match (s.cell c).handleTile h with
  | none => (s, 0, some (poolFault h 0))
  | some t =>
    let r := s.tileEvent c q (handleEv kind n) (t.tag == hTag h) cell ctx
    (r.1, t.count, r.2.map fun k => r.1.tileTrap c q k h)

/-- The issue of a handle operation: at once on a tile of the own cell, else sent to the tile's cell while the context waits
for the answer (R159). -/
def State.handleIssue (s : State) (kind : Nat) (h : Word) (n : Nat) (d : Option SReg) : Res :=
  let c := s.cur.cell
  let i := s.cur.ctx
  if !hFormed h then .error (.trap (poolFault h 0))
  else if hCell h = c then
    let r := s.handleAt c kind h n c i
    match r.2.2 with
    | some t => .ok (r.1.takeTrap c i t)
    | none => r.1.update fun x => match d with
      | some d => x.ws d (word r.2.1)
      | none => x
  else
    let t := s.send (.cell c) (.cell (hCell h)) (.handleOp kind h n c i (s.ctxTask c i) (s.tenantOf (s.ctxRegion c i)))
    .ok (t.modMe fun x => { x with st := .waiting (.handle d), stalled := false })

/-- `tseal` (R172). -/
def execTseal (x : ArgABi) (s : State) : Host.Outcome State Fault Refusal :=
  issue (.tseal x) x.g anyCtx (fun s =>
    let n := (s.me.srcB x.b).toNat
    if n = 0 || 255 < n then .error (.trap (poolFault (s.me.rs x.a) 0)) else s.handleIssue 0 (s.me.rs x.a) n none) s

/-- `tdrop` (R172). -/
def execTdrop (x : ArgA) (s : State) : Host.Outcome State Fault Refusal :=
  issue (.tdrop x) x.g anyCtx (fun s => s.handleIssue 1 (s.me.rs x.a) 0 none) s

/-- `tcount` (R172). -/
def execTcount (x : ArgDA) (s : State) : Host.Outcome State Fault Refusal :=
  issue (.tcount x) x.g anyCtx (fun s => s.handleIssue 2 (s.me.rs x.a) 0 (some x.d)) s

/-- A granted tile comes back unused (R160): Free, at the tail of the free list, with its new tag. -/
def State.returnTile (s : State) (c : Nat) (h : Word) : State :=
  match Assoc.get? (hPool h) (s.cell c).pools, (s.cell c).handleTile h with
  | some p, some t =>
    if t.tag ≠ hTag h || t.st == .free then s
    else
      let p := { p with tiles := modifyAt (fun t => { t with st := .free, count := 0 }) (hIdx h) p.tiles, free := p.free ++ [hIdx h] }
      (s.modCell c fun x => { x with pools := Assoc.put (hPool h) p x.pools }).settle c
  | _, _ => s

/-- A handle operation reaches the tile's cell and its answer the context that waits (R155, R159); it is applied though its
task is gone (R175). -/
def execHandleOperationArrival (s : State) : Host.Outcome State Fault Refusal :=
  let k := s.cur.k
  match s.arriving k with
  | some { src := _, dst := .cell c, pay := .handleOp kind h n cell ctx task _ } =>
    let s := s.land k
    if kind = 3 then event (s.returnTile c h)
    else
      let r := s.handleAt c kind h n cell ctx
      match s.ctxTask cell ctx == task, (s.ctxAt cell ctx).st with
      | true, .waiting (.handle d) =>
        match r.2.2 with
        | some t => event (r.1.takeTrap cell ctx t)
        | none =>
          event (r.1.modCtx cell ctx fun x =>
            let x := match d with
              | some d => x.ws d (word r.2.1)
              | none => x
            { x with st := .running }.retire)
      | _, _ => event r.1
  | _ => event s

/-! ### poolcfg and poolst (R173, R174) -/

/-- The bytes of the pools of a region on a cell, one pool left out. -/
def Cell.poolBytes (x : Cell) (owner except : Nat) : Nat :=
  ((x.pools.filter fun p => p.1 ≠ except && p.2.owner = owner).map fun p => p.2.mainCount * p.2.size).sum

/-- A free tile that was never granted. -/
def Tile.fresh : Tile :=
  { st := .free, count := 0, tag := 0, region := 0, cell := 0, ctx := 0, born := 0, published := false, raised := false, ext := none }

/-- The pool that a configuration word and a base give (R173). -/
def poolOf (w base deadline : Nat) : Pool :=
  let n := slice w 16 13
  { vlt := slice w 0 2 = 2, base, k := slice w 8 5, deadline, owner := slice w 48 16, tiles := List.replicate n Tile.fresh,
    free := List.range n, queue := [], grants := 0, abandoned := 0, closing := false }

/-- The space of a pool's tiles that are no extension tiles. -/
def Pool.space (p : Pool) : Space := if p.vlt then .vlt else .loc

/-- The status of a configuration (R173), in the order of the table; a nonzero reserved bit of the pool number names no pool. -/
def State.poolStatus (s : State) (c : Nat) (a : Word) (w base : Nat) : Nat :=
  let x := s.cell c
  let no := a.toNat % 8
  let p := poolOf w base 0
  let n := slice w 16 13
  let busy : Bool := match Assoc.get? no x.pools with
    | some q => q.tiles.any (fun (t : Tile) => t.st != .free) || !q.queue.isEmpty
    | none => false
  if 8 ≤ a.toNat then 2
  else if busy then 1
  else if slice w 29 19 ≠ 0 || slice w 13 3 ≠ 0 || slice w 2 6 ≠ 0 || 4096 < n || p.k < 8 || 16 < p.k || slice w 0 2 % 2 = 1
      || base % p.size ≠ 0 then 2
  else if n = 0 then 0
  else if !s.granted p.owner c p.space base (n * p.size)
      || (x.pools.any fun q => q.1 ≠ no && q.2.vlt == p.vlt && overlaps q.2.base (q.2.mainCount * q.2.size) base (n * p.size)) then 3
  else if ((s.region p.owner).map (fun (r : Region) => r.poolQuota)).getD 0 < x.poolBytes p.owner no + n * p.size then 4
  else 0

/-- A pool as configured over another: with the same owner and tile size it keeps the other's extension tiles, free and behind its own
(R165; log entry 25). -/
def Pool.over (p : Pool) (old : Pool) : Pool :=
  let ext := ((old.tiles.filterMap (·.ext)).take (4096 - p.tiles.length)).map fun a => { Tile.fresh with ext := some a }
  if p.tiles.isEmpty || p.owner ≠ old.owner || p.k ≠ old.k then p
  else { p with tiles := p.tiles ++ ext, free := List.range (p.tiles.length + ext.length) }

/-- The number of a pool's extension tiles. -/
def Pool.extCount (p : Pool) : Nat := p.tiles.length - p.mainCount

/-- The state with a pool configured, or, for no tiles, unconfigured; the charges of extension tiles that it does not keep are credited
(R412); a change of owner scrubs its bytes (R173). -/
def State.setPool (s : State) (c no : Nat) (p : Pool) : State :=
  let old := Assoc.get? no (s.cell c).pools
  let p := (old.map p.over).getD p
  let s := match old with
    | some o => s.credit o.owner ((o.extCount - p.extCount) * o.size)
    | none => s
  if p.tiles.isEmpty then s.modCell c fun x => { x with pools := Assoc.erase no x.pools }
  else
    let s := s.modCell c fun x => { x with pools := Assoc.put no p x.pools }
    if (old.map (·.owner)).getD p.owner = p.owner then s
    else s.writeLocal c p.space p.base (List.replicate (p.mainCount * p.size) 0)

/-- `poolcfg` (R173). -/
def execPoolcfg (x : ArgPoolcfg) (s : State) : Host.Outcome State Fault Refusal :=
  issue (.poolcfg x) x.g superCtx (fun s =>
    let c := s.cur.cell
    let a := s.me.rs x.a
    let w := (s.me.rs x.c).toNat
    let base := (s.me.rs x.b).toNat
    let st := s.poolStatus c a w base
    let s := if st = 0 then s.setPool c (a.toNat % 8) (poolOf w base x.deadline.toNat) else s
    s.update fun y => y.ws x.d (word st)) s

/-- The configuration word of a pool (R173). -/
def Pool.config (p : Pool) : Nat := p.owner * 2 ^ 48 + p.mainCount * 2 ^ 16 + p.k * 2 ^ 8 + if p.vlt then 2 else 0

/-- `poolst` (R174); the designator's link field is of no use (R153). -/
def execPoolst (x : ArgPoolst) (s : State) : Host.Outcome State Fault Refusal :=
  issue (.poolst x) x.g anyCtx (fun s =>
    let c := s.cur.cell
    let w := s.me.rs x.a
    match (if 2 ^ 18 ≤ w.toNat || bit w.toNat 13 || desCell w ≠ c then none else Assoc.get? (desPool w) (s.cell c).pools) with
    | none => .error (.trap (poolFault w 0))
    | some p =>
      let own := p.owner = s.ctxRegion c s.cur.ctx
      let v : Nat := match x.sel.val with
        | 0 => p.config
        | 1 => p.free.length
        | 2 => p.queue.length
        | n =>
          if !own then 0
          else if n = 3 then p.grants
          else if n = 4 then p.abandoned
          else if n = 5 then p.extCount
          else p.base
      s.update fun y => y.ws x.d (word v)) s

/-! ### Abandoned tiles and the stall watchdog (R163, R165) -/

/-- A tile whose age reaches its pool's deadline while it is Unsealed or has reads left, once per grant: its region's fault
handler is told, and the tile stays as it is (R163). -/
def execAbandonedTile (cell pool tile : Nat) (s : State) : Host.Outcome State Fault Refusal :=
  match Assoc.get? pool (s.cell cell).pools, (s.cell cell).tile (pool, tile) with
  | some p, some t =>
    let live := t.st == .unsealed || t.st == .held || t.st == .consuming
    if p.deadline = 0 || t.raised || !live || s.clock - t.born < p.deadline then event s
    else
      let h := (s.cell cell).handleOf cell (pool, tile)
      let s := s.modCell cell fun x =>
        { x.setTile (pool, tile) { t with raised := true } with
          pools := Assoc.modify pool (fun p => { p with abandoned := p.abandoned + 1 }) (x.setTile (pool, tile) { t with raised := true }).pools }
      event (s.pushEvent t.region cell 2 0 (word t.count) h (word t.ctx) 0)
  | _, _ => event s

/-- Whether a pool is exhausted (R165). -/
def Pool.exhausted (p : Pool) : Bool := p.free.isEmpty && !p.queue.isEmpty && p.tiles.length < 4096

/-- The exhausted pools of a region, by cell and number. -/
def State.exhaustedPools (s : State) (r : Nat) : List (Nat × Nat × Pool) :=
  s.cells.flatMap fun x => (x.2.pools.filter fun p => p.2.owner = r && p.2.exhausted).map fun p => (x.1, p.1, p.2)

/-- The pool that the watchdog enlarges: the smallest tiles, then the fewest, then the lowest cell and number (R165). -/
def smallestPool : List (Nat × Nat × Pool) → Option (Nat × Nat × Pool)
  | [] => none
  | p :: ps =>
    match smallestPool ps with
    | none => some p
    | some q =>
      if q.2.2.k < p.2.2.k || (q.2.2.k = p.2.2.k && q.2.2.tiles.length < p.2.2.tiles.length) then some q else some p

/-- The watchdog's act on an exhausted pool: one extension tile, or, with the spill budget too small, the spill-exhausted
event (R165). -/
def State.enlarge (s : State) (r c no : Nat) (p : Pool) : State :=
  match s.charge r p.size, s.spillPlace r c p.size p.size with
  | some t, some a =>
    let q := { p with tiles := p.tiles ++ [{ Tile.fresh with ext := some a }], free := p.free ++ [p.tiles.length] }
    let t := t.modCell c fun x => { x with pools := Assoc.put no q x.pools }
    (t.modRegion r fun x => { x with h := 2 * x.h, quiet := 0 }).settle c
  | _, _ => (s.pushEvent r c 3 0 1 (designator c no) 0 0).modRegion r fun x => { x with quiet := 0 }

/-- The stall watchdog of a region, every 1,024 cycles (R165). -/
def execStallWatchdog (region : Nat) (s : State) : Host.Outcome State Fault Refusal :=
  match s.region region with
  | none => event s
  | some x =>
    if s.clock / 1024 ≤ x.sampledAt then event s
    else
      let quiet := if x.activity then 0 else x.quiet + 1024
      let s := s.modRegion region fun x => { x with quiet, activity := false, sampledAt := x.sampledAt + 1 }
      if quiet < x.h then event s
      else
        match smallestPool (s.exhaustedPools region) with
        | none => event s
        | some (c, no, p) => event (s.enlarge region c no p)

end Sys2Proof.Machine
end

