-- ==== Sys2Proof/Machine/Scheduler.lean ====
section
/-! DEFINITION. The scheduler: the fetch queues (R29), dispatch from the ready rings (R70, R71, R243, R247, R248), the placers
and clusters (R275, R276, R345). -/
namespace Sys2Proof.Machine

/-! ### The fetch queue (R29) -/

/-- A line more in a context's fetch queue, ahead of its PC (R29): at most four, and none from outside the execute grant. -/
def execFetchQueueFill (s : State) : Host.Outcome State Fault Refusal :=
  let c := s.cur.cell
  let i := s.cur.ctx
  let x := s.ctxAt c i
  let next := match x.fetchq.getLast? with
    | some e => e.1 + 64
    | none => lineOf x.pc
  if !x.canIssue || 10 ≤ i || 4 ≤ x.fetchq.length then event s
  else
    match s.fetchLine (s.ctxRegion c i) c (word next) with
    | none => event s
    | some v => event (s.modCtx c i fun x => { x with fetchq := Assoc.put next v x.fetchq })

/-! ### Starting a task (R70, R71, R247) -/

/-- What a task is given on a cell: its context, the bases of its scalars and vectors, and its frame. -/
structure TaskPlace where
  ctx : Nat
  sbase : Nat
  vbase : Nat
  frame : Nat
deriving DecidableEq, Repr

/-- The lowest-numbered free context of 0..7 (R247). -/
def Cell.freeCtx (x : Cell) : Option Nat := (List.range 8).find? fun i => (x.ctx i).task.isNone && (x.ctx i).st == .idle

/-- Where a task of a type and region fits on a cell (R70, R247): context, scalars, vectors and frame, each first fit. -/
def State.fit (s : State) (c region : Nat) (ty : TaskType) : Option TaskPlace :=
  let x := s.cell c
  match x.freeCtx, firstFit x.scalarRanges ty.sregs 512 8 64 0,
      (if ty.vregs = 0 then some 0 else firstFit x.vectorRanges ty.vregs 256 4 64 0), s.frameFit c region ty.frame with
  | some ctx, some sbase, some vbase, some frame => some { ctx, sbase, vbase, frame }
  | _, _, _, _ => none

/-- A scalar as dispatch writes it (R71), of register k: the top of the frame, the task pointer, the arguments below argc. -/
def entryScalar (top : Nat) (ptr : Word) (r : Rec) (count k : Nat) : Word :=
  if k = 2 then word top
  else if k = 3 then ptr
  else if 4 ≤ k && k < 12 && k - 4 < headArgc r.head && k < count then r.args.getD (k - 4) 0
  else 0

/-- The context that a dispatch leaves (R71, R246, R247, R272). -/
def taskCtxOf (x : Ctx) (t : Task) (ty : TaskType) (p : TaskPlace) : Ctx :=
  { Ctx.reset with
    seq := x.seq
    opSeq := x.opSeq
    st := .running
    pc := word ty.entry
    s := Vector.ofFn fun k => entryScalar t.frameHi t.ptr t.record ty.sregs k.val
    xsl := word t.frameLo
    allot := { sbase := p.sbase, scount := ty.sregs, vbase := p.vbase, vcount := ty.vregs }
    task := some t }

/-- The state with a task started at a place on a cell: registers, watchdog, static ports, and the check of the entry PC
(R30, R71, R246, R247, R272, R288). -/
def State.startTask (s : State) (c tenant : Nat) (r : Rec) (ty : TaskType) (p : TaskPlace) (rank : Nat) (cluster : Option Nat) :
    State :=
  let region := headRegion r.head
  let x := s.cell c
  let ptr := word (x.dispCount % 2 ^ 32 * 2 ^ 30 + region * 2 ^ 14 + p.ctx * 2 ^ 10 + c)
  let t : Task :=
    { ptr, ty := headType r.head, region, tenant, record := r, rank, cluster, cw := ty.cw, ch := ty.ch, ports := ty.ports,
      ncells := ty.ncells, frameLo := p.frame, frameHi := p.frame + ty.frame, start := s.clock,
      budget := min ty.budget (((s.region region).map (·.budgetCap)).getD 0), ext := 0, extended := false, stopped := 0,
      frozenAt := none, signals := 0, lastSig := 0 }
  let s := s.modCell c fun x => { x with dispCount := x.dispCount + 1, lastDispatch := s.clock }
  let s := s.modCtx c p.ctx fun x => taskCtxOf x t ty p
  let s := s.bindStatic c p.ctx tenant ptr ty.binds
  match s.checkTarget region c (word ty.entry) with
  | some f => s.takeTrap c p.ctx f
  | none => s

/-! ### Dispatch (R243, R247, R248) -/

/-- The state with a record discarded at a cell (R248): its region's fault handler is told, unless the record was for it,
and its future is resolved faulted. -/
def State.discardRecord (s : State) (c : Nat) (r : Rec) (reason : Nat) : State :=
  let q := headRegion r.head
  let s := s.countDropped q c
  let s := if headKind r.head = 6 then s.frBump q c 0x48 1 else s.pushEvent q c 5 0 (word reason) r.head r.reply 0
  s.faultReply c q r.reply 60

/-- The state with records of a ring's image back in the ring, in order, as entries are free (R243): a parked region's stay
(R274); a malformed image is rejected (R244). -/
def State.refillRing (s : State) (c tenant : Nat) : State :=
  let ring := s.ring c tenant
  if ring.image.isNone then s
  else
    match s.imaged c tenant with
    | none =>
      let s := ring.charges.foldl (fun s q => s.countDropped q c) s
      ((s.setImage c tenant []).getD s).pushEvent tenant c 6 0 0 0 0 0
    | some rs =>
      let stays (r : Rec × Nat) : Bool := s.isParked (headRegion r.1.head)
      let back := (rs.filter (!stays ·)).take (256 - ring.recs.length)
      let left := rs.filter stays ++ (rs.filter (!stays ·)).drop (256 - ring.recs.length)
      if back.isEmpty then s
      else
        match s.setImage c tenant left with
        | none => s
        | some t => t.setRing c tenant { t.ring c tenant with recs := ring.recs ++ back.map (·.1) }

/-- The state with the events that wait at a cell for a place in their ring taken by it, those that now find one, in their order
(R369; log entry 58). -/
def State.lateIn (s : State) (c : Nat) : State :=
  (s.cell c).lateEvents.foldl (fun s r =>
    if (s.region (headRegion r.head)).isNone then s
    else (s.ringPush c (s.tenantOf (headRegion r.head)) r).getD (s.modCell c fun x => { x with lateEvents := x.lateEvents ++ [r] }))
    (s.modCell c fun x => { x with lateEvents := [] })

/-- Whether a task, a handler's run, a tile operation or a copy of a region's subtree is still on a cell (R273, R339). -/
def State.busyOn (s : State) (c r : Nat) : Bool :=
  let x := s.cell c
  (List.range 8).any (fun i => match (x.ctx i).task with
    | some t => s.inSubtree t.region r
    | none => false)
    || (match x.run8 with
      | some q => s.inSubtree q.region r
      | none => false)
    || x.tileq.any (fun o => s.inSubtree o.region r) || x.copyq.any (fun o => s.inSubtree o.region r)

/-- The state with the pre-emption requests of a cell that are complete there gone (R273). -/
def State.clearHalts (s : State) (c : Nat) : State :=
  if (s.cell c).halted.isEmpty then s else s.modCell c fun x => { x with halted := x.halted.filter fun q => s.busyOn c q }

/-- Whether a cell takes no records of a region now: it is frozen there (R371), parked or being parked (R274), torn down
(R282), or its dispatch stands still for a pre-emption (R273). -/
def State.stopped (s : State) (c r : Nat) : Bool :=
  s.isFrozen r c || s.isParked r || s.isDying r || (s.chain r).any fun q =>
    (s.cell c).halted.contains q || ((s.region q).map fun x => !x.parking.isEmpty).getD false

/-- Whether a placer has reserved a cell (R276). -/
def State.isReserved (s : State) (c : Nat) : Bool :=
  s.placers.any fun p => p.2.any fun q => match q.reserved with
    | some cs => cs.contains c
    | none => false

/-- Whether a load waits to replace code, on a cell, that holds an entry (R67): the next task there that enters it sees the new
code. -/
def State.codeWaits (s : State) (c entry : Nat) : Bool :=
  s.loads.any fun q => q.code.any fun h => h.1 == c && h.2.1 ≤ entry && entry < h.2.1 + h.2.2

/-- What a ring's head is, at a dispatch opportunity: removed with a reason (R248), for the placer, to be started at a
place, or waiting. -/
inductive Head where
  | remove (reason : Nat)
  | toPlacer
  | start (ty : TaskType) (p : TaskPlace)
  | wait

/-- The head of a tenant's ring judged (R247, R248): that of a region that takes none stays on its ring (R371). -/
def State.judge (s : State) (c tenant : Nat) (r : Rec) : Head :=
  let q := headRegion r.head
  if s.stopped c q then .wait
  else
    match s.taskType tenant (headType r.head), s.grant q c with
    | none, _ => .remove 1
    | some ty, g =>
      if ty.cluster then .toPlacer
      else
        match g with
        | none => .remove 2
        | some g =>
          if g.fhi ≤ g.flo then .remove 2
          else if s.isReserved c || s.codeWaits c ty.entry then .wait
          else
            match s.fit c q ty with
            | some p => .start ty p
            | none => .wait

/-- The state without the head of a tenant's ring. -/
def State.popRing (s : State) (c tenant : Nat) : State :=
  s.modCell c fun x => { x with rings := Assoc.modify tenant (fun r => { r with recs := r.recs.drop 1 }) x.rings }

/-- The head of a tenant's ring of a cell. -/
def State.ringHead (s : State) (c tenant : Nat) : Option Rec := ((Assoc.get? tenant (s.cell c).rings).bind (·.recs.head?))

/-- The tenants whose ring's head can be started, with what that takes. -/
def State.startable (s : State) (c : Nat) : List Nat :=
  ((s.cell c).rings.map (·.1)).filter fun t => match (s.ringHead c t).map (s.judge c t) with
    | some (.start _ _) => true
    | _ => false

/-- The first ring whose head leaves it without a start. -/
def State.removable (s : State) (c : Nat) : Option (Nat × Rec × Head) :=
  (s.cell c).rings.findSome? fun x => (s.ringHead c x.1).bind fun r => match s.judge c x.1 r with
    | .remove k => some (x.1, r, .remove k)
    | .toPlacer => some (x.1, r, .toPlacer)
    | _ => none

/-- A dispatch opportunity of a cell (R243, R247, R248): rings are refilled from their images; a head that cannot run is
removed; else, at most once every four cycles, the tenant that the deficit counters choose has its head started. -/
def execDispatch (s : State) : Host.Outcome State Fault Refusal :=
  let c := s.cur.cell
  let s := s.clearHalts c
  let s := (((s.cell c).rings.map (·.1)).foldl (fun s t => s.refillRing c t) s).lateIn c
  match s.removable c with
  | some (t, r, .remove k) => event ((s.popRing c t).discardRecord c r k)
  | some (t, r, _) => event ((s.popRing c t).send (.cell c) (.placer (c / 240)) (.place r))
  | none =>
    if (s.cell c).dispCount ≠ 0 && s.clock < (s.cell c).lastDispatch + 4 then event s
    else
      match s.chooseTenant c .dispatch (s.startable c) with
      | none => event s
      | some (t, s) =>
        match s.ringHead c t with
        | none => event s
        | some r =>
          match s.judge c t r with
          | .start ty p => event (((s.spend c t .dispatch 1).popRing c t).startTask c t r ty p 0 none)
          | _ => event s

/-! ### Placers (R275, R276, R345) -/

/-- The key of a barrier instance: its number, or the number with the die for 32..63 (R341). -/
def barKey (n die : Nat) : Nat := if n < 32 then n else 64 * (die + 1) + n

/-- The cells of a rectangle on a die, in rank order. -/
def rectCells (top w h : Nat) : List Nat := (List.range h).flatMap fun y => (List.range w).map fun x => top + 16 * y + x

/-- The rectangles of w × h on a die, by their top-left cells in rising order. -/
def rectangles (die w h : Nat) : List (List Nat) :=
  ((List.range 240).filter fun k => k % 16 + w ≤ 16 && k / 16 + h ≤ 15).map fun k => rectCells (die * 240 + k) w h

/-- The lowest-numbered free instance in 32..63 of a die (R345). -/
def State.freeInstance (s : State) (die : Nat) : Option Nat :=
  ((List.range 32).map (· + 32)).find? fun n => (Assoc.get? (barKey n die) s.bars).isNone

/-- Whether every cell of a rectangle can start a member now (R275); `mine` are the cells reserved for the request. -/
def State.rectFits (s : State) (r : Nat) (ty : TaskType) (mine : List Nat) (cs : List Nat) : Bool :=
  cs.all fun c => (s.grant r c).isSome && !s.stopped c r && !s.codeWaits c ty.entry && (mine.contains c || !s.isReserved c) && (s.fit c r ty).isSome

/-- The state with a cluster's members started in one step, each with its rank, and its barrier instance allotted (R275,
R345). Each member's copy of the record counts as sent (R278, log entry 27). -/
def State.startCluster (s : State) (die tenant : Nat) (r : Rec) (ty : TaskType) (cs : List Nat) (n : Nat) : State :=
  let region := headRegion r.head
  let id := ((s.clusters.map (·.1)).foldl max 0) + 1
  let inst := barKey n die
  let bar : BarInst := { cluster := true, owner := region, k := 1, gen := 0, lb := none,
                         cells := (cs.foldl (fun m c => Assoc.put c { cur := 0, next := 0, departed := false } m) []) }
  let ctxs := cs.map fun c => ((s.fit c region ty).map (·.ctx)).getD 0
  let s := { s with bars := Assoc.put inst bar s.bars }
  let s := s.modRegion region fun x =>
    { x with sent := Assoc.put (cs.headD 0) (x.sent.getD (cs.headD 0) 0 + (cs.length - 1)) x.sent }
  let s := cs.zipIdx.foldl (fun s c =>
    match s.fit c.1 region ty with
    | some p => s.startTask c.1 tenant r ty p c.2 (some id)
    | none => s) s
  let tasks := (cs.zip ctxs).map fun c => s.ctxTask c.1 c.2
  { s with clusters := Assoc.put id { cells := cs, w := ty.cw, h := ty.ch, inst, region, ctxs, tasks, departed := [] } s.clusters }

/-- The cell to which a single record goes: the region's granted cell on the die, with a frame area, that has the most free
contexts, the lowest on ties (R275). -/
def State.placeOne (s : State) (die r : Nat) : Option Nat :=
  let cs := (((s.region r).map (·.grants)).getD []).filter fun g => g.cell / 240 == die && g.flo < g.fhi
  let free (c : Nat) : Nat := ((List.range 8).filter fun i => ((s.cell c).ctx i).task.isNone).length
  cs.foldl (fun (best : Option Nat) g =>
    match best with
    | none => some g.cell
    | some b => if free b < free g.cell || (free b == free g.cell && g.cell < b) then some g.cell else best) none

/-- The cell that stands for a region on a die when a record has no cell there: its lowest. -/
def State.anyCell (s : State) (r : Nat) : Nat := ((((s.region r).map (·.grants)).getD []).map (·.cell) |>.min?).getD 0

/-- A request of a placer's queue served, where it can be (R275). -/
def State.servePlace (s : State) (die : Nat) (q : PlaceReq) : Option State :=
  let r := headRegion q.record.head
  let tenant := s.tenantOf r
  if (s.region r).isNone then some s
  else
    match s.taskType tenant (headType q.record.head) with
    | none => some (s.discardRecord (s.anyCell r) q.record 1)
    | some ty =>
      if !ty.cluster then
        match s.placeOne die r with
        | some c => some (s.send (.placer die) (.cell c) (.ready q.record tenant))
        | none => some (s.discardRecord (s.anyCell r) q.record 3)
      else
        match s.freeInstance die, (rectangles die ty.cw ty.ch).find? (s.rectFits r ty (q.reserved.getD [])) with
        | some n, some cs => some (s.startCluster die tenant q.record ty cs n)
        | _, _ => none

/-- The requests of a queue in order: the first that can be served is, and leaves the queue (R275). -/
def State.servePlaces (s : State) (die : Nat) (before : List PlaceReq) : List PlaceReq → Option State
  | [] => none
  | q :: qs =>
    match s.servePlace die q with
    | some t => some { t with placers := Assoc.put die (before ++ qs) t.placers }
    | none => s.servePlaces die (before ++ [q]) qs

/-- A decision of a die's placer (R275). -/
def execPlacerDecision (die : Nat) (s : State) : Host.Outcome State Fault Refusal :=
  event ((s.servePlaces die [] (s.placers.getD die [])).getD s)

/-- The tasks resident on the cells of a rectangle. -/
def State.residents (s : State) (cs : List Nat) : Nat :=
  (cs.map fun c => ((List.range 8).filter fun i => ((s.cell c).ctx i).task.isSome).length).sum

/-- The rectangle of some with the fewest resident tasks, the first on ties. -/
def State.fewest (s : State) (rects : List (List Nat)) : Option (List Nat) :=
  rects.foldl (fun (best : Option (List Nat)) cs =>
    match best with
    | none => some cs
    | some b => if s.residents cs < s.residents b then some cs else best) none

/-- The rectangle that a placer reserves for an aged request (R276): of the region's granted cells, the one with the fewest
resident tasks, the lowest on ties; where no rectangle lies wholly in the grant, of those that lie partly in it (log entry 31). -/
def State.candidate (s : State) (die r : Nat) (ty : TaskType) : Option (List Nat) :=
  let all := rectangles die ty.cw ty.ch
  match s.fewest (all.filter fun cs => cs.all fun c => (s.grant r c).isSome) with
  | some cs => some cs
  | none => s.fewest (all.filter fun cs => cs.any fun c => (s.grant r c).isSome)

/-- Whether a cluster request has waited past its region's aging threshold (R276). -/
def State.aged (s : State) (q : PlaceReq) : Bool :=
  q.reserved.isNone && (match s.region (headRegion q.record.head) with
    | none => false
    | some x => x.aging < s.clock - q.since
        && ((s.taskType x.tenant (headType q.record.head)).map (·.cluster)).getD false)

/-- A placer reserves a rectangle for the oldest aged cluster request, when the die has no reservation (R276). -/
def execPlacerAging (die : Nat) (s : State) : Host.Outcome State Fault Refusal :=
  let q := s.placers.getD die []
  if q.any (·.reserved.isSome) then event s
  else
    match q.find? s.aged with
    | none => event s
    | some p =>
      let r := headRegion p.record.head
      match (s.taskType (s.tenantOf r) (headType p.record.head)).bind (s.candidate die r) with
      | none => event s
      | some cs =>
        event { s with placers := Assoc.put die (modifyFirst s.aged (fun p => { p with reserved := some cs }) q) s.placers }

end Sys2Proof.Machine
end

