-- ==== Sys2Proof/Machine/Stakes.lean ====
section
/-! DEFINITION. What barriers and reductions share with the end of regions and links: the lanes and registers of the routers
(R21, R347), releases and breaks (R342, R346, R348), the end of an instance (R353, R354). -/
namespace Sys2Proof.Machine

/-! ### Lanes of a router register (R347) -/

/-- A lane before any contribution. -/
def RLane.empty : RLane :=
  { v := 0, pinf := false, ninf := false, nan := false, snan := false, any := false, allNeg0 := true, allPos0 := true }

/-- A contribution's lane of FP32 for a sum: an integer multiple of 2^−149. -/
def laneSum (n : Nat) : RLane :=
  let e := RLane.empty
  match f32Val n with
  | .nan b => { e with any := true, nan := true, snan := b, allNeg0 := false, allPos0 := false }
  | .inf s => { e with any := true, pinf := !s, ninf := s, allNeg0 := false, allPos0 := false }
  | .zero s => { e with any := true, allNeg0 := s, allPos0 := !s }
  | .fin s m k =>
    let v : Int := (m * 2 ^ (k + 149).toNat : Nat)
    { e with any := true, v := BitVec.ofInt 320 (if s then -v else v), allNeg0 := false, allPos0 := false }

/-- A contribution's lane under an operation: `fsum`; the pattern for `fmax` and `fmin`, with its signalling NaN; an integer,
signed or not. -/
def laneIn (op n : Nat) : RLane :=
  match op with
  | 0 => laneSum n
  | 1 | 2 => { RLane.empty with any := true, v := BitVec.ofNat 320 n, snan := (f32Val n).isSnan }
  | 3 | 4 | 5 => { RLane.empty with any := true, v := BitVec.ofInt 320 (asInt 32 n) }
  | _ => { RLane.empty with any := true, v := BitVec.ofNat 320 n }

/-- Two lanes combined under an operation (R347). -/
def RLane.combine (op : Nat) (a b : RLane) : RLane :=
  if !a.any then b
  else if !b.any then a
  else
    let v : BitVec 320 := match op with
      | 0 | 3 => a.v + b.v
      | 1 => BitVec.ofNat 320 (minmax32 false a.v.toNat b.v.toNat).1
      | 2 => BitVec.ofNat 320 (minmax32 true a.v.toNat b.v.toNat).1
      | 4 | 6 => if a.v.slt b.v then b.v else a.v
      | _ => if b.v.slt a.v then b.v else a.v
    { v, pinf := a.pinf || b.pinf, ninf := a.ninf || b.ninf, nan := a.nan || b.nan, snan := a.snan || b.snan, any := true,
      allNeg0 := a.allNeg0 && b.allNeg0, allPos0 := a.allPos0 && b.allPos0 }

/-- The exact value of a sum's lane (R101, R105). -/
def RLane.val (l : RLane) (rm : Rnd) : FVal :=
  if l.nan || (l.pinf && l.ninf) then .nan (l.snan || (l.pinf && l.ninf))
  else if l.pinf then .inf false
  else if l.ninf then .inf true
  else if l.v ≠ 0 then .fin l.v.msb l.v.toInt.natAbs (-149)
  else if l.allPos0 then .zero false
  else if l.allNeg0 then .zero true
  else .zero (rm == .rdn)

/-- A lane's result at the root and its flags (R347): a sum rounded once, an integer sum saturated, an extremum as it is, the
canonical NaN where every contribution is a NaN. -/
def RLane.result (op : Nat) (rm : Rnd) (l : RLane) : Nat × Nat :=
  match op with
  | 0 => (l.val rm).f32 rm
  | 1 | 2 => ((minmax32 (op == 2) l.v.toNat l.v.toNat).1, flagIf l.snan flNv)
  | 3 =>
    let r := clampTo 32 true l.v.toInt
    ((r.1 % 2 ^ 32).toNat, flagIf r.2 flSat)
  | _ => (l.v.toNat % 2 ^ 32, 0)

/-! ### Router registers (R20, R21, R346, R347) -/

/-- The lanes of a router's register for a generation; empty ones where nothing has come. -/
def State.routerLanes (s : State) (p n g : Nat) : List RLane :=
  match s.routers.find? fun r => r.router == p && r.number == n && r.gen == g with
  | some r => r.lanes
  | none => List.replicate 16 RLane.empty

/-- The state without a router's register of a generation. -/
def State.clearRouter (s : State) (p n g : Nat) : State :=
  { s with routers := s.routers.filter fun r => !(r.router == p && r.number == n && r.gen == g) }

/-- The state with lanes added into a router's register (R347). -/
def State.addLanes (s : State) (p n g op : Nat) (ls : List RLane) : State :=
  let all := ((s.routerLanes p n g).zip ls).map fun x => RLane.combine op x.1 x.2
  let s := s.clearRouter p n g
  { s with routers := s.routers ++ [{ router := p, number := n, gen := g, lanes := all }] }

/-- Whether some of a generation's contributions have not reached the root's router (R347). -/
def State.contributing (s : State) (n g root : Nat) : Bool :=
  s.net.any (fun f => match f.pay with
    | .contribution k h _ => k == n && h == g
    | _ => false)
  || s.routers.any fun r => r.number == n && r.gen == g && r.router != root

/-- The context with a reduction's result of a generation (R349): the lanes and flags with status 0; zero with status 1 for a
broken generation, and with status 2 for one that is no longer held. -/
def Ctx.redResult (x : Ctx) (r : RedInst) (v : VReg) (c : SReg) (g : Nat) : Ctx :=
  if r.bar.status g = 1 then (x.wv v 0).ws c 1
  else
    match r.results.find? fun q => q.gen == g with
    | none => (x.wv v 0).ws c 2
    | some q => ((x.wv v (vecOf 32 (q.lanes.map (·.toNat)))).addFlags q.flags).ws c 0

/-- The state with a reduction changed by a release or a break, and the contexts that wait on its ended generations going on: those
not frozen, or, when the reduction ends, all. -/
def State.setRed (s : State) (n : Nat) (r : RedInst) (all : Bool) : State :=
  let s := { s with reds := Assoc.put n r s.reds, routers := s.routers.filter fun q => !(q.number == n && r.bar.ended q.gen) }
  let waits (x : Ctx) : Bool := (all || x.frozen.isNone) && (match x.st with
    | .waiting (.reduction _ _ k g) => k == n && r.bar.ended g
    | _ => false)
  (s.ctxsWhere waits).foldl (fun s p => s.modCtx p.1 p.2 fun x =>
    match x.st with
    | .waiting (.reduction v c _ g) => { x.redResult r v c g with st := .running }.retire
    | _ => x) s

/-- A reduction as the end of its current generation leaves it. -/
def RedInst.ended (r : RedInst) (b : BarInst) : RedInst :=
  { r with bar := b, partials := r.partials.filter (·.gen ≠ r.bar.gen), sentGen := none }

/-- The partial of a reduction's current generation for a link (R348). -/
def RedInst.toLink (r : RedInst) (n : Nat) (lanes : List RLane) (broken : Bool) (l : Nat) : RPartial :=
  { link := l, number := n, gen := r.bar.gen, op := r.op, rm := r.rm, lanes, broken }

/-- The state with a partial of a reduction's current generation on its way over each of its links. -/
def State.tellLinks (s : State) (n : Nat) (r : RedInst) (lanes : List RLane) (broken : Bool) : State :=
  r.links.foldl (fun s l => s.send (.cell r.root) (.link l) (.partialSum (r.toLink n lanes broken l))) s

/-- The state with the current generation of a reduction broken, here and, told by a partial over each of its links, on the
other modules of its pod (R346, R348). -/
def State.breakRed (s : State) (n : Nat) (r : RedInst) (all : Bool) : State :=
  (s.tellLinks n r [] true).setRed n (r.ended r.bar.break_) all

/-! ### The end of an instance (R353, R354) -/

/-- The state with a barrier instance free: the generations that contexts may wait for, the current one and the next, are broken
first (R353). -/
def State.freeBar (s : State) (key : Nat) (b : BarInst) : State :=
  let s := s.wakeBarrier key b.break_ true
  let s := s.wakeBarrier key b.break_.break_ true
  { s with bars := Assoc.erase key s.bars }

/-- The state with a reduction free, its generations broken first (R353); what is on its way of it is gone. -/
def State.freeRed (s : State) (n : Nat) (r : RedInst) : State :=
  let s := s.breakRed n r true
  let s := s.breakRed n (r.ended r.bar.break_) true
  let his (f : Flight) : Bool := match f.pay, f.dst with
    | .contribution k _ _, _ => k == n
    | .partialSum p, .cell _ => p.number == n
    | _, _ => false
  { s with reds := Assoc.erase n s.reds, routers := s.routers.filter (·.number != n), net := s.net.filter fun f => !his f }

/-- The state with the instances and reductions that some regions own free (R341, R346, R354). -/
def State.freeStakes (s : State) (rs : List Nat) : State :=
  let s := (s.bars.filter fun b => rs.contains b.2.owner).foldl (fun s b => s.freeBar b.1 b.2) s
  (s.reds.filter fun r => rs.contains r.2.bar.owner).foldl (fun s r => s.freeRed r.1 r.2) s

/-! ### Links (R382) -/

/-- A link that has not been trained: it is down, and both its key slots are zero. -/
def LinkState.untrained : LinkState where
  st := .down
  shares := []
  txSlot := 0
  rxSlot := 0
  txSlots := [.idle, .idle]
  rxSlots := [.idle, .idle]
  txKeys := List.replicate 2 { key := 0, salt := 0 }
  rxKeys := List.replicate 2 { key := 0, salt := 0 }
  txSeq := 0
  sealed := 0
  rxSeq := 0
  unacked := []
  rotTx := none
  rotRx := none
  rxOld := false
  retries := 0
  attempts := 0
  lastAck := 0
  downSince := 0
  session := 0
  derived := 0
  answers := []

/-- A link; one that has not been trained is down. -/
def State.link (s : State) (l : Nat) : LinkState := s.links.getD l LinkState.untrained
/-- The state with a link changed. -/
def State.modLink (s : State) (l : Nat) (f : LinkState → LinkState) : State := { s with links := Assoc.put l (f (s.link l)) s.links }

/-- Whether a link is not up (R348, R386); one that was never trained is down. -/
def State.linkLost (s : State) (l : Nat) : Bool := !s.linkUp l

/-- The state with the current generation of each reduction over a link broken, which a link that goes down does (R348). -/
def State.breakOver (s : State) (l : Nat) : State :=
  (s.reds.filter fun r => r.2.links.contains l).foldl (fun s r => s.breakRed r.1 r.2 false) s

end Sys2Proof.Machine
end

