-- ==== Sys2Proof/Machine/Regions.lean ====
section
/-! DEFINITION. Regions and tenants: creation (R269, R270, R281), parking (R273, R274), quiescence (R278), tear-down (R164,
R267, R282, R325, R354), budgets as instructions (R283), isolation partitions (R279). -/
namespace Sys2Proof.Machine

/-! ### Scrubbing (R132, R150, R282) -/

/-- A memory list with the bytes of [lo, hi) zero. -/
def Memory.clear (lo hi : Nat) (m : List Host.Cell) : List Host.Cell := m.filter fun x => !(lo ≤ x.1 && x.1 < hi)

/-- The state with the bytes of [lo, hi) zero at their home, vault units among them readable under a key. -/
def State.scrubHome (s : State) (lo hi : Nat) (tag : Nat × Nat) : State :=
  let s := { s with mem := Memory.clear lo hi s.mem }
  if isVault lo then
    let kept := s.keyTags.filter fun x => !(lo / 64 ≤ x.1 && x.1 < hi / 64)
    let tags := if tag = (0, 0) then kept else ((List.range (hi / 64 - lo / 64)).map (lo / 64 + ·)).foldl (fun m u => Assoc.put u tag m) kept
    { s with keyTags := tags, poison := s.poison.filter fun u => !(lo / 64 ≤ u && u < hi / 64) }
  else s

/-- The state with a grant's bytes zero (R132, R150, R282), its `.vlt` bytes readable under a key. -/
def State.scrubGrant (s : State) (g : Grant) (tag : Nat × Nat) : State :=
  let s := s.scrubHome (accA g.cell (g.alo * 4096)) (accA g.cell (g.ahi * 4096)) (0, 0)
  let s := s.scrubHome (locA g.cell g.llo) (locA g.cell g.lhi) (0, 0)
  s.scrubHome (vltA g.cell (g.vlo * 65536)) (vltA g.cell (g.vhi * 65536)) tag

/-- The state with a region's fault record zero on a cell (R367). -/
def State.clearRecord (s : State) (r : Nat) (g : Grant) : State :=
  s.scrubHome (vltA g.cell (g.vsp * 65536)) (vltA g.cell ((g.vsp + 1) * 65536)) (s.regionTag r)

/-! ### Creation (R269, R270, R281) -/

/-- Whether a grant record's ranges are well formed (R131, R150, R270). -/
def State.grantOk (s : State) (g : Grant) : Bool :=
  g.cell ≤ 959 && g.alo ≤ g.ahi && g.ahi ≤ 64 && g.llo % 256 = 0 && g.lhi % 256 = 0 && g.flo % 256 = 0 && g.llo ≤ g.flo
    && g.fhi ≤ g.lhi && g.lhi ≤ 0x180000 && g.vlo ≤ g.vsp && g.vsp < g.vhi
    && g.vhi * 65536 ≤ 2 ^ 30 - s.globalShare g.cell && !s.absent.contains g.cell

/-- Whether a grant leaves the handler overflow area outside, the 4 MiB at the top of the cell's `.vlt` window (R329). -/
def State.leavesArea (s : State) (g : Grant) : Bool := g.vhi * 65536 + 2 ^ 22 ≤ 2 ^ 30 - s.globalShare g.cell

/-- Whether a grant lies within another of the same cell (R270). -/
def Grant.within (g p : Grant) : Bool :=
  p.alo ≤ g.alo && g.ahi ≤ p.ahi && p.llo ≤ g.llo && g.lhi ≤ p.lhi && p.flo ≤ g.flo && g.fhi ≤ p.fhi && p.vlo ≤ g.vlo
    && p.vsp ≤ g.vsp && g.vhi ≤ p.vhi

/-- The grant record that 32 bytes give; none with a nonzero reserved field (R270). -/
def grantOf (bs : List Byte) : Option Grant :=
  if fieldAt bs 4 4 ≠ 0 || fieldAt bs 30 2 ≠ 0 then none
  else
    some { cell := fieldAt bs 0 2, alo := fieldAt bs 2 1, ahi := fieldAt bs 3 1, llo := fieldAt bs 8 4, lhi := fieldAt bs 12 4,
           flo := fieldAt bs 16 4, fhi := fieldAt bs 20 4, vlo := fieldAt bs 24 2, vsp := fieldAt bs 26 2, vhi := fieldAt bs 28 2 }

/-- Whether a region image's reserved fields are zero and its given fields within their limits (R269). -/
def imageOk (bs : List Byte) : Bool :=
  let set := fieldAt bs 0 8
  let lim (i off n lo hi : Nat) : Bool := !bit set i || (lo ≤ fieldAt bs off n && fieldAt bs off n ≤ hi)
  set < 2 ^ 15 && fieldAt bs 9 1 = 0 && fieldAt bs 12 4 = 0 && fieldAt bs 52 4 = 0 && fieldAt bs 74 6 = 0 && fieldAt bs 88 40 = 0
    && lim 0 8 1 0 7 && lim 1 10 2 1 65535 && lim 2 16 8 1 (2 ^ 48 - 1) && lim 3 24 8 0 (2 ^ 48 - 1) && lim 5 36 1 0 16
    && lim 7 38 2 0 1023 && lim 8 40 2 1 16383 && lim 13 64 4 1024 (2 ^ 32 - 1) && lim 14 68 4 1024 (2 ^ 32 - 1)
    && fieldAt bs 72 2 ≤ 960

/-- A control block as a region begins with it: nothing under way, its copy tokens and its watchdog counted from now on (R165,
R269, R277). -/
def Region.begun (x : Region) (clock : Nat) : Region :=
  { x with
    exec := [], placed := [], parked := false, parking := [], frozen := false, dying := false, h := x.h0, quiet := 0, activity := false
    sampledAt := clock / 1024, spillUsed := 0, tokens := [],
    refilled := x.grants.foldl (fun m g => Assoc.put g.cell (clock / 1024) m) [], debts := [], sent := [], retired := [], wave := none }

/-- The control block of a child by its image: a field not given is the parent's (R269). -/
def childOf (bs : List Byte) (parent : Nat) (p : Region) (grants : List Grant) : Region :=
  let set := fieldAt bs 0 8
  let f (i off n old : Nat) : Nat := if bit set i then fieldAt bs off n else old
  { p with
    parent, depth := p.depth + 1, grants
    priority := f 0 8 1 p.priority
    weight := f 1 10 2 p.weight
    budgetCap := f 2 16 8 p.budgetCap
    ext := f 3 24 8 p.ext
    poolQuota := f 4 32 4 p.poolQuota
    hubQuota := f 5 36 1 p.hubQuota
    partition := f 6 37 1 p.partition
    keySlot := f 7 38 2 p.keySlot
    asid := f 8 40 2 p.asid
    fhType := f 9 42 2 p.fhType
    tokRate := f 10 44 4 p.tokRate
    tokDepth := f 11 48 4 p.tokDepth
    spillBudget := f 12 56 8 p.spillBudget
    h0 := f 13 64 4 p.h0
    aging := f 14 68 4 p.aging
    asids := [] }

/-- Whether an ASID is free for a tenant: no region has it, it does not wait for its `tinv`, and it is none of those that another
tenant holds the roots of (R225). -/
def State.asidFree (s : State) (tenant n : Nat) : Bool :=
  !(s.regions.any fun r => r.2.asid == n || (r.2.tenant != tenant && r.2.asids.contains n)) && !s.staleAsids.contains n

/-- Whether the Slath processor holds a tenant's root for an ASID (R225). -/
def State.asidRooted (s : State) (tenant n : Nat) : Bool :=
  (Assoc.get? n s.roots).isSome && ((s.region tenant).map (·.asids.contains n)) == some true

/-- Whether a region lies inside the tenant whose handler runs (R280). -/
def State.inMine (s : State) (r : Nat) : Bool := (s.region r).isSome && s.tenantOf r == s.myTenant && s.myTenant != 0

/-- Whether a region is an active one of the tenant whose handler runs (R280, R281): one that is being torn down is not. -/
def State.mine (s : State) (r : Nat) : Bool := s.inMine r && !s.isDying r

/-- The status of `rgnact new`, or the child (R281): its image and grant list, the parent, depth, containment and isolation
partition (R279; log entry 59), the ASID. -/
def State.newRegion (s : State) (bs : List Byte) (gs : List (Option Grant)) (parent : Nat) : Except Nat Region :=
  let own := gs.filterMap id
  if !imageOk bs || gs.any (·.isNone) || !own.all s.grantOk || (own.map (·.cell)).eraseDups.length ≠ own.length then .error 1
  else
    match (s.region parent).filter fun _ => s.mine parent with
    | none => .error 3
    | some p =>
      let inside := own.all fun g => p.grants.any fun q => q.cell == g.cell && g.within q
      if 8 < p.depth + 1 || !inside then .error 2
      else
        let x := (childOf bs parent p (if own.isEmpty then p.grants else own)).begun s.clock
        if !s.partitionOk x.tenant x.partition (x.grants.map (·.cell)) then .error 2
        else if (bit (fieldAt bs 0 8) 8 && !(s.asidFree x.tenant x.asid && s.asidRooted x.tenant x.asid)) || 65535 ≤ s.regions.length then .error 5 else .ok x

/-- The state with a region's control block in place and the fault records of grants that are its own zero (R269,
R367). -/
def State.addRegion (s : State) (n : Nat) (x : Region) (fresh : List Grant) : State :=
  fresh.foldl (fun s g => s.clearRecord n g) { s with regions := Assoc.put n x s.regions }

/-- What of some torn-down bytes is left beside a grant. -/
def Torn.beside (t : Torn) (g : Grant) : List Torn :=
  if t.cell ≠ g.cell then [t]
  else [{ t with hi := min t.hi g.llo }, { t with lo := max t.lo g.lhi }].filter fun u => u.lo < u.hi

/-- The state with the rows and scratchpad bytes of a grant zero that pass from a parent to its child (R132, R150). -/
def State.passGrant (s : State) (g : Grant) : State :=
  let s := { s with torn := s.torn.flatMap fun (t : Torn) => t.beside g }
  let s := s.scrubHome (accA g.cell (g.alo * 4096)) (accA g.cell (g.ahi * 4096)) (0, 0)
  s.scrubHome (locA g.cell g.llo) (locA g.cell g.lhi) (0, 0)

/-- A result word of `rgnact` for a failure (R281). -/
def failed (n : Nat) : Word := word (2 ^ 63 + n)

/-- `rgnact new` (R281): the image and the grant list are synchronous loads; which free number the child takes is a free
choice. -/
def execRgnactNew (x : ArgDAB) (s : State) : Host.Outcome State Fault Refusal :=
  issue (.rgnactNew x) x.g superCtx (fun s => do
    let parent := (s.me.rs x.b).toNat
    let bs ← s.syncRead (s.me.rs x.a) 128 64
    let n := if imageOk bs then fieldAt bs 72 2 else 0
    let list ← if n = 0 then .ok [] else s.syncRead (word (fieldAt bs 80 8)) (32 * n) 32
    let gs := (List.range n).map fun k => grantOf (list.drop (32 * k))
    match s.newRegion bs gs parent with
    | .error e => s.update fun y => y.ws x.d (failed e)
    | .ok r =>
      let no := freeNumber (0 :: s.regions.map (·.1)) 65536 4 s.fresh
      let p := ((s.region parent).map (·.grants)).getD []
      let own := r.grants.filter fun g => !(p.any fun q => q.cell == g.cell && q.vsp == g.vsp)
      (if n = 0 then s else r.grants.foldl (fun s g => s.passGrant g) s).addRegion no r own |>.update fun y => y.ws x.d (word no)) s

/-- Whether a root may be set for a new tenant's ASID (R225): the ASID, the address of the level-0 table, the walker's key slot. -/
def State.rootOk (s : State) (tenant : Nat) (t : Nat × Nat × Nat) : Bool :=
  1 ≤ t.1 && t.1 ≤ 16383 && s.asidFree tenant t.1 && t.2.1 % 65536 = 0 && t.2.1 < 2 ^ 48 && t.2.2 ≤ 1023

/-- Whether a tenant may be created as asked (R225, R269, R270, R279, R329, R392): the Slath processor takes no number in use, none that
still owns a key slot, no malformed grant or one over the handler overflow area, no ASID in use or without a root, no virtual
function in use, and no partition that it may not have. -/
def State.tenantOk (s : State) (q : TenantReq) : Bool :=
  let x := q.control
  1 ≤ q.no && q.no ≤ 65535 && (s.region q.no).isNone && x.grants.all (fun g => s.grantOk g && s.leavesArea g)
    && 1 ≤ x.asid && x.asid ≤ 16383 && s.asidFree q.no x.asid && q.roots.all (s.rootOk q.no) && q.roots.any (·.1 == x.asid)
    && hostLinks.contains q.link && (Assoc.get? x.vf s.vfs).isNone && !s.recovery
    && s.partitionOk q.no x.partition (x.grants.map (·.cell)) && !s.keys.any (fun k => k.2.owner == q.no && k.2.st != .empty)

/-- A tenant created (R225, R269, R357), with its virtual function; the table of its channel descriptors is made, and the host told its
address (R389). -/
def execTenantCreate (q : TenantReq) (s : State) : Host.Outcome State Fault Refusal :=
  if !s.tenantOk q then event s
  else
    let x := q.control
    let r : Region := { x.begun s.clock with parent := 0, tenant := q.no, depth := 0, asids := q.roots.map (·.1) }
    let s := s.addRegion q.no r x.grants
    let vf : Vf := { st := .unlocked, link := q.link, doorbell := q.doorbell, base := q.window.1, size := q.window.2, tableVa := q.table.1,
                     table := q.table.2 }
    let s := { s with
      roots := q.roots.foldl (fun m t => Assoc.put t.1 t.2 m) s.roots
      types := Assoc.put q.no [] s.types
      vfs := Assoc.put x.vf vf s.vfs
      hostOut := s.hostOut ++ [.channelTable x.vf q.table.1] }
    event ((List.range 256).foldl (fun s n => s.writeDescriptor x.vf n Channel.fresh) s)

/-! ### Pre-emption and parking (R273, R274) -/

/-- A pre-emption request: the dispatch of a tenant's records stands still on cells until its tasks and operations there have
ended (R273). -/
def execPreemptionRequest (q : PreemptReq) (s : State) : Host.Outcome State Fault Refusal :=
  if (s.region q.tenant).isNone then event s
  else
    event (q.cells.foldl (fun s c =>
      if c ≤ 959 then (s.modCell c fun x => { x with halted := q.tenant :: x.halted.filter (· ≠ q.tenant) }).clearHalts c else s) s)

/-- The cells of a region. -/
def State.cellsOf (s : State) (r : Nat) : List Nat := ((s.region r).map fun x => x.grants.map (·.cell)).getD []

/-- The state with a malformed image of a tenant's ring on a cell rejected (R244). -/
def State.checkedImage (s : State) (c tenant : Nat) : State := if (s.imaged c tenant).isNone then s.refillRing c tenant else s

/-- The state with the records of a parked subtree moved from a cell's ring to its image, before those already there (R243,
R274); what the spill budget or the spill area does not hold is discarded as on arrival. -/
def State.parkRing (s : State) (c tenant root : Nat) : State :=
  let s := s.checkedImage c tenant
  let ring := s.ring c tenant
  let old := (s.imaged c tenant).getD []
  let his (r : Rec) : Bool := s.inSubtree (headRegion r.head) root
  let s := s.setRing c tenant { ring with recs := ring.recs.filter (!his ·) }
  let r := (ring.recs.filter his).foldl (fun (a : State × List (Rec × Nat) × List Rec) r =>
    match a.1.charge (headRegion r.head) 88 with
    | some s => (s, a.2.1 ++ [(r, headRegion r.head)], a.2.2)
    | none => (a.1, a.2.1, a.2.2 ++ [r])) (s, [], [])
  match r.1.setImage c tenant (r.2.1 ++ old) with
  | some s => r.2.2.foldl (fun s q => s.spillLost c q) s
  | none => (r.2.1.map (·.1) ++ r.2.2).foldl (fun s q => s.spillLost c q) (r.2.1.foldl (fun s q => s.credit q.2 88) r.1)

/-- The endpoints of a subtree on a cell, by number. -/
def State.endpointsOf (s : State) (c root : Nat) : List (Nat × Endpoint) := (s.cell c).eps.filter fun e => s.inSubtree e.2.region root

/-- The state with a region switched out (R274): records to the images, endpoints parked; its offers are held from now on. -/
def State.park (s : State) (root : Nat) : State :=
  let tenant := s.tenantOf root
  let s := s.modRegion root fun x => { x with parked := true, parking := [] }
  (s.cells.map (·.1)).foldl (fun s c =>
    let s := s.parkRing c tenant root
    (s.endpointsOf c root).foldl (fun s e => if e.2.st == .resident then s.parkEndpoint c e.1 e.2 false else s) s) s

/-- `rgnact park` (R274, R281): the dispatch of the subtree's records stands still, and the handler waits until its tasks,
tile operations and copies have ended. -/
def execRgnactPark (x : ArgDA) (s : State) : Host.Outcome State Fault Refusal :=
  issue (.rgnactPark x) x.g superCtx (fun s =>
    let n := (s.me.rs x.a).toNat
    let r := n % 2 ^ 16
    if 65535 < n || !s.mine r then s.update fun y => y.ws x.d (failed 3)
    else if ((s.region r).map (·.parked)).getD false then s.update fun y => y.ws x.d (failed 4)
    else if s.cells.any fun c => s.busyOn c.1 r then
      .ok ((s.modRegion r fun q => { q with parking := s.cur.cell :: q.parking.filter (· ≠ s.cur.cell) }).modMe fun y => { y with stalled := true })
    else (s.park r).update fun y => y.ws x.d (word r)) s

/-- The state with the records of a region that is no longer parked back in a cell's ring, ahead of all others, as far as the
ring holds them (R243, R274); a malformed image is rejected (R244). -/
def State.resumeRing (s : State) (c tenant root : Nat) : State :=
  let s := s.checkedImage c tenant
  let ring := s.ring c tenant
  let rs := (s.imaged c tenant).getD []
  let back (r : Rec × Nat) : Bool := s.inSubtree (headRegion r.1.head) root && !s.isParked (headRegion r.1.head)
  let room := 256 - ring.recs.length
  let first := (rs.filter back).take room
  if first.isEmpty then s
  else
    match s.setImage c tenant ((rs.filter back).drop room ++ rs.filter (!back ·)) with
    | none => s
    | some t => t.setRing c tenant { t.ring c tenant with recs := first.map (·.1) ++ ring.recs }

/-- The state with a parked region switched in (R274): its offers can take part in decisions again, its endpoints that were parked
with it are resident and their queues replayed, its records are dispatched first. -/
def State.unpark (s : State) (root : Nat) : State :=
  let tenant := s.tenantOf root
  let s := s.modRegion root fun x => { x with parked := false }
  let touch (h : HubSlot) : HubSlot :=
    if s.inSubtree h.region root || h.offers.any (fun o => s.inSubtree o.region root) then { h with dirty := true } else h
  let s := { s with cells := s.cells.map fun (x : Nat × Cell) =>
    (x.1, { x.2 with hub := x.2.hub.map fun (h : Nat × HubSlot) => (h.1, touch h.2) }) }
  (s.cells.map (·.1)).foldl (fun s c =>
    let s := (s.endpointsOf c root).foldl (fun s e => match e.2.st with
      | .parked q false => if s.isParked e.2.region then s else s.resumeEndpoint c e.1 e.2 q
      | _ => s) s
    s.resumeRing c tenant root) s

/-- `rgnact resume` (R274, R281). -/
def execRgnactResume (x : ArgDA) (s : State) : Host.Outcome State Fault Refusal :=
  issue (.rgnactResume x) x.g superCtx (fun s =>
    let n := (s.me.rs x.a).toNat
    let r := n % 2 ^ 16
    if 65535 < n || !s.mine r then s.update fun y => y.ws x.d (failed 3)
    else if !((s.region r).map (·.parked)).getD false then s.update fun y => y.ws x.d (failed 4)
    else (s.unpark r).update fun y => y.ws x.d (word r)) s

/-! ### Quiescence (R278) -/

/-- The totals of one counter over the module. -/
def total (m : Assoc Nat) : Nat := (m.map (·.2)).sum

/-- The totals that a counting wave finds for some regions: sent and retired (R278). -/
def State.waveOf (s : State) (rs : List Nat) : Nat × Nat :=
  ((rs.map fun r => ((s.region r).map fun x => total x.sent).getD 0).sum,
   (rs.map fun r => ((s.region r).map fun x => total x.retired).getD 0).sum)

/-- `rgnact quiet` (R278, R281): the second of two consecutive waves answers. -/
def execRgnactQuiet (x : ArgDA) (s : State) : Host.Outcome State Fault Refusal :=
  issue (.rgnactQuiet x) x.g superCtx (fun s =>
    let n := (s.me.rs x.a).toNat
    let r := n % 2 ^ 16
    if 65535 < n || !s.mine r then s.update fun y => y.ws x.d (failed 3)
    else
      let now := s.waveOf [r]
      match (s.region r).bind (·.wave) with
      | none => .ok ((s.modRegion r fun q => { q with wave := some now }).modMe fun y => { y with stalled := true })
      | some before =>
        let quiet := before.1 = before.2 && now = before
        (s.modRegion r fun q => { q with wave := none }).update fun y => y.ws x.d (word (b2n quiet))) s

/-! ### Tear-down (R282) -/

/-- The state with the resident tasks of some regions killed, and the handlers that run for them (R282 step 1). -/
def State.killTasks (s : State) (rs : List Nat) : State :=
  (s.cells.map (·.1)).foldl (fun s c =>
    (List.range 9).foldl (fun s i =>
      if rs.contains (s.ctxRegion c i) && (s.ctxAt c i).st != .idle then
        s.kill c i 2 false (s.ctxAt c i).pc { cause := 0, val := 0, info := 0 }
      else s) s) s

/-- A cell with the operations of some regions withdrawn that have not started, or that its engine holds frozen; those under way go
on without their completion actions (R147, R198). -/
def Cell.withdraw (x : Cell) (rs : List Nat) : Cell :=
  let waits (o : CopyOp) : Bool := match o.phase with
    | .queued | .faulted _ => true
    | .paused => x.noCopy.contains o.region
    | _ => false
  let copies := x.copyq.filter fun o => rs.contains o.region && waits o
  let gone := (x.tileq.filter fun o => rs.contains o.region && !o.started).map (·.key) ++ copies.map (·.key)
  { x with
    retry := x.retry.filter fun e => !(e.2.kind == 2 && copies.any (·.id == e.2.data))
    retryWait := x.retryWait.filter fun e => !(e.1.kind == 2 && copies.any (·.id == e.1.data))
    tileq := (x.tileq.filter fun o => !gone.contains o.key).map fun o => if rs.contains o.region then { o with suppressed := true } else o
    copyq := (x.copyq.filter fun o => !gone.contains o.key).map fun o => if rs.contains o.region then { o with suppressed := true } else o
    sb := x.sb.filter fun e => !gone.contains e.key
    heldActs := x.heldActs.filter fun a => !rs.contains a.region }

/-- A pool as the end of some regions leaves it: the tiles they allocated Draining, their own pools closing, their queued
requests gone (R164). -/
def Pool.orphan (p : Pool) (rs : List Nat) : Pool :=
  { p with
    tiles := p.tiles.map fun t => if rs.contains t.region && t.st != .free then { t with st := .draining, count := 0 } else t
    queue := p.queue.filter fun r => r.link.isSome || !rs.contains r.region
    closing := p.closing || rs.contains p.owner }

/-- Whether a record belongs to one of some regions. -/
def Rec.of (r : Rec) (rs : List Nat) : Bool := rs.contains (headRegion r.head)

/-- The state with the records of some regions gone from a tenant's ring on a cell and from its image (R267). -/
def State.dropRecords (s : State) (c tenant : Nat) (rs : List Nat) : State :=
  let s := s.checkedImage c tenant
  let s := match s.imaged c tenant with
    | some im => if im.any (·.1.of rs) then (s.setImage c tenant (im.filter fun r => !r.1.of rs)).getD s else s
    | none => s
  let g := s.ring c tenant
  s.setRing c tenant { g with recs := g.recs.filter fun r => !r.of rs }

/-- A request for context 8 that goes with some regions: a handler's for one of them, or one of a tenant that ends; what a task has sent
stands (R249, R267). -/
def Req8.of (q : Req8) (rs : List Nat) : Bool :=
  match q with
  | .handler _ r => rs.contains r
  | .owner o => rs.contains o.tenant
  | .atomic _ => false

/-- A request for context 8 whose sender's region, one of some, is gone: the sender's budget is charged for it no longer. -/
def Req8.disown (q : Req8) (rs : List Nat) : Req8 :=
  match q with
  | .handler m r => .handler (if rs.contains m.region then { m with region := 0 } else m) r
  | .owner o => .owner (if rs.contains o.region then { o with region := 0 } else o)
  | .atomic a => .atomic a

/-- A cell without what it held for some regions: events that wait, handler entries, endpoints with their queues, owner requests,
freezes (R267, R325, R328). -/
def Cell.forget (x : Cell) (rs : List Nat) : Cell :=
  { x with
    lateEvents := x.lateEvents.filter fun r => !r.of rs
    htab := x.htab.filter fun e => !rs.contains e.2.region
    eps := x.eps.filter fun e => !rs.contains e.2.region
    in8 := (x.in8.filter fun q => !q.of rs).map (·.disown rs)
    over8 := (x.over8.filter fun q => !q.of rs).map (·.disown rs)
    halted := x.halted.filter fun r => !rs.contains r
    frozenRegs := x.frozenRegs.filter fun f => !rs.contains f.1
    noCopy := x.noCopy.filter fun r => !rs.contains r }

/-- The messages that a cell holds for endpoints of some regions, which go back to their senders (R339). -/
def State.orphanMsgs (s : State) (c : Nat) (rs : List Nat) : List Msg :=
  let x := s.cell c
  ((x.in8 ++ x.over8).filterMap fun q => match q with
    | .handler m r => if rs.contains r then some m else none
    | _ => none)
  ++ x.eps.flatMap fun e => match e.2.st with
    | .parked q _ => if rs.contains e.2.region then q.map fun p => p.2.reread (s.spillBytes c p.1 48) else []
    | _ => []

/-- The state with the offers of some regions cancelled at every hub, and their hub slots dropped (R282 step 3, R308,
R321). -/
def State.dropHubs (s : State) (rs : List Nat) : State :=
  (s.cells.map (·.1)).foldl (fun s c =>
    ((s.cell c).hub.map (·.1)).foldl (fun s j =>
      match s.hubSlot c j with
      | none => s
      | some h =>
        if rs.contains h.region then s.dropHub c j else s.removeOffers c j fun o => o.link.isNone && rs.contains o.region) s) s

/-- The state with the requests, records and entries of some regions gone from every cell, and from the placers; the charges of
requests in overflow areas go back to their senders (R412), messages to theirs (R339), and instances and reductions are free (R354). -/
def State.forgetAll (s : State) (rs : List Nat) : State :=
  let s := (s.cells.map (·.1)).foldl (fun s c =>
    let s := (s.orphanMsgs c rs).foldl (fun s m => s.returnMsg c m 3) s
    let s := ((s.cell c).over8.filter (·.of rs)).foldl (fun s q => s.credit8 q) s
    let s := ((s.cell c).rings.map (·.1)).foldl (fun s t => s.dropRecords c t rs) s
    s.modCell c fun x => x.forget rs) s
  let s := { s with
    placers := s.placers.map fun (p : Nat × List PlaceReq) => (p.1, p.2.filter fun q => !q.record.of rs)
    clusters := s.clusters.filter fun x => !rs.contains x.2.region }
  s.freeStakes rs

/-- The ASIDs of some regions that no other region has (R225). -/
def State.ownAsids (s : State) (rs : List Nat) : List Nat :=
  ((s.regions.filter fun r => rs.contains r.1).map (·.2.asid)).eraseDups.filter fun a =>
    !(s.regions.any fun r => !rs.contains r.1 && r.2.asid == a)

/-- The status that a load ends with, as ngload learns it (R66). -/
def State.report (s : State) (status region : Nat) : State := { s with hostOut := s.hostOut ++ [.loadStatus status region] }

/-- The tear-down of a region's subtree begins (R282): its tasks killed, its operations, tiles and pools ended, its records, entries
and offers gone, its waiting loads ended (R67). It goes on when what is under way has ended (log entry 27). -/
def State.endSubtree (s : State) (root : Nat) : State :=
  let rs := s.subtree root
  let s := s.modRegion root fun x => { x with dying := true }
  let s := s.killTasks rs
  let s := { s with cells := s.cells.map fun (x : Nat × Cell) =>
    (x.1, { x.2.withdraw rs with pools := x.2.pools.map fun (p : Nat × Pool) => (p.1, p.2.orphan rs) }) }
  let s := (s.loads.filter fun q => rs.contains q.req.region).foldl (fun s q => s.report 10 q.req.region) s
  let s := { s with loads := s.loads.filter fun q => !rs.contains q.req.region }
  let s := (s.dropHubs rs).forgetAll rs
  (s.cells.map (·.1)).foldl (fun s c => s.settle c) s

/-- Whether something of a subtree is still under way that may write its grants: tile operations and copies that have started
(R147, R198), chunks of accepted copies, atomics that wait for context 8. -/
def State.subtreeBusy (s : State) (root : Nat) : Bool :=
  let rs := s.subtree root
  s.scOps.any (fun o => o.acc.isLocal && rs.contains o.acc.region) || s.cells.any fun x =>
    x.2.tileq.any (fun o => rs.contains o.region)
      || x.2.copyq.any (fun o => rs.contains o.region && !(o.phase == .paused && x.2.noCopy.contains o.region))
      || x.2.accepted.any (fun h => x.2.waiting.any (·.same h) && x.2.sb.any fun e => e.key == h.entry && rs.contains e.region)
      || (x.2.in8 ++ x.2.over8).any fun q => match q with
        | .atomic a => a.isLocal && rs.contains a.region
        | _ => false

/-- The tear-down of a region's subtree ends (R282): what has come for it since is gone, its grants are scrubbed, its numbers and
ASIDs freed, an ASID to be given again only after its `tinv`, its pools closed. -/
def State.finishTearDown (s : State) (root : Nat) : State :=
  let rs := s.subtree root
  let parent : Nat := ((s.region root).map (·.parent)).getD 0
  let s := { s with cells := s.cells.map fun (x : Nat × Cell) => (x.1, x.2.withdraw rs) }
  let s := (s.dropHubs rs).forgetAll rs
  let s := (s.cells.map (·.1)).foldl (fun s c => s.settle c) s
  let asids := s.ownAsids rs
  let grants := rs.flatMap fun r => ((s.region r).map (·.grants)).getD []
  let torn : List Torn := if parent = 0 then [] else grants.map fun g => { cell := g.cell, lo := g.llo, hi := g.lhi, parent }
  let roots := if parent = 0 then (((s.region root).map (·.asids)).getD []) else []
  let s := { s with
    regions := s.regions.filter fun r => !rs.contains r.1
    torn := (s.torn.filter fun t => !rs.contains t.parent) ++ torn
    roots := s.roots.filter fun a => !roots.contains a.1
    staleAsids := s.staleAsids ++ asids }
  grants.foldl (fun s g => s.scrubGrant g (s.regionTag parent)) s

/-- The status 3 of `rgnkill` (R281, R282): outside the tenant, no region, or the tenant region itself. -/
def State.killable (s : State) (n : Nat) : Bool := n ≤ 65535 && s.inMine n && n != s.myTenant

/-- `rgnkill` once it may tear down (R282): begun, then, when nothing of the subtree is under way, ended; until then it waits. -/
def State.killSubtree (s : State) (n : Nat) (d : SReg) : Res :=
  let s := if ((s.region n).map (·.dying)).getD false then s else s.endSubtree n
  if s.subtreeBusy n then .ok (s.modMe fun y => { y with stalled := true }) else (s.finishTearDown n).update fun y => y.ws d 0

/-- `rgnkill kill` (R282). -/
def execRgnkillKill (x : ArgDA) (s : State) : Host.Outcome State Fault Refusal :=
  issue (.rgnkillKill x) x.g superCtx (fun s =>
    let n := (s.me.rs x.a).toNat
    if !s.killable n then s.update fun y => y.ws x.d 3 else s.killSubtree n x.d) s

/-- `rgnkill exit` (R278, R282): it waits until two consecutive waves find the subtree quiescent, then tears it down. -/
def execRgnkillExit (x : ArgDA) (s : State) : Host.Outcome State Fault Refusal :=
  issue (.rgnkillExit x) x.g superCtx (fun s =>
    let n := (s.me.rs x.a).toNat
    if !s.killable n then s.update fun y => y.ws x.d 3
    else
      let now := s.waveOf (s.subtree n)
      if ((s.region n).map (·.dying)).getD false || (now.1 = now.2 && (s.region n).bind (·.wave) = some now) then s.killSubtree n x.d
      else .ok ((s.modRegion n fun q => { q with wave := some now }).modMe fun y => { y with stalled := true })) s

/-- The Slath processor tears down a tenant region and its subtree (R282): its tables, channels, key slots' use and link
shares end with it, when nothing of it is under way any longer. -/
def execTenantTeardown (region : Nat) (s : State) : Host.Outcome State Fault Refusal :=
  match s.region region with
  | none => event s
  | some x =>
    if x.parent ≠ 0 then event s
    else
      let s := if x.dying then s else
        (s.cells.map (·.1)).foldl (fun s c => if (s.cell c).run9.any (·.tenant == region) then s.endRun9 c else s) (s.endSubtree region)
      if s.subtreeBusy region then event s
      else
        let s := s.finishTearDown region
        event { s with
          cells := s.cells.map fun (y : Nat × Cell) =>
            (y.1, { y.2 with rings := Assoc.erase region y.2.rings, deficits := Assoc.erase region y.2.deficits })
          types := Assoc.erase region s.types
          vfs := Assoc.erase x.vf s.vfs
          chans := s.chans.filter fun k => k.1 / 256 ≠ x.vf
          links := s.links.map fun (l : Nat × LinkState) => (l.1, { l.2 with shares := l.2.shares.filter fun h => h.tenant ≠ region }) }.remeasure

/-! ### Isolation partitions (R279) -/

/-- Whether an interleave set is well formed and may be set beside the others (R220, R221, R329). -/
def State.setOk (s : State) (n : Nat) (q : ISet) : Bool :=
  n < 64 && slice q.w0.toNat 58 6 = 0 && slice q.w0.toNat 10 6 = 0 && (q.count = 0 ||
    (q.first + q.count ≤ 960 && q.share ≠ 0 && q.share ≤ 2 ^ 30 && q.base % q.window = 0
      && s.absent.all (fun c => !(q.first ≤ c && c < q.first + q.count)) && q.w1.toNat % 2 ^ 48 = q.count * q.share
      && s.sets.all (fun p => p.1 = n || p.2.count = 0 || !(overlaps p.2.base p.2.window q.base q.window))
      && s.sets.all (fun p => p.1 = n || p.2.count = 0 || !(overlaps p.2.first p.2.count q.first q.count))
      && s.regions.all (fun r => r.2.grants.all fun g =>
          !(q.first ≤ g.cell && g.cell < q.first + q.count) || g.vhi * 65536 + 2 ^ 22 ≤ 2 ^ 30 - q.share)))

/-- Whether an isolation partition may be configured (R279): its cells stand in no other; a disjoint one holds one tenant, whose
regions there keep to its cells, and has its cells' grants and hub slots (R308); the shares of a station add up to no more than its
4,096 entries and 16 walkers (R229). -/
def State.partReqOk (s : State) (q : PartReq) : Bool :=
  let his := s.regions.filter fun r => r.2.partition == q.partition
  let there := s.regions.filter fun r => r.2.grants.any fun g => q.cells.contains g.cell
  let slots := (s.cells.filter fun x => q.cells.contains x.1).flatMap fun x => x.2.hub.map (·.2.tenant)
  let shares (k : Nat) : List (Nat × Nat × Nat) :=
    (q.stations.filter fun x => x.1 == k) ++ (s.stationShares.getD k []).filter (·.1 ≠ q.partition)
  q.partition ≤ 255 && q.cells.all (fun c => c ≤ 959 && !s.absent.contains c)
    && q.stations.all (fun x => x.1 < 64 && (q.stations.filter fun y => y.1 == x.1).length == 1
      && ((shares x.1).map (·.2.1)).sum ≤ 16 && ((shares x.1).map (·.2.2)).sum ≤ 16)
    && s.partitions.all (fun p => p.1 == q.partition || !(q.cells.any p.2.contains))
    && (!q.disjoint || (((his ++ there).map (·.2.tenant) ++ slots).eraseDups.length ≤ 1
      && his.all fun r => r.2.grants.all fun g => q.cells.contains g.cell))

/-- The Slath processor configures an isolation partition (R221, R229, R279, R383): its cells, the interleave sets, its shares of
translation stations, and of links with their paired tenants. Measurement 4 records the configuration (R393). -/
def execIsolationPartitionConfigure (q : PartReq) (s : State) : Host.Outcome State Fault Refusal :=
  if !s.partReqOk q then event s
  else
    let others := s.disjoint.filter (· ≠ q.partition)
    let s := { s with partitions := Assoc.put q.partition q.cells s.partitions,
                      disjoint := (if q.disjoint then [q.partition] else []) ++ others }
    let s := q.sets.foldl (fun s x => if s.setOk x.1 x.2 then { s with sets := Assoc.put x.1 x.2 s.sets } else s) s
    let s := q.stations.foldl (fun s x =>
      let old := (s.stationShares.getD x.1 []).filter (·.1 ≠ q.partition)
      { s with stationShares := Assoc.put x.1 ((q.partition, x.2.1, x.2.2) :: old) s.stationShares }) s
    let s := q.shares.foldl (fun s x =>
      if x.1 < 16 && x.2.share < 8 then s.modLink x.1 fun l => { l with shares := x.2 :: l.shares.filter (·.share ≠ x.2.share) } else s) s
    event s.remeasure

/-! ### budget (R283) -/

/-- `budget rd` (R283): B + X - `tcycles`, signed. -/
def execBudgetRd (x : ArgD) (s : State) : Host.Outcome State Fault Refusal :=
  issue (.budgetRd x) x.g taskCtx (fun s =>
    let v : Int := match s.me.task with
      | none => 0
      | some t => ((t.budget + t.ext : Nat) : Int) - (s.tcycles s.cur.cell s.cur.ctx : Nat)
    s.update fun y => y.ws x.d (BitVec.ofInt 64 v)) s

/-- The status of `budget ext` (R283), judged by the trap that the run took. -/
def State.extStatus (s : State) (r : Run9) : Nat :=
  let c := s.cur.cell
  match (if s.ctxTask c r.trap.ctx = r.trap.task then (s.ctxAt c r.trap.ctx).task else none) with
  | none => 2
  | some t =>
    if t.extended then 1
    else if r.trap.info.cause ≠ 31 then 2
    else if ((s.region t.region).map (·.ext)).getD 0 = 0 then 3
    else 0

/-- `budget ext` (R283): the extension E is added to the trapped task's budget, once. -/
def execBudgetExt (x : ArgD) (s : State) : Host.Outcome State Fault Refusal :=
  issue (.budgetExt x) x.g superCtx (fun s =>
    let c := s.cur.cell
    match (s.cell c).run9 with
    | none => s.update fun y => y.ws x.d 2
    | some r =>
      let st := s.extStatus r
      let s := if st ≠ 0 then s
        else s.modCtx c r.trap.ctx fun y => { y with task := y.task.map fun t =>
          { t with ext := ((s.region t.region).map (·.ext)).getD 0, extended := true } }
      s.update fun y => y.ws x.d (word st)) s

end Sys2Proof.Machine
end

