-- ==== Sys2Proof/Machine/Barriers.lean ====
section
/-! DEFINITION. Stake lines and exact reductions: the faults of their use (R343), `barv`, `barw`, `redp` and `redg` (R344, R351,
R352), `bcfg` and `rcfg` (R353), combination and results (R347 to R349). -/
namespace Sys2Proof.Machine

/-- The fault of a use of an instance by the executing context, the reason of R343, in the order of its table; `token` is the
generation that a token names and whether its reserved fields are zero. -/
def State.barReason (s : State) (b : Option BarInst) (clu : Bool) (token : Option (Nat × Bool)) : Option Nat :=
  match b with
  | none => some 1
  | some b =>
    if clu && !b.cluster then some 1
    else if !s.inSubtree (s.ctxRegion s.cur.cell s.cur.ctx) b.owner then some 2
    else if (Assoc.get? s.cur.cell b.cells).isNone then some 3
    else
      match token with
      | none => none
      | some (g, ok) => if !ok || !(b.ended g || b.near g) then some 4 else none

/-- A barrier fault (R343). -/
def barFault (arrive : Bool) (v : Word) (reason : Nat) : TrapInfo := { cause := if arrive then 7 else 5, val := v, info := word reason }

/-! ### Barriers -/

/-- The key of the instance that `barv` names: a number's on the executing cell, or its cluster's (R341, R345). -/
def State.barKeyOf (s : State) (clu : Bool) (n : Nat) : Option Nat :=
  if clu then ((s.me.task.bind (·.cluster)).bind fun k => Assoc.get? k s.clusters).map (·.inst)
  else some (barKey n (s.cur.cell / 240))

/-- A barrier token (R351). -/
def barToken (clu : Bool) (n g : Nat) : Word := word (b2n clu * 2 ^ 22 + n * 2 ^ 16 + g)

/-- `barv` (R342 to R344, R351): the checks, the release wait, the arrival. -/
def execBarv (x : ArgBarv) (s : State) : Host.Outcome State Fault Refusal :=
  issue (.barv x) x.g taskCtx (fun s => do
    let key := s.barKeyOf x.clu x.n.val
    let b := key.bind fun k => Assoc.get? k s.bars
    trapIf ((s.barReason b x.clu none).map fun r => barFault true (word x.n.val) r)
    match key, b with
    | some k, some b =>
      s.releaseWait (if b.cluster then .clu else .mod)
      match b.arrive s.cur.cell with
      | none => Res.stall
      | some (b', g) =>
        ({ s with bars := Assoc.put k b' s.bars }).update fun y => y.ws x.d (barToken b.cluster (k % 64) g)
    | _, _ => .ok s) s

/-- `barw` (R342, R343, R351): it holds its context until the generation of its token has ended, at the instance that the token's
number names on the executing cell. -/
def execBarw (x : ArgDA) (s : State) : Host.Outcome State Fault Refusal :=
  issue (.barw x) x.g taskCtx (fun s => do
    let t := s.me.rs x.a
    let n := t.toNat
    let clu := bit n 22
    let g := n % 2 ^ 16
    let k := barKey (slice n 16 6) (s.cur.cell / 240)
    let b := Assoc.get? k s.bars
    trapIf ((s.barReason b clu (some (g, n < 2 ^ 23))).map fun r => barFault false t r)
    match b with
    | some b =>
      if b.ended g then s.update fun y => y.ws x.d (word (b.status g))
      else .ok (s.modMe fun y => { y with st := .waiting (.barrier x.d k g), stalled := false })
    | none => .ok s) s

/-- A barrier's release line fires when every participant's input is high (R342). -/
def execBarrierRelease (inst : Nat) (s : State) : Host.Outcome State Fault Refusal :=
  match Assoc.get? inst s.bars with
  | none => event s
  | some b => if b.allHigh then event (s.setBar inst b.release) else event s

/-! ### Configuration blocks (R353) -/

/-- The participants that a block's bitmap names, rising. -/
def bitmapCells (bs : List Byte) : List Nat := (List.range 960).filter fun c => bit (fieldAt bs (c / 8) 1) (c % 8)

/-- The instance that a block configures. -/
def blockBar (bs : List Byte) : BarInst :=
  { cluster := false, owner := fieldAt bs 122 2, k := fieldAt bs 120 1, gen := 0, lb := none,
    cells := (bitmapCells bs).map fun c => (c, { cur := 0, next := 0, departed := false }) }

/-- The status of a block's participants and owner (R353): an empty set or k out of range, then the owner, then participants
outside the die or not granted to the owner. -/
def State.blockStatus (s : State) (bs : List Byte) (die : Option Nat) : Nat :=
  let b := blockBar bs
  if b.k = 0 || 8 < b.k || b.cells.isEmpty then 2
  else if !s.mine b.owner then 3
  else if b.cells.any fun c => (s.grant b.owner c.1).isNone || (match die with
      | some d => c.1 / 240 != d
      | none => false) then 2
  else 0

/-- Whether the executing supervisor's tenant configured an instance (R353). -/
def State.ownsBar (s : State) (b : BarInst) : Bool := s.mine b.owner && !b.cluster

/-- The state word of an instance (R353). -/
def BarInst.word (b : BarInst) : Word :=
  Sys2Proof.word (2 ^ 63 + b2n b.cluster * 2 ^ 62 + (b.cells.filter fun x => b.high x.2).length % 2 ^ 10 * 2 ^ 48
    + b.owner % 2 ^ 16 * 2 ^ 32 + b.gen * 2 ^ 16 + b.lb.getD 0xffff)

/-! ### bcfg (R353) -/

/-- `bcfg set` (R353). -/
def execBcfgSet (x : ArgBcfg) (s : State) : Host.Outcome State Fault Refusal :=
  issue (.bcfgSet x) x.g superCtx (fun s => do
    let key := barKey x.n.val x.die.val
    let bs ← s.syncRead (s.me.rs x.a) 128 64
    let st :=
      if (Assoc.get? key s.bars).isSome then 1
      else if fieldAt bs 121 1 ≠ 0 || fieldAt bs 124 4 ≠ 0 then 2
      else s.blockStatus bs (if x.n.val < 32 then none else some x.die.val)
    let s := if st = 0 then { s with bars := Assoc.put key (blockBar bs) s.bars } else s
    s.update fun y => y.ws x.d (word st)) s

/-- `bcfg free` (R353): a waiting generation is broken first. -/
def execBcfgFree (x : ArgBcfg) (s : State) : Host.Outcome State Fault Refusal :=
  issue (.bcfgFree x) x.g superCtx (fun s =>
    let key := barKey x.n.val x.die.val
    match (Assoc.get? key s.bars).filter s.ownsBar with
    | none => s.update fun y => y.ws x.d 3
    | some b =>
      (s.freeBar key b).update fun y => y.ws x.d 0) s

/-- `bcfg brk` (R342, R353). -/
def execBcfgBrk (x : ArgBcfg) (s : State) : Host.Outcome State Fault Refusal :=
  issue (.bcfgBrk x) x.g superCtx (fun s =>
    let key := barKey x.n.val x.die.val
    match (Assoc.get? key s.bars).filter s.ownsBar with
    | none => s.update fun y => y.ws x.d 3
    | some b => (s.setBar key b.break_).update fun y => y.ws x.d 0) s

/-- `bcfg rd` (R353). -/
def execBcfgRd (x : ArgBcfg) (s : State) : Host.Outcome State Fault Refusal :=
  issue (.bcfgRd x) x.g superCtx (fun s =>
    let v : Word := match Assoc.get? (barKey x.n.val x.die.val) s.bars with
      | some b => if s.mine b.owner then b.word else 0
      | none => 0
    s.update fun y => y.ws x.d v) s

/-! ### Reductions -/

/-- A reduction token (R352). -/
def redToken (n g : Nat) : Word := word (n * 2 ^ 16 + g)

/-- `redp` (R342, R343, R347, R349, R352): the checks, the release wait, the arrival, and the 16 lanes on their way to the register
of the cell's router. -/
def execRedp (x : ArgRedp) (s : State) : Host.Outcome State Fault Refusal :=
  issue (.redp x) x.g taskCtx (fun s => do
    let n := x.n.val
    let r := Assoc.get? n s.reds
    trapIf ((s.barReason (r.map (·.bar)) false none).map fun k => barFault true (word n) k)
    match r with
    | none => .ok s
    | some r =>
      s.releaseWait (if r.links.isEmpty then .mod else .sys)
      match r.bar.arrive s.cur.cell with
      | none => Res.stall
      | some (b, g) =>
        let s := { s with reds := Assoc.put n { r with bar := b } s.reds }
        let s := s.send (.cell s.cur.cell) (.router (routerOf s.cur.cell)) (.contribution n g ((lanesOf (s.me.rv x.a)).map (laneIn r.op)))
        s.update fun y => y.ws x.d (redToken n g)) s

/-- `redg` (R343, R349, R352). -/
def execRedg (x : ArgRedg) (s : State) : Host.Outcome State Fault Refusal :=
  issue (.redg x) x.g taskCtx (fun s => do
    let t := s.me.rs x.a
    let n := slice t.toNat 16 3
    let g := t.toNat % 2 ^ 16
    let r := Assoc.get? n s.reds
    trapIf ((s.barReason (r.map (·.bar)) false (some (g, t.toNat < 2 ^ 19))).map fun k => barFault false t k)
    match r with
    | none => .ok s
    | some r =>
      if r.bar.ended g then s.update fun y => y.redResult r x.d x.c g
      else .ok (s.modMe fun y => { y with st := .waiting (.reduction x.d x.c n g), stalled := false })) s

/-- The state with what a router's register of a number holds on its way to the next router toward the root, unless the router is
the root's (R347). -/
def State.forwardLanes (s : State) (p n : Nat) (r : RedInst) : State :=
  match s.routers.find? fun q => q.router == p && q.number == n with
  | some q =>
    if p = routerOf r.root then s
    else (s.clearRouter p n q.gen).send (.router p) (.router (nextRouter p (routerOf r.root))) (.contribution n q.gen q.lanes)
  | none => s

/-- The state with a router awake: one whose register a reduction is to write wakes first (R402). -/
def State.wakeRouter (s : State) (p : Nat) : State := { s with gated := s.gated.filter (· ≠ p) }

/-- A contribution reaches a router on its way to the root, which wakes, and whose register adds it exactly (R347, R402); one of a
generation that has ended is dropped. With none the router of a mesh position, named by the step's cell, forwards its register of a number, named by the
step's context, toward the root. -/
def execReductionCombine (s : State) : Host.Outcome State Fault Refusal :=
  let k := s.cur.k
  match s.arriving k with
  | some { src := _, dst := .router p, pay := .contribution n g ls } =>
    let s := s.land k
    match Assoc.get? n s.reds with
    | none => event s
    | some r => if r.bar.ended g then event s else event ((s.wakeRouter p).addLanes p n g r.op ls)
  | some _ => event s
  | none =>
    match Assoc.get? s.cur.ctx s.reds with
    | some r => event (s.forwardLanes s.cur.cell s.cur.ctx r)
    | none => event s

/-- A partial of another module reaches the root (R348): it is kept for its generation; a break there, or an operation or
rounding mode that disagrees, breaks that generation, now or when it is the current one, a disagreement with the mismatch event. -/
def execReductionPartialArrival (s : State) : Host.Outcome State Fault Refusal :=
  let k := s.cur.k
  match s.arriving k with
  | some { src := _, dst := .cell c, pay := .partialSum p } =>
    let s := s.land k
    match Assoc.get? p.number s.reds with
    | none => event s
    | some r =>
      let bad := p.op ≠ r.op || p.rm ≠ r.rm
      if r.bar.ended p.gen || !r.links.contains p.link then event s
      else
        let s := if bad && !p.broken then s.pushEvent r.bar.owner c 10 0 (word p.number) (word p.gen) (word p.link) 0 else s
        if (bad || p.broken) && p.gen = r.bar.gen then event (s.breakRed p.number r false)
        else event { s with reds := Assoc.put p.number { r with partials := r.partials ++ [{ p with broken := bad || p.broken }] } s.reds }
  | _ => event s

/-- The results of a generation, each lane rounded once (R347, R349). -/
def RedInst.result (r : RedInst) (lanes : List RLane) : RResult :=
  let out := lanes.map (·.result r.op r.rm)
  { gen := r.bar.gen, lanes := out.map fun o => BitVec.ofNat 32 o.1, flags := orFlags out }

/-- A generation of a reduction completes (R342, R347 to R349): every input is high and every contribution combined at the root;
the root sends its partial over each link; with every link's partial come, it rounds each lane once, and the release fires. One that
another module broke, or whose link is down, is broken (R348). -/
def execReductionResult (red : Nat) (s : State) : Host.Outcome State Fault Refusal :=
  match Assoc.get? red s.reds with
  | none => event s
  | some r =>
    let g := r.bar.gen
    let ps := r.partials.filter (·.gen == g)
    let own := s.routerLanes (routerOf r.root) red g
    if ps.any (·.broken) then event (s.breakRed red r false)
    else if !r.bar.allHigh || s.contributing red g (routerOf r.root) then event s
    else if r.links.any s.linkLost then event (s.breakRed red r false)
    else if !r.links.isEmpty && r.sentGen ≠ some g then
      let s := s.tellLinks red r own false
      event { s with reds := Assoc.put red { r with sentGen := some g } s.reds }
    else if !r.links.all fun l => ps.any (·.link == l) then event s
    else
      let lanes := ps.foldl (fun ls p => (ls.zip p.lanes).map fun q => RLane.combine r.op q.1 q.2) own
      event (s.setRed red { r.ended r.bar.release with results := (r.result lanes :: r.results).take 2 } false)

/-! ### rcfg (R346, R353) -/

/-- The reduction that a block configures. -/
def blockRed (bs : List Byte) : RedInst :=
  { bar := blockBar bs, op := slice (fieldAt bs 121 1) 0 3, rm := rndOf (slice (fieldAt bs 121 1) 3 2), root := fieldAt bs 124 2,
    links := (List.range 16).filter (bit (fieldAt bs 126 2)), partials := [], sentGen := none, results := [] }

/-- `rcfg set` (R346, R348, R353). -/
def execRcfgSet (x : ArgRcfg) (s : State) : Host.Outcome State Fault Refusal :=
  issue (.rcfgSet x) x.g superCtx (fun s => do
    let n := x.n.val
    let bs ← s.syncRead (s.me.rs x.a) 128 64
    let r := blockRed bs
    let st :=
      if (Assoc.get? n s.reds).isSome then 1
      else if slice (fieldAt bs 121 1) 5 3 ≠ 0 || 7 < r.links.length || !(bitmapCells bs).contains r.root then 2
      else s.blockStatus bs none
    let s := if st = 0 then { s with reds := Assoc.put n r s.reds } else s
    s.update fun y => y.ws x.d (word st)) s

/-- `rcfg free` (R353): a waiting generation is broken first. -/
def execRcfgFree (x : ArgRcfg) (s : State) : Host.Outcome State Fault Refusal :=
  issue (.rcfgFree x) x.g superCtx (fun s =>
    match (Assoc.get? x.n.val s.reds).filter fun r => s.ownsBar r.bar with
    | none => s.update fun y => y.ws x.d 3
    | some r =>
      (s.freeRed x.n.val r).update fun y => y.ws x.d 0) s

/-- `rcfg brk` (R342, R346, R353). -/
def execRcfgBrk (x : ArgRcfg) (s : State) : Host.Outcome State Fault Refusal :=
  issue (.rcfgBrk x) x.g superCtx (fun s =>
    match (Assoc.get? x.n.val s.reds).filter fun r => s.ownsBar r.bar with
    | none => s.update fun y => y.ws x.d 3
    | some r => (s.breakRed x.n.val r false).update fun y => y.ws x.d 0) s

/-- `rcfg rd` (R353). -/
def execRcfgRd (x : ArgRcfg) (s : State) : Host.Outcome State Fault Refusal :=
  issue (.rcfgRd x) x.g superCtx (fun s =>
    let v : Word := match Assoc.get? x.n.val s.reds with
      | some r => if s.mine r.bar.owner then r.bar.word else 0
      | none => 0
    s.update fun y => y.ws x.d v) s

end Sys2Proof.Machine
end

