-- ==== Sys2Proof/Machine/Traps.lean ====
section
/-! DEFINITION. Traps as instructions and events: `trap`, `brk`, `eret` (R374 to R376), the ring completions (R377, R378),
`rkill` and `frz` (R379), trap entry and the run cap (R357, R358), asynchronous and budget traps (R272, R361), thaw and scrub
(R372). -/
namespace Sys2Proof.Machine

/-! ### Raising and returning (R374 to R376) -/

/-- `trap call`: an environment call (R374). -/
def execTrapCall (x : ArgCode) (s : State) : Host.Outcome State Fault Refusal :=
  issue (.trapCall x) x.g notSuper (fun s => Res.trap 8 (word x.code.toNat) s.me.pc) s

/-- `brk`: a breakpoint; in context 9 it ends the run (R358, R376). -/
def execBrk (x : ArgCode) (s : State) : Host.Outcome State Fault Refusal :=
  issue (.brk x) x.g anyCtx (fun s => Res.trap 3 (word x.code.toNat) s.me.pc) s

/-- Contexts 8 and 9, which end their runs with `eret` (R375). -/
def runCtx (i : Nat) : Bool := i = 8 || i = 9

/-- `eret`: context 9 returns from the exception, context 8 ends its handler run (R330, R375). -/
def execEret (x : ArgG) (s : State) : Host.Outcome State Fault Refusal :=
  issue (.eret x) x.g runCtx (fun s =>
    .ok (if s.cur.ctx = 9 then s.returnFrom9 s.cur.cell else s.endRun8 s.cur.cell)) s

/-- `rretry ctx`: the run ends and the held context resumes as by `eret` (R378). -/
def execRretryCtx (x : ArgD) (s : State) : Host.Outcome State Fault Refusal :=
  issue (.rretryCtx x) x.g superCtx (fun s => .ok (s.returnFrom9 s.cur.cell)) s

/-! ### The retry ring (R364, R374, R377, R378) -/

/-- Word k of a ring entry (R364). -/
def REntry.word (e : REntry) (k : Nat) : Word :=
  match k with
  | 0 => Sys2Proof.word (2 ^ 63 + e.kind % 4 * 2 ^ 61 + e.ctx % 16 * 2 ^ 57 + e.cause % 64 * 2 ^ 51 + e.dest % 128 * 2 ^ 44
      + e.size % 8 * 2 ^ 41 + b2n e.vec * 2 ^ 40 + e.acls % 8 * 2 ^ 37 + e.pc.toNat % 2 ^ 30)
  | 1 => e.addr
  | 2 => e.data
  | _ => e.info

/-- The valid entry at an index word: one that has not been issued again (R363, R377). -/
def State.entryAt (s : State) (a : Word) : Option REntry :=
  if 63 < a.toNat then none else (Assoc.get? a.toNat (s.cell s.cur.cell).retry).filter (!·.out)

/-- `trap ring` (R374). -/
def execTrapRing (x : ArgTrapRing) (s : State) : Host.Outcome State Fault Refusal :=
  issue (.trapRing x) x.g superCtx (fun s =>
    let v : Word := match s.entryAt (s.me.rs x.a) with
      | none => 0
      | some e => if e.tenant = s.myTenant then e.word x.k.val else 0
    s.update fun y => y.ws x.d v) s

/-- The entry that a ring completion acts on, or its status, in the order of R377's table. -/
def State.completes (s : State) (a : Word) (suits : REntry → Bool) : Except Nat REntry :=
  match s.entryAt a with
  | none => .error 1
  | some e => if !suits e then .error 2 else if e.tenant ≠ s.myTenant then .error 3 else .ok e

/-- The state without a ring entry of the executing cell. -/
def State.dropEntry (s : State) (idx : Nat) : State :=
  s.modCell s.cur.cell fun x => { x with retry := Assoc.erase idx x.retry }

/-- The state with a ring entry of the executing cell issued again: its index stays kept (R363). -/
def State.outEntry (s : State) (idx : Nat) : State :=
  s.modCell s.cur.cell fun x => { x with retry := Assoc.modify idx (fun e => { e with out := true }) x.retry }

/-- Whether an operand of a class suits an entry's destination (R378). -/
def REntry.takes (e : REntry) (b : AnyReg) : Bool :=
  (e.kind = 0 || e.kind = 3) && (match b with
    | .sca _ => e.dest < 64
    | .vec _ => 64 ≤ e.dest)

/-- A context with a destination filled from an operand of another (R378). -/
def Ctx.fillFrom (x y : Ctx) (dest : Nat) (b : AnyReg) : Ctx :=
  match b with
  | .sca r => x.wsN dest (y.rs r)
  | .vec r =>
    if h : 64 ≤ dest ∧ dest < 96 then x.wv ⟨dest - 64, by omega⟩ (y.rv r)
    else if dest = 110 then { x with tbl := BitVec.ofNat 128 (y.rv r).toNat }
    else x

/-- `rfill` (R378): the destination takes the operand's value, the load or atomic retires, the entry is freed. A context that holds
for the access goes on (log entry 54). -/
def execRfill (x : ArgRfill) (s : State) : Host.Outcome State Fault Refusal :=
  issue (.rfill x) x.g superCtx (fun s =>
    let a := s.me.rs x.a
    match s.completes a fun e => e.takes x.b with
    | .error n => s.update fun y => y.ws x.d (word n)
    | .ok e =>
      let c := s.cur.cell
      let me := s.me
      let s := s.dropEntry a.toNat
      let s := if s.resident c e.ctx e.task then
          ((s.modCtx c e.ctx fun y => y.fillFrom me e.dest x.b).wake c e.ctx e.task .access).wake c e.ctx e.task .sc
        else s
      s.update fun y => y.ws x.d 0) s

/-- The state with an access to a local space performed again (R234, R378): it has kept its registration point in the entry, and a
consuming one performs its count step with the read (R161). -/
def State.retryLocal (s : State) (a : Acc) : State :=
  let a := a.atLocal a.cell a.sp
  match s.badUnit a with
  | some u => s.faultMem a u
  | none =>
    match a.op with
    | .load =>
      let bs := a.laneBytes fun p => s.readUnder (s.homeTag p.key p.home) p.home p.len
      if a.cons then
        let l := a.lanes.headD { addr := 0, len := 0, data := [] }
        let r := s.consumeAt a.cell a.sp l.addr l.len a.firstAddr a.cell a.ctx
        match r.2 with
        | some t => r.1.peerTrap a t
        | none => r.1.deliver a bs
      else s.deliver a bs
    | .atomic _ => if a.ctx = 8 then s.performHere a else s.arrive8 a.cell (.atomic a)
    | _ => s.performWrite a

/-- A `.glb` atomic of context 8's own run issued again: translated, then performed in line, where its home is the handler's own cell
(R330). -/
def State.retryInLine (s : State) (a : Acc) : Res := do
  stallIf (16 ≤ s.stationLoad a.cell)
  match s.translateNow { a with pieces := [], done := false, kind := .R } 2 with
  | (_, .miss _) => Res.stall
  | (s, .fault va f) => .ok (s.deliverFault a (a.laneAddr va) (a.pageFault va f) (s.foreign a.asid f))
  | (s, .ok ps) =>
    let a := a.translated ps
    match s.pageTrap a ps with
    | some t => .ok (s.lateAcc a t)
    | none =>
      if homeCell (((ps.head?).map (·.home)).getD 0) ≠ a.cell then .ok (s.lateAcc a (msgFault a.firstAddr 7))
      else do
        stallIf (s.lineHeld a)
        .ok (s.performHere a)

/-- A sequentially consistent access announced again, its message sent again (R213, R334). -/
def State.announceAgain (s : State) (a : Acc) : Res := do
  stallIf (s.scLeaveHeld a)
  .ok ((s.announceAcc a).sendSc a)

/-- The state with a sequentially consistent access issued again: translated and announced again (R213, R378). -/
def State.retrySc (s : State) (a : Acc) : Res :=
  if a.sp = .glb then
    match s.translateSc a with
    | .ok r => r.1.announceAgain r.2
    | .error (.trap t) => .ok (s.trapSc a t)
    | .error (.freeze _ t) => .ok (s.deliverFault a a.firstAddr t true)
    | .error .stall => .error .stall
  else s.announceAgain (match a.peer with | some _ => { a with arrived := false } | none => a.atLocal a.cell a.sp)

/-- The state with an access to a peer issued again: one whose peer has departed faults precisely, at the access's PC (R345; log
entry 60). -/
def State.retryPeer (s : State) (a : Acc) (k : Nat) : State :=
  let a := { a with arrived := false }
  if s.peerPresent a k then (if a.isAtomic then s.post a.cell (.cell k) (.atomicReq a) else s.send (.cell a.cell) (.cell k) (.peer a))
  else s.lateAcc a { cause := 28, val := a.firstAddr, info := word a.rank }

/-- The state with an access issued again from translation, as at first issue (R378): to its station, when that has a credit
(R230), its peer, or its local space, by the outbound buffer where it is an atomic's message (R326); an atomic of context 8 is performed
in line (R330). -/
def State.reissue (s : State) (a : Acc) : Res :=
  if a.sc then s.retrySc a
  else
    match a.peer with
    | some k => do
      stallIf (a.isAtomic && s.outHeld a.cell (.cell k))
      .ok (s.retryPeer a k)
    | none =>
      if a.sp = .glb then
        if a.isAtomic && a.ctx = 8 then s.retryInLine a
        else do
          stallIf (16 ≤ s.stationLoad a.cell || s.leaveHeld a)
          .ok (s.toStation { a with pieces := [], done := false, kind := .R })
      else do
        stallIf (a.isAtomic && a.ctx = 8 && s.atomicHeld (a.atLocal a.cell a.sp))
        .ok (s.retryLocal a)

/-- The state with the faulted copy of a ring entry of the executing cell going on from a position that its own gives, as soon as
the engine has a slot for it (R184, R193). -/
def State.resumeCopy (s : State) (e : REntry) (next : CopyOp → Nat) : State :=
  let go (o : CopyOp) : CopyOp := { o with phase := .paused, pos := next o, attempt := o.attempt + 1 }
  s.modCell s.cur.cell fun x => { x with copyq := modifyFirst (fun o => o.id == e.data && o.isFaulted) go x.copyq }

/-- `rretry` (R378): the entry's access is issued again, or its copy resumes at the faulting chunk. -/
def execRretry (x : ArgDA) (s : State) : Host.Outcome State Fault Refusal :=
  issue (.rretry x) x.g superCtx (fun s =>
    let a := s.me.rs x.a
    match s.completes a fun _ => true with
    | .error n => s.update fun y => y.ws x.d (word n)
    | .ok e =>
      let s := s.outEntry a.toNat
      let r : Res := match e.acc with
        | some q => s.reissue { q with retry := some a.toNat }
        | none => .ok (s.resumeCopy e (·.pos))
      r.bind fun s => s.update fun y => y.ws x.d 0) s

/-- `rskip` (R378): a store is discarded, and a context that holds for it goes on; a copy goes on at its next run, or ends. -/
def execRskip (x : ArgDA) (s : State) : Host.Outcome State Fault Refusal :=
  issue (.rskip x) x.g superCtx (fun s =>
    let a := s.me.rs x.a
    match s.completes a fun e => e.kind = 1 || e.kind = 2 with
    | .error n => s.update fun y => y.ws x.d (word n)
    | .ok e =>
      let c := s.cur.cell
      let s := s.dropEntry a.toNat
      let s := if e.kind = 1 then s.wake c e.ctx e.task .sc
        else s.resumeCopy e fun o => min o.lay.total ((o.pos / o.lay.run + 1) * o.lay.run)
      s.update fun y => y.ws x.d 0) s

/-! ### rkill and frz (R379) -/

/-- `rkill ent` (R379): the task that owns the entry is killed. -/
def execRkillEnt (x : ArgDA) (s : State) : Host.Outcome State Fault Refusal :=
  issue (.rkillEnt x) x.g superCtx (fun s =>
    let c := s.cur.cell
    let a := s.me.rs x.a
    match s.completes a fun _ => true with
    | .error n => s.update fun y => y.ws x.d (word n)
    | .ok e =>
      let t : TrapInfo := { cause := e.cause, val := e.addr, info := e.info }
      let s := if s.resident c e.ctx e.task then s.kill c e.ctx 0 (e.kind = 2) e.pc t else s.dropEntries c e.task
      s.update fun y => y.ws x.d 0) s

/-- `rkill ctx` (R379): the held task of the run is killed, which ends the run (R358). -/
def execRkillCtx (x : ArgD) (s : State) : Host.Outcome State Fault Refusal :=
  issue (.rkillCtx x) x.g superCtx (fun s =>
    let c := s.cur.cell
    match (s.cell c).run9.filter fun r => s.stillHeld c r with
    | none => s.update fun y => y.ws x.d 1
    | some r => .ok ((s.endRun9 c).kill c r.trap.ctx 0 r.trap.async r.trap.epc r.trap.info)) s

/-- The state with a region frozen on every cell of its grant (R370, R371, R379). -/
def State.freezeAll (s : State) (q : Nat) : State :=
  let s := s.modRegion q fun x => { x with frozen := true }
  (s.cellsOf q).foldl (fun s c => if s.isFrozen q c then s else s.freezeRegion c q .frz) s

/-- `frz rgn` (R379): the region and its subtree. -/
def execFrzRgn (x : ArgDA) (s : State) : Host.Outcome State Fault Refusal :=
  issue (.frzRgn x) x.g superCtx (fun s =>
    let q := (s.me.rs x.a).toNat % 2 ^ 16
    if !s.killable q then s.update fun y => y.ws x.d 3
    else if ((s.region q).map (·.frozen)).getD false then s.update fun y => y.ws x.d 4
    else ((s.subtree q).foldl (fun s q => s.freezeAll q) s).update fun y => y.ws x.d 0) s

/-- The code of a freeze's origin (R379). -/
def FrzOrigin.code : FrzOrigin → Nat
  | .frz => 0
  | .key => 1
  | .message => 2
  | .engine => 3

/-- The freeze word of a context (R379): origin 3 for one whose region's copy engine stands frozen. -/
def State.freezeWord (s : State) (c i : Nat) : Word :=
  let r := s.ctxRegion c i
  match (s.ctxAt c i).frozen with
  | some (o, q) => word (2 ^ 63 + o.code * 2 ^ 60 + q % 2 ^ 16)
  | none => if (s.cell c).noCopy.contains r && r ≠ 0 then word (2 ^ 63 + 3 * 2 ^ 60 + r % 2 ^ 16) else 0

/-- `frz rd` (R379); contexts 10 to 15 do not exist, and their word is a free value (log entry 14). -/
def execFrzRd (x : ArgDA) (s : State) : Host.Outcome State Fault Refusal :=
  issue (.frzRd x) x.g superCtx (fun s =>
    let c := s.cur.cell
    let i := (s.me.rs x.a).toNat % 16
    let v : Word :=
      if 10 ≤ i then Config.unstated 1 (word i)
      else if s.tenantOf (s.ctxRegion c i) ≠ s.myTenant then 0
      else s.freezeWord c i
    s.update fun y => y.ws x.d v) s

/-! ### Trap entry and the run cap (R357, R358) -/

/-- The accesses of a trapped context that nothing performs before its handler runs, n rounds of what waits on what: those that the
retry ring holds, and those behind them (R204, R231). -/
def stuckAccs (all : List Acc) : Nat → List Acc → List Acc
  | 0, held => held
  | n + 1, held =>
    stuckAccs all n (held ++ all.filter fun a => !held.contains a && held.any fun b =>
      a.mustFollow b false || (!a.done && a.sp == .glb && b.op != .load && b.seq < a.seq))

/-- The atomics that wait at a context 8 which is itself held or frozen. -/
def State.barredAtomics (s : State) : List Acc :=
  (s.cells.filter fun x => (x.2.ctx 8).st == .held || (x.2.ctx 8).frozen.isSome).flatMap fun x =>
    (x.2.in8 ++ x.2.over8).filterMap fun q => match q with
      | .atomic a => some a
      | _ => none

/-- Whether a trap's handler may be entered: every access that the trapped context had issued has been performed, and every load
returned (R216), but for those that only a handler can let go on (log entry 36). -/
def State.settled (s : State) (c : Nat) (t : Trap) : Bool :=
  let his (a : Acc) : Bool := a.cell == c && a.ctx == t.ctx && a.task == t.task && a.seq < t.upto
  let all := s.allAccs.filter his
  let held := ((((s.cell c).retry.filterMap fun e => e.2.held) ++ ((s.cell c).retryWait.filterMap fun e => e.1.acc))
    ++ s.barredAtomics).filter his
  let stuck := stuckAccs all all.length held
  all.all fun a => stuck.contains a

/-- Context 9, when free, takes the oldest queued trap once the trapped context's accesses have settled (R216, R357 to
R359). -/
def execTrapEntry (s : State) : Host.Outcome State Fault Refusal :=
  match (s.cell s.cur.cell).trapq with
  | [] => event s
  | t :: _ => if s.settled s.cur.cell t then event (s.enterTrap s.cur.cell) else event s

/-- A run of context 9 at its cap ends, and a held context of it is killed with origin 4 (R357); one that is frozen makes no
progress (R371). -/
def execSupervisorRunCap (s : State) : Host.Outcome State Fault Refusal :=
  let c := s.cur.cell
  match (s.cell c).run9 with
  | none => event s
  | some r =>
    if s.clock < r.start + r.stopped + 16384 || (s.ctxAt c 9).frozen.isSome then event s
    else
      let t := s.endRun9 c
      event (if t.stillHeld c r then t.kill c r.trap.ctx 4 r.trap.async r.trap.epc r.trap.info else t)

/-! ### Asynchronous and budget traps (R272, R361) -/

/-- The wait with its cancel sent. -/
def Wait.cancel : Wait → Wait
  | .talloc p d w reads _ => .talloc p d w reads true
  | .port d slots run isAlt _ => .port d slots run isAlt true
  | w => w

/-- The state of a context that is to trap between instructions, and whether it stands there (R361): a stalled instruction or
a wait for a release is withdrawn at once; a wait on a hub or a pool is cancelled, and the answer awaited; any other wait
ends first. -/
def State.interrupt (s : State) (c i : Nat) : State × Bool :=
  let mark (w : Wait) : State := (s.cancelWaits c i).modCtx c i fun x => { x with st := .waiting w.cancel }
  match (s.ctxAt c i).st with
  | .running => (s, true)
  | .waiting (.barrier _ _ _) | .waiting (.reduction _ _ _ _) => (s.modCtx c i fun x => { x with st := .running, stalled := false }, true)
  | .waiting (.port d slots run isAlt false) => (mark (.port d slots run isAlt false), false)
  | .waiting (.talloc p d w reads false) => (mark (.talloc p d w reads false), false)
  | _ => (s, false)

/-- A pending asynchronous trap is taken at the context's next instruction boundary, the oldest first (R356, R361). -/
def execAsynchronousTrap (s : State) : Host.Outcome State Fault Refusal :=
  let c := s.cur.cell
  let i := s.cur.ctx
  match (s.ctxAt c i).asyncs with
  | [] => event s
  | t :: rest =>
    if (s.ctxAt c i).frozen.isSome || 10 ≤ i then event s
    else
      match s.interrupt c i with
      | (s, false) => event s
      | (s, true) =>
        let s := s.modCtx c i fun x => { x with asyncs := rest }
        event (if i = 9 then s.trapIn9 c t.info else s.takeAsync c i t)

/-- The trap of a task at the end of its budget (R272): its xval is `tcycles` (R74, R360). -/
def State.budgetTrap (s : State) (t : Task) : TrapInfo := { cause := 31, val := word (s.clock - t.start), info := word t.budget }

/-- The budget trap (R272), behind the asynchronous traps that are pending (R361). -/
def execBudget (s : State) : Host.Outcome State Fault Refusal :=
  let c := s.cur.cell
  let i := s.cur.ctx
  if !s.budgetDue c i || !(s.ctxAt c i).asyncs.isEmpty then event s
  else
    match s.interrupt c i with
    | (s, false) => event s
    | (s, true) =>
      match (s.ctxAt c i).task with
      | some t => event (s.takeTrap c i (s.budgetTrap t))
      | none => event s

/-- The hard limit of a budget (R272): the task is killed whatever it is doing. -/
def execBudgetHardLimit (s : State) : Host.Outcome State Fault Refusal :=
  let c := s.cur.cell
  let i := s.cur.ctx
  match (s.ctxAt c i).task with
  | none => event s
  | some t =>
    if 8 ≤ i || (s.ctxAt c i).frozen.isSome || s.watchdog t < t.budget + t.ext + 4096 then event s
    else event (s.kill c i 1 false (s.ctxAt c i).pc (s.budgetTrap t))

/-! ### Thaw and scrub (R372) -/

/-- A thawed context: its watchdog goes on, and a wait for a release looks again. -/
def Ctx.thawed (x : Ctx) (clock : Nat) : Ctx :=
  { x with
    frozen := none
    freezeTrap := none
    st := match x.st with
      | .waiting (.barrier _ _ _) | .waiting (.reduction _ _ _ _) => .running
      | st => st
    task := x.task.map fun t => { t with stopped := t.stopped + (clock - t.frozenAt.getD clock), frozenAt := none } }

/-- The contexts of a cell frozen for a region. -/
def Cell.frozenFor (x : Cell) (r : Nat) : List Nat :=
  (List.range 10).filter fun i => ((x.ctx i).frozen.map (·.2)) == some r

/-- A run of context 8 whose cap goes on counting (R330, R372). -/
def Run8.thawed (q : Run8) (clock : Nat) : Run8 :=
  { q with stopped := q.stopped + (clock - q.frozenAt.getD clock), frozenAt := none }

/-- A run of context 9 whose cap goes on counting (R357, R372). -/
def Run9.thawed (q : Run9) (clock : Nat) : Run9 :=
  { q with stopped := q.stopped + (clock - q.frozenAt.getD clock), frozenAt := none }

/-- The state with a frozen context of a cell thawed: one frozen in place of a trap takes it now (R372). -/
def State.thawCtx (s : State) (c i : Nat) : State :=
  let t := (s.ctxAt c i).freezeTrap
  let s := s.modCtx c i fun x => x.thawed s.clock
  let s := if i = 8 then s.modCell c fun x => { x with run8 := x.run8.map (·.thawed s.clock) }
    else if i = 9 then s.modCell c fun x => { x with run9 := x.run9.map (·.thawed s.clock) } else s
  match t with
  | some t => s.takeTrap c i t
  | none => s

/-- A cell without a region's freeze. -/
def Cell.unfreeze (x : Cell) (r : Nat) : Cell :=
  { x with frozenRegs := x.frozenRegs.filter (·.1 ≠ r), noCopy := x.noCopy.filter (· ≠ r) }

/-- The state with the completion actions of a cell performed that no frozen context holds back any longer (R147, R198). -/
def State.releaseActs (s : State) (c : Nat) : State :=
  let free := (s.cell c).heldActs.filter fun e => !s.opFrozen c e.ctx e.task
  let s := s.modCell c fun x => { x with heldActs := x.heldActs.filter fun e => !free.contains e }
  free.foldl (fun s e => s.doAct c e) s

/-- The state with a region's hub slots, and those that hold its offers, dirty (R311). -/
def State.touchHubs (s : State) (r : Nat) : State :=
  let touch (h : HubSlot) : HubSlot := if h.region = r || h.offers.any (·.region = r) then { h with dirty := true } else h
  { s with cells := s.cells.map fun (x : Nat × Cell) => (x.1, { x.2 with hub := x.2.hub.map fun (h : Nat × HubSlot) => (h.1, touch h.2) }) }

/-- The state with the pools of every cell settled: the requests that a thaw or a scrub lets go on are granted (R175). -/
def State.settleAll (s : State) : State := (s.cells.map (·.1)).foldl (fun s c => s.settle c) s

/-- The Slath processor thaws a region (R372). -/
def execThaw (region : Nat) (s : State) : Host.Outcome State Fault Refusal :=
  let s := s.modRegion region fun x => { x with frozen := false }
  let s := (s.cells.map (·.1)).foldl (fun s c =>
    let is := (s.cell c).frozenFor region
    let s := s.modCell c fun x => x.unfreeze region
    (is.foldl (fun s i => s.thawCtx c i) s).releaseActs c) s
  event (s.touchHubs region).settleAll

/-- The state with a run of context 9 ended that leaves its context held: the trap is queued again (R362). -/
def State.requeue (s : State) (c : Nat) : State :=
  match (s.cell c).run9 with
  | none => s
  | some r =>
    let s := s.endRun9 c
    if s.stillHeld c r then s.modCell c fun x => { x with trapq := x.trapq ++ [r.trap] } else s

/-- The frame of a run of context 9 (R357). -/
def State.supFrame (s : State) (c : Nat) : Nat × Nat :=
  match (s.cell c).run9 with
  | none => (0, 0)
  | some r =>
    match (s.region r.tenant).bind fun x => s.taskType r.tenant x.sup, s.grant r.tenant c with
    | some ty, some g => (g.fhi - ty.frame, g.fhi)
    | _, _ => (0, 0)

/-- The state with a frozen context's work killed with origin 3 and its frame's bytes zero (R372); a run of context 9 ends, and the
trap that it handled is queued again (R362). -/
def State.scrubCtx (s : State) (c i : Nat) : State :=
  if i = 9 then (s.requeue c).scrubHome (locA c (s.supFrame c).1) (locA c (s.supFrame c).2) (0, 0) else
  let x := s.ctxAt c i
  let frame : Nat × Nat := match x.task, (s.cell c).run8 with
    | some t, _ => (t.frameLo, t.frameHi)
    | none, some r => ((Assoc.get? r.msg.cls (s.cell c).htab).map fun h => (h.frameLo, h.frameHi)).getD (0, 0)
    | none, none => (0, 0)
  let t : TrapInfo := x.freezeTrap.getD { cause := 0, val := 0, info := 0 }
  let s := s.kill c i 3 false x.pc t
  s.scrubHome (locA c frame.1) (locA c frame.2) (0, 0)

/-- The state with the copies of a region that a frozen engine holds withdrawn (R198, R372). -/
def State.withdrawCopies (s : State) (c r : Nat) : State :=
  ((s.cell c).copyq.filter (·.region = r)).foldl (fun s o => (s.purgeCopy c o.key 0).dropCopy c o) s

/-- The Slath processor scrubs a frozen region (R372): its frozen tasks are killed, their registers and frames zero, what they
held is withdrawn. -/
def execScrub (region : Nat) (s : State) : Host.Outcome State Fault Refusal :=
  let s := s.modRegion region fun x => { x with frozen := false }
  event (((s.cells.map (·.1)).foldl (fun s c =>
    let s := ((s.cell c).frozenFor region).foldl (fun s i => s.scrubCtx c i) s
    let s := s.modCell c fun x => { x with heldActs := x.heldActs.filter (·.region ≠ region) }
    let s := if (s.cell c).noCopy.contains region then s.withdrawCopies c region else s
    s.modCell c fun x => x.unfreeze region) s).settleAll)

end Sys2Proof.Machine
end

