-- ==== Sys2Proof/Machine/Links.lean ====
section
/-! DEFINITION. Wale links: what leaves over a link and is kept until it is acknowledged (R384, R385), what arrives (R383, R385),
resends, retraining and the faults of lost operations (R386), the rotation of keys (R387, R396). -/
namespace Sys2Proof.Machine

/-- Whether a link is up. -/
def LinkState.isUp (x : LinkState) : Bool := x.st == .up
/-- The share of a link that a tenant is paired on. -/
def LinkState.shareOf (x : LinkState) (tenant : Nat) : Option Share := x.shares.find? (·.tenant == tenant)

/-! ### Sending (R382 to R385) -/

/-- The tenant on whose share a message crosses a link (R383), 0 for one that crosses none. -/
def State.payTenant (s : State) (p : Pay) : Nat :=
  match p with
  | .chunk c => c.tenant
  | .message m | .returned m _ => m.tenant
  | .offer _ _ t _ _ | .pbind _ _ _ _ _ _ t | .pbindAnswer _ _ _ _ _ _ _ t | .unbind _ _ _ _ t | .hubCancel _ _ _ _ t
  | .tallocCancel _ _ _ _ _ _ t | .handleOp _ _ _ _ _ _ t | .chunkAck _ _ _ _ _ _ t => t
  | .portDone o _ _ _ => o.tenant
  | .talloc _ _ r _ | .grant _ r _ _ => r.tenant
  | .partialSum q => ((Assoc.get? q.number s.reds).map fun r => s.tenantOf r.bar.owner).getD 0
  | _ => 0

/-- The flits of a message, header and data, as a link carries it (R382, R384, R326; log entry 39). -/
def Pay.flits (p : Pay) : Nat :=
  match p with
  | .chunk c => 1 + (c.size + 31) / 32
  | .partialSum q => 1 + q.lanes.length
  | _ => 2

/-- The groups that a message takes: of at most 15 flits each (R382). -/
def Pay.groups (p : Pay) : Nat := (p.flits + 14) / 15

/-- The flights that wait to leave over a link. -/
def State.leaving (s : State) (l : Nat) : List Flight := s.net.filter fun f => f.dst == .link l

/-- How many groups a link's sender may still seal under its active slot, of the 2^48 that a slot seals at most (R384). -/
def LinkState.room (x : LinkState) : Nat := 2 ^ 48 - x.sealed

/-- The two header words of a group (R384). -/
def Group.header (g : Group) : Word × Word :=
  (word (g.slot % 2 * 2 ^ 63 + g.share % 8 * 2 ^ 60 + g.nflits % 16 * 2 ^ 56 + g.seq % 2 ^ 56), word (g.ack % 2 ^ 56))

/-- The nonce that a group is sealed under (R384). -/
def Group.nonce (g : Group) : BitVec 96 := g.key.salt ++ BitVec.ofNat 64 g.seq

/-- The groups of a message on a share, with the next numbers of the direction, under the active slot; the message is in the last of
them (R384). -/
def LinkState.groupsOf (x : LinkState) (share : Nat) (f : Flight) : List Group :=
  (List.range f.pay.groups).map fun k =>
    { seq := (x.txSeq + 1 + k) % 2 ^ 56, slot := x.txSlot, share, nflits := min 15 (f.pay.flits - 15 * k), ack := x.rxSeq,
      key := x.txKeys.getD x.txSlot { key := 0, salt := 0 }, pays := if k + 1 = f.pay.groups then [f] else [] }

/-- The link with a message sealed, and its groups kept until they are acknowledged (R385). -/
def LinkState.sealMsg (x : LinkState) (share clock : Nat) (f : Flight) : LinkState :=
  { x with unacked := x.unacked ++ x.groupsOf share f, txSeq := (x.txSeq + f.pay.groups) % 2 ^ 56, sealed := x.sealed + f.pay.groups,
           lastAck := if x.unacked.isEmpty then clock else x.lastAck }

/-- The link after sealing some messages in turn, and those that stay: the ones of a tenant without a share, and all from the first
on for which the active slot has no room (R384). -/
def LinkState.sealMsgs (share : Flight → Option Nat) (clock : Nat) : List Flight → LinkState → LinkState × List Flight
  | [], x => (x, [])
  | f :: fs, x =>
    match share f with
    | none => let r := sealMsgs share clock fs x; (r.1, f :: r.2)
    | some h => if x.room < f.pay.groups then (x, f :: fs) else sealMsgs share clock fs (x.sealMsg h clock f)

/-- The state with what waits to leave over an up link sealed under the active slot and kept until it is acknowledged (R383 to
R385). How the messages share groups changes timing only (log entry 39). -/
def State.sealAll (s : State) (l : Nat) : State :=
  let x := s.link l
  if !x.isUp || (s.leaving l).isEmpty then s
  else
    let r := x.sealMsgs (fun f => (x.shareOf (s.payTenant f.pay)).map (·.share)) s.clock (s.leaving l)
    { s.modLink l fun _ => r.1 with net := (s.net.filter fun f => f.dst != Place.link l) ++ r.2 }

/-! ### Losing a link (R386) -/

/-- A message fault of a waiting context (R332, R386). -/
def State.lostWait (s : State) (c i : Nat) (name : Word) : State := s.takeTrap c i (msgFault name 1)

/-- The trap of a copy over a lost link (R193, R386). -/
def linkCopy : TrapInfo := { cause := 7, val := 0, info := 0 }

/-- Whether a context waits for an answer through a slot's offer. -/
def Ctx.portWaits (x : Ctx) : Bool :=
  match x.st with
  | .waiting (.port _ _ _ _ _) => true
  | _ => false

/-- The name of a port over a link at which a context waits for an answer. -/
def Ctx.portOver (x : Ctx) (l : Nat) : Option Word :=
  match x.st with
  | .waiting (.port _ slots _ _ _) =>
    (slots.findSome? fun k => (x.slots.getD k none).filter fun q => portRemote q.name && portLink q.name == l).map (·.name)
  | _ => none

/-- The state with a `talloc` of a task faulted that waits for its grant over a link (R157, R386). -/
def State.loseTalloc (s : State) (c i : Nat) (task : Word) : State :=
  match s.ctxTask c i == task, (s.ctxAt c i).st with
  | true, .waiting (.talloc _ _ w n _) => s.takeTrap c i (poolFault w n)
  | _, _ => s

/-- The state with a message dropped whose group the far end had not accepted (R386): its operation faults at its issuer. What
answers another module, or tells it that something has ended, leaves again once the link is up (log entry 39). -/
def State.lose (s : State) (f : Flight) : State :=
  match f.pay with
  | .chunk a =>
    if ((s.cell a.cell).copyq.find? (·.key == a.key)).any (fun o => !o.isFaulted) then s.copyFault a.cell a.key a.pos linkCopy else s
  | .talloc _ _ r _ => s.loseTalloc r.cell r.ctx r.task
  | .tallocCancel _ _ c i task _ _ => s.loseTalloc c i task
  | .offer o _ _ _ _ =>
    (match o.by_ with
     | .ctx c i task _ => if s.ctxTask c i = task && (s.ctxAt c i).portWaits then s.lostWait c i o.name else s
     | .action c e => s.actFault c e (msgFault o.name 1))
  | .hubCancel c i task _ _ =>
    (match s.ctxTask c i == task, f.dst with
     | true, .link l => (((s.ctxAt c i).portOver l).map (s.lostWait c i)).getD s
     | _, _ => s)
  | .message m =>
    if s.resident m.cell m.ctx m.task then s.addAsync m.cell m.ctx m.region m.task (msgFault m.name 1) none
    else s.pushEvent m.region m.cell 8 m.task 1 m.name m.header 0
  | .pbind c i task _ name _ _ => if s.ctxTask c i = task && (s.ctxAt c i).bindWaits then s.lostWait c i name else s
  | .partialSum q =>
    if q.broken then { s with net := s.net ++ [f] }
    else
      (match Assoc.get? q.number s.reds with
       | some r => if q.gen = r.bar.gen then s.breakRed q.number r false else s
       | none => s)
  | .grant _ _ _ _ | .handleOp _ _ _ _ _ _ _ | .chunkAck _ _ _ _ _ _ _ | .portDone _ _ _ _ | .returned _ _ | .pbindAnswer _ _ _ _ _ _ _ _
  | .unbind _ _ _ _ _ => { s with net := s.net ++ [f] }
  | _ => s

/-- The state with the contexts going on that wait for a rotation of a link, with a status (R387, R396). -/
def State.endRotation (s : State) (l status : Nat) : State :=
  let waits (x : Ctx) : Bool := match x.st with
    | .waiting (.rotation _ k) => k == l
    | _ => false
  (s.ctxsWhere waits).foldl (fun s p => s.modCtx p.1 p.2 fun x =>
    match x.st with
    | .waiting (.rotation d _) => { x.ws d (word status) with st := .running }.retire
    | _ => x) s

/-- The state with a link down, to be retrained (R385, R386): a rotation ends, and so does the current generation of each reduction
over the link (R348). -/
def State.linkDown (s : State) (l : Nat) : State :=
  ((s.modLink l fun x =>
    { x with st := .training, rotTx := none, rotRx := none, rxOld := false, attempts := 0, downSince := s.clock }).endRotation l 1).breakOver l

/-- The state with the unacknowledged groups of a link sent again; after eight attempts in a row it goes down (R385). -/
def State.resend (s : State) (l : Nat) : State :=
  let x := s.link l
  if x.unacked.isEmpty then s
  else
    let s := s.modLink l fun x =>
      { x with retries := (x.retries + x.unacked.length) % 2 ^ 32, attempts := x.attempts + 1, lastAck := s.clock }
    if 8 ≤ x.attempts + 1 then s.linkDown l else s

/-- 2 µs without an acknowledgement (R385): 3,600 c. -/
def execWaleResendTimeout (link : Nat) (s : State) : Host.Outcome State Fault Refusal :=
  let s := s.sealAll link
  let x := s.link link
  if !x.isUp || x.unacked.isEmpty || s.clock < x.lastAck + 3600 then event s else event (s.resend link)

/-! ### Receiving (R383, R385) -/

/-- The place and form of a message that comes over a link, for the tenant that its share is paired with here; none for one
that names no place of this module (R285, R324, R408). -/
def State.incoming (s : State) (l tenant : Nat) (p : Pay) : Option (Place × Pay) :=
  let hub (name : Word) : Place := .cell (((s.lookup tenant name).map (·.1)).getD 0)
  let bare (name : Word) : Word := word (name.toNat % 2 ^ 32)
  let far (name : Word) : Word := word (name.toNat % 2 ^ 32 + 2 ^ 40 + l * 2 ^ 41)
  match p with
  | .talloc pool target r t => some (.cell target, .talloc pool target { r with link := some l, region := tenant, tenant } t)
  | .tallocCancel pool target c i task _ _ => some (.cell target, .tallocCancel pool target c i task (some l) tenant)
  | .grant pool r h f => some (.cell r.cell, .grant pool { r with tenant } h f)
  | .handleOp 3 h n c i task _ => some (.cell (hCell h), .handleOp 3 h n c i task tenant)
  | .chunk a =>
    (match a.dst with
     | .mem _ k sp off => some (.cell k, .chunk { a with link := some l, tenant, dst := .mem none k sp off })
     | .tile _ h => some (.cell (hCell h), .chunk { a with link := some l, tenant, dst := .tile none h })
     | .glb _ => none)
  | .chunkAck c k f z pos fin _ => some (.cell c, .chunkAck c k f z pos fin tenant)
  | .offer o conn _ _ _ =>
    let o := { o with name := mkPort conn o.port, link := some l, tenant }
    some (hub o.name, .offer o conn tenant 0 tenant)
  | .hubCancel c i task k _ =>
    let his (o : Offer) : Bool := o.link == some l && (match o.by_ with
      | .ctx a j t _ => a == c && j == i && t == task
      | .action _ _ => false)
    let held := (s.cells.find? fun x => x.2.hub.any fun h => h.2.offers.any his).map fun x => Place.cell x.1
    let coming := s.net.findSome? fun g => match g.src, g.pay with
      | .link m, .offer o _ _ _ _ => if m = l && his { o with link := some l } then some g.dst else none
      | _, _ => none
    some ((held.orElse fun _ => coming).getD (.cell 0), .hubCancel c i task k tenant)
  | .portDone o k e f =>
    (match o.by_ with
     | .ctx c _ _ _ | .action c _ => some (.cell c, .portDone { o with name := far o.name, link := some l, tenant } k e f))
  | .message m => some (.cell (epCell m.target), .message { m with link := some l, tenant })
  | .returned m r => some (.cell m.cell, .returned { m with link := none } r)
  | .pbind c i task k name _ _ => some (hub (bare name), .pbind c i task k (bare name) tenant tenant)
  | .pbindAnswer c i task k name port r _ =>
    some (.cell c, .pbindAnswer c i task k (far name) (port.map fun p => { p with name := far name }) r tenant)
  | .unbind name c i k _ => some (hub (bare name), .unbind (bare name) c i k tenant)
  | .partialSum q => some (.cell (((Assoc.get? q.number s.reds).map (·.root)).getD 0), .partialSum { q with link := l })
  | _ => none

/-- The state with the messages of an accepted group on their way to their places of this module. -/
def State.takeIn (s : State) (l tenant : Nat) (ps : List Pay) : State :=
  ps.foldl (fun s p => match s.incoming l tenant p with
    | some (d, p) => s.send (.link l) d p
    | none => s) s

/-- Whether a group is accepted (R385): its tag, its slot, its sequence number, its share; it has 1 to 15 flits (R384). -/
def LinkState.accepts (x : LinkState) (g : WaleGroup) : Bool :=
  x.isUp && g.verifies && ((x.rxSlots[g.slot]?).map (· != .idle)) == some true && g.seq == (x.rxSeq + 1) % 2 ^ 56
    && x.shares.any (·.share == g.share) && 1 ≤ g.nflits && g.nflits ≤ 15

/-- The states of two slots after a switch from one to the other (R387). -/
def turnSlots (old : Nat) (slots : List LSlot) : List LSlot :=
  modifyAt (fun _ => .active) (1 - old) (modifyAt (fun _ => .retiring) old slots)

/-- The link with its receiving direction switched to the other slot, the old one still accepted (R387). -/
def LinkState.turnRx (x : LinkState) : LinkState :=
  { x with rotRx := some 2, rxSlot := 1 - x.rxSlot, rxSlots := turnSlots x.rxSlot x.rxSlots, rxOld := true }

/-- The link with a group accepted, and so acknowledged (R385); one under the slot whose keys a rotation installed shows that the far
end has switched to it (R387). -/
def LinkState.took (x : LinkState) (g : WaleGroup) : LinkState :=
  let y := { x with rxSeq := g.seq, answers := x.answers ++ [(false, g.seq)] }
  let y := if x.rotRx = some 1 && g.slot != x.rxSlot then y.turnRx else y
  if y.rotRx = some 2 && g.slot == y.rxSlot then { y with rotRx := some 3 } else y

/-- Whether both directions of a link have switched (R387, R396). -/
def LinkState.turned (x : LinkState) : Bool :=
  let done (r : Option Nat) : Bool := r != some 0 && r != some 1
  done x.rotTx && done x.rotRx

/-- The state with the contexts going on with status 0 that wait for a rotation which has switched both directions (R396). -/
def State.endTurned (s : State) (l : Nat) : State := if (s.link l).turned then s.endRotation l 0 else s

/-- The state with the groups up to an acknowledged one forgotten (R385). -/
def State.acknowledge (s : State) (l n : Nat) : State :=
  match indexWhere (·.seq == n) (s.link l).unacked with
  | none => s
  | some k => s.modLink l fun x => { x with unacked := x.unacked.drop (k + 1), attempts := 0, lastAck := s.clock }

/-- A group arrives over a link (R385): what it acknowledges, what it asks to be sent again, and its messages, each once. A group that
is not accepted is discarded and answered with the last number accepted. One without flits is such an answer of the far end, or an
acknowledgement. -/
def execWaleGroupReceive (grp : WaleGroup) (s : State) : Host.Outcome State Fault Refusal :=
  let l := grp.link
  if !(s.link l).isUp then event s
  else
    let s := s.sealAll l
    let s := if grp.verifies then s.acknowledge l grp.ack else s
    let s := if grp.verifies && grp.nak then s.resend l else s
    let x := s.link l
    if grp.nflits = 0 || !x.isUp then event s
    else
      match (x.shares.find? (·.share == grp.share)).filter fun _ => x.accepts grp with
      | none => event (s.modLink l fun x => { x with answers := x.answers ++ [(true, x.rxSeq)] })
      | some h => event (((s.modLink l fun x => x.took grp).takeIn l h.tenant grp.pays).endTurned l)

/-! ### Retraining (R386) -/

/-- The link up, with a new session of the two Slath processors and new keys in both slots of both directions (R386, R387). -/
def LinkState.trained (x : LinkState) (session clock : Nat) : LinkState :=
  { x with st := .up, txSlot := 0, rxSlot := 0, txSlots := [.active, .installed], rxSlots := [.active, .installed],
           txKeys := [Config.linkKey session 0, Config.linkKey session 1], rxKeys := [Config.linkKey session 2, Config.linkKey session 3],
           sealed := 0, unacked := [], rotTx := none, rotRx := none, rxOld := false, retries := 0, attempts := 0, lastAck := clock,
           session := session, derived := 4, answers := [] }

/-- A link has retrained (R386): new keys in both slots of both directions, and the last number that each end accepted. How
many of the groups without an acknowledgement the far end had accepted is the far end's knowledge, a free value; the others
are dropped. -/
def execWaleRetrainComplete (link : Nat) (s : State) : Host.Outcome State Fault Refusal :=
  let x := s.link link
  if x.isUp || (Assoc.get? link s.links).isNone then event s
  else
    let n := Config.pick 5 s.fresh % (x.unacked.length + 1)
    let lost := (x.unacked.drop n).flatMap (·.pays)
    let s := s.modLink link fun x =>
      { x.trained s.fresh s.clock with txSeq := (x.txSeq + 2 ^ 56 - (x.unacked.length - n)) % 2 ^ 56 }
    event (lost.foldl State.lose s)

/-- The state with the operations faulted that still wait on a link (R386): allocations, offers and bindings of contexts,
copies, and the generation of each reduction over the link (R348). -/
def State.loseWaits (s : State) (l : Nat) : State :=
  let s := (s.ctxsWhere fun _ => true).foldl (fun s p =>
    match (s.ctxAt p.1 p.2).st with
    | .waiting (.talloc _ _ w n _) => if desLink w = some l then s.takeTrap p.1 p.2 (poolFault w n) else s
    | .waiting (.pbind name (some k)) => if k = l then s.lostWait p.1 p.2 name else s
    | .waiting (.port _ _ _ _ _) => (((s.ctxAt p.1 p.2).portOver l).map (s.lostWait p.1 p.2)).getD s
    | _ => s) s
  let crosses (o : CopyOp) : Bool := !o.isFaulted && (match o.dst with
    | .mem (some k) _ _ _ | .tile (some k) _ => k == l
    | _ => false)
  ((s.cells.flatMap fun x => (x.2.copyq.filter crosses).map fun o => (x.1, o)).foldl (fun s x =>
    s.copyFault x.1 x.2.key (if x.2.phase == .sent then (x.2.lay.total - 1) / x.2.chunkMax * x.2.chunkMax else x.2.pos) linkCopy) s).breakOver l

/-- A link has stayed down for 10 ms, 18,000,000 c (R386): every operation that waits on it faults at its issuer. -/
def execWaleDownTimeout (link : Nat) (s : State) : Host.Outcome State Fault Refusal :=
  let x := s.link link
  if x.st != .training || s.clock < x.downSince + 18000000 then event s
  else
    let lost := x.unacked.flatMap (·.pays) ++ s.leaving link
    let s := s.modLink link fun x => { x with st := .down, unacked := x.unacked.map fun g => { g with pays := [] } }
    let s : State := { s with net := s.net.filter fun f => f.dst != Place.link link }
    event ((lost.foldl State.lose s).loseWaits link)

/-! ### The rotation of keys (R387, R396) -/

/-- Steps 1 and 2: the two Slath processors derive the next keys over their session, and they stand in the slots that are not active
(R387). A rotation that nothing has begun here is one of the far module. -/
def execRotationKeyInstall (link : Nat) (s : State) : Host.Outcome State Fault Refusal :=
  let x := s.link link
  if !x.isUp || !(x.rotTx == some 0 || (x.rotTx.isNone && x.rotRx.isNone)) then event s
  else
    let put {α : Type} (v : α) (active : Nat) (l : List α) : List α := modifyAt (fun _ => v) (1 - active) l
    event (s.modLink link fun x =>
      { x with rotTx := some 1, rotRx := some 1, derived := x.derived + 2,
               txSlots := put .installed x.txSlot x.txSlots, rxSlots := put .installed x.rxSlot x.rxSlots,
               txKeys := put (Config.linkKey x.session x.derived) x.txSlot x.txKeys,
               rxKeys := put (Config.linkKey x.session (x.derived + 1)) x.rxSlot x.rxKeys })

/-- Steps 3 and 4 (R387): new groups are sealed under the new slot, and those under the old one are still accepted; where the sending
direction has switched before, the far end tells that its own has. The contexts that wait for the rotation go on when both have
(R396). -/
def execRotationSwitch (link : Nat) (s : State) : Host.Outcome State Fault Refusal :=
  let x := s.link link
  if !x.isUp then event s
  else if x.rotTx = some 1 then
    event (((s.sealAll link).modLink link fun x =>
      { x with rotTx := some 2, txSlot := 1 - x.txSlot, sealed := 0, txSlots := turnSlots x.txSlot x.txSlots }).endTurned link)
  else if x.rotRx = some 1 then event ((s.modLink link LinkState.turnRx).endTurned link)
  else event s

/-- Step 5 (R387): with every group under the old slot acknowledged it is zeroed, and idle, in each direction by itself. The receiver
knows it from a group under the new slot, or, where none has come, from the far end, whose word is a free value. -/
def execRotationRetire (link : Nat) (s : State) : Host.Outcome State Fault Refusal :=
  let x := s.link link
  let tx := x.rotTx == some 2 && !(x.unacked.any (·.slot == 1 - x.txSlot))
  let rx := x.rotRx == some 3 || (x.rotRx == some 2 && Config.pick 6 s.fresh % 2 == 1)
  let zero (k : Nat) (l : List LinkKey) : List LinkKey := modifyAt (fun _ => { key := 0, salt := 0 }) k l
  let idle (k : Nat) (l : List LSlot) : List LSlot := modifyAt (fun _ => .idle) k l
  if !x.isUp then event s
  else
    let s := if !tx then s else s.modLink link fun x =>
      { x with rotTx := none, txSlots := idle (1 - x.txSlot) x.txSlots, txKeys := zero (1 - x.txSlot) x.txKeys }
    event (if !rx then s else s.modLink link fun x =>
      { x with rotRx := none, rxOld := false, rxSlots := idle (1 - x.rxSlot) x.rxSlots, rxKeys := zero (1 - x.rxSlot) x.rxKeys })

/-- Whether a rotation of a link is in progress (R387). -/
def LinkState.rotates (x : LinkState) : Bool := x.rotTx.isSome || x.rotRx.isSome

/-- Whether the executing supervisor's tenant holds a share of the link that a word names (R396). -/
def State.holdsLink (s : State) (w : Word) : Bool := w.toNat < 16 && ((s.link w.toNat).shareOf s.myTenant).isSome

/-- `lkrot rot` (R396): it begins a rotation and waits for its switch. -/
def execLkrotRot (x : ArgDA) (s : State) : Host.Outcome State Fault Refusal :=
  issue (.lkrotRot x) x.g superCtx (fun s =>
    let w := s.me.rs x.a
    let l := w.toNat
    if !s.holdsLink w then s.update fun y => y.ws x.d 3
    else if !(s.link l).isUp then s.update fun y => y.ws x.d 1
    else if (s.link l).rotates then s.update fun y => y.ws x.d 2
    else
      .ok ((s.modLink l fun k => { k with rotTx := some 0, rotRx := some 0 }).modMe fun y => { y with st := .waiting (.rotation x.d l), stalled := false })) s

/-- The state word of a link (R396). -/
def LinkState.word (x : LinkState) : Word :=
  let st := match x.st with
    | .down => 0
    | .training => 1
    | .up => 2
  Sys2Proof.word (st * 2 ^ 62 + b2n x.rotates * 2 ^ 61 + x.txSlot % 2 * 2 ^ 60 + b2n x.rxOld * 2 ^ 59 + x.retries % 2 ^ 32)

/-- `lkrot st` (R396). -/
def execLkrotSt (x : ArgDA) (s : State) : Host.Outcome State Fault Refusal :=
  issue (.lkrotSt x) x.g superCtx (fun s =>
    let w := s.me.rs x.a
    s.update fun y => y.ws x.d (if s.holdsLink w then (s.link w.toNat).word else 0)) s

end Sys2Proof.Machine
end

