-- ==== Sys2Proof/Machine/Host.lean ====
section
/-! DEFINITION. The host's side: channels with their latches (R388 to R391), `hpost` and `hpoll` (R395), requests through a
virtual function (R392), the Slath processor's answers over SPDM (R392, R393), and `.glb` accesses of the Slath processor and
the host. -/
namespace Sys2Proof.Machine

/-! ### Global memory for agents outside the cells -/

/-- The home bytes of a run of virtual bytes of an ASID, as pieces of home, length and key slot; none where a page faults
(R222, R226 to R228). -/
def State.glbRuns (s : State) (asid : Nat) (need : Bool × Bool) : List (Nat × Nat) → Option (List (Nat × Nat × Nat))
  | [] => some []
  | (va, n) :: rest =>
    match s.walk asid va need with
    | .error _ => none
    | .ok l =>
      match s.leafHome l need va, s.glbRuns asid need rest with
      | .ok h, some ps => some ((h, n, l.key) :: ps)
      | _, _ => none

/-- The pieces of n virtual bytes from an address on. -/
def State.glbPieces (s : State) (asid va n : Nat) (wr : Bool) : Option (List (Nat × Nat × Nat)) :=
  s.glbRuns asid (!wr, wr) (cutRun (n / 4096 + 2) va n)

/-- The state with pieces written, in order, from a byte string; bytes of host memory leave through a virtual function (R224). -/
def State.putPieces (s : State) (vf : Nat) : List (Nat × Nat × Nat) → List Byte → State
  | [], _ => s
  | (h, n, k) :: ps, bs => (s.writeHome vf (s.homeTag k h) h (bs.take n)).putPieces vf ps (bs.drop n)

/-- Whether a piece meets a poisoned unit that it does not wholly rewrite: the merge does not take place (R234). -/
def State.pieceBad (s : State) (wr : Bool) (p : Nat × Nat × Nat) : Bool :=
  ((s.poisoned p.1 p.2.1).map fun u => !(wr && covers p.1 p.2.1 u)).getD false

/-- The state with bytes written at a virtual address of an ASID, none where a page faults or a poisoned unit would be merged with
(R68, R234). -/
def State.glbWrite (s : State) (asid va : Nat) (bs : List Byte) : Option State :=
  ((s.glbPieces asid va bs.length true).filter fun ps => !(ps.any (s.pieceBad true))).map fun ps =>
    s.putPieces (s.vfOf (s.asidTenant asid)) ps bs

/-- The n bytes at a virtual address of an ASID, none where a page faults or a unit is poisoned. -/
def State.glbRead (s : State) (asid va n : Nat) : Option (List Byte) :=
  ((s.glbPieces asid va n false).filter fun ps => !(ps.any (s.pieceBad false))).map fun ps =>
    ps.flatMap fun p => s.readUnder (s.homeTag p.2.2 p.1) p.1 p.2.1

/-! ### Channels (R388 to R391) -/

/-- The state of a virtual function. -/
def State.vfState (s : State) (vf : Nat) : Option VfSt := (Assoc.get? vf s.vfs).map (·.st)

/-- Whether the host's requests through a virtual function reach it: its host link is up (R398). -/
def State.hostReaches (s : State) (f : Vf) : Bool := s.hostUp.contains f.link

/-- The state with a virtual function in ERROR, which the host is told (R370, R392). -/
def State.vfError (s : State) (vf : Nat) : State :=
  { s with vfs := Assoc.modify vf (fun f => { f with st := .error }) s.vfs, hostOut := s.hostOut ++ [.error vf] }

/-- The state after a notify write of a channel (R390, R391): the latch of a mapped channel takes a value that it may; any other is
counted; one for a channel that is not mapped is kept as late. -/
def State.notify (s : State) (vf chan v : Nat) : State :=
  let x := s.chan vf chan
  if x.st = .mapped then
    if x.latch < v && v ≤ x.head + 2 ^ x.e then s.setChan vf chan { x with latch := v }
    else s.setChan vf chan { x with rejected := (x.rejected + 1) % 2 ^ 64 }
  else s.setChan vf chan { x with late := max x.late v }

/-- Whether an address lies in a virtual function's doorbell page, of 4,096 bytes (R390; log entry 40). -/
def Vf.rings (f : Vf) (addr : Nat) : Bool := f.doorbell ≤ addr && addr < f.doorbell + 4096

/-- A notify write of the host (R390, R392): one outside the doorbell page, or without IDE integrity, moves the virtual function to
ERROR; one in ERROR takes none. The latch of channel n stands at byte 8n of the page, and a write elsewhere in it has no effect (log
entry 40). -/
def execNotifyWrite (vf addr : Nat) (req : NotifyReq) (s : State) : Host.Outcome State Fault Refusal :=
  match Assoc.get? vf s.vfs with
  | none => event s
  | some f =>
    let off := addr - f.doorbell
    if f.st = .error || !s.hostReaches f then event s
    else if !req.intact || !f.rings addr then event (s.vfError vf)
    else if off % 8 ≠ 0 || 2048 ≤ off then event s
    else event (s.notify vf (off / 8) (req.tail % 2 ^ 64))

/-- A channel is unmapped (R391): first it is closing, with its latch kept; then, with no `hpost` to it in progress, unmapped. -/
def execChannelUnmap (vf chan : Nat) (s : State) : Host.Outcome State Fault Refusal :=
  let x := s.chan vf chan
  if 255 < chan then event s
  else
    match x.st with
    | .unmapped => event s
    | .mapped => event (s.setChan vf chan { x with st := .closing, tailsnap := x.latch })
    | .closing => event (s.setChan vf chan { x with st := .unmapped })

/-- A channel is mapped (R388, R389, R391): its latch starts at the larger of tailsnap and late. -/
def execChannelMap (req : ChanReq) (s : State) : Host.Outcome State Fault Refusal :=
  let x := s.chan req.vf req.chan
  if 255 < req.chan || s.vfState req.vf = none || x.st ≠ .unmapped || req.e < 4 || 16 < req.e || req.z < 6 || 12 < req.z then event s
  else
    event (s.setChan req.vf req.chan
      { x with sub := req.sub, comp := req.comp, status := req.status, e := req.e, z := req.z, vector := req.vector % 2 ^ 16,
               st := .mapped, latch := max x.tailsnap x.late, late := 0 })

/-! ### hpost and hpoll (R395) -/

/-- The virtual function of the executing context's tenant. -/
def State.myVf (s : State) : Nat := ((s.region s.myTenant).map (·.vf)).getD 0

/-- The mapped channel that a channel word names, with its number (R394, R395). -/
def State.usable (s : State) (w : Word) : Option (Nat × Channel) :=
  let x := s.chan s.myVf w.toNat
  if w.toNat < 256 && x.st == .mapped then some (w.toNat, x) else none

/-- A channel's counts after an `hpost`, none where its requirement fails (R395). -/
def Channel.post (x : Channel) (isDone : Bool) (v : Nat) : Option Channel :=
  if isDone then (if x.done ≤ v && v ≤ x.head then some { x with done := v } else none)
  else if x.head ≤ v && v ≤ x.latch then some { x with head := v }
  else none

/-- `hpost` (R395): the release at system scope, the status, the count, the status block and the MSI-X message. -/
def State.hpost (s : State) (x : ArgDAB) (isDone : Bool) : Res := do
  s.releaseWait .sys
  let v := (s.me.rs x.b).toNat
  let fin (s : State) (n : Nat) : Res := s.update fun y => y.ws x.d (word n)
  match s.usable (s.me.rs x.a) with
  | none => fin s 1
  | some (n, q) =>
    match q.post isDone v with
    | none => fin s 2
    | some q =>
      if s.vfState s.myVf ≠ some .run then fin s 3
      else
        let s := s.setChan s.myVf n q
        let msgs : List HostMsg := .write s.myVf q.status (leBytes 8 q.head ++ leBytes 8 q.done)
          :: if isDone && q.vector ≠ 0xffff then [.msix s.myVf q.vector] else []
        fin { s with hostOut := s.hostOut ++ msgs } 0

/-- `hpost head` (R395). -/
def execHpostHead (x : ArgDAB) (s : State) : Host.Outcome State Fault Refusal :=
  issue (.hpostHead x) x.g notHandler (fun s => s.hpost x false) s

/-- `hpost done` (R395). -/
def execHpostDone (x : ArgDAB) (s : State) : Host.Outcome State Fault Refusal :=
  issue (.hpostDone x) x.g notHandler (fun s => s.hpost x true) s

/-- A count of a channel as `hpoll` reads it: 0 on an unusable one (R395). -/
def State.poll (s : State) (w : Word) (f : Channel → Nat) : Word := word (((s.usable w).map fun q => f q.2).getD 0)

/-- `hpoll tail` (R395). -/
def execHpollTail (x : ArgDA) (s : State) : Host.Outcome State Fault Refusal :=
  issue (.hpollTail x) x.g notHandler (fun s => s.update fun y => y.ws x.d (s.poll (s.me.rs x.a) (·.latch))) s

/-- `hpoll head` (R395). -/
def execHpollHead (x : ArgDA) (s : State) : Host.Outcome State Fault Refusal :=
  issue (.hpollHead x) x.g notHandler (fun s => s.update fun y => y.ws x.d (s.poll (s.me.rs x.a) (·.head))) s

/-- `hpoll done` (R395). -/
def execHpollDone (x : ArgDA) (s : State) : Host.Outcome State Fault Refusal :=
  issue (.hpollDone x) x.g notHandler (fun s => s.update fun y => y.ws x.d (s.poll (s.me.rs x.a) (·.done))) s

/-- `hpoll wait`: it holds while the latch is as given (R395). -/
def execHpollWait (x : ArgDAB) (s : State) : Host.Outcome State Fault Refusal :=
  issue (.hpollWait x) x.g notHandler (fun s =>
    match s.usable (s.me.rs x.a) with
    | none => s.update fun y => y.ws x.d 0
    | some (_, q) => if word q.latch = s.me.rs x.b then Res.stall else s.update fun y => y.ws x.d (word q.latch)) s

/-! ### Requests of the host and SPDM (R392, R393) -/

/-- The tenant that is a virtual function. -/
def State.vfTenant (s : State) (vf : Nat) : Option (Nat × Region) := s.regions.find? fun r => r.2.parent == 0 && r.2.vf == vf

/-- A request of the host through a virtual function (R392): one outside its two windows, or without IDE integrity, moves the
function to ERROR, which the host is told; else it is a read or a write of the tenant's `.glb` memory. One that does not
translate, or meets a memory error, has no effect (log entry 28), nor has one in the doorbell page, whose notify writes are the row
NOTIFY_WRITE (log entry 40). -/
def execHostRequest (req : HostReq) (s : State) : Host.Outcome State Fault Refusal :=
  match Assoc.get? req.vf s.vfs, s.vfTenant req.vf with
  | some f, some (_, x) =>
    let n := match req.data with
      | some bs => bs.length
      | none => req.len
    if f.st = .error || !s.hostReaches f then event s
    else if !req.intact then event (s.vfError req.vf)
    else if req.addr < f.base || f.base + f.size < req.addr + n then event (if f.rings req.addr then s else s.vfError req.vf)
    else
      match req.data with
      | some bs => event ((s.glbWrite x.asid req.addr bs).getD s)
      | none =>
        match s.glbRead x.asid req.addr n with
        | some bs => event { s with hostOut := s.hostOut ++ [.read req.vf req.addr bs] }
        | none => event s
  | _, _ => event s

/-- The state with a virtual function moved from one TDISP state to another (R392). -/
def State.moveVf (s : State) (vf : Nat) (p : VfSt → Bool) (st : VfSt) : State :=
  { s with vfs := Assoc.modify vf (fun f => if p f.st then { f with st } else f) s.vfs }

/-- Whether a virtual function has a selective IDE stream to take: its host link supports 64, and each virtual function in RUN on
the link has one (R392). -/
def State.streamFree (s : State) (vf : Nat) : Bool :=
  match Assoc.get? vf s.vfs with
  | some f => (s.vfs.filter fun x => x.2.link == f.link && x.2.st == .run).length < 64
  | none => false

/-- A request to the Slath processor over SPDM (R392, R393): a session, a measurement, a TDISP move or interface report; the chain of
slot 0 ends in the public key of the device's identity (R400). -/
def execSpdmRequest (req : SpdmReq) (s : State) : Host.Outcome State Fault Refusal :=
  if s.recovery then event s
  else
    match req with
    | .openSession n => event { s with sessions := n :: s.sessions.filter (· ≠ n) }
    | .closeSession n => event { s with sessions := s.sessions.filter (· ≠ n) }
    | .measurement k =>
      if k = 0 then event s
      else
        match s.meas[k - 1]? with
        | some m => event { s with hostOut := s.hostOut ++ [.spdm k (leBytes 64 m.toNat)] }
        | none => event s
    | .lock vf => event (s.moveVf vf (· == .unlocked) .locked)
    | .start vf => event (if s.streamFree vf then s.moveVf vf (· == .locked) .run else s)
    | .stop vf => event (s.moveVf vf (fun _ => true) .unlocked)
    | .certificate n =>
      match n, s.identity with
      | 0, some seed =>
        event { s with hostOut := s.hostOut ++ [.certificate 0 (Config.certificates ++ leBytes 32 (Config.publicKey seed).toNat)] }
      | _, _ => event s
    | .interfaces vf =>
      match Assoc.get? vf s.vfs with
      | some f => event { s with hostOut := s.hostOut ++ [.interfaces vf f.doorbell (f.base, f.size)] }
      | none => event s

end Sys2Proof.Machine
end

