-- ==== Sys2Proof/Machine/Boot.lean ====
section
/-! DEFINITION. Reset, power and identity: the module reset with its secure boot (R398, R400), flash images (R399), throttling
(R401), router gating (R402), vault temperature (R403). -/
namespace Sys2Proof.Machine

/-- Whether a flash image verifies and is no older than the rollback counter (R398, R399): the signature is its last 64
bytes. -/
def State.imageGood (s : State) (image : List Byte) : Bool :=
  let body := image.take (image.length - 64)
  64 ≤ image.length && Config.verifies (image.drop (image.length - 64)) (Config.sha512 body)
    && s.rollback ≤ Config.imageVersion image

/-- What a reset leaves of everything: the flash with the helper data and the rollback counter, and what lies outside the module, the
turns to come and the record of what the host was told. -/
def State.wiped (s : State) : State :=
  { State.reset with agenda := s.agenda, fresh := s.fresh, flash := s.flash, helper := s.helper, rollback := s.rollback, hostOut := s.hostOut }

/-- A link as the reset leaves it: trained, with keys, or down (R398 step 7). -/
def bootLink (session : Nat) (up : Bool) : LinkState := if up then LinkState.untrained.trained session 0 else LinkState.untrained

/-- The seed of the identity key that a reset finds (R400): the power-up values corrected by the helper data, or none. -/
def State.seed (s : State) (puf : List Byte) : Option (BitVec 256) :=
  if Config.corrects s.helper puf then some (Config.seedOf s.helper) else none

/-- The machine after a module reset (R398): booted, with the seed of its identity key (R400), or in recovery, where host link 0 alone
serves. -/
def State.boot (s : State) (b : BootInput) : State :=
  let w := { s.wiped with identity := s.seed b.puf, puf := b.puf }
  let recovery : State := { w with recovery := true, hostUp := b.hostLinks.filter (· == 0) }
  let microcode := s.flash.getD 2 []
  match (s.flash.take 2).find? s.imageGood with
  | none => recovery
  | some fw =>
    if w.identity.isNone || !s.imageGood microcode then recovery
    else
      { w with
        absent := (List.range 960).filter b.failed.contains
        links := waleLinks.map fun l => (l, bootLink s.fresh (b.links.contains l))
        hostUp := hostLinks.filter b.hostLinks.contains
        meas := [Config.sha512 fw, Config.sha512 microcode, 0, 0] }

/-- A module reset (R398). -/
def execModuleReset (boot : BootInput) (s : State) : Host.Outcome State Fault Refusal := event (s.boot boot)

/-- The physical function writes an image to flash, or commits the verified image there, which raises the rollback counter; in
recovery it only writes (R398, R399). -/
def execImageCommit (req : CommitReq) (s : State) : Host.Outcome State Fault Refusal :=
  let flash := (s.flash ++ [[], [], []]).take 3
  if 2 < req.place then event s
  else
    match req.write with
    | some bs => event { s with flash := modifyAt (fun _ => bs) req.place flash }
    | none =>
      let image := flash.getD req.place []
      if s.recovery || !s.imageGood image then event s
      else event { s with rollback := max s.rollback (Config.imageVersion image) }

/-! ### Power and temperature (R401 to R403) -/

/-- The state with the throttle level moved by at most one step, at most once a millisecond, 1,800,000 c (R401). -/
def State.throttleStep (s : State) (up : Bool) : State :=
  let due := s.throttleSteps = 0 || s.throttleAt + 1800000 ≤ s.clock
  let level := if up then min 7 (s.throttle + 1) else s.throttle - 1
  if due && level ≠ s.throttle then { s with throttle := level, throttleSteps := s.throttleSteps + 1, throttleAt := s.clock } else s

/-- A sample of the module's power and current (R401): above 3,000 W or 6,000 A the level rises, and so it does while a vault is hot
(R403); else it falls. -/
def execPowerSample (milliwatts milliamps : Nat) (s : State) : Host.Outcome State Fault Refusal :=
  event (s.throttleStep (3000000 < milliwatts || 6000000 < milliamps || !s.hot.isEmpty))

/-- The number of a router (R16, R402). -/
def routerNo (die pos : Nat) : Nat := die * 256 + pos

/-- Whether a router has had a flit to forward in the last 4,096 c (R402): one of its way waits or has passed since then, or its
reduction register holds lanes. -/
def State.routed (s : State) (p : Nat) : Bool :=
  s.net.any (fun f => (wayOf f.src f.dst).contains p)
    || s.passed.any (fun w => s.clock < w.2.2 + 4096 && (wayOf w.1 w.2.1).contains p)
    || s.routers.any (·.router == p)

/-- A router is power-gated when it has had no flit to forward for 4,096 c; its traffic moves to the bypass ring (R20, R402). -/
def execRouterPowerGate (die pos : Nat) (s : State) : Host.Outcome State Fault Refusal :=
  if 3 < die || 255 < pos || s.clock < 4096 || s.routed (routerNo die pos) then event s
  else event { s with gated := routerNo die pos :: s.gated.filter (· ≠ routerNo die pos) }

/-- A gated router wakes (R402). -/
def execRouterWake (die pos : Nat) (s : State) : Host.Outcome State Fault Refusal :=
  event { s with gated := s.gated.filter (· ≠ routerNo die pos) }

/-- A vault reports its temperature (R403): above 95 °C the throttle level rises until it falls below 95 °C; above 110 °C every
link goes down and the module resets (R398), which the host is told then; what that reset finds is a free value (log entry 41). -/
def execVaultTemperature (vault celsius : Nat) (s : State) : Host.Outcome State Fault Refusal :=
  if 959 < vault then event s
  else if 110 < celsius then
    let t := s.boot (Config.found s.fresh)
    event { t with hostOut := t.hostOut ++ [.thermalTrip] }
  else if 95 < celsius || (s.hot.contains vault && celsius = 95) then
    event ({ s with hot := vault :: s.hot.filter (· ≠ vault) }.throttleStep true)
  else event { s with hot := s.hot.filter (· ≠ vault) }

end Sys2Proof.Machine
end

