-- ==== Sys2Proof/Machine/Loader.lean ====
section
/-! DEFINITION. Loading: the `.ngi` image (R60 to R62), its sites (R63, R64), task-type entries (R240), the port-name section
(R299), and the load of one image into one region (R65 to R68, R286, R296). -/
namespace Sys2Proof.Machine

/-! ### The image (R60, R61) -/

/-- A section of an image: kind, space code, log2 of its alignment, load offset or all ones, and its bytes (R60). -/
structure Section_ where
  kind : Nat
  space : Nat
  align : Nat
  at_ : Nat
  bytes : List Byte
deriving DecidableEq, Repr

/-- The load offset of a section for which the loader chooses (R60). -/
def loaderChooses : Nat := 2 ^ 64 - 1

/-- The header's checks (status 1 of R66): its fixed fields, the section table and the sections within the image. DEDUCED: a
reserved field of the header that is not zero is a bad header field, status 1, and flag [0] is not held against the sections of
hub images (log entry 42). -/
def headerOk (bs : List Byte) : Bool :=
  let n := fieldLe bs 8 4
  128 ≤ bs.length && fieldLe bs 0 4 = 0x0449474e && fieldLe bs 4 2 = 1 && 1 ≤ n && n ≤ 256 && fieldLe bs 12 4 < 2
    && fieldLe bs 16 8 = bs.length && zeros bs 24 8 && zeros bs 96 32 && 128 + 32 * n ≤ bs.length
    && (List.range n).all fun k => fieldLe bs (136 + 32 * k) 8 + fieldLe bs (144 + 32 * k) 8 ≤ bs.length

/-- The sections of an image. -/
def sectionsOf (bs : List Byte) : List Section_ :=
  (List.range (fieldLe bs 8 4)).map fun k =>
    let e := bs.drop (128 + 32 * k)
    { kind := fieldLe e 0 2, space := fieldLe e 2 1, align := fieldLe e 3 1, at_ := fieldLe e 24 8,
      bytes := (bs.drop (fieldLe e 8 8)).take (fieldLe e 16 8) }

/-- The number of an image's sections of a kind. -/
def countKind (ss : List Section_) (k : Nat) : Nat := (ss.filter (·.kind = k)).length

/-- The section kinds and their counts (R61) and the reserved fields of the table (status 4 of R66). DEDUCED: an image without a
section of kind 1, 3 or 7, and a section with another space code than R60's, are status 4 too (log entry 42). -/
def kindsOk (bs : List Byte) (ss : List Section_) : Bool :=
  ss.all (fun x => 1 ≤ x.kind && x.kind ≤ 11) && countKind ss 1 = 1 && countKind ss 3 = 1 && countKind ss 7 = 1 && countKind ss 10 ≤ 1
    && ss.all (fun x =>
      if x.kind = 1 then x.space = 2 else if x.kind = 2 then x.space = 0 || x.space = 2 || x.space = 4 else x.space = 0xff)
    && (List.range (fieldLe bs 8 4)).all (fun k => zeros bs (132 + 32 * k) 4)

/-- The section of a kind of which an image has one. -/
def oneOf (ss : List Section_) (k : Nat) : List Byte := ((ss.find? (·.kind = k)).map (·.bytes)).getD []

/-- The fixed-size records of all sections of a kind, in order. -/
def recordsOf (ss : List Section_) (k size : Nat) : List (List Byte) :=
  (ss.filter (·.kind = k)).flatMap fun x => (List.range (x.bytes.length / size)).map fun j => (x.bytes.drop (size * j)).take size

/-- Whether the sections of a kind hold whole records. -/
def wholeRecords (ss : List Section_) (k size : Nat) : Bool := (ss.filter (·.kind = k)).all fun x => x.bytes.length % size = 0

/-! ### Sites (R63, R64) -/

/-- A patch or relocation record: the site's section, kind and byte offset; the parameter or the target; the multiplier. -/
structure Site where
  sec : Nat
  kind : Nat
  off : Nat
  ref : Nat
  mul : Int
deriving DecidableEq, Repr

/-- The record that 16 bytes give (R63). -/
def siteOf (bs : List Byte) : Site :=
  { sec := fieldLe bs 0 2, kind := fieldLe bs 2 1, ref := fieldLe bs 3 1, off := fieldLe bs 4 4, mul := asInt 64 (fieldLe bs 8 8) }

/-- What names a site. DEDUCED: records of two site kinds at one offset are at two sites (log entry 42). -/
def Site.place (r : Site) : Nat × Nat × Nat := (r.sec, r.kind, r.off)

/-- The width in bits of a site's field, by kind (R36, R37, R38, R63). -/
def siteBits (kind : Nat) : Nat :=
  match kind with
  | 1 => 32
  | 2 => 62
  | 3 => 37
  | 4 => 64
  | 5 => 32
  | _ => 16

/-- Whether a value lies in the range of a site kind (R63). -/
def siteFits (kind : Nat) (v : Int) : Bool :=
  match kind with
  | 4 => true
  | 5 => -(2 ^ 31) ≤ v && v < 2 ^ 32
  | 6 => 0 ≤ v && v < 2 ^ 16
  | k => -(2 ^ (siteBits k - 1)) ≤ v && v < 2 ^ (siteBits k - 1)

/-- The constant part that a site's field holds (R64): int() of its bits (R6). -/
def siteConst (bs : List Byte) (kind off : Nat) : Int :=
  let w := siteBits kind
  asInt w (fieldLe bs off ((w + 7) / 8) % 2 ^ w)

/-- The bytes with a site's field set; the other bits stay. -/
def siteSet (bs : List Byte) (kind off : Nat) (v : Int) : List Byte :=
  let w := siteBits kind
  let k := (w + 7) / 8
  let old := fieldLe bs off k
  bs.take off ++ leBytes k (old / 2 ^ w * 2 ^ w + (v % 2 ^ w).toNat) ++ bs.drop (off + k)

/-- Whether a record's site lies in its section, is of a listed kind, and fits it: instruction sites in code, at a slot's first
byte (R63). DEDUCED: any other is malformed, status 4 (log entry 42). -/
def Site.formed (r : Site) (ss : List Section_) : Bool :=
  match ss[r.sec]? with
  | none => true
  | some x => 1 ≤ r.kind && r.kind ≤ 6 && r.off + (siteBits r.kind + 7) / 8 ≤ x.bytes.length && (4 ≤ r.kind || (x.kind = 1 && slotAligned (word r.off)))

/-- A line of code with its parity byte recomputed (R27, R64). -/
def reparity (bs : List Byte) : List Byte := bs.take 63 ++ [(bs.take 63).foldl (· ^^^ ·) 0]

/-- The bytes of a code section with the parity of the line at an offset recomputed. -/
def fixLine (bs : List Byte) (off : Nat) : List Byte :=
  let k := off / 64 * 64
  if k + 64 ≤ bs.length then bs.take k ++ reparity ((bs.drop k).take 64) ++ bs.drop (k + 64) else bs

/-- The multiple up to which a patched count of a task-type entry is rounded, by its offset in the entry: the scalar and
vector registers and the frame (R57). DEDUCED: the site of a count begins at the count, whatever its kind (log entry 42). -/
def countStep : Nat → Int
  | 8 => 8
  | 9 => 4
  | 12 => 256
  | _ => 1

/-- A patched value of a section, rounded up where it is a count of a task-type entry (R57). -/
def roundPatched (kind off : Nat) (v : Int) : Int :=
  if kind = 3 then (v + countStep (off % 64) - 1) / countStep (off % 64) * countStep (off % 64) else v

/-- The sections with one site brought to its final value, the parity of the code lines that it lies in recomputed; none when it is
out of range (R64). -/
def applySite (ss : List Section_) (loads : Nat → Int) (value : Nat → Int) (relocs patches : List Site) (q : Nat × Nat × Nat) :
    Option (List Section_) :=
  match ss[q.1]? with
  | none => some ss
  | some x =>
    let v := siteConst x.bytes q.2.1 q.2.2 + ((relocs.find? (·.place = q)).map fun r => loads r.ref).getD 0
    let v := match patches.find? (·.place = q) with
      | some r => roundPatched x.kind q.2.2 (v + r.mul * value r.ref)
      | none => v
    if !siteFits q.2.1 v then none
    else
      let bs := siteSet x.bytes q.2.1 q.2.2 v
      let last := q.2.2 + (siteBits q.2.1 + 7) / 8 - 1
      some (modifyAt (fun x => { x with bytes := if x.kind = 1 then fixLine (fixLine bs q.2.2) last else bs }) q.1 ss)

/-- The sections with every site brought to its final value. -/
def applySites (loads value : Nat → Int) (relocs patches : List Site) : List (Nat × Nat × Nat) → List Section_ → Option (List Section_)
  | [], ss => some ss
  | q :: qs, ss => (applySite ss loads value relocs patches q).bind (applySites loads value relocs patches qs)

/-! ### Parameters (R58, R62) -/

/-- A parameter-table entry. -/
structure Param where
  name : List Byte
  dflt : Int
  lo : Int
  hi : Int
deriving DecidableEq, Repr

/-- The parameter that 40 bytes give. -/
def paramOf (bs : List Byte) : Param :=
  { name := bs.take 16, dflt := asInt 64 (fieldLe bs 16 8), lo := asInt 64 (fieldLe bs 24 8), hi := asInt 64 (fieldLe bs 32 8) }

/-- A name padded with zero bytes to sixteen. -/
def padName (n : List Byte) : List Byte := (n ++ List.replicate 16 0).take 16

/-- The launch value of parameter k, of a launch set of n cells. -/
def launchValue (ps : List Param) (given : List (List Byte × Int)) (n k : Nat) : Int :=
  match k with
  | 0 => n
  | 1 => 1
  | 2 => 1
  | _ =>
    match ps[k]? with
    | none => 0
    | some p =>
      match given.find? fun g => padName g.1 == p.name with
      | some g => g.2
      | none => p.dflt

/-- Whether the launch values are those of declared parameters that are not built in, and in range (R65 step 3). -/
def paramsOk (ps : List Param) (given : List (List Byte × Int)) (n : Nat) : Bool :=
  given.all (fun g => (ps.drop 3).any fun p => p.name == padName g.1)
    && (List.range ps.length).all fun k =>
      match ps[k]? with
      | none => true
      | some p => p.lo ≤ launchValue ps given n k && launchValue ps given n k ≤ p.hi

/-! ### Task-type entries (R240) and port-name records (R299) -/

/-- The task type that 64 bytes give; none where they break a limit (R240). -/
def taskTypeOf (bs : List Byte) (ncells : Nat) (launch : List Nat) (binds : List (Nat × Nat)) : Option TaskType :=
  let f := fieldLe bs 11 1
  let sregs := fieldLe bs 8 1
  let vregs := fieldLe bs 9 1
  let cw := fieldLe bs 24 1
  let ch := fieldLe bs 25 1
  let rates := (List.range 8).map fun k => fieldLe bs (32 + k) 1
  let high := fieldLe bs 40 2
  let low := fieldLe bs 42 2
  let budget := fieldLe bs 16 8
  let frame := fieldLe bs 12 4
  let ok := f < 8 && !(bit f 1 && bit f 2) && sregs % 8 = 0 && 8 ≤ sregs && sregs ≤ 64 && vregs % 4 = 0 && vregs ≤ 32
    && fieldLe bs 10 1 ≤ 16 && frame % 256 = 0 && 256 ≤ frame && 1 ≤ budget && budget < 2 ^ 48
    && (if bit f 2 then 1 ≤ cw && cw ≤ 16 && 1 ≤ ch && ch ≤ 15 else cw = 1 && ch = 1)
    && (if bit f 1 then rates.all (· ≤ 8) && low < high else rates.all (· = 0))
    && zeros bs 26 6 && zeros bs 44 20 && slotAligned (word (fieldLe bs 0 8))
  if ok then
    some { entry := fieldLe bs 0 8, sregs, vregs, ports := fieldLe bs 10 1, valid := bit f 0, actor := bit f 1, cluster := bit f 2,
           frame, budget, cw, ch, rates, high, low, ncells, binds, launch }
  else none

/-- A port-name record (R299): kind, direction or slot, connector, port index or region, region or rate, task type, home or
mask. -/
structure PortRec where
  kind : Nat
  b1 : Nat
  conn : Nat
  b4 : Nat
  b5 : Nat
  ty : Nat
  w8 : Nat
deriving DecidableEq, Repr

/-- The record that 32 bytes give; none for a malformed one (R299). -/
def portRecOf (bs : List Byte) : Option PortRec :=
  let r : PortRec := { kind := fieldLe bs 0 1, b1 := fieldLe bs 1 1, conn := fieldLe bs 2 2, b4 := fieldLe bs 4 1, b5 := fieldLe bs 5 1,
                       ty := fieldLe bs 6 2, w8 := fieldLe bs 8 4 }
  let ok := 1 ≤ r.kind && r.kind ≤ 5 && zeros bs 12 4
    && (r.kind ≤ 3 || r.b1 = 0) && (r.kind ≠ 1 || r.b1 ≤ 1) && (r.kind ≠ 2 || r.b1 ≤ 15)
    && (r.kind ≠ 5 || r.b4 = 0) && (r.kind = 1 || r.kind = 3 || r.b5 = 0) && (r.kind = 2 || r.kind = 3 || r.kind = 5 || r.ty = 0)
    && (r.kind = 4 || (r.kind = 5 && r.w8 < 2 ^ 16) || r.w8 = 0) && (r.kind = 1 || zeros bs 16 16)
  if ok then some r else none

/-- The region number within its connector of a port (R299 kind 1). -/
def portRegion (rs : List PortRec) (conn index : Nat) : Option Nat :=
  (rs.find? fun r => r.kind = 1 && r.conn = conn && r.b4 = index).map (·.b5)

/-- The home cell of a region of a connector: its record, or the lowest cell of the launch set (R293, R299). -/
def homeOf (rs : List PortRec) (cells : List Nat) (conn creg : Nat) : Nat :=
  match rs.find? fun r => r.kind = 4 && r.conn = conn && r.b4 = creg with
  | some r => r.w8
  | none => (cells.min?).getD 0

/-- The home hub of a port. -/
def portHome (rs : List PortRec) (cells : List Nat) (conn index : Nat) : Nat :=
  homeOf rs cells conn ((portRegion rs conn index).getD 0)

/-- The static bindings of a task type of an image, as records. -/
def bindsOf (rs : List PortRec) (ty : Nat) : List PortRec := rs.filter fun r => r.kind = 2 && r.ty = ty

/-- The FIFO whose link an actor input is the sink of (R293): in the image of its region its port entry is the actor input of its
slot, the transitions that feed it take the item from one and the same FIFO, and that has its output end in the region (R294). -/
def feedingFifo (images : List HubImage) (creg index slot : Nat) : Option Nat :=
  match images.find? fun m => m.creg = creg && m.ports.any (·.index = index) with
  | none => none
  | some m =>
    match indexWhere (fun (e : HubPort) => e.index = index) m.ports with
    | none => none
    | some k =>
      let e := m.ports.getD k { index := 0, isIn := false, actor := false, aslot := 0 }
      match ((m.trans.map fun t => t.routeP.getD k 255).filter (· ≠ 255)).eraseDups with
      | [n] =>
        if e.isIn && e.actor && e.aslot = slot && 16 ≤ n && ((m.fifos[n - 16]?).map (·.here)).getD false then some n else none
      | _ => none

/-- Whether an actor's inputs meet R255, R293 and R294: slots 0..7, each bound once, with the rate of its line, to an in port of
one region of one connector that is the sink of a FIFO link of its own, and rates that sum to at most 8. -/
def actorOk (rs : List PortRec) (images : Nat → List HubImage) (n : Nat) (t : TaskType) : Bool :=
  let ins := rs.filter fun r => r.kind = 3 && r.ty = n
  let port (r : PortRec) : Option PortRec := rs.find? fun p => p.kind = 1 && p.conn = r.conn && p.b4 = r.b4
  let fed (r : PortRec) : Option Nat := match port r with
    | some p => if p.b1 = 1 then feedingFifo (images r.conn) p.b5 r.b4 r.b1 else none
    | none => none
  if !t.actor then ins.isEmpty
  else
    t.rates.sum ≤ 8 && (ins.map (·.b1)).eraseDups.length = ins.length
      && (List.range 8).all (fun k => t.rates.getD k 0 = ((ins.filter (·.b1 = k)).map (·.b5)).sum)
      && ins.all (fun r => r.b1 ≤ 7 && 1 ≤ r.b5 && (fed r).isSome) && (ins.map fed).eraseDups.length = ins.length
      && (ins.map fun r => (r.conn, (port r).map (·.b5))).eraseDups.length ≤ 1

/-- Whether connectors meet R255 and R296 (status 8): no port statically bound twice, homes in the launch set, every `alt`
group's bound ports on one hub, and an actor's inputs as R293 and R294 have them. -/
def connOk (rs : List PortRec) (images : Nat → List HubImage) (cells : List Nat) (types : List TaskType) : Bool :=
  let ports := (rs.filter fun r => r.kind = 2 || r.kind = 3).map fun r => (r.conn, r.b4)
  let homes := (rs.filter (·.kind = 4)).all fun r => cells.contains r.w8
  let alts := (rs.filter (·.kind = 5)).all fun r =>
    (((bindsOf rs r.ty).filter fun b => bit r.w8 b.b1).map fun b => portHome rs cells b.conn b.b4).eraseDups.length ≤ 1
  ports.eraseDups.length = ports.length && homes && alts && types.zipIdx.all fun t => actorOk rs images t.2 t.1

/-! ### Placement (R65 step 4, R68) -/

/-- A number rounded up to a multiple. -/
def roundUp (n a : Nat) : Nat := (n + a - 1) / a * a

/-- The lowest multiple of a in [lo, hi) at which n bytes lie clear of what is held (R65). -/
def lowestFit (held : List (Nat × Nat)) (lo hi a n : Nat) : Option Nat :=
  (((lo :: held.map fun o => o.1 + o.2).map (roundUp · a)).filter fun x =>
    lo ≤ x && x + n ≤ hi && held.all fun o => o.2 = 0 || n = 0 || !overlaps o.1 o.2 x n).min?

/-- What is held of a space on a cell: loaded bytes, execute units, pools; in `.loc` the frame areas too. -/
def State.heldBytes (s : State) (c : Nat) (vlt : Bool) : List (Nat × Nat) :=
  s.regions.flatMap (fun r => (r.2.placed.filter fun p => p.cell == c && p.vlt == vlt).map fun p => (p.lo, p.len))
    ++ (if vlt then s.regions.flatMap fun r => (r.2.exec.filter (·.1 = c)).map fun u => (u.2 * 65536, 65536)
        else s.regions.flatMap fun r => (r.2.grants.filter (·.cell = c)).map fun g => (g.flo, g.fhi - g.flo))
    ++ ((s.cell c).pools.filter (·.2.vlt == vlt)).map fun p => (p.2.base, p.2.mainCount * p.2.size)

/-- The part of a space that a region's grants have in common on some cells, for sections: `.vlt` below the spill area. -/
def State.commonPart (s : State) (r : Nat) (cells : List Nat) (vlt : Bool) : Nat × Nat :=
  let gs := cells.filterMap (s.grant r)
  if vlt then (((gs.map (·.vlo)).max?).getD 0 * 65536, ((gs.map (·.vsp)).min?).getD 0 * 65536)
  else (((gs.map (·.llo)).max?).getD 0, ((gs.map (·.lhi)).min?).getD 0)

/-- A place for n bytes of a section, common to the cells: the lowest that fits, or the one that the section names, which may
be that of code to be replaced (R67). DEDUCED: one that the section names must be a multiple of its alignment, for code of 64 KiB,
else nothing fits, status 7 (log entry 42). -/
def placeAt (held own : List (Nat × Nat)) (part : Nat × Nat) (a n want : Nat) : Option Nat :=
  if want = loaderChooses then lowestFit held part.1 part.2 a n
  else
    let clear (o : Nat × Nat) : Bool := own.contains o || o.2 = 0 || n = 0 || !overlaps o.1 o.2 want n
    if want % a = 0 && part.1 ≤ want && want + n ≤ part.2 && held.all clear then some want else none

/-- What placing the sections of an image has found: their load offsets by number, and the bytes held in `.vlt` and `.loc`. -/
structure Places where
  offs : List (Option Nat)
  vlt : List (Nat × Nat)
  loc : List (Nat × Nat)
  glb : Nat

/-- One section placed (R65 step 4, R68): code, data and task-type entries in `.vlt`, data and layout records in `.loc`, `.glb`
data in the window, one behind the other, an alignment counted from the window's base. None when it does not fit. DEDUCED: the
space of the task-type entries, the base of a `.glb` alignment, and that an explicit offset of a `.glb` section is its virtual
address, not before the sections in front of it (log entry 42). -/
def Places.add (p : Places) (own : List (Nat × Nat)) (vpart lpart : Nat × Nat) (window : Option (Nat × Nat)) (x : Section_) :
    Option Places :=
  let n := x.bytes.length
  let a := 2 ^ x.align
  let skip : Option Places := some { p with offs := p.offs ++ [none] }
  if x.kind = 1 then
    let m := roundUp n 65536
    (placeAt p.vlt own vpart (max a 65536) m x.at_).map fun o => { p with offs := p.offs ++ [some o], vlt := (o, m) :: p.vlt }
  else if x.kind = 6 || (x.kind = 2 && x.space = 0) then
    (placeAt p.loc [] lpart (if x.kind = 6 then max a 64 else a) n x.at_).map fun o =>
      { p with offs := p.offs ++ [some o], loc := (o, n) :: p.loc }
  else if x.kind = 3 || (x.kind = 2 && x.space = 2) then
    (placeAt p.vlt [] vpart (if x.kind = 3 then max a 64 else a) n x.at_).map fun o => { p with offs := p.offs ++ [some o], vlt := (o, n) :: p.vlt }
  else if x.kind = 2 then
    match window with
    | none => none
    | some (base, size) =>
      let o := if x.at_ = loaderChooses then roundUp p.glb a else x.at_ - base
      let named := x.at_ = loaderChooses || (base ≤ x.at_ && o % a = 0 && p.glb ≤ o)
      if base % 65536 = 0 && base + size ≤ 2 ^ 56 && named && o + n ≤ size then some { p with offs := p.offs ++ [some (base + o)], glb := o + n }
      else none
  else skip

/-- The sections placed (R65 step 4). DEDUCED: in the order of the section table, of which R65 does not speak (log entry 42). -/
def placeAll (own : List (Nat × Nat)) (vpart lpart : Nat × Nat) (window : Option (Nat × Nat)) : List Section_ → Places → Option Places
  | [], p => some p
  | x :: xs, p => (p.add own vpart lpart window x).bind (placeAll own vpart lpart window xs)

/-- The load offset of section k as relocations see it (R64, R241, R286); none for one that has none. -/
def loadOffset (ss : List Section_) (offs : List (Option Nat)) (typeBase connBase k : Nat) : Option Int :=
  match ss[k]? with
  | none => none
  | some x =>
    if x.kind = 3 then some typeBase
    else if x.kind = 10 then some ((connBase * 65536 : Nat) : Int)
    else ((offs.getD k none).map fun (o : Nat) => (o : Int))

/-! ### Pools and hub images (R62, R65 steps 6 and 7) -/

/-- Whether a pool declaration, patched, is well formed (R62). -/
def poolDeclOk (bs : List Byte) : Bool :=
  let k := fieldLe bs 1 1
  fieldLe bs 0 1 ≤ 7 && 8 ≤ k && k ≤ 16 && (fieldLe bs 2 1 = 0 || fieldLe bs 2 1 = 2) && zeros bs 3 1 && 1 ≤ fieldLe bs 4 2
    && fieldLe bs 4 2 ≤ 4096 && zeros bs 6 2 && zeros bs 12 4

/-- The state with a declared pool configured on a cell for a region, or the load's status (R66): 4 for a malformed declaration,
9 for a number that another region owns or that is in use, and for the quota; 7 when there is no room. -/
def State.declarePool (s : State) (r c : Nat) (bs : List Byte) : Except Nat State :=
  let no := fieldLe bs 0 1
  let k := fieldLe bs 1 1
  let vlt := fieldLe bs 2 1 = 2
  let n := fieldLe bs 4 2
  let held : Bool := match Assoc.get? no (s.cell c).pools with
    | some q => q.owner != r || q.tiles.any (fun (t : Tile) => t.st != .free) || !q.queue.isEmpty
    | none => false
  if !poolDeclOk bs then .error 4
  else if held || ((s.region r).map (·.poolQuota)).getD 0 < (s.cell c).poolBytes r no + n * 2 ^ k then .error 9
  else
    let u := s.modCell c fun x => { x with pools := Assoc.erase no x.pools }
    let part := s.commonPart r [c] vlt
    match lowestFit (u.heldBytes c vlt) part.1 part.2 (2 ^ k) (n * 2 ^ k) with
    | none => .error 7
    | some base =>
      .ok (s.setPool c no { poolOf (n * 2 ^ 16 + k * 2 ^ 8 + (if vlt then 2 else 0)) base (fieldLe bs 8 4) with owner := r })

/-- The state with every declared pool configured on every cell (R65 step 6). -/
def State.declarePools (s : State) (r : Nat) (decls : List (List Byte)) (cells : List Nat) : Except Nat State :=
  (cells.flatMap fun c => decls.map fun d => (c, d)).foldlM (fun s x => s.declarePool r x.1 x.2) s

/-- The status of a load for a status of `cload` (R320). -/
def hubStatus (n : Nat) : Nat :=
  match n with
  | 1 | 6 => 4
  | 2 => 8
  | _ => 7

/-- The hub images that a section of kind 0x0005 holds (R61, R317), each aligned on 64 bytes; none for one that is cut short. -/
def hubImagesOf : Nat → List Byte → Option (List (List Byte))
  | 0, bs => if bs = [] then some [] else none
  | n + 1, bs =>
    if bs = [] then some []
    else if bs.length < 128 || bs.length < hubImageSize bs then none
    else (hubImagesOf n (bs.drop (roundUp (hubImageSize bs) 64))).map (bs.take (hubImageSize bs) :: ·)

/-- All hub images of an image, in section order; none where a section is cut short. -/
def hubImages (ss : List Section_) : Option (List (List Byte)) :=
  (allSome ((ss.filter (·.kind = 5)).map fun x => hubImagesOf (x.bytes.length / 128 + 1) x.bytes)).map List.flatten

/-- The hub images of a connector of an image, those that parse. -/
def hubsOfConn (bss : List (List Byte)) (conn : Nat) : List HubImage :=
  bss.filterMap fun bs => if fieldLe bs 10 2 = conn then (parseHub bs).toOption else none

/-- The state with hub images loaded at their homes, in section order (R65 step 7); measurement 3 takes their digests (R65
step 8). -/
def State.loadHubs (s : State) (rs : List PortRec) (cells : List Nat) (connBase region tenant : Nat) (images : List (List Byte)) :
    Except Nat State :=
  images.foldlM (fun s bs =>
    let conn := fieldLe bs 10 2
    let home := homeOf rs cells conn (fieldLe bs 14 1)
    if !cells.contains home then .error 8
    else
      match s.loadHub home bs (connBase + conn) region tenant with
      | .error e => .error (hubStatus e)
      | .ok r => .ok r.2) s

/-! ### The load (R65 to R68) -/

/-- The bytes of a section as its bytes on cells. DEDUCED: R60 gives a section no list of cells, so a `.loc` or `.vlt` section goes
to every cell of the launch set (log entry 42). -/
def State.putSection (s : State) (r : Nat) (cells : List Nat) (x : Section_) (o : Nat) : State :=
  let vlt := x.kind = 1 || x.kind = 3 || (x.kind = 2 && x.space = 2)
  let sp : Space := if vlt then .vlt else .loc
  let s := cells.foldl (fun s c => s.writeLocal c sp o x.bytes) s
  if x.kind = 1 then
    let units := (List.range (roundUp x.bytes.length 65536 / 65536)).map (o / 65536 + ·)
    let new := cells.flatMap fun c => units.map fun u => (c, u)
    s.modRegion r fun q => { q with exec := q.exec.filter (!new.contains ·) ++ new }
  else
    s.modRegion r fun q => { q with placed := q.placed ++ cells.map fun c => { cell := c, vlt, lo := o, len := x.bytes.length } }

/-- The state with bytes written as a `.glb` store of an ASID: none where `glbWrite` gives none, and for host memory while the
tenant's virtual function is not in RUN (R68, R392). -/
def State.glbStore (s : State) (asid va : Nat) (bs : List Byte) : Option State :=
  match s.glbPieces asid va bs.length true with
  | none => none
  | some ps => if ps.any (fun p => isHost p.1) && !s.vfRuns (s.asidTenant asid) then none else s.glbWrite asid va bs

/-- The state with the `.glb` sections written through the region's ASID; a page that faults ends it, and what was written is
zero (R68). DEDUCED: of the section in which it faults nothing had been written (log entry 42). -/
def State.putGlb (s : State) (asid : Nat) : List (Nat × List Byte) → State × Bool
  | [] => (s, true)
  | (va, bs) :: rest =>
    match s.glbStore asid va bs with
    | none => (s, false)
    | some t =>
      match t.putGlb asid rest with
      | (t, true) => (t, true)
      | (t, false) => ((t.glbStore asid va (List.replicate bs.length 0)).getD t, false)

/-- The checks of an image alone (R65 steps 1 and 2): the status, or its sections. DEDUCED: a section that holds a partial record,
or code that is no whole number of lines, is status 4, as is a parameter table without the built-in entries (log entry 42). -/
def checkImage (bs : List Byte) : Except Nat (List Section_) :=
  if !headerOk bs then .error 1
  else
    let ss := sectionsOf bs
    let whole := wholeRecords ss 1 64 && wholeRecords ss 3 64 && wholeRecords ss 4 16 && wholeRecords ss 6 64 && wholeRecords ss 7 40
      && wholeRecords ss 8 16 && wholeRecords ss 9 16 && wholeRecords ss 10 32
    if !kindsOk bs ss || !whole || (recordsOf ss 7 40).length < 3 then .error 4
    else if Config.sha512 (bs.take 32 ++ bs.drop 128) ≠ BitVec.ofNat 512 (fieldLe bs 32 64) then .error 2
    else if 0xa1 < fieldLe bs 6 2 then .error 3
    else .ok ss

/-- Whether the patch and relocation records of an image are well formed (R62 to R64, status 4): at most one of each at a site, no
patch that names parameter entry 1 or 2, no multiplier in a relocation, and sites as R63 has them. -/
def sitesOk (ss : List Section_) : Bool :=
  let patches := (recordsOf ss 8 16).map siteOf
  let relocs := (recordsOf ss 9 16).map siteOf
  let once (rs : List Site) : Bool := (rs.map (·.place)).eraseDups.length = rs.length
  once patches && once relocs && patches.all (fun p => p.ref ≠ 1 && p.ref ≠ 2) && relocs.all (·.mul = 0)
    && (patches ++ relocs).all (·.formed ss)

/-- What of a load's patched sections steps 7 and 8 need: the port-name records, the hub images and the task types; the status
where they are malformed (R240, R299) or their connectors may not be loaded (R296). -/
def linkTypes (ss : List Section_) (cells : List Nat) (connBase : Nat) :
    Except Nat (List PortRec × List (List Byte) × List TaskType) :=
  match allSome ((recordsOf ss 10 32).map portRecOf), hubImages ss with
  | some rs, some images =>
    let entries := recordsOf ss 3 64
    let bind (n : Nat) : List (Nat × Nat) :=
      (bindsOf rs n).map fun r => (r.b1, (connBase + r.conn) * 65536 + r.b4)
    match allSome (entries.zipIdx.map fun e => taskTypeOf e.1 cells.length cells (bind e.2)) with
    | none => .error 4
    | some ts => if connOk rs (hubsOfConn images) cells ts then .ok (rs, images, ts) else .error 8
  | _, _ => .error 4

/-- Whether bases are free: the task-type numbers of the tenant and its connector numbers (R241, R286). -/
def State.basesFree (s : State) (tenant typeBase n connBase conns : Nat) : Bool :=
  typeBase + n ≤ 65536 && connBase + conns ≤ 65536
    && (List.range n).all (fun k => (s.taskType tenant (typeBase + k)).isNone)
    && s.directory.all fun e => !(e.1 == tenant && connBase ≤ portConn e.2.1 && portConn e.2.1 < connBase + conns)

/-- The request of a load with the bases that ngload chooses (R241, R286): those of the request while they are free, else the ones
after all that are in use; none where those do not suffice. DESIGN CHOICE (log entry 42). -/
def State.withBases (s : State) (tenant n conns : Nat) (q : LoadReq) : Option LoadReq :=
  let above : LoadReq :=
    { q with
      typeBase := (s.types.getD tenant []).length
      connBase := (((s.directory.filter (·.1 == tenant)).map fun e => portConn e.2.1 + 1).max?).getD 0 }
  if s.basesFree tenant q.typeBase n q.connBase conns then some q
  else if s.basesFree tenant above.typeBase n above.connBase conns then some above
  else none

/-- A table with entries from a base on (R241). -/
def setTypes (table : List TaskType) (base : Nat) (ts : List TaskType) : List TaskType :=
  let none_ : TaskType :=
    { entry := 0, sregs := 8, vregs := 0, ports := 0, valid := false, actor := false, cluster := false, frame := 256, budget := 1,
      cw := 1, ch := 1, rates := List.replicate 8 0, high := 0, low := 0, ncells := 0, binds := [], launch := [] }
  let table := table ++ List.replicate (base + ts.length - table.length) none_
  table.take base ++ ts ++ table.drop (base + ts.length)

/-- The sections of an image patched for a launch, with their places; or the status (R65 steps 3 to 5). DEDUCED: a relocation against
a section that has no load offset names a missing one, status 11 (log entry 42). -/
def State.prepare (s : State) (q : LoadReq) (ss : List Section_) (cells : List Nat) : Except Nat (List Section_ × Places) :=
  let ps := (recordsOf ss 7 40).map paramOf
  let patches := (recordsOf ss 8 16).map siteOf
  let relocs := (recordsOf ss 9 16).map siteOf
  let own := ((s.region q.region).map fun x => (x.exec.filter fun u => cells.contains u.1).map fun u => (u.2 * 65536, 65536)).getD []
  let start : Places :=
    { offs := [], vlt := cells.flatMap (s.heldBytes · true), loc := cells.flatMap (s.heldBytes · false), glb := 0 }
  if !paramsOk ps q.params cells.length then .error 5
  else if cells.isEmpty || cells.any fun c => (s.grant q.region c).isNone then .error 7
  else
    match placeAll own (s.commonPart q.region cells true) (s.commonPart q.region cells false) q.window ss start with
    | none => .error 7
    | some places =>
      let load (k : Nat) : Option Int := loadOffset ss places.offs q.typeBase q.connBase k
      if !sitesOk ss then .error 4
      else if relocs.any (fun r => (load r.ref).isNone || ss.length ≤ r.sec) || patches.any (fun r => ps.length ≤ r.ref || ss.length ≤ r.sec) then
        .error 11
      else
        match applySites (fun k => (load k).getD 0) (launchValue ps q.params cells.length) relocs patches
            ((relocs ++ patches).map (·.place)).eraseDups ss with
        | none => .error 6
        | some ss => .ok (ss, places)

/-- The code that a load replaces and that a resident task executes on some of its cells, its type's entry lying in that code
(R67): cell, start and length, for every cell of the launch set. DEDUCED: the write waits until no cell has such a task (log entry
42). -/
def State.replacing (s : State) (cells : List Nat) (ss : List Section_) (places : Places) : List (Nat × Nat × Nat) :=
  ss.zipIdx.flatMap fun x =>
    match x.1.kind, places.offs.getD x.2 none with
    | 1, some o =>
      let n := roundUp x.1.bytes.length 65536
      let inside (a : Nat) : Bool := o ≤ a && a < o + n
      let executing (c : Nat) : Bool := (List.range 8).any fun i =>
        match (s.ctxAt c i).task with
        | some t => inside (s.ctxAt c i).pc.toNat && (match s.taskType t.tenant t.ty with
            | some ty => inside ty.entry
            | none => false)
        | none => false
      if cells.any executing then cells.map fun c => (c, o, n) else []
    | _, _ => []

/-- A load carried out whole, or the status for which it leaves nothing behind (R65, R66). -/
def State.load (s : State) (q : LoadReq) (x : Region) (cells : List Nat) (ss : List Section_) (places : Places) : Except Nat State := do
  let placedBytes := ss.zipIdx.filterMap fun y => (places.offs.getD y.2 none).map fun o => (y.1, o)
  let s := (placedBytes.filter fun y => !(y.1.kind = 2 && y.1.space = 4)).foldl (fun s y => s.putSection q.region cells y.1 y.2) s
  let s ← s.declarePools q.region (recordsOf ss 4 16) cells
  let (rs, images, ts) ← linkTypes ss cells q.connBase
  let s := { s with types := Assoc.put x.tenant (setTypes (s.types.getD x.tenant []) q.typeBase ts) s.types }
  s.loadHubs rs cells q.connBase q.region x.tenant images

/-- A load whose turn it is (R65 to R68): done, or failed with a status; or waiting, for the code that it replaces (R67). A failure
leaves nothing, but for zeros where `.glb` bytes had been written. DESIGN CHOICE: numbers that do not suffice are status 7 (log
entry 42). -/
def State.tryLoad (s : State) (q : LoadReq) : Except (List (Nat × Nat × Nat)) State :=
  let cells := (List.range 960).filter q.cells.contains
  match (s.region q.region).filter (fun _ => !s.isDying q.region), checkImage q.image with
  | none, _ => .ok (s.report 10 q.region)
  | _, .error n => .ok (s.report n q.region)
  | some x, .ok ss =>
    let conns := ((recordsOf ss 10 32).map fun r => fieldLe r 2 2 + 1).foldl max 0
    match s.withBases x.tenant (recordsOf ss 3 64).length conns q with
    | none => .ok (s.report 7 q.region)
    | some q =>
      match s.prepare q ss cells with
      | .error n => .ok (s.report n q.region)
      | .ok (ss, places) =>
        if s.replacing cells ss places ≠ [] then .error (s.replacing cells ss places)
        else
          match s.load q x cells ss places with
          | .error n => .ok (s.report n q.region)
          | .ok t =>
            let glb := ss.zipIdx.filterMap fun y =>
              if y.1.kind = 2 && y.1.space = 4 then (places.offs.getD y.2 none).map fun o => (o, y.1.bytes) else none
            .ok (if (t.putGlb x.asid glb).2 then (t.putGlb x.asid glb).1.report 0 q.region
              else (s.putGlb x.asid glb).1.report 7 q.region)

/-- ngload loads an image into a region (R65 to R68). The loads of a region are carried out in the order of their requests (R67): a
request behind a waiting one waits too, and `cur.k` numbers, from 1, the waiting load that goes on; while one waits for code, no
task starts in that code (`State.codeWaits`). -/
def execNgloadLoad (req : LoadReq) (s : State) : Host.Outcome State Fault Refusal :=
  let k := s.cur.k
  let again := k ≠ 0 && (s.loads[k - 1]?).map (·.req) = some req
  let before := if again then s.loads.take (k - 1) else s.loads
  let wait (code : List (Nat × Nat × Nat)) : State :=
    { s with loads := if again then modifyAt (fun q => { q with code }) (k - 1) s.loads else s.loads ++ [{ req, code }] }
  if s.recovery then event s
  else if before.any (·.req.region = req.region) then event (if again then s else wait [])
  else
    match s.tryLoad req with
    | .error code => event (wait code)
    | .ok t => event (if again then { t with loads := t.loads.eraseIdx (k - 1) } else t)

end Sys2Proof.Machine
end

