-- ==== Sys2Proof/Machine/Dispatch.lean ====
section
/-! DEFINITION. The dispatch of every row of the opcode table to its meaning. -/
namespace Sys2Proof.Machine

/-- The meaning of every row of the opcode table: the instructions of R43 and the events of the other agents. -/
def exec (i : Instr) (s : State) : Host.Outcome State Fault Refusal :=
  match i with
  | .add x => Sys2Proof.Machine.execAdd x s
  | .sub x => Sys2Proof.Machine.execSub x s
  | .mul x => Sys2Proof.Machine.execMul x s
  | .mulh x => Sys2Proof.Machine.execMulh x s
  | .mulhu x => Sys2Proof.Machine.execMulhu x s
  | .div x => Sys2Proof.Machine.execDiv x s
  | .divu x => Sys2Proof.Machine.execDivu x s
  | .rem x => Sys2Proof.Machine.execRem x s
  | .remu x => Sys2Proof.Machine.execRemu x s
  | .and x => Sys2Proof.Machine.execAnd x s
  | .or x => Sys2Proof.Machine.execOr x s
  | .xor x => Sys2Proof.Machine.execXor x s
  | .andn x => Sys2Proof.Machine.execAndn x s
  | .shl x => Sys2Proof.Machine.execShl x s
  | .shr x => Sys2Proof.Machine.execShr x s
  | .sar x => Sys2Proof.Machine.execSar x s
  | .rol x => Sys2Proof.Machine.execRol x s
  | .min x => Sys2Proof.Machine.execMin x s
  | .max x => Sys2Proof.Machine.execMax x s
  | .minu x => Sys2Proof.Machine.execMinu x s
  | .maxu x => Sys2Proof.Machine.execMaxu x s
  | .clz x => Sys2Proof.Machine.execClz x s
  | .ctz x => Sys2Proof.Machine.execCtz x s
  | .popc x => Sys2Proof.Machine.execPopc x s
  | .bext x => Sys2Proof.Machine.execBext x s
  | .bins x => Sys2Proof.Machine.execBins x s
  | .lea x => Sys2Proof.Machine.execLea x s
  | .li x => Sys2Proof.Machine.execLi x s
  | .mov x => Sys2Proof.Machine.execMov x s
  | .sel x => Sys2Proof.Machine.execSel x s
  | .cmp x => Sys2Proof.Machine.execCmp x s
  | .pand x => Sys2Proof.Machine.execPand x s
  | .por x => Sys2Proof.Machine.execPor x s
  | .pxor x => Sys2Proof.Machine.execPxor x s
  | .pnot x => Sys2Proof.Machine.execPnot x s
  | .ppack x => Sys2Proof.Machine.execPpack x s
  | .punpk x => Sys2Proof.Machine.execPunpk x s
  | .br x => Sys2Proof.Machine.execBr x s
  | .jmp x => Sys2Proof.Machine.execJmp x s
  | .call x => Sys2Proof.Machine.execCall x s
  | .loop x => Sys2Proof.Machine.execLoop x s
  | .jr x => Sys2Proof.Machine.execJr x s
  | .callr x => Sys2Proof.Machine.execCallr x s
  | .ret x => Sys2Proof.Machine.execRet x s
  | .done x => Sys2Proof.Machine.execDone x s
  | .rdsr x => Sys2Proof.Machine.execRdsr x s
  | .wrsr x => Sys2Proof.Machine.execWrsr x s
  | .fadd x => Sys2Proof.Machine.execFadd x s
  | .fsub x => Sys2Proof.Machine.execFsub x s
  | .fmul x => Sys2Proof.Machine.execFmul x s
  | .fdiv x => Sys2Proof.Machine.execFdiv x s
  | .fmin x => Sys2Proof.Machine.execFmin x s
  | .fmax x => Sys2Proof.Machine.execFmax x s
  | .fma x => Sys2Proof.Machine.execFma x s
  | .fsqrt x => Sys2Proof.Machine.execFsqrt x s
  | .fcmp x => Sys2Proof.Machine.execFcmp x s
  | .fcvt x => Sys2Proof.Machine.execFcvt x s
  | .fclass x => Sys2Proof.Machine.execFclass x s
  | .vadd x => Sys2Proof.Machine.execVadd x s
  | .vsub x => Sys2Proof.Machine.execVsub x s
  | .vmul x => Sys2Proof.Machine.execVmul x s
  | .vfma x => Sys2Proof.Machine.execVfma x s
  | .vmin x => Sys2Proof.Machine.execVmin x s
  | .vmax x => Sys2Proof.Machine.execVmax x s
  | .vabs x => Sys2Proof.Machine.execVabs x s
  | .vneg x => Sys2Proof.Machine.execVneg x s
  | .vand x => Sys2Proof.Machine.execVand x s
  | .vor x => Sys2Proof.Machine.execVor x s
  | .vxor x => Sys2Proof.Machine.execVxor x s
  | .vshl x => Sys2Proof.Machine.execVshl x s
  | .vshr x => Sys2Proof.Machine.execVshr x s
  | .vsra x => Sys2Proof.Machine.execVsra x s
  | .vcmp x => Sys2Proof.Machine.execVcmp x s
  | .vsel x => Sys2Proof.Machine.execVsel x s
  | .vcvt x => Sys2Proof.Machine.execVcvt x s
  | .vexpand x => Sys2Proof.Machine.execVexpand x s
  | .vrcp x => Sys2Proof.Machine.execVrcp x s
  | .vrsqrt x => Sys2Proof.Machine.execVrsqrt x s
  | .vexp2 x => Sys2Proof.Machine.execVexp2 x s
  | .vlog2 x => Sys2Proof.Machine.execVlog2 x s
  | .vredsum x => Sys2Proof.Machine.execVredsum x s
  | .vredmax x => Sys2Proof.Machine.execVredmax x s
  | .vdot x => Sys2Proof.Machine.execVdot x s
  | .vsplat x => Sys2Proof.Machine.execVsplat x s
  | .vperm x => Sys2Proof.Machine.execVperm x s
  | .vidx x => Sys2Proof.Machine.execVidx x s
  | .vmovs x => Sys2Proof.Machine.execVmovs x s
  | .vqnt x => Sys2Proof.Machine.execVqnt x s
  | .vdqnt x => Sys2Proof.Machine.execVdqnt x s
  | .vscacc x => Sys2Proof.Machine.execVscacc x s
  | .ldtab x => Sys2Proof.Machine.execLdtab x s
  | .mma x => Sys2Proof.Machine.execMma x s
  | .accz x => Sys2Proof.Machine.execAccz x s
  | .accsc x => Sys2Proof.Machine.execAccsc x s
  | .accst x => Sys2Proof.Machine.execAccst x s
  | .accld x => Sys2Proof.Machine.execAccld x s
  | .accrd x => Sys2Proof.Machine.execAccrd x s
  | .accwr x => Sys2Proof.Machine.execAccwr x s
  | .ld x => Sys2Proof.Machine.execLd x s
  | .st x => Sys2Proof.Machine.execSt x s
  | .ldc x => Sys2Proof.Machine.execLdc x s
  | .vld x => Sys2Proof.Machine.execVld x s
  | .vst x => Sys2Proof.Machine.execVst x s
  | .vldc x => Sys2Proof.Machine.execVldc x s
  | .vgat x => Sys2Proof.Machine.execVgat x s
  | .vsca x => Sys2Proof.Machine.execVsca x s
  | .talloc x => Sys2Proof.Machine.execTalloc x s
  | .tallocTry x => Sys2Proof.Machine.execTallocTry x s
  | .tseal x => Sys2Proof.Machine.execTseal x s
  | .tdrop x => Sys2Proof.Machine.execTdrop x s
  | .tcount x => Sys2Proof.Machine.execTcount x s
  | .poolcfg x => Sys2Proof.Machine.execPoolcfg x s
  | .poolst x => Sys2Proof.Machine.execPoolst x s
  | .send x => Sys2Proof.Machine.execSend x s
  | .sendLay x => Sys2Proof.Machine.execSendLay x s
  | .sendt x => Sys2Proof.Machine.execSendt x s
  | .fill x => Sys2Proof.Machine.execFill x s
  | .fillLay x => Sys2Proof.Machine.execFillLay x s
  | .wait x => Sys2Proof.Machine.execWait x s
  | .sbstat x => Sys2Proof.Machine.execSbstat x s
  | .fence x => Sys2Proof.Machine.execFence x s
  | .ldsc x => Sys2Proof.Machine.execLdsc x s
  | .stsc x => Sys2Proof.Machine.execStsc x s
  | .xlatR x => Sys2Proof.Machine.execXlatR x s
  | .xlatW x => Sys2Proof.Machine.execXlatW x s
  | .xlatSet0 x => Sys2Proof.Machine.execXlatSet0 x s
  | .xlatSet1 x => Sys2Proof.Machine.execXlatSet1 x s
  | .tinvAll x => Sys2Proof.Machine.execTinvAll x s
  | .tinvAsid x => Sys2Proof.Machine.execTinvAsid x s
  | .tinvPage x => Sys2Proof.Machine.execTinvPage x s
  | .keysetInst x => Sys2Proof.Machine.execKeysetInst x s
  | .keysetRet x => Sys2Proof.Machine.execKeysetRet x s
  | .keysetSt x => Sys2Proof.Machine.execKeysetSt x s
  | .spawn x => Sys2Proof.Machine.execSpawn x s
  | .callat x => Sys2Proof.Machine.execCallat x s
  | .reply x => Sys2Proof.Machine.execReply x s
  | .jnew x => Sys2Proof.Machine.execJnew x s
  | .jdec x => Sys2Proof.Machine.execJdec x s
  | .fnew x => Sys2Proof.Machine.execFnew x s
  | .fres x => Sys2Proof.Machine.execFres x s
  | .freg x => Sys2Proof.Machine.execFreg x s
  | .tid x => Sys2Proof.Machine.execTid x s
  | .rgnactNew x => Sys2Proof.Machine.execRgnactNew x s
  | .rgnactPark x => Sys2Proof.Machine.execRgnactPark x s
  | .rgnactResume x => Sys2Proof.Machine.execRgnactResume x s
  | .rgnactQuiet x => Sys2Proof.Machine.execRgnactQuiet x s
  | .rgnkillKill x => Sys2Proof.Machine.execRgnkillKill x s
  | .rgnkillExit x => Sys2Proof.Machine.execRgnkillExit x s
  | .budgetRd x => Sys2Proof.Machine.execBudgetRd x s
  | .budgetExt x => Sys2Proof.Machine.execBudgetExt x s
  | .put x => Sys2Proof.Machine.execPut x s
  | .get x => Sys2Proof.Machine.execGet x s
  | .alt x => Sys2Proof.Machine.execAlt x s
  | .pbind x => Sys2Proof.Machine.execPbind x s
  | .portst x => Sys2Proof.Machine.execPortst x s
  | .cload x => Sys2Proof.Machine.execCload x s
  | .cdrop x => Sys2Proof.Machine.execCdrop x s
  | .cstat x => Sys2Proof.Machine.execCstat x s
  | .amsg x => Sys2Proof.Machine.execAmsg x s
  | .htabSet x => Sys2Proof.Machine.execHtabSet x s
  | .htabClr x => Sys2Proof.Machine.execHtabClr x s
  | .htabEpnew x => Sys2Proof.Machine.execHtabEpnew x s
  | .htabEpdel x => Sys2Proof.Machine.execHtabEpdel x s
  | .htabRd x => Sys2Proof.Machine.execHtabRd x s
  | .aadd x => Sys2Proof.Machine.execAadd x s
  | .aand x => Sys2Proof.Machine.execAand x s
  | .aor x => Sys2Proof.Machine.execAor x s
  | .axor x => Sys2Proof.Machine.execAxor x s
  | .amax x => Sys2Proof.Machine.execAmax x s
  | .amin x => Sys2Proof.Machine.execAmin x s
  | .aswp x => Sys2Proof.Machine.execAswp x s
  | .acas x => Sys2Proof.Machine.execAcas x s
  | .epmov x => Sys2Proof.Machine.execEpmov x s
  | .epparkPark x => Sys2Proof.Machine.execEpparkPark x s
  | .epparkResume x => Sys2Proof.Machine.execEpparkResume x s
  | .barv x => Sys2Proof.Machine.execBarv x s
  | .barw x => Sys2Proof.Machine.execBarw x s
  | .redp x => Sys2Proof.Machine.execRedp x s
  | .redg x => Sys2Proof.Machine.execRedg x s
  | .bcfgSet x => Sys2Proof.Machine.execBcfgSet x s
  | .bcfgFree x => Sys2Proof.Machine.execBcfgFree x s
  | .bcfgBrk x => Sys2Proof.Machine.execBcfgBrk x s
  | .bcfgRd x => Sys2Proof.Machine.execBcfgRd x s
  | .rcfgSet x => Sys2Proof.Machine.execRcfgSet x s
  | .rcfgFree x => Sys2Proof.Machine.execRcfgFree x s
  | .rcfgBrk x => Sys2Proof.Machine.execRcfgBrk x s
  | .rcfgRd x => Sys2Proof.Machine.execRcfgRd x s
  | .trapCall x => Sys2Proof.Machine.execTrapCall x s
  | .trapRing x => Sys2Proof.Machine.execTrapRing x s
  | .eret x => Sys2Proof.Machine.execEret x s
  | .brk x => Sys2Proof.Machine.execBrk x s
  | .rfill x => Sys2Proof.Machine.execRfill x s
  | .rretry x => Sys2Proof.Machine.execRretry x s
  | .rretryCtx x => Sys2Proof.Machine.execRretryCtx x s
  | .rskip x => Sys2Proof.Machine.execRskip x s
  | .rkillEnt x => Sys2Proof.Machine.execRkillEnt x s
  | .rkillCtx x => Sys2Proof.Machine.execRkillCtx x s
  | .frzRgn x => Sys2Proof.Machine.execFrzRgn x s
  | .frzRd x => Sys2Proof.Machine.execFrzRd x s
  | .hpostHead x => Sys2Proof.Machine.execHpostHead x s
  | .hpostDone x => Sys2Proof.Machine.execHpostDone x s
  | .hpollTail x => Sys2Proof.Machine.execHpollTail x s
  | .hpollHead x => Sys2Proof.Machine.execHpollHead x s
  | .hpollDone x => Sys2Proof.Machine.execHpollDone x s
  | .hpollWait x => Sys2Proof.Machine.execHpollWait x s
  | .lkrotRot x => Sys2Proof.Machine.execLkrotRot x s
  | .lkrotSt x => Sys2Proof.Machine.execLkrotSt x s
  | .ngloadLoad req => Sys2Proof.Machine.execNgloadLoad req s
  | .tenantCreate req => Sys2Proof.Machine.execTenantCreate req s
  | .placerDecision die => Sys2Proof.Machine.execPlacerDecision die s
  | .placerAging die => Sys2Proof.Machine.execPlacerAging die s
  | .preemptionRequest req => Sys2Proof.Machine.execPreemptionRequest req s
  | .abandonedTile cell pool tile => Sys2Proof.Machine.execAbandonedTile cell pool tile s
  | .stallWatchdog region => Sys2Proof.Machine.execStallWatchdog region s
  | .stageGovernor cell slot => Sys2Proof.Machine.execStageGovernor cell slot s
  | .barrierRelease inst => Sys2Proof.Machine.execBarrierRelease inst s
  | .reductionResult red => Sys2Proof.Machine.execReductionResult red s
  | .walkComplete die column walk => Sys2Proof.Machine.execWalkComplete die column walk s
  | .keySlotEmpty slot => Sys2Proof.Machine.execKeySlotEmpty slot s
  | .thaw region => Sys2Proof.Machine.execThaw region s
  | .scrub region => Sys2Proof.Machine.execScrub region s
  | .copyTokenRefill region cell => Sys2Proof.Machine.execCopyTokenRefill region cell s
  | .waleGroupReceive grp => Sys2Proof.Machine.execWaleGroupReceive grp s
  | .waleResendTimeout link => Sys2Proof.Machine.execWaleResendTimeout link s
  | .waleRetrainComplete link => Sys2Proof.Machine.execWaleRetrainComplete link s
  | .waleDownTimeout link => Sys2Proof.Machine.execWaleDownTimeout link s
  | .rotationKeyInstall link => Sys2Proof.Machine.execRotationKeyInstall link s
  | .rotationSwitch link => Sys2Proof.Machine.execRotationSwitch link s
  | .rotationRetire link => Sys2Proof.Machine.execRotationRetire link s
  | .notifyWrite vf addr req => Sys2Proof.Machine.execNotifyWrite vf addr req s
  | .channelUnmap vf chan => Sys2Proof.Machine.execChannelUnmap vf chan s
  | .channelMap req => Sys2Proof.Machine.execChannelMap req s
  | .hostRequest req => Sys2Proof.Machine.execHostRequest req s
  | .spdmRequest req => Sys2Proof.Machine.execSpdmRequest req s
  | .moduleReset boot => Sys2Proof.Machine.execModuleReset boot s
  | .imageCommit req => Sys2Proof.Machine.execImageCommit req s
  | .powerSample milliwatts milliamps => Sys2Proof.Machine.execPowerSample milliwatts milliamps s
  | .routerPowerGate die pos => Sys2Proof.Machine.execRouterPowerGate die pos s
  | .routerWake die pos => Sys2Proof.Machine.execRouterWake die pos s
  | .vaultTemperature vault celsius => Sys2Proof.Machine.execVaultTemperature vault celsius s
  | .tenantTeardown region => Sys2Proof.Machine.execTenantTeardown region s
  | .isolationPartitionConfigure req => Sys2Proof.Machine.execIsolationPartitionConfigure req s
  | .fetchQueueFill => Sys2Proof.Machine.execFetchQueueFill s
  | .dispatch => Sys2Proof.Machine.execDispatch s
  | .readyRecordArrival => Sys2Proof.Machine.execReadyRecordArrival s
  | .budget => Sys2Proof.Machine.execBudget s
  | .budgetHardLimit => Sys2Proof.Machine.execBudgetHardLimit s
  | .trapEntry => Sys2Proof.Machine.execTrapEntry s
  | .asynchronousTrap => Sys2Proof.Machine.execAsynchronousTrap s
  | .supervisorRunCap => Sys2Proof.Machine.execSupervisorRunCap s
  | .handlerRun => Sys2Proof.Machine.execHandlerRun s
  | .handlerCap => Sys2Proof.Machine.execHandlerCap s
  | .tileOpStart => Sys2Proof.Machine.execTileOpStart s
  | .tileOpRetire => Sys2Proof.Machine.execTileOpRetire s
  | .copyStart => Sys2Proof.Machine.execCopyStart s
  | .copyChunkArrival => Sys2Proof.Machine.execCopyChunkArrival s
  | .copyAcknowledgement => Sys2Proof.Machine.execCopyAcknowledgement s
  | .copyRetire => Sys2Proof.Machine.execCopyRetire s
  | .tallocRequestArrival => Sys2Proof.Machine.execTallocRequestArrival s
  | .tallocCancel => Sys2Proof.Machine.execTallocCancel s
  | .grantReplyArrival => Sys2Proof.Machine.execGrantReplyArrival s
  | .handleOperationArrival => Sys2Proof.Machine.execHandleOperationArrival s
  | .jdecArrival => Sys2Proof.Machine.execJdecArrival s
  | .fresArrival => Sys2Proof.Machine.execFresArrival s
  | .fregArrival => Sys2Proof.Machine.execFregArrival s
  | .ownerReplyArrival => Sys2Proof.Machine.execOwnerReplyArrival s
  | .messageArrival => Sys2Proof.Machine.execMessageArrival s
  | .returnedMessageArrival => Sys2Proof.Machine.execReturnedMessageArrival s
  | .messageInjection => Sys2Proof.Machine.execMessageInjection s
  | .atomicResultArrival => Sys2Proof.Machine.execAtomicResultArrival s
  | .peerAccessArrival => Sys2Proof.Machine.execPeerAccessArrival s
  | .peerAbsentReturn => Sys2Proof.Machine.execPeerAbsentReturn s
  | .offerArrival => Sys2Proof.Machine.execOfferArrival s
  | .decide => Sys2Proof.Machine.execDecide s
  | .fifoItemArrival => Sys2Proof.Machine.execFifoItemArrival s
  | .hubCancelArrival => Sys2Proof.Machine.execHubCancelArrival s
  | .portCompletionArrival => Sys2Proof.Machine.execPortCompletionArrival s
  | .reductionCombine => Sys2Proof.Machine.execReductionCombine s
  | .reductionPartialArrival => Sys2Proof.Machine.execReductionPartialArrival s
  | .scAnnouncementArrival => Sys2Proof.Machine.execScAnnouncementArrival s
  | .windowClose => Sys2Proof.Machine.execWindowClose s
  | .stationRequest => Sys2Proof.Machine.execStationRequest s
  | .ringEntryFreed => Sys2Proof.Machine.execRingEntryFreed s
  | .writePerformedAtHome => Sys2Proof.Machine.execWritePerformedAtHome s
  | .loadValueReturned => Sys2Proof.Machine.execLoadValueReturned s
  | .pbindRequestArrival => Sys2Proof.Machine.execPbindRequestArrival s
  | .epmovTargetArrival => Sys2Proof.Machine.execEpmovTargetArrival s

end Sys2Proof.Machine
end

