-- ==== Sys2Proof/Machine/Issue.lean ====
section
/-! DEFINITION. The issue turn of a context: fetching a line and its checks (R25 to R32, R45, R46), the decoded
instruction or pair, and the traps that come before them (R272, R361); the line that holds one given instruction. -/
namespace Sys2Proof.Machine

/-- The line a context executes from: the one in its fetch queue, else fetched now (R29). -/
def State.lineFor (s : State) (c i : Nat) : Option Nat :=
  let x := s.ctxAt c i
  match Assoc.get? (lineOf x.pc) x.fetchq with
  | some v => some v
  | none => s.fetchLine (s.ctxRegion c i) c x.pc

/-- The state with the current line in the context's fetch queue: only lines from the PC's on are kept, at most four
(R29). -/
def State.keepLine (s : State) (c i v : Nat) : State :=
  s.modCtx c i fun x =>
    { x with fetchq := (Assoc.put (lineOf x.pc) v (x.fetchq.filter fun e => lineOf x.pc ≤ e.1)).take 4 }

/-- The trap of a line that may not issue at a PC: a machine check, or an illegal line (R45, R46). -/
def lineTrap (pc : Word) (v : Nat) : Option TrapInfo :=
  let l := Line.ofNat v
  if syndrome v ≠ 0 then
    some { cause := 48, val := word (lineOf pc), info := word (syndrome v * 2 ^ 32 + l.lineWord) }
  else if !l.legal then some { cause := 24, val := word (lineOf pc), info := word l.lineWord }
  else none

/-- The trap of an instruction word that is no instruction (R45). -/
def illegalWord (w : Nat) : TrapInfo := { cause := 2, val := word (w / 2 ^ 32), info := word (w % 2 ^ 32) }

/-- One instruction word issued by the context that `cur` names: the decoded instruction, or illegal instruction. -/
def issueWord (w : Nat) (s : State) : Host.Outcome State Fault Refusal :=
  match decode w with
  | .ok i => exec i s
  | .error _ => .next (s.takeTrap s.cur.cell s.cur.ctx (illegalWord w))

/-- Whether a context, having issued an instruction at a PC, stands ready at the next slot, so that the second of a
pair issues (R32). -/
def Ctx.movedOn (x : Ctx) (pc : Word) : Bool := x.canIssue && !x.stalled && x.pc == pcNext pc

/-- A pair: the two instructions in slot order, in one step; the pair waits as a whole while either must (R32). -/
def issuePair (w1 w2 : Nat) (s : State) : Host.Outcome State Fault Refusal :=
  let pc := s.me.pc
  match issueWord w1 s with
  | .next t =>
    if t.me.movedOn pc then
      match issueWord w2 t with
      | .next u => if u.me.stalled then .next (s.modMe fun x => { x with stalled := true }) else .next u
      | o => o
    else .next t
  | o => o

/-- The instruction or pair at the PC of the context that `cur` names, in a line that passes its checks; at a breakpoint that the
debugger goes on from, the instruction that stood there (R404). -/
def issueSlot (v : Nat) (s : State) : Host.Outcome State Fault Refusal :=
  let l := Line.ofNat v
  let k := slotOf s.me.pc
  match s.steppedWord with
  | some w =>
    match issueWord w s with
    | .next t => .next (t.stepped s.cur.cell s.cur.ctx)
    | o => o
  | none => if l.pair k then issuePair (l.slot k) (l.slot (k + 1)) s else issueWord (l.slot k) s

/-- What an issue turn makes of an instruction's or a pair's outcome: one that has issued costs its tenant one issue slot (R271; log
entry 44). -/
def issueCharged (c i tenant : Nat) (o : Host.Outcome State Fault Refusal) : Host.Outcome State Fault Refusal :=
  match o with
  | .next t => .next (if (t.ctxAt c i).stalled then t else t.chargeTo c tenant .issue 1)
  | o => o

/-- The issue turn of a context (R46): a pending asynchronous trap first (R361), then a budget trap (R272), then the
fetch with its access check, the line's checks, and the instruction. -/
def issueTurn (c i : Nat) (s : State) : Host.Outcome State Fault Refusal :=
  let s := { s with cur := { cell := c, ctx := i, k := 0 } }
  let x := s.me
  if !x.canIssue || 10 ≤ i then .next s
  else if x.asyncs ≠ [] then exec .asynchronousTrap s
  else if s.budgetDue c i then exec .budget s
  else
    match s.lineFor c i with
    | none => .next (s.takeTrap c i { cause := 1, val := x.pc, info := 0 })
    | some v =>
      let s := s.keepLine c i v
      match lineTrap x.pc v with
      | some t => .next (s.takeTrap c i t)
      | none => issueCharged c i (s.tenantOf (s.ctxRegion c i)) (issueSlot v s)

/-- A line that holds one instruction word in slot 0 and fillers behind it, every slot a target, sealed with its
parity (R25 to R27, R47). -/
def lineOfWord (w : Nat) : Nat :=
  (Line.sealed { slots := [w, fillerWord, fillerWord, fillerWord, fillerWord], lineWord := 31 * 2 ^ 19 }).toNat

end Sys2Proof.Machine
end

