-- ==== Sys2Proof/Machine/Turns.lean ====
section
/-! DEFINITION. Whose turn it is (log entry 1): the turns that the state offers when the agenda names none, the effect of
a turn, the time that passes (R48), and the state in which the next step fetches a given instruction. -/
namespace Sys2Proof.Machine

/-- The events that may end a flight (R20). -/
def flightEvents (f : Flight) : List Instr :=
  match f.pay with
  | .stationReq _ => [.stationRequest]
  | .glb _ | .value _ _ => [.loadValueReturned, .writePerformedAtHome]
  | .peer _ => [.peerAccessArrival, .writePerformedAtHome]
  | .peerAbsent _ => [.peerAbsentReturn]
  | .atomicReq _ | .message _ => [.messageArrival]
  | .atomicResult _ _ => [.atomicResultArrival]
  | .ready _ _ | .place _ => [.readyRecordArrival]
  | .owner r => match r.kind with
    | .jdec _ => [.jdecArrival]
    | .fres _ _ => [.fresArrival]
    | .freg _ => [.fregArrival]
  | .ownerReply _ _ _ => [.ownerReplyArrival]
  | .talloc _ _ _ _ => [.tallocRequestArrival]
  | .tallocCancel _ _ _ _ _ _ _ => [.tallocCancel]
  | .grant _ _ _ _ => [.grantReplyArrival]
  | .handleOp _ _ _ _ _ _ _ => [.handleOperationArrival]
  | .returned _ _ => [.returnedMessageArrival]
  | .offer _ _ _ _ _ => [.offerArrival]
  | .hubCancel _ _ _ _ _ => [.hubCancelArrival]
  | .portDone _ _ _ _ => [.portCompletionArrival]
  | .fifoItem _ _ _ _ _ _ _ _ _ => [.fifoItemArrival]
  | .chunk _ => [.copyChunkArrival]
  | .chunkAck _ _ _ _ _ _ _ => [.copyAcknowledgement]
  | .contribution _ _ _ => [.reductionCombine]
  | .partialSum _ => [.reductionPartialArrival]
  | .announce _ _ _ _ => [.scAnnouncementArrival]
  | .pbind _ _ _ _ _ _ _ | .pbindAnswer _ _ _ _ _ _ _ _ | .unbind _ _ _ _ _ => [.pbindRequestArrival]
  | .epmov _ _ _ _ _ _ _ => [.epmovTargetArrival]

/-- The event turns of one cell. -/
def cellEvents (c : Nat) (x : Cell) : List Turn :=
  let at_ : Cur := { cell := c, ctx := 0, k := 0 }
  ([Instr.dispatch, .trapEntry, .supervisorRunCap, .handlerRun, .handlerCap, .tileOpStart, .tileOpRetire, .copyStart,
    .copyRetire, .messageInjection, .decide, .ringEntryFreed]
    ++ x.hub.map (fun h => Instr.stageGovernor c h.1)
    ++ x.pools.flatMap (fun p => p.2.tiles.zipIdx.map fun t => Instr.abandonedTile c p.1 t.2)).map (Turn.event · at_)
  ++ (List.range 10).flatMap fun i =>
    [Instr.fetchQueueFill, .budget, .budgetHardLimit, .asynchronousTrap].map (Turn.event · { at_ with ctx := i })

/-- The event turns of the module's other agents. -/
def State.moduleEvents (s : State) : List Instr :=
  (List.range 4).flatMap (fun d => [Instr.placerDecision d, .placerAging d])
  ++ s.regions.flatMap (fun r => Instr.stallWatchdog r.1 :: s.cells.map fun x => Instr.copyTokenRefill r.1 x.1)
  ++ s.bars.map (fun b => Instr.barrierRelease b.1)
  ++ s.reds.map (fun r => Instr.reductionResult r.1)
  ++ (s.regions.filter fun r => r.2.dying && r.2.parent == 0).map (fun r => Instr.tenantTeardown r.1)
  ++ s.stations.flatMap (fun x =>
    (List.range x.2.walks.length).map fun w => Instr.walkComplete (x.1 / 16) (x.1 % 16) w)
  ++ (s.chans.filter fun x => x.2.st == .closing).map (fun x => Instr.channelUnmap (x.1 / 256) (x.1 % 256))
  ++ [.windowClose]
  ++ s.keys.map (fun k => Instr.keySlotEmpty k.1)
  ++ s.links.flatMap (fun l => [Instr.waleResendTimeout l.1, .waleRetrainComplete l.1, .waleDownTimeout l.1,
      .rotationSwitch l.1, .rotationRetire l.1])
  ++ (s.links.filter fun l => l.2.rotTx == some 0).map (fun l => Instr.rotationKeyInstall l.1)

/-- The turns that the state offers: the contexts that can issue and the events of the module's own agents; an event
that is not due leaves the state as it is. What comes from outside the module is never among them. -/
def State.enabled (s : State) : List Turn :=
  s.cells.flatMap (fun x => (List.range 10).filterMap fun i =>
    if (x.2.ctx i).canIssue then some (Turn.issue x.1 i) else none)
  ++ s.cells.flatMap (fun x => cellEvents x.1 x.2)
  ++ s.net.zipIdx.flatMap (fun f => (flightEvents f.1).map (Turn.event · { cell := 0, ctx := 0, k := f.2 }))
  ++ s.moduleEvents.map (Turn.event · { cell := 0, ctx := 0, k := 0 })
  ++ s.routers.map (fun r => Turn.event .reductionCombine { cell := r.router, ctx := r.number, k := s.net.length })
  ++ s.loads.zipIdx.map (fun q => Turn.event (.ngloadLoad q.1.req) { cell := 0, ctx := 0, k := q.2 + 1 })

/-- Time passes (R48): one cycle and a free number more. -/
def State.elapse (s : State) : State := { s with clock := s.clock + 1 + Config.delay s.fresh, fresh := s.fresh + 1 }

/-- The next turn and the state without it: the agenda's head, else one of the offered turns by a free choice, else the
passing of time. -/
def State.nextTurn (s : State) : Turn × State :=
  match s.agenda with
  | t :: ts => (t, { s with agenda := ts })
  | [] =>
    match s.enabled with
    | [] => (.tick 1, s)
    | t :: ts => ((t :: ts).getD (Config.choose s.fresh % (ts.length + 1)) t, s)

/-- The effect of a turn. -/
def State.turn (s : State) : Turn → Host.Outcome State Fault Refusal
  | .issue c i => issueTurn c i s
  | .event i at_ => exec i { s with cur := at_ }
  | .start c r region => .next (((s.countSent region c).pushRecord c (s.tenantOf region) { r with head := mkHead region 0 0 (headType r.head) }))
  | .plant c pc code => .next (s.plantBreak c pc code)
  | .pull c pc => .next (s.pullBreak c pc)
  | .cont c => .next (s.contBreak c)
  | .softError u => .next { s with poison := (u :: s.poison.filter (· ≠ u)) }
  | .tick n => .next { s with clock := s.clock + n }

/-- The region in which a placed instruction runs: the first tenant, with the whole of cell 0. -/
def placedRegion : Region where
  parent := 0
  tenant := 1
  depth := 0
  priority := 0
  weight := 1
  budgetCap := 2 ^ 48 - 1
  ext := 0
  poolQuota := 0
  hubQuota := 16
  partition := 0
  keySlot := 0
  asid := 1
  fhType := 65535
  tokRate := 0x10000
  tokDepth := 0x10000
  spillBudget := 0
  h0 := 1024
  aging := 1024
  grants := [{ cell := 0, alo := 0, ahi := 64, llo := 0, lhi := 0x180000, flo := 0x100000, fhi := 0x180000,
               vlo := 0, vsp := 0x3000, vhi := 0x3f00 }]
  exec := [(0, 0x20)]
  placed := []
  sup := 65535
  vf := 0
  parked := false
  parking := []
  frozen := false
  dying := false
  asids := []
  h := 1024
  quiet := 0
  activity := false
  sampledAt := 0
  spillUsed := 0
  tokens := []
  refilled := []
  debts := []
  sent := []
  retired := []
  wave := none

/-- The task that runs a placed instruction in context 0 of cell 0. -/
def placedTask : Task where
  ptr := word (2 ^ 14)
  ty := 0
  region := 1
  tenant := 1
  record := { head := mkHead 1 0 0 0, reply := 0, args := List.replicate 8 0 }
  rank := 0
  cluster := none
  cw := 1
  ch := 1
  ports := 16
  ncells := 1
  frameLo := 0x17ff00
  frameHi := 0x180000
  start := 0
  budget := 2 ^ 40
  ext := 0
  extended := false
  stopped := 0
  frozenAt := none
  signals := 0
  lastSig := 0

/-- The PC of a placed instruction. -/
def placedPc : Nat := 0x200000

/-- A context of a state as dispatch would leave it (R71), with the whole register file and the PC at the placed
instruction. -/
def placedCtx (x : Ctx) (clock : Nat) : Ctx :=
  { x with
    st := .running, stalled := false, frozen := none, freezeTrap := none, asyncs := [], fetchq := []
    pc := word placedPc
    allot := { sbase := 0, scount := 64, vbase := 0, vcount := 32 }
    task := some { placedTask with start := clock } }

/-- The state with the line of an instruction word stored at the placed PC, in a code unit of a region that runs on
context 0 of cell 0, whose turn is next (log entry 13). -/
def State.placed (s : State) (w : Nat) : State :=
  let s := { s with
    agenda := [.issue 0 0]
    regions := Assoc.put 1 placedRegion s.regions
    mem := Memory.writeAll (vltA 0 placedPc) (leBytes 64 (lineOfWord w)) s.mem }
  s.modCtx 0 0 fun x => placedCtx x s.clock

end Sys2Proof.Machine
end

