-- ==== Sys2Proof/Machine/Step.lean ====
section
/-! DEFINITION. One step of the machine: the next turn has its effect and time passes; and the state whose next step
fetches and runs a given instruction. -/
namespace Sys2Proof.Machine

/-- One step: the next turn's effect, then the time it takes. -/
def step (s : State) : Host.Outcome State Fault Refusal :=
  match s.nextTurn.2.turn s.nextTurn.1 with
  | .next t => .next t.elapse
  | .fault r => .fault r
  | .refused r => .refused r

/-- The state with an instruction of nbits bits stored where the next step fetches: slot 0 of a code line of cell 0,
with context 0's turn next (log entry 13). -/
def State.withFetchWord (s : State) (nbits w : Nat) : State := s.placed (w % 2 ^ (min nbits 96))

end Sys2Proof.Machine
end

