-- ==== Sys2Proof/Safety.lean ====
section
/-! DEFINITION. The terms in which claims speak: safe steps, the instructions ready to have their effect, what an
instruction leaves alone. -/
namespace Sys2Proof
open Machine

/-- A step is safe when it ends in a next state. -/
def SafeStep (s : State) : Prop := ∃ t, step s = .next t

/-- A run of n steps is safe when none of them stops. -/
def SafeRun : Nat → State → Prop
  | 0, _ => True
  | n + 1, s => ∃ t, step s = .next t ∧ SafeRun n t

end Sys2Proof

namespace Sys2Proof.Machine

/-! ### An instruction that comes to its own effect -/

/-- Whether an operand of an instruction that holds state is pending in the executing context (R12, R73). -/
def waitsForOperand (i : Instr) (s : State) : Bool :=
  (operandsOf i).any fun k => !constOperand k && (s.pending s.cur.cell s.cur.ctx).contains k

/-- The first operand of an instruction beyond the executing context's register counts (R35). -/
def beyondAllotment (i : Instr) (s : State) : Option Nat :=
  (operandsOf i).find? (beyond (s.me.counts s.cur.ctx))

/-- Whether the executing context can issue (R356, R371): it is one of the ten, runs, and is not frozen. -/
def issuing (s : State) : Bool := s.cur.ctx < 10 && s.me.canIssue

/-- Whether the instruction i, under the guard g, comes to its own effect (R34, R35, R73): the context can issue, the guard is
true, every operand is allotted and none is pending. -/
def ready (i : Instr) (g : Guard) (s : State) : Bool :=
  issuing s && s.me.guard g && (beyondAllotment i s).isNone && !waitsForOperand i s

/-- The executing context goes on to the next slot with its registers as given; nothing else in the machine changes. -/
def State.goesOn (s : State) (y : Ctx) : State := s.modMe fun _ => y.retire

/-- The instruction, when ready, only changes its own context, to the one given, and goes on to the next slot. -/
def Computes (i : Instr) (g : Guard) (s : State) (y : Ctx) : Prop :=
  ready i g s = true → exec i s = .next (s.goesOn y)

/-- The instruction, when ready, ends in the state given. -/
def Becomes (i : Instr) (g : Guard) (s t : State) : Prop := ready i g s = true → exec i s = .next t

/-- The instruction, when ready, leaves the machine as given but for its own context, which gets the value and goes on. -/
def Writes (i : Instr) (g : Guard) (s t : State) (d : SReg) (v : Word) : Prop :=
  Becomes i g s (t.modMe fun y => (y.ws d v).retire)

/-- The instruction, when ready, takes the trap. -/
def Traps (i : Instr) (g : Guard) (s : State) (t : TrapInfo) : Prop := Becomes i g s (s.takeTrap s.cur.cell s.cur.ctx t)

/-- The instruction, when ready, has no effect yet: its context stalls. -/
def Stalls (i : Instr) (g : Guard) (s : State) : Prop := Becomes i g s (s.modMe fun y => { y with stalled := true })

/-- The executing context waits for an answer. -/
def State.holds (s : State) (w : Wait) : State := s.modMe fun y => { y with st := .waiting w, stalled := false }

/-- Whether a write of the value to the scalar would put the stack pointer below the stack limit (R76). -/
def belowLimit (s : State) (d : SReg) (v : Word) : Bool := d.val = 2 && v.toNat < s.me.xsl.toNat % 2 ^ 21

/-- The instruction of the register chapter, when ready, writes the scalar with the value and the flags and goes on; a value
that would put s2 below the stack limit is a trap of cause 27, and nothing is written (R76). -/
def WritesScalar (i : Instr) (g : Guard) (s : State) (d : SReg) (v : Word) : Prop :=
  ready i g s = true →
    (belowLimit s d v = false → exec i s = .next (s.goesOn (s.me.ws d v)))
      ∧ (belowLimit s d v = true → exec i s = .next (s.takeTrap s.cur.cell s.cur.ctx { cause := 27, val := v, info := 0 }))

/-- The same with sticky flags. -/
def WritesFlagged (i : Instr) (g : Guard) (s : State) (d : SReg) (v : Word) (f : Nat) : Prop :=
  ready i g s = true →
    (belowLimit s d v = false → exec i s = .next (s.goesOn ((s.me.ws d v).addFlags f)))
      ∧ (belowLimit s d v = true → exec i s = .next (s.takeTrap s.cur.cell s.cur.ctx { cause := 27, val := v, info := 0 }))

end Sys2Proof.Machine
end

