-- ==== Sys2Proof/Certificates/Slice0/Obligations.lean ====
section
/-! DEFINITION. The statements for the provers: what the spec's rules say of decoding, of each instruction and of each event of
the machine's other agents, what they leave alone, and what every step keeps. -/
section
open Sys2Proof Machine

/-! ### The register chapter -/

/-- The values of the two-operand integer instructions (R81), each with the exact integer that its row of the table gives, from
the two operand values and the shift count. -/
def Sys2Proof.integerRows (x : ArgInt) (w : Nat) (a b : Int) (k : Nat) : List (Instr × Int) :=
  [(.add x, a + b), (.sub x, a - b), (.mul x, a * b), (.mulh x, a * b / 2 ^ w), (.mulhu x, a * b / 2 ^ w),
   (.div x, if b = 0 then -1 else a.tdiv b), (.divu x, if b = 0 then 2 ^ w - 1 else a.tdiv b),
   (.rem x, if b = 0 then a else a - b * a.tdiv b), (.remu x, if b = 0 then a else a - b * a.tdiv b),
   (.and x, (bitsOf w a &&& bitsOf w b : Nat)), (.or x, (bitsOf w a ||| bitsOf w b : Nat)),
   (.xor x, (bitsOf w a ^^^ bitsOf w b : Nat)), (.andn x, (bitsOf w a &&& bitsOf w (-b - 1) : Nat)),
   (.shl x, a * 2 ^ k), (.shr x, (bitsOf w a / 2 ^ k : Nat)), (.sar x, asInt w (bitsOf w a) / 2 ^ k),
   (.rol x, (bitsOf w a * 2 ^ k + bitsOf w a / 2 ^ (w - k) : Nat)),
   (.min x, if b < a then b else a), (.max x, if a < b then b else a),
   (.minu x, if b < a then b else a), (.maxu x, if a < b then b else a)]

/-- R81: a ready two-operand integer instruction writes its destination with the exact result, clamped and with the saturation
flag where it saturates, else taken modulo 2^w, extended by the signedness of the type; it goes on to the next slot, and a
result that would put s2 below the stack limit is a stack-limit trap (R76). It rests on readings of the model (log entry 17). -/
def Obligations.IntegerInstructionsWriteTheirResult : Prop :=
  ∀ (x : ArgInt) (s : State),
    ∀ p ∈ integerRows x (tyBits x.ty) (valOf (tyBits x.ty) (tySigned x.ty) (s.me.rs x.a))
        (valOf (tyBits x.ty) (tySigned x.ty) (s.me.srcB x.b)) ((s.me.srcB x.b).toNat % tyBits x.ty),
      (x.sat = false → WritesScalar p.1 x.g s x.d (ext64 (tyBits x.ty) (tySigned x.ty) p.2))
        ∧ (x.sat = true → WritesFlagged p.1 x.g s x.d
            (ext64 (tyBits x.ty) (tySigned x.ty) (clampTo (tyBits x.ty) (tySigned x.ty) p.2).1)
            (if (clampTo (tyBits x.ty) (tySigned x.ty) p.2).2 then flSat else 0))

/-- R82 to R86, R88, R92: the other instructions of the register chapter that write a scalar. -/
def Sys2Proof.ScalarWritersWriteTheirResult : Prop :=
  (∀ (x : ArgTDA) (s : State),
    WritesScalar (.clz x) x.g s x.d (word (leading ((s.me.rs x.a).toNat % 2 ^ tyBits x.ty) (tyBits x.ty)))
      ∧ WritesScalar (.ctz x) x.g s x.d (word (trailing ((s.me.rs x.a).toNat % 2 ^ tyBits x.ty) (tyBits x.ty) 0))
      ∧ WritesScalar (.popc x) x.g s x.d (word (ones ((s.me.rs x.a).toNat % 2 ^ tyBits x.ty) (tyBits x.ty))))
  ∧ (∀ (x : ArgBext) (s : State), WritesScalar (.bext x) x.g s x.d
      (ext64 x.len.toNat (tySigned x.ty)
        ((s.me.rs x.a).toNat / 2 ^ ((s.me.srcB x.pos).toNat % 64) % 2 ^ x.len.toNat : Nat)))
  ∧ (∀ (x : ArgBins) (s : State),
      let m : Word := word ((2 ^ x.len.toNat - 1) * 2 ^ ((s.me.srcB x.pos).toNat % 64))
      WritesScalar (.bins x) x.g s x.d
        ((s.me.rs x.a &&& ~~~m) ||| ((s.me.rs x.c <<< ((s.me.srcB x.pos).toNat % 64)) &&& m)))
  ∧ (∀ (x : ArgLea) (s : State), WritesScalar (.lea x) x.g s x.d
      (s.me.rs x.addr.base + (s.me.rs x.addr.index <<< x.addr.scale.val) + x.addr.disp.signExtend 64))
  ∧ (∀ (x : ArgLi) (s : State), WritesScalar (.li x) x.g s x.d
      (if x.ty = .i64 then x.imm.signExtend 64 else x.imm.zeroExtend 64))
  ∧ (∀ (x : ArgMov) (d : SReg) (s : State), x.dst = .reg d → WritesScalar (.mov x) x.g s d
      (match x.src with | .reg r => s.me.rs r | .special k => s.special k))
  ∧ (∀ (x : ArgMov) (s : State), x.dst = .fcsr → Computes (.mov x) x.g s
      { s.me with fcsr := (match x.src with | .reg r => s.me.rs r | .special k => s.special k) &&& fcsrMask })
  ∧ (∀ (x : ArgSel) (s : State), WritesScalar (.sel x) x.g s x.d (if s.me.rp x.p then s.me.rs x.a else s.me.srcB x.b))
  ∧ (∀ (x : ArgD) (s : State), WritesScalar (.ppack x) x.g s x.d
      (word ((List.range 8).map fun k => if s.me.rp (Fin.ofNat 8 k) then 2 ^ k else 0).sum))
  ∧ (∀ (x : ArgRdsr) (s : State), (x.n.sup = true → s.cur.ctx = 9) → WritesScalar (.rdsr x) x.g s x.d (s.sysReg x.n))

/-- R87, R88: the instructions that write predicates; a write to p0 is discarded. -/
def Sys2Proof.PredicateWritersWriteTheirResult : Prop :=
  (∀ (x : ArgCmp) (s : State),
    let a := valOf (tyBits x.ty) (tySigned x.ty) (s.me.rs x.a)
    let b := valOf (tyBits x.ty) (tySigned x.ty) (s.me.srcB x.b)
    Computes (.cmp x) x.g s (s.me.wp x.pd (match x.cond with
      | .eq => a == b | .ne => a != b | .lt => decide (a < b) | .le => decide (a ≤ b) | .gt => decide (b < a)
      | .ge => decide (b ≤ a) | .tst => bitsOf (tyBits x.ty) a &&& bitsOf (tyBits x.ty) b != 0
      | .tstn => bitsOf (tyBits x.ty) a &&& bitsOf (tyBits x.ty) b == 0)))
  ∧ (∀ (x : ArgP3) (s : State),
      Computes (.pand x) x.g s (s.me.wp x.d (s.me.rp x.a && s.me.rp x.b))
        ∧ Computes (.por x) x.g s (s.me.wp x.d (s.me.rp x.a || s.me.rp x.b))
        ∧ Computes (.pxor x) x.g s (s.me.wp x.d (s.me.rp x.a != s.me.rp x.b)))
  ∧ (∀ (x : ArgP2) (s : State), Computes (.pnot x) x.g s (s.me.wp x.d (!s.me.rp x.a)))
  ∧ (∀ (x : ArgPunpk) (s : State), ready (.punpk x) x.g s = true →
      ∃ y : Ctx, exec (.punpk x) s = .next (s.goesOn y) ∧ y = { s.me with p := y.p }
        ∧ ∀ r : PReg, y.rp r = if r.val = 0 then true
            else if bit x.mask.toNat r.val then bit (s.me.rs x.a).toNat r.val else s.me.rp r)
  ∧ (∀ (x : Ctx) (v : Bool), (x.wp 0 v) = x ∧ x.rp 0 = true)

/-- R82 to R88, R92: the other instructions of the register chapter that write a scalar or a predicate. -/
def Obligations.ScalarAndPredicateWritersWriteTheirResult : Prop :=
  ScalarWritersWriteTheirResult ∧ PredicateWritersWriteTheirResult

/-- R89, R90: a taken branch goes to its target, with the registers that it writes, when the target passes the checks of R30; a
`br` or `loop` that is not taken falls through. -/
def Sys2Proof.BranchesGoToTheirTarget : Prop :=
  ∀ s : State,
    let ok (pc : Word) : Bool := (s.checkTarget (s.ctxRegion s.cur.cell s.cur.ctx) s.cur.cell pc).isNone
    let after (y : Ctx) (pc : Word) : State := s.modMe fun _ => y.jump pc
    let at_ (t : Target) : Word := word (lineOf s.me.pc) + t.loff.signExtend 64 * 64 + word (12 * t.slot.val)
    (∀ x : ArgBr,
      ((s.me.rs x.a == 0) = x.z → ok (at_ x.t) = true → Becomes (.br x) x.g s (after s.me (at_ x.t)))
        ∧ ((s.me.rs x.a == 0) ≠ x.z → Computes (.br x) x.g s s.me))
    ∧ (∀ x : ArgT, ok (at_ x.t) = true →
        Becomes (.jmp x) x.g s (after s.me (at_ x.t)) ∧ Becomes (.call x) x.g s (after (s.me.ws 1 (pcNext s.me.pc)) (at_ x.t)))
    ∧ (∀ x : ArgLoop,
        (s.me.rs x.a - 1 ≠ 0 → belowLimit s x.a (s.me.rs x.a - 1) = false → ok (at_ x.t) = true →
          Becomes (.loop x) x.g s (after (s.me.ws x.a (s.me.rs x.a - 1)) (at_ x.t)))
        ∧ (s.me.rs x.a - 1 = 0 → belowLimit s x.a 0 = false → Computes (.loop x) x.g s (s.me.ws x.a 0)))
    ∧ (∀ x : ArgA, ok (s.me.rs x.a) = true →
        Becomes (.jr x) x.g s (after s.me (s.me.rs x.a)) ∧ Becomes (.ret x) x.g s (after s.me (s.me.rs x.a))
          ∧ Becomes (.callr x) x.g s (after (s.me.ws 1 (pcNext s.me.pc)) (s.me.rs x.a)))

/-- R30, R89: a taken branch whose target is misaligned, outside an execute unit, or no target by the line's mask takes the
trap of R30 at the branch, and writes neither s1 nor the loop count. -/
def Sys2Proof.BadTargetTrapsAndWritesNothing : Prop :=
  ∀ (s : State) (t : TrapInfo),
    let bad (pc : Word) : Prop := s.checkTarget (s.ctxRegion s.cur.cell s.cur.ctx) s.cur.cell pc = some t
    let trapped : State := s.takeTrap s.cur.cell s.cur.ctx t
    (∀ x : ArgT, bad (targetPc s.me.pc x.t) → Becomes (.jmp x) x.g s trapped ∧ Becomes (.call x) x.g s trapped)
    ∧ (∀ x : ArgBr, (s.me.rs x.a == 0) = x.z → bad (targetPc s.me.pc x.t) → Becomes (.br x) x.g s trapped)
    ∧ (∀ x : ArgLoop, s.me.rs x.a - 1 ≠ 0 → belowLimit s x.a (s.me.rs x.a - 1) = false → bad (targetPc s.me.pc x.t) →
        Becomes (.loop x) x.g s trapped)
    ∧ (∀ x : ArgA, bad (s.me.rs x.a) →
        Becomes (.jr x) x.g s trapped ∧ Becomes (.ret x) x.g s trapped ∧ Becomes (.callr x) x.g s trapped)
    ∧ (slotAligned (s.me.pc + 1) = false → s.checkTarget 0 0 (s.me.pc + 1) = some { cause := 0, val := s.me.pc + 1, info := 0 })

/-- R30, R89, R90: branches, and branches whose target fails its checks. -/
def Obligations.BranchesGoToTheirTargetOrTrap : Prop := BranchesGoToTheirTarget ∧ BadTargetTrapsAndWritesNothing

/-- R92 with R74, R76, R103, R245, R359: `wrsr` writes the writable fields of its register and ignores the reserved ones; the
trap registers are the supervisor's. -/
def Obligations.WrsrWritesItsFieldMap : Prop :=
  ∀ (x : ArgWrsr) (s : State),
    let v := s.me.rs x.a
    (x.n = .fcsr → Computes (.wrsr x) x.g s { s.me with fcsr := v &&& 0x1ff })
    ∧ (x.n = .sptmpl → Computes (.wrsr x) x.g s { s.me with sptmpl := v &&& 0x1ffff8 })
    ∧ (x.n = .xsl → ready (.wrsr x) x.g s = true → ∃ k : Nat,
        exec (.wrsr x) s = .next (s.goesOn { s.me with xsl := word k })
          ∧ (8 ≤ s.cur.ctx → k = v.toNat % 2 ^ 21)
          ∧ (∀ t, s.cur.ctx < 8 → s.me.task = some t →
              k = if v.toNat % 2 ^ 21 < t.frameLo then t.frameLo else if t.frameHi < v.toNat % 2 ^ 21 then t.frameHi
                  else v.toNat % 2 ^ 21))
    ∧ (s.cur.ctx = 9 →
        (x.n = .xepc → Becomes (.wrsr x) x.g s (s.modCell s.cur.cell fun c => { c with xepc := v &&& 0x3fffffff }).retire)
        ∧ (x.n = .xval → Becomes (.wrsr x) x.g s (s.modCell s.cur.cell fun c => { c with xval := v }).retire)
        ∧ (x.n = .xinfo → Becomes (.wrsr x) x.g s (s.modCell s.cur.cell fun c => { c with xinfo := v }).retire)
        ∧ (x.n = .xcause → Becomes (.wrsr x) x.g s (s.modCell s.cur.cell fun c => { c with xcause := v &&& xcauseMask }).retire))

/-- R72, R91, R216, R288: a ready `done` of a context 0..7 ends its task while no load of it is under way: its context is idle
with every register zero and no task, its slots empty, its operation counts going on; memory, the operations under way on every
cell and the cell's other contexts, but for one that waits on a barrier, stay as they are, and its region counts one more task
retired. While a load is under way it stalls. A `done` whose guard is false does nothing, and one of contexts 8 and 9 is an
illegal instruction. -/
def Obligations.DoneEndsTheTask : Prop :=
  ∀ (x : ArgG) (s : State),
    let c := s.cur.cell
    let i := s.cur.ctx
    let loads : Bool := (s.accs c i).any (·.isLoad)
    let ends (t : State) : Prop :=
      t.mem = s.mem
      ∧ (∀ task, s.me.task = some task → t.ctxAt c i = { Ctx.reset with seq := s.me.seq, opSeq := s.me.opSeq }
        ∧ t.regions = (s.countRetired task.region c).regions)
      ∧ (s.me.task = none → t.ctxAt c i = Ctx.reset ∧ t.regions = s.regions)
      ∧ (∀ d, (t.cell d).copyq = (s.cell d).copyq ∧ (t.cell d).tileq = (s.cell d).tileq ∧ (t.cell d).sb = (s.cell d).sb)
      ∧ (∀ d k, (d ≠ c ∨ k ≠ i) → (∀ r key g, (s.ctxAt d k).st ≠ .waiting (.barrier r key g)) → t.ctxAt d k = s.ctxAt d k)
    (i < 8 → loads = false → ready (.done x) x.g s = true → ∃ t, exec (.done x) s = .next t ∧ t = s.endTask c i ∧ ends t)
    ∧ (i < 8 → loads = true → Stalls (.done x) x.g s)
    ∧ (8 ≤ i → Traps (.done x) x.g s (encTrap 2 (.done x)))
    ∧ (issuing s = true → s.me.guard x.g = false → exec (.done x) s = .next (s.goesOn s.me))

/-! ### Scalar floating point and the vector unit -/

/-- R110 to R116: a ready scalar float instruction writes its destination with the exact value rounded once, in the mode that
the instruction or fcsr gives (R100), and sets the sticky flags of that rounding; bits 63..32 of a float result are zero. It
rests on readings of the model (log entries 12, 21). -/
def Obligations.FloatInstructionsWriteTheirResult : Prop :=
  (∀ (x : ArgFAr) (s : State),
    let a := f32Val (s.me.rf x.a)
    let b := f32Val (s.me.srcF x.b)
    let md := s.me.mode x.r
    let puts (i : Instr) (r : Nat × Nat) : Prop := Computes i x.g s ((s.me.ws x.d (word r.1)).addFlags r.2)
    puts (.fadd x) ((sumVal md [a, b]).round 24 md) ∧ puts (.fsub x) ((sumVal md [a, b.negate]).round 24 md)
      ∧ puts (.fmul x) ((a.mul b).round 24 md) ∧ puts (.fdiv x) (div32 md a b)
      ∧ puts (.fmin x) (minmax32 true (s.me.rf x.a) (s.me.srcF x.b))
      ∧ puts (.fmax x) (minmax32 false (s.me.rf x.a) (s.me.srcF x.b)))
  ∧ (∀ (x : ArgFma) (s : State),
      let md := s.me.mode x.r
      let r := (sumVal md [(f32Val (s.me.rf x.a)).mul (f32Val (s.me.srcF x.b)), f32Val (s.me.rf x.c)]).round 24 md
      Computes (.fma x) x.g s ((s.me.ws x.d (word r.1)).addFlags r.2))
  ∧ (∀ (x : ArgFsqrt) (s : State),
      let r := sqrt32 (s.me.mode x.r) (f32Val (s.me.rf x.a))
      Computes (.fsqrt x) x.g s ((s.me.ws x.d (word r.1)).addFlags r.2))
  ∧ (∀ (x : ArgFcmp) (s : State),
      let r := fcond x.cond (s.me.rf x.a) (s.me.srcF x.b)
      Computes (.fcmp x) x.g s ((s.me.wp x.pd r.1).addFlags r.2))
  ∧ (∀ (x : ArgFcvt) (s : State),
      let md := s.me.mode x.r
      (x.fromTy = true →
        let r := (elemVal 0 x.ty (s.me.rs x.a).toNat 0).round 24 md
        Computes (.fcvt x) x.g s ((s.me.ws x.d (word r.1)).addFlags r.2))
      ∧ (x.fromTy = false → x.ty = .bf16 →
        let r := (f32Val (s.me.rf x.a)).round 8 md
        Computes (.fcvt x) x.g s ((s.me.ws x.d (word r.1)).addFlags r.2))
      ∧ (x.fromTy = false → x.ty ≠ .bf16 →
        let r := cvtToInt (tyBits x.ty) (tySigned x.ty) md (f32Val (s.me.rf x.a))
        Computes (.fcvt x) x.g s ((s.me.ws x.d (ext64 (tyBits x.ty) (tySigned x.ty) r.1)).addFlags r.2)))
  ∧ (∀ (x : ArgTDA) (s : State),
      let n := if x.ty = .bf16 then (s.me.rs x.a).toNat % 2 ^ 16 * 2 ^ 16 else s.me.rf x.a
      Computes (.fclass x) x.g s ((s.me.ws x.d (word (2 ^ fclassBit (slice n 23 8) (slice n 0 23) (f32Val n)))).addFlags 0))

/-- The context with a vector written from sixteen lanes, each a pattern with its flags, which stick (R104, R108). -/
def Sys2Proof.withLanes (y : Ctx) (d : VReg) (rs : List (Nat × Nat)) : Ctx := (y.wv d (vecOf 32 (rs.map (·.1)))).addFlags (orFlags rs)

/-- R118: the element-wise instructions work on each lane alone: the float result rounded once, the integer result clamped
with the saturation flag or taken modulo 2^32. It rests on readings of the model (log entries 12, 21). -/
def Obligations.VectorLanesAreIndependent : Prop :=
  (∀ (x : ArgV) (s : State),
    let md := s.me.mode x.r
    let sg := tySigned x.ty
    let lanes (f : Nat → Nat → Nat × Nat) : List (Nat × Nat) := List.zipWith f (lanesOf (s.me.rv x.a)) (lanesOf (s.me.srcV x.b))
    let arith (ff : Nat → Nat → Nat × Nat) (fi : Int → Int → Int) : List (Nat × Nat) := lanes fun p q =>
      if x.ty = .f32 then ff p q else intLane sg x.sat (fi (laneInt sg p) (laneInt sg q))
    let puts (i : Instr) (rs : List (Nat × Nat)) : Prop := Computes i x.g s (withLanes s.me x.d rs)
    puts (.vadd x) (arith (fun p q => (sumVal md [f32Val p, f32Val q]).round 24 md) (· + ·))
      ∧ puts (.vsub x) (arith (fun p q => (sumVal md [f32Val p, (f32Val q).negate]).round 24 md) (· - ·))
      ∧ puts (.vmul x) (arith (fun p q => ((f32Val p).mul (f32Val q)).round 24 md) (· * ·))
      ∧ puts (.vmin x) (arith (minmax32 true) fun a b => if b < a then b else a)
      ∧ puts (.vmax x) (arith (minmax32 false) fun a b => if a < b then b else a)
      ∧ puts (.vand x) (lanes fun p q => intLane sg x.sat (p &&& q : Nat))
      ∧ puts (.vor x) (lanes fun p q => intLane sg x.sat (p ||| q : Nat))
      ∧ puts (.vxor x) (lanes fun p q => intLane sg x.sat (p ^^^ q : Nat))
      ∧ puts (.vshl x) (lanes fun p q => intLane sg x.sat (laneInt sg p * 2 ^ (q % 32)))
      ∧ puts (.vshr x) (lanes fun p q => intLane sg x.sat (p / 2 ^ (q % 32) : Nat))
      ∧ puts (.vsra x) (lanes fun p q => intLane sg x.sat (asInt 32 p / 2 ^ (q % 32))))
  ∧ (∀ (x : ArgVun) (s : State),
      Computes (.vabs x) x.g s (withLanes s.me x.d ((lanesOf (s.me.rv x.a)).map fun p =>
          if x.ty = .f32 then (p % 2 ^ 31, 0) else intLane true x.sat (asInt 32 p).natAbs))
        ∧ Computes (.vneg x) x.g s (withLanes s.me x.d ((lanesOf (s.me.rv x.a)).map fun p =>
          if x.ty = .f32 then (p ^^^ 2 ^ 31, 0) else intLane true x.sat (-asInt 32 p))))
  ∧ (∀ (x : ArgVfma) (s : State),
      let md := s.me.mode x.r
      Computes (.vfma x) x.g s (withLanes s.me x.d (List.zipWith (fun t r => (sumVal md [t, f32Val r]).round 24 md)
        (List.zipWith (fun p q => (f32Val p).mul (f32Val q)) (lanesOf (s.me.rv x.a)) (lanesOf (s.me.srcV x.b)))
        (lanesOf (s.me.rv x.c)))))
  ∧ (∀ (x : ArgVsel) (s : State),
      Computes (.vsel x) x.g s (withLanes s.me x.d
        (((lanesOf (s.me.rv x.a)).zip (lanesOf (s.me.srcV x.b))).zipIdx.map fun r =>
          (if bit (s.me.rs x.c).toNat r.2 then r.1.1 else r.1.2, 0))))
  ∧ (∀ (x : ArgVV) (s : State),
      let puts (i : Instr) (f : Nat → Nat × Nat) : Prop := Computes i x.g s (withLanes s.me x.d ((lanesOf (s.me.rv x.a)).map f))
      puts (.vrcp x) (fun p => rcp32 (f32Val p)) ∧ puts (.vrsqrt x) (fun p => rsqrt32 (f32Val p))
        ∧ puts (.vexp2 x) exp2F32 ∧ puts (.vlog2 x) log2F32)

/-- R119 to R127: conversions, expansion, reductions, dot products, permutations, moves and quantization. It rests on readings
of the model (log entry 21). -/
def Obligations.VectorMovesAndReductionsWriteTheirResult : Prop :=
  (∀ (x : ArgVcmp) (s : State),
    let holds (p q : Nat) : Bool × Nat := match x.cond with
      | .signed c => (condHolds c 32 (asInt 32 p) (asInt 32 q), 0)
      | .unsigned c => (condHolds c 32 p q, 0)
      | .float c => fcond c p q
    let rs := List.zipWith holds (lanesOf (s.me.rv x.a)) (lanesOf (s.me.srcV x.b))
    Computes (.vcmp x) x.g s ((s.me.ws x.d (word (rs.zipIdx.map fun r => if r.1.1 then 2 ^ r.2 else 0).sum)).addFlags
      (rs.foldl (fun f r => f ||| r.2) 0)))
  ∧ (∀ (x : ArgVcvt) (s : State),
      let md := s.me.mode x.r
      (x.fromTy = true → Computes (.vcvt x) x.g s (withLanes s.me x.d ((List.range 16).map fun i =>
        (elemVal 0 x.ty (elemOf (tyBits x.ty) (s.me.rv x.a) i) 0).round 24 md)))
      ∧ (x.fromTy = false → x.ty = .bf16 →
        let rs := (lanesOf (s.me.rv x.a)).map fun p => (f32Val p).round 8 md
        Computes (.vcvt x) x.g s ((s.me.wv x.d (vecOf 16 (rs.map (·.1)))).addFlags (orFlags rs)))
      ∧ (x.fromTy = false → x.ty ≠ .bf16 → Computes (.vcvt x) x.g s (withLanes s.me x.d ((lanesOf (s.me.rv x.a)).map fun p =>
        let r := cvtToInt 32 (tySigned x.ty) md (f32Val p)
        ((r.1 % 2 ^ 32).toNat, r.2)))))
  ∧ (∀ (x : ArgVexp) (s : State), Computes (.vexpand x) x.g s (withLanes s.me x.d ((List.range 16).map fun i =>
      (((elemVal s.me.tbl x.ty (s.me.rv x.a).toNat (16 * x.grp.val + i)).round 24 .rne).1, 0))))
  ∧ (∀ (x : ArgVred) (s : State),
      let a := lanesOf (s.me.rv x.a)
      (x.ty = .f32 →
        let r := (sumVal (s.me.mode x.r) (f32Val ((s.me.rs x.c).toNat % 2 ^ 32) :: a.map f32Val)).round 24 (s.me.mode x.r)
        Computes (.vredsum x) x.g s ((s.me.ws x.d (word r.1)).addFlags r.2))
      ∧ (x.ty ≠ .f32 → x.sat = false →
        Computes (.vredsum x) x.g s (s.me.ws x.d (ext64 64 true ((s.me.rs x.c).toInt + (a.map (asInt 32)).foldl (· + ·) 0))))
      ∧ (x.ty ≠ .f32 → x.sat = true →
        let r := clampTo 64 true ((s.me.rs x.c).toInt + (a.map (asInt 32)).foldl (· + ·) 0)
        Computes (.vredsum x) x.g s ((s.me.ws x.d (ext64 64 true r.1)).addFlags (if r.2 then flSat else 0)))
      ∧ (x.ty = .f32 →
        let r := a.foldl (fun r p => ((minmax32 false r.1 p).1, r.2 ||| (minmax32 false r.1 p).2))
          (minmax32 false (s.me.rf x.c) (s.me.rf x.c))
        Computes (.vredmax x) x.g s ((s.me.ws x.d (word r.1)).addFlags r.2))
      ∧ (x.ty ≠ .f32 → Computes (.vredmax x) x.g s (s.me.ws x.d (ext64 32 (tySigned x.ty)
          (a.foldl (fun (r : Int) p => if r < laneInt (tySigned x.ty) p then laneInt (tySigned x.ty) p else r)
            (laneInt (tySigned x.ty) (s.me.rf x.c)))))))
  ∧ (∀ (x : ArgVdot) (s : State),
      let a := (s.me.rv x.a).toNat
      let b := (s.me.rv x.b).toNat
      let n := asInt 32 (s.me.rf x.c) + sumInt ((List.range 64).map fun i =>
        asInt 8 (a / 2 ^ (8 * i) % 256) * asInt 8 (b / 2 ^ (8 * i) % 256))
      (x.ty = .i8 → x.sat = false → Computes (.vdot x) x.g s (s.me.ws x.d (ext64 32 true n)))
      ∧ (x.ty = .i8 → x.sat = true → Computes (.vdot x) x.g s
          ((s.me.ws x.d (ext64 32 true (clampTo 32 true n).1)).addFlags (if (clampTo 32 true n).2 then flSat else 0)))
      ∧ (x.ty ≠ .i8 →
        let terms := (List.range (if x.ty = .bf16 then 32 else 16)).map fun i => (elemVal 0 x.ty a i).mul (elemVal 0 x.ty b i)
        let r := (sumVal (s.me.mode x.r) (f32Val (s.me.rf x.c) :: terms)).round 24 (s.me.mode x.r)
        Computes (.vdot x) x.g s ((s.me.ws x.d (word r.1)).addFlags r.2)))
  ∧ (∀ (x : ArgVsplat) (s : State), Computes (.vsplat x) x.g s (s.me.wv x.d
      (vecOf (tyBits x.ty) (List.replicate (512 / tyBits x.ty) ((s.me.rs x.a).toNat % 2 ^ tyBits x.ty)))))
  ∧ (∀ (x : ArgVperm) (s : State), Computes (.vperm x) x.g s (withLanes s.me x.d
      ((lanesOf (s.me.rv x.b)).map fun k => (elemOf 32 (s.me.rv x.a) (k % 16), 0))))
  ∧ (∀ (x : ArgVidx) (s : State), Computes (.vidx x) x.g s (withLanes s.me x.d
      ((List.range 16).map fun i => (((s.me.rs x.a).toNat + i * (s.me.srcB x.b).toNat) % 2 ^ 32, 0))))
  ∧ (∀ (x : ArgVmovs) (s : State), Computes (.vmovs x) x.g s (match x.mv with
      | .toScalar d a n => s.me.ws d (word (elemOf 32 (s.me.rv a) n.val))
      | .toLane d a n => s.me.wv d (vecOf 32 ((lanesOf (s.me.rv d)).zipIdx.map fun p => if p.2 = n.val then s.me.rf a else p.1))
      | .toTbl a => { s.me with tbl := (s.me.rv a).setWidth 128 }
      | .fromTbl d => s.me.wv d (s.me.tbl.setWidth 512)))
  ∧ (∀ (x : ArgVq) (s : State),
      let md := s.me.mode x.r
      let rs := (lanesOf (s.me.rv x.a)).map fun p => quantize 8 (tySigned x.ty) md (f32Val p) (s.me.scaleF x.b)
      let old := bytesOfV (s.me.rv x.d)
      Computes (.vqnt x) x.g s ((s.me.wv x.d (vecOf 8
          (old.take (16 * x.grp.val) ++ rs.map (·.1) ++ old.drop (16 * x.grp.val + 16)))).addFlags (orFlags rs))
        ∧ Computes (.vdqnt x) x.g s (withLanes s.me x.d ((List.range 16).map fun i =>
          ((elemVal s.me.tbl x.ty (s.me.rv x.a).toNat (16 * x.grp.val + i)).mul (s.me.scaleF x.b)).round 24 md)))
  ∧ (∀ (x : ArgVscacc) (s : State),
      let md := s.me.mode x.r
      Computes (.vscacc x) x.g s (withLanes s.me x.d ((lanesOf (s.me.rv x.d)).zipIdx.map fun p =>
        (sumVal md [f32Val p.1, (s.me.scaleF x.b).mul (elemVal 0 x.ty (s.me.rv x.a).toNat p.2)]).round 24 md)))

/-! ### Loads, stores and what orders them -/

/-- The request of a contiguous access of an instruction of R167, R168 or R128, its address resolved. -/
def Sys2Proof.accessOf (m : MAddr) (r : Option (Nat × Nat) × Space × Word × Word × Bool) (wr cons : Bool) (len align : Nat)
    (data : List Byte) (dest : Nat) (ty : Ty) (acq rel : Bool) (scope : Scope) : MemReq where
  wr := wr
  sp := r.2.1
  rank := r.2.2.1
  tile := r.1
  eas := [r.2.2.2.1]
  len := len
  align := align
  data := [data]
  dest := dest
  ty := ty
  vec := false
  acq := acq
  rel := rel
  scope := scope
  cons := cons
  spBase := m.base.val = 2
  tagOk := r.2.2.2.2

/-- The request of `ld` and `ldc`. -/
def Sys2Proof.ldReq (x : ArgLd) (cons : Bool) (r : Option (Nat × Nat) × Space × Word × Word × Bool) : MemReq :=
  accessOf x.addr r false cons (tyBytes x.ty) (tyBytes x.ty) [] x.data.val x.ty (x.ord == .acq) false x.scope
/-- The request of `st`. -/
def Sys2Proof.stReq (x : ArgLd) (y : Ctx) (r : Option (Nat × Nat) × Space × Word × Word × Bool) : MemReq :=
  accessOf x.addr r true false (tyBytes x.ty) (tyBytes x.ty) (leBytes (tyBytes x.ty) (y.rs x.data).toNat) x.data.val x.ty false
    (x.ord == .rel) x.scope
/-- The request of `vld` and `vldc`. -/
def Sys2Proof.vldReq (x : ArgVld) (cons : Bool) (r : Option (Nat × Nat) × Space × Word × Word × Bool) : MemReq :=
  accessOf x.addr r false cons 64 4 [] (64 + x.data.val) .i64 (x.ord == .acq) false x.scope
/-- The request of `vst`. -/
def Sys2Proof.vstReq (x : ArgVld) (y : Ctx) (r : Option (Nat × Nat) × Space × Word × Word × Bool) : MemReq :=
  accessOf x.addr r true false 64 4 (leBytes 64 (y.rv x.data).toNat) (64 + x.data.val) .i64 false (x.ord == .rel) x.scope
/-- The request of `ldtab`. -/
def Sys2Proof.ldtabReq (x : ArgLdtab) (r : Option (Nat × Nat) × Space × Word × Word × Bool) : MemReq :=
  accessOf x.addr r false x.cons 16 16 [] 110 .i64 false false .ctx
/-- The request of `accrd`. -/
def Sys2Proof.accrdReq (x : ArgAccrd) (y : Ctx) : MemReq :=
  accessOf { handle := true, space := .acc, base := 0, index := 0, scale := 0, disp := 0 } (none, .acc, 0, y.rs x.a, true) false
    false 64 64 [] (64 + x.d.val) .i64 x.acq false x.scope
/-- The request of `accwr`. -/
def Sys2Proof.accwrReq (x : ArgAccwr) (y : Ctx) : MemReq :=
  accessOf { handle := true, space := .acc, base := 0, index := 0, scale := 0, disp := 0 } (none, .acc, 0, y.rs x.a, true) true
    false 64 64 (leBytes 64 (y.rv x.b).toNat) 0 .i64 false x.rel x.scope

/-- The first check of R166 or R169 that a lane of a request fails, in lane order, those of a `.glb` lane's page among them. -/
def Sys2Proof.laneFault (s : State) (q : MemReq) : Option Stop := (List.range q.eas.length).findSome? (s.reqCheck q)

/-- Whether a request passes the checks of its lanes and finds room in its class (R196). -/
def Sys2Proof.admitted (s : State) (q : MemReq) : Bool :=
  (laneFault s q).isNone
    && (if q.wr then s.storeCount s.cur.cell s.cur.ctx < 32 else s.loadCount s.cur.cell s.cur.ctx < 16)

/-- Whether a request is to a space of the cell. -/
def Sys2Proof.isLocal (q : MemReq) : Bool := q.sp != .glb && q.sp != .peer

/-- Whether an admitted local request is performed at once: no asynchronous operation's range conflicts, no earlier access or
release holds it, and no unit it reads is unreadable (R188, R204, R207, R234). -/
def Sys2Proof.performs (s : State) (q : MemReq) : Bool :=
  !(q.eas.any fun e => (s.cell s.cur.cell).conflicts q.sp e.toNat q.len q.wr)
    && !s.localHeld s.cur.cell s.cur.ctx (q.homes s.cur.cell)
    && (!q.rel || s.releaseReady s.cur.cell s.cur.ctx q.scope)
    && q.eas.all fun e => (s.poisoned (localHome s.cur.cell q.sp e.toNat) q.len).isNone

/-- The context after an access of it was performed: counted in program order, at the next slot. -/
def Sys2Proof.accessDone (y : Ctx) : Ctx := { y with seq := y.seq + 1 }.retire

/-- R167 to R169, R128, R146: an admitted local load that nothing holds reads the bytes at its effective address and fills its
destination with them, extended by the type; memory is as before. It rests on readings of the model (log entries 16, 22). -/
def Sys2Proof.LocalLoadsReadMemory : Prop :=
  ∀ s : State,
    let c := s.cur.cell
    let go (q : MemReq) : Prop := admitted s q = true ∧ isLocal q = true ∧ performs s q = true
    (∀ (x : ArgLd) (r : _), s.resolve x.addr = .ok r → go (ldReq x false r) →
      Becomes (.ld x) x.g s (s.modMe fun y => accessDone (y.ws x.data
        (loadWord x.ty (s.readLocal c r.2.1 r.2.2.2.1.toNat (tyBytes x.ty))))))
    ∧ (∀ (x : ArgVld) (r : _), s.resolve x.addr = .ok r → go (vldReq x false r) →
      Becomes (.vld x) x.g s (s.modMe fun y => accessDone (y.wv x.data
        (BitVec.ofNat 512 (leNat (s.readLocal c r.2.1 r.2.2.2.1.toNat 64))))))
    ∧ (∀ (x : ArgLdtab) (r : _), s.resolve x.addr = .ok r → x.cons = false → go (ldtabReq x r) →
      Becomes (.ldtab x) x.g s (s.modMe fun y => accessDone { y with
        tbl := BitVec.ofNat 128 (leNat (s.readLocal c r.2.1 r.2.2.2.1.toNat 16)) }))
    ∧ (∀ x : ArgAccrd, go (accrdReq x s.me) →
      Becomes (.accrd x) x.g s (s.modMe fun y => accessDone (y.wv x.d
        (BitVec.ofNat 512 (leNat (s.readLocal c .acc (s.me.rs x.a).toNat 64))))))
    ∧ (∀ x : ArgVgat, go (gatherReq x false s.me) →
      Becomes (.vgat x) x.g s (s.modMe fun y => accessDone (y.wv x.data (BitVec.ofNat 512 (leNat
        ((gatherAddrs x s.me).flatMap fun e => s.readLocal c x.space e.toNat 4))))))

/-- R167 to R169, R146: an admitted local store that nothing holds writes its source's bytes at its effective address, little
end first; a scatter writes its lanes in rising order. It rests on readings of the model (log entries 16, 22). -/
def Obligations.LocalStoresWriteMemory : Prop :=
  ∀ s : State,
    let c := s.cur.cell
    let go (q : MemReq) : Prop := admitted s q = true ∧ isLocal q = true ∧ performs s q = true
    (∀ (x : ArgLd) (r : _), s.resolve x.addr = .ok r → go (stReq x s.me r) →
      Becomes (.st x) x.g s ((s.writeLocal c r.2.1 r.2.2.2.1.toNat (leBytes (tyBytes x.ty) (s.me.rs x.data).toNat)).modMe accessDone))
    ∧ (∀ (x : ArgVld) (r : _), s.resolve x.addr = .ok r → go (vstReq x s.me r) →
      Becomes (.vst x) x.g s ((s.writeLocal c r.2.1 r.2.2.2.1.toNat (leBytes 64 (s.me.rv x.data).toNat)).modMe accessDone))
    ∧ (∀ x : ArgAccwr, go (accwrReq x s.me) →
      Becomes (.accwr x) x.g s ((s.writeLocal c .acc (s.me.rs x.a).toNat (leBytes 64 (s.me.rv x.b).toNat)).modMe accessDone))
    ∧ (∀ x : ArgVgat, go (gatherReq x true s.me) →
      Becomes (.vsca x) x.g s (((List.range 16).foldl (fun u k => u.writeLocal c x.space ((gatherAddrs x s.me).getD k 0).toNat
        (((lanesOf (s.me.rv x.data)).map fun n => leBytes 4 n).getD k [])) s).modMe accessDone))

/-- R161, R155: a consuming load that nothing holds reads its bytes, counts the read at the tile that holds them, and fills
its destination when the count step raises no trap. It rests on readings of the model (log entries 19, 22, 25). -/
def Sys2Proof.ConsumingLoadsCountDown : Prop :=
  ∀ s : State,
    let go (q : MemReq) : Prop := admitted s q = true ∧ isLocal q = true ∧ performs s q = true
    let counts (q : MemReq) (t : State) : Prop :=
      s.consumeAt s.cur.cell q.sp (q.eas.getD 0 0).toNat q.len (q.eas.getD 0 0) s.cur.cell s.cur.ctx = (t, none)
    (∀ (x : ArgLd) (r : _) (t : State), s.resolve x.addr = .ok r → go (ldReq x true r) → counts (ldReq x true r) t →
      Becomes (.ldc x) x.g s (t.modMe fun y => accessDone (y.ws x.data
        (loadWord x.ty (s.readLocal s.cur.cell r.2.1 r.2.2.2.1.toNat (tyBytes x.ty))))))
    ∧ (∀ (x : ArgVld) (r : _) (t : State), s.resolve x.addr = .ok r → go (vldReq x true r) → counts (vldReq x true r) t →
      Becomes (.vldc x) x.g s (t.modMe fun y => accessDone (y.wv x.data
        (BitVec.ofNat 512 (leNat (s.readLocal s.cur.cell r.2.1 r.2.2.2.1.toNat 64))))))
    ∧ (∀ (x : ArgLdtab) (r : _) (t : State), s.resolve x.addr = .ok r → x.cons = true → go (ldtabReq x r) →
        counts (ldtabReq x r) t →
      Becomes (.ldtab x) x.g s (t.modMe fun y => accessDone { y with
        tbl := BitVec.ofNat 128 (leNat (s.readLocal s.cur.cell r.2.1 r.2.2.2.1.toNat 16)) }))

/-- R128, R146, R155, R161, R167 to R169: loads from the spaces of the cell, and those that count a read of a tile. -/
def Obligations.LoadsReadMemoryAndConsumingLoadsCount : Prop := LocalLoadsReadMemory ∧ ConsumingLoadsCountDown

/-- R19, R161, R201, R230, R231: an admitted global access that meets no trap of its pages and is not held goes to the station of
its column and its context goes on; an admitted peer access goes to the peer's cell, and a consuming one holds its context. It rests on readings of the model (log entries 22,
23, 47). -/
def Obligations.RemoteAccessesAreSent : Prop :=
  ∀ s : State,
    let c := s.cur.cell
    let sent (q : MemReq) : State := (s.send (.cell c) (stationPlace c) (.stationReq (s.newAcc q))).modMe accessDone
    let glb (q : MemReq) : Prop := q.sp = .glb ∧ admitted s q = true ∧ s.issueTrap (s.newAcc q) = none
      ∧ s.glbHeld c s.cur.ctx = false ∧ s.stationLoad c < 16 ∧ s.leaveHeld (s.newAcc q) = false
    let atPeer (q : MemReq) (k : Nat) : State := s.send (.cell c) (.cell k) (.peer { s.newAcc q with
      peer := some k, pieces := [{ lane := 0, off := 0, len := q.len, home := locA k (q.eas.getD 0 0).toNat }], done := true,
      rank := q.rank.toNat })
    let toPeer (q : MemReq) (k : Nat) : State := (atPeer q k).modMe accessDone
    let heldAt (q : MemReq) (k : Nat) : State :=
      (atPeer q k).modMe fun y => { y with seq := y.seq + 1, st := .waiting .access, stalled := false }
    let peer (q : MemReq) (k : Nat) : Prop := q.sp = .peer ∧ admitted s q = true ∧ s.peerCell q.rank = some k
      ∧ s.granted (s.ctxRegion c s.cur.ctx) k .loc (q.eas.getD 0 0).toNat q.len = true
      ∧ (q.cons = true ∨ s.tileCheck k .loc (q.eas.getD 0 0).toNat q.len q.wr (q.eas.getD 0 0) = none)
    (∀ (x : ArgLd) (r : _), s.resolve x.addr = .ok r →
      (glb (ldReq x false r) → Becomes (.ld x) x.g s (sent (ldReq x false r)))
        ∧ (glb (stReq x s.me r) → Becomes (.st x) x.g s (sent (stReq x s.me r)))
        ∧ (∀ k, peer (ldReq x false r) k → Becomes (.ld x) x.g s (toPeer (ldReq x false r) k))
        ∧ (∀ k, peer (stReq x s.me r) k → Becomes (.st x) x.g s (toPeer (stReq x s.me r) k))
        ∧ (∀ k, peer (ldReq x true r) k → Becomes (.ldc x) x.g s (heldAt (ldReq x true r) k)))
    ∧ (∀ (x : ArgVld) (r : _), s.resolve x.addr = .ok r →
      (glb (vldReq x false r) → Becomes (.vld x) x.g s (sent (vldReq x false r)))
        ∧ (glb (vstReq x s.me r) → Becomes (.vst x) x.g s (sent (vstReq x s.me r)))
        ∧ (∀ k, peer (vldReq x false r) k → Becomes (.vld x) x.g s (toPeer (vldReq x false r) k))
        ∧ (∀ k, peer (vstReq x s.me r) k → Becomes (.vst x) x.g s (toPeer (vstReq x s.me r) k))
        ∧ (∀ k, peer (vldReq x true r) k → Becomes (.vldc x) x.g s (heldAt (vldReq x true r) k)))
    ∧ (∀ x : ArgVgat,
      (glb (gatherReq x false s.me) → Becomes (.vgat x) x.g s (sent (gatherReq x false s.me)))
        ∧ (glb (gatherReq x true s.me) → Becomes (.vsca x) x.g s (sent (gatherReq x true s.me))))

/-- R155, R166, R169, R206, R334, R370, R392: a lane that fails a check raises that check's trap, and nothing is read or written but the tile that a
consuming access publishes; a key of another tenant freezes its master in place of the trap. Alignment is checked first, then the
grant, then the stack limit of an access through s2, then the tile, and last the key; in global memory a lane's page follows its
alignment: one of another kind than the first, or host memory that it may not reach, is a trap with that lane's address. It rests on
readings of the model (log entries 18, 22). -/
def Obligations.AccessChecksComeInOrder : Prop :=
  (∀ s : State,
    let c := s.cur.cell
    let stops (i : Instr) (g : Guard) (q : MemReq) : Prop :=
      (∀ t, laneFault s q = some (.trap t) → Becomes i g s ((s.publish c q t).takeTrap c s.cur.ctx t))
        ∧ (∀ o t, laneFault s q = some (.freeze o t) → Becomes i g s (s.takeFreeze c s.cur.ctx o t))
    (∀ (x : ArgLd) (r : _), s.resolve x.addr = .ok r →
      stops (.ld x) x.g (ldReq x false r) ∧ stops (.st x) x.g (stReq x s.me r) ∧ stops (.ldc x) x.g (ldReq x true r))
    ∧ (∀ (x : ArgVld) (r : _), s.resolve x.addr = .ok r →
      stops (.vld x) x.g (vldReq x false r) ∧ stops (.vst x) x.g (vstReq x s.me r) ∧ stops (.vldc x) x.g (vldReq x true r))
    ∧ (∀ x : ArgVgat, stops (.vgat x) x.g (gatherReq x false s.me) ∧ stops (.vsca x) x.g (gatherReq x true s.me)))
  ∧ (∀ (s : State) (q : MemReq) (e : Word),
      let c := s.cur.cell
      let below : Bool := q.spBase && q.sp == .loc && e.toNat < s.me.xsl.toNat % 2 ^ 21
      let granted : Bool := s.grantCheck c s.cur.ctx q.sp e.toNat q.len q.wr
      (e.toNat % q.align ≠ 0 → s.laneCheck c s.cur.ctx q e = some (.trap { cause := if q.wr then 6 else 4, val := e, info := 0 }))
      ∧ (e.toNat % q.align = 0 → isLocal q = true → granted = false →
        s.laneCheck c s.cur.ctx q e = some (.trap { cause := if q.wr then 7 else 5, val := e, info := 0 }))
      ∧ (e.toNat % q.align = 0 → isLocal q = true → granted = true → below = true →
        s.laneCheck c s.cur.ctx q e = some (.trap { cause := 27, val := e, info := 0 }))
      ∧ (∀ t, e.toNat % q.align = 0 → isLocal q = true → granted = true → below = false → s.laneTile c s.cur.ctx q e = some t →
        s.laneCheck c s.cur.ctx q e = some (.trap t))
      ∧ (e.toNat % q.align = 0 → isLocal q = true → granted = true → below = false → s.laneTile c s.cur.ctx q e = none →
        s.laneCheck c s.cur.ctx q e = s.keyCheck c q.sp e.toNat q.len (s.tenantOf (s.ctxRegion c s.cur.ctx)) e))
  ∧ (∀ (s : State) (q : MemReq) (k : Nat),
      let check := s.laneCheck s.cur.cell s.cur.ctx q (q.eas.getD k 0)
      let upTo : Acc := { s.newAcc q with lanes := (s.newAcc q).lanes.take (k + 1) }
      (∀ e, check = some e → s.reqCheck q k = some e)
      ∧ (check = none → q.sp ≠ .glb → s.reqCheck q k = none)
      ∧ (check = none → q.sp = .glb → s.reqCheck q k = (s.issueTrap upTo).map .trap))
  ∧ (∀ (s : State) (a : Acc) (p : Piece) (ps : List Piece),
      let lane (q : Piece) : Word := ((a.lanes[q.lane]?).map fun l => word l.addr).getD a.firstAddr
      let host (q : Piece) : Prop := isHost q.home = true ∧ (a.isAtomic = true ∨ s.vfRuns (s.asidTenant a.asid) = false)
      (∀ t, s.pageTrap a (p :: ps) = some t → ∃ q ∈ p :: ps, t.val = lane q
        ∧ ((q.kind ≠ p.kind ∧ t.cause = 29) ∨ (host q ∧ t.cause = if a.op.need.2 then 7 else 5)))
      ∧ (s.pageTrap a (p :: ps) = none → ∀ q ∈ p :: ps, q.kind = p.kind ∧ ¬ host q))

/-- R217, R196: `fence` passes when the accesses it names are done and otherwise stalls; `wait` passes when each class count
is at most its value, a value at or above the class limit never waiting. It rests on readings of the model (log entry 22). -/
def Obligations.FenceAndWaitHoldTheirContext : Prop :=
  (∀ (x : ArgFence) (s : State),
    let c := s.cur.cell
    let i := s.cur.ctx
    let open_ : Bool := match x.kind with
      | .acq => s.acquireReady c i
      | .rel => s.releaseReady c i x.scope
      | .acqrel => s.acquireReady c i && s.releaseReady c i x.scope
      | .full => s.fullReady c i
    (open_ = true → Computes (.fence x) x.g s s.me)
      ∧ (open_ = false → Stalls (.fence x) x.g s))
  ∧ (∀ (x : ArgWait) (s : State),
      let c := s.cur.cell
      let i := s.cur.ctx
      let low : Prop := (16 ≤ x.l.val ∨ s.loadCount c i ≤ x.l.val) ∧ (32 ≤ x.s.val ∨ s.storeCount c i ≤ x.s.val)
        ∧ (16 ≤ x.c.val ∨ s.copyCount c i ≤ x.c.val) ∧ (8 ≤ x.t.val ∨ s.tileCount c i ≤ x.t.val)
      (low → Computes (.wait x) x.g s s.me)
        ∧ (¬ low → Stalls (.wait x) x.g s))

/-! ### Matrix operations and copies -/

/-- The first check of R136 and R138 that the operands of a tile operation fail: the alignment of a scratchpad operand, of an
accumulator tile, the tile's shape, the grants, and the sealed tile of each consumed operand. -/
def Sys2Proof.tileFault (s : State) (ops used : List Opnd) : Option TrapInfo :=
  (ops.findSome? (Opnd.unaligned .loc)).or <|
  (ops.findSome? (Opnd.unaligned .acc)).or <|
  (ops.findSome? Opnd.unshaped).or <|
  (ops.findSome? fun o =>
    if s.grantCheck s.cur.cell s.cur.ctx o.sp o.a.toNat o.n o.wr then none else some (accessFault o.wr o.a)).or <|
  used.findSome? fun o =>
    if ((s.cell s.cur.cell).tileOf .loc o.a.toNat o.n).isSome then none
    else some { cause := 53, val := o.a,
                info := word (((((s.cell s.cur.cell).touched .loc o.a.toNat o.n).head?.map (·.1)).getD 0) * 2 ^ 10) }

/-- Whether the tile queue, a context's share of it and the scoreboard have room (R133, R134), and no atomic of the context waits for
its registration point (R212). -/
def Sys2Proof.tileRoom (s : State) (entries : Nat) : Bool :=
  !s.pointHeld s.cur.cell s.cur.ctx && (s.cell s.cur.cell).tileq.length < 32 && ((s.cell s.cur.cell).tileq.filter (·.ctx == s.cur.ctx)).length < 8
    && entries ≤ (s.cell s.cur.cell).openEntries

/-- The tile operation that an instruction queues. -/
def Sys2Proof.tileOpOf (s : State) (fn : TileFn) (md : Rnd) (m n : Nat) (ca cb : Bool) (d a b : Word) (f : Compl) : TileOp where
  key := (s.cell s.cur.cell).nextKey
  id := s.transferId s.cur.cell s.cur.ctx (s.freshOp s.cur.cell)
  ctx := s.cur.ctx
  task := s.ctxTask s.cur.cell s.cur.ctx
  region := s.ctxRegion s.cur.cell s.cur.ctx
  seq := s.me.seq
  pc := s.me.pc
  fn := fn
  m := m
  n := n
  d := d.toNat
  a := a.toNat
  b := b.toNat
  md := md
  tbl := s.me.tbl
  ca := ca
  cb := cb
  act := f.act
  word := s.me.rs f.c
  acq := f.acq
  rel := f.rel
  scope := f.scope
  started := false
  suppressed := false

/-- The state with an operation at the end of the tile queue, its operands registered, and its context past it. -/
def Sys2Proof.tileQueued (s : State) (o : TileOp) (ops : List Opnd) : State :=
  ((s.modCell s.cur.cell fun x => { x with tileq := x.tileq ++ [o], nextKey := x.nextKey + 1 }).register s.cur.cell s.cur.ctx
    o.key (s.freshOp s.cur.cell) o.region (ops.map Opnd.interval)).modMe fun y => { y with opSeq := y.opSeq + 1 }.retire

/-- What an instruction of the matrix unit does when ready: the first failing check traps; with no room it stalls; else the
operation enters the queue. -/
def Sys2Proof.Queues (i : Instr) (g : Guard) (s : State) (o : TileOp) (ops used : List Opnd) : Prop :=
  (∀ t, tileFault s ops used = some t → Traps i g s t)
    ∧ (tileFault s ops used = none → tileRoom s ops.length = true → Becomes i g s (tileQueued s o ops))
    ∧ (tileFault s ops used = none → tileRoom s ops.length = false → Stalls i g s)

/-- R133, R134, R136, R142 to R145: a tile operation is checked, registered and queued, and its context goes on. It rests on
readings of the model (log entries 15, 26, 47). -/
def Obligations.MatrixOperationsAreQueued : Prop :=
  ∀ s : State,
    let z (n : BitVec 6) : Nat := 16 * n.toNat
    let r (a : SReg) : Word := s.me.rs a
    (∀ x : ArgMma,
      let a := locOpnd (r x.a) (64 * rowsOf x.m) false
      let b := locOpnd (r x.b) ((pairShape x.pair).2.2.2 * z x.n6) false
      Queues (.mma x) x.g s
        (tileOpOf s (.mma x.set x.pair) (s.me.mode x.r) (rowsOf x.m) (z x.n6) x.ca x.cb (r x.d) (r x.a) (r x.b) x.fin)
        [accTile (r x.d) (rowsOf x.m) (z x.n6) true, a, b] ((if x.ca then [a] else []) ++ if x.cb then [b] else []))
    ∧ (∀ x : ArgAccz, Queues (.accz x) x.g s
        (tileOpOf s .accz .rne (rowsOf x.m) (z x.n6) false false (r x.d) 0 0 x.fin)
        [accTile (r x.d) (rowsOf x.m) (z x.n6) true] [])
    ∧ (∀ x : ArgAccsc, Queues (.accsc x) x.g s
        (tileOpOf s (.accsc x.set x.i32) (s.me.mode x.r) (rowsOf x.m) (z x.n6) false false (r x.d) (r x.a) (r x.b) x.fin)
        [accTile (r x.d) (rowsOf x.m) (z x.n6) true, accTile (r x.a) (rowsOf x.m) (z x.n6) false,
          locOpnd (r x.b) (4 * (rowsOf x.m + z x.n6)) false] [])
    ∧ (∀ x : ArgAccmv,
        Queues (.accst x) x.g s
          (tileOpOf s (.accst x.i32 x.ty) (s.me.mode x.r) (rowsOf x.m) (z x.n6) false false (r x.d) (r x.a) 0 x.fin)
          [locOpnd (r x.d) (rowsOf x.m * z x.n6 * tyBytes x.ty) true, accTile (r x.a) (rowsOf x.m) (z x.n6) false] []
        ∧ Queues (.accld x) x.g s
          (tileOpOf s (.accld x.i32 x.ty) (s.me.mode x.r) (rowsOf x.m) (z x.n6) false false (r x.d) (r x.a) 0 x.fin)
          [accTile (r x.d) (rowsOf x.m) (z x.n6) true, locOpnd (r x.a) (rowsOf x.m * z x.n6 * tyBytes x.ty) false] [])

/-- Whether a copy's source and its local destination lie in the grants of its region (R192), the engine, the context's
share of it and the scoreboard have room (R184, R190), and no atomic of the context waits for its registration point (R212). -/
def Sys2Proof.copyAdmitted (s : State) (q : CopyReq) : Bool :=
  let r := s.ctxRegion s.cur.cell s.cur.ctx
  s.copyRange r s.cur.cell q.src q.from_.1 q.from_.2 false
    && (match q.dst.localTo s.cur.cell with
      | some (sp, _) => s.copyRange r s.cur.cell sp (q.to_ s.cur.cell).1 (q.to_ s.cur.cell).2 true
      | none => true)
    && !s.pointHeld s.cur.cell s.cur.ctx && (s.cell s.cur.cell).copyq.length < 32 && ((s.cell s.cur.cell).copyq.filter (·.ctx == s.cur.ctx)).length < 16
    && (q.intervals s.cur.cell).length ≤ (s.cell s.cur.cell).openEntries

/-- The copy that an instruction queues, reading the tile given. -/
def Sys2Proof.copyOpOf (s : State) (q : CopyReq) (tile : Option (Nat × Nat × Option Nat)) : CopyOp where
  key := (s.cell s.cur.cell).nextKey
  id := s.transferId s.cur.cell s.cur.ctx (s.freshOp s.cur.cell)
  ctx := s.cur.ctx
  task := s.ctxTask s.cur.cell s.cur.ctx
  region := s.ctxRegion s.cur.cell s.cur.ctx
  tenant := s.tenantOf (s.ctxRegion s.cur.cell s.cur.ctx)
  seq := s.me.seq
  pc := s.me.pc
  src := q.src
  base := q.base
  dst := q.dst
  lay := q.lay
  layAddr := q.layAddr
  cons := q.cons
  fill := q.fill
  tile := tile
  act := q.fin.act
  word := s.me.rs q.fin.c
  item := q.item.getD (s.transferId s.cur.cell s.cur.ctx (s.freshOp s.cur.cell))
  acq := q.fin.acq
  rel := q.fin.rel
  scope := q.fin.scope
  phase := .queued
  begun := false
  pos := 0
  attempt := 0
  acked := false
  counted := !q.cons
  suppressed := false

/-- The state with a copy at the end of the engine's queue, its intervals registered, its id in the destination, and its
context past it. -/
def Sys2Proof.copyQueued (s : State) (q : CopyReq) (o : CopyOp) : State :=
  ((s.modCell s.cur.cell fun x => { x with copyq := x.copyq ++ [o], nextKey := x.nextKey + 1 }).register s.cur.cell s.cur.ctx
    o.key (s.freshOp s.cur.cell) o.region (q.intervals s.cur.cell)).modMe fun y =>
      { (y.ws q.d o.id) with opSeq := y.opSeq + 1 }.retire

/-- R184, R190, R192, R195: a copy whose checks pass and that finds room is registered and queued; its transfer id is written
and its context goes on. It rests on readings of the model (log entries 15, 26, 47). -/
def Obligations.CopiesAreQueued : Prop :=
  ∀ s : State,
    let c := s.cur.cell
    let tenant := s.tenantOf (s.ctxRegion c s.cur.ctx)
    let queues (i : Instr) (g : Guard) (q : CopyReq) : Prop :=
      copyAdmitted s q = true → ∀ tile, s.sourceTile q q.from_.1 q.from_.2 = .ok tile →
        Becomes i g s (copyQueued s q (copyOpOf s q tile))
    let sendReq (x : ArgSend) (lay : Layout) (at_ : Nat) : CopyReq :=
      { src := x.sspace, base := (s.me.rs x.a).toNat, dst := destOf x.dspace (s.me.rs x.b), lay := lay, layAddr := at_,
        cons := x.cons, fill := false, handle := none, d := x.d, item := none, fin := x.fin }
    let fillReq (x : ArgFill) (lay : Layout) (at_ : Nat) : CopyReq :=
      { src := .vlt, base := (s.me.rs x.a).toNat, dst := .mem none c .loc (s.me.rs x.b).toNat, lay := lay, layAddr := at_,
        cons := x.cons, fill := true, handle := none, d := x.d, item := none, fin := x.fin }
    (∀ x : ArgSend, s.destFault tenant (x.dspace == .glb) (s.me.rs x.b) = none →
      queues (.send x) x.g (sendReq x (Layout.flat x.n.toNat) 0)
        ∧ ∀ lay, s.readLayout x.n.toNat = .ok lay → queues (.sendLay x) x.g (sendReq x lay x.n.toNat))
    ∧ (∀ x : ArgFill,
      queues (.fill x) x.g (fillReq x (Layout.flat x.n.toNat) 0)
        ∧ ∀ lay, s.readLayout x.n.toNat = .ok lay → queues (.fillLay x) x.g (fillReq x lay x.n.toNat))
    ∧ (∀ (x : ArgSendt) (p : Pool),
      let h := s.me.rs x.a
      let t := s.me.rs x.b
      hFormed h = true → hCell h = c → Assoc.get? (hPool h) (s.cell c).pools = some p → hIdx h < p.tiles.length →
      hFormed t = true → (x.remote = true → s.linkOpen x.link.val tenant = true) →
      queues (.sendt x) x.g
        { src := p.spaceOf (hIdx h), base := p.addrOf (hIdx h), dst := .tile (if x.remote then some x.link.val else none) t,
          lay := Layout.flat p.size, layAddr := 0, cons := x.cons, fill := false, handle := some h, d := x.d, item := some t,
          fin := x.fin })

/-! ### Instructions that read state -/

/-- R174, R187, R197, R266, R283, R306, R322, R328, R336, R353, R364, R374, R379, R395, R396: each reading instruction writes
its destination with the word that the spec describes and leaves the rest of the machine alone. It rests on readings of the
model (log entries 14, 35). -/
def Obligations.StatusReadsWriteTheirWord : Prop :=
  ∀ s : State,
    let c := s.cur.cell
    let i := s.cur.ctx
    let x := s.cell c
    let r := s.ctxRegion c i
    let super : Prop := i = 9
    let task : Prop := i < 8
    (∀ a : ArgSbstat, Writes (.sbstat a) a.g s s a.d (match a.sel with
        | .status n => ([x.openEntries, x.keptEntries, (x.sb.filter fun e => e.ctx == i).length, x.copyq.length, x.spilled].map
            word).getD n.val 0
        | .entry n => match x.sb.find? fun e => e.idx == n.val / 2 with
          | some e => if e.region = r || i = 9 then e.word (n.val % 2 == 1) else 0
          | none => 0))
    ∧ (∀ a : ArgTid, Writes (.tid a) a.g s s a.d (match s.me.task with
        | none => 0
        | some t => if i < 8 then [t.ptr, t.record.head, t.record.reply, word (if t.cluster.isSome then t.rank else 0),
            (if t.cluster.isSome then word (t.ch * 2 ^ 8 + t.cw) else word 0x101), word t.signals, t.lastSig].getD a.sel.val 0
          else 0))
    ∧ (∀ a : ArgPortst, Writes (.portst a) a.g s s a.d (
        if 8 ≤ i then 0
        else if a.sel.val = 16 then word s.me.portDone
        else if a.sel.val = 17 then word s.me.portZero
        else match s.me.slots.getD a.sel.val none with
          | none => 0
          | some p => if portRemote p.name || (s.lookup s.taskTenant p.name).isSome then p.word else 0))
    ∧ (∀ a : ArgCstat, let w := s.me.rs a.a
        (2 ^ 14 ≤ w.toNat ∨ 959 < w.toNat % 2 ^ 10 → Traps (.cstat a) a.g s { cause := 62, val := w, info := 2 })
        ∧ (w.toNat < 2 ^ 14 → w.toNat % 2 ^ 10 ≤ 959 → Writes (.cstat a) a.g s s a.d
            (match s.hubSlot (w.toNat % 2 ^ 10) (slice w.toNat 10 4) with
              | some h => if h.tenant = s.myTenant then s.hubStat h a.sel else 0
              | none => 0)))
    ∧ (∀ a : ArgPoolst, let w := s.me.rs a.a
        let p := if 2 ^ 18 ≤ w.toNat || bit w.toNat 13 || slice w.toNat 0 10 ≠ c then none else Assoc.get? (slice w.toNat 10 3) x.pools
        (p = none → Traps (.poolst a) a.g s { cause := 54, val := w, info := 0 })
        ∧ ∀ q, p = some q → Writes (.poolst a) a.g s s a.d (word ([q.config, q.free.length, q.queue.length].getD a.sel.val
            (if q.owner = r then [q.grants, q.abandoned, q.tiles.length - q.mainCount, q.base].getD (a.sel.val - 3) 0 else 0))))
    ∧ (∀ a : ArgHtab, task → Writes (.htabRd a) a.g s s a.d (
        if a.cls.val < 8 then word (2 ^ 63 + 2 ^ 62)
        else match Assoc.get? a.cls.val x.htab with
          | some e => if e.region = r then word (2 ^ 63 + e.region * 2 ^ 32 + e.ty * 2 ^ 16) else word (2 ^ 63)
          | none => 0))
    ∧ (∀ a : ArgD, task → Writes (.budgetRd a) a.g s s a.d (match s.me.task with
        | some t => BitVec.ofInt 64 (((t.budget + t.ext : Nat) : Int) - (s.clock - t.start : Nat))
        | none => 0))
    ∧ (∀ a : ArgBcfg, super → Writes (.bcfgRd a) a.g s s a.d (match Assoc.get? (barKey a.n.val a.die.val) s.bars with
        | some b => if s.mine b.owner then b.word else 0
        | none => 0))
    ∧ (∀ a : ArgRcfg, super → Writes (.rcfgRd a) a.g s s a.d (match Assoc.get? a.n.val s.reds with
        | some b => if s.mine b.bar.owner then b.bar.word else 0
        | none => 0))
    ∧ (∀ a : ArgTrapRing, super → Writes (.trapRing a) a.g s s a.d (match s.entryAt (s.me.rs a.a) with
        | some e => if e.tenant = s.myTenant then e.word a.k.val else 0
        | none => 0))
    ∧ (∀ a : ArgDA, super →
        (let k := (s.me.rs a.a).toNat % 16
         k < 10 → Writes (.frzRd a) a.g s s a.d (if s.tenantOf (s.ctxRegion c k) = s.myTenant then s.freezeWord c k else 0))
        ∧ Writes (.lkrotSt a) a.g s s a.d (if s.holdsLink (s.me.rs a.a) then (s.link (s.me.rs a.a).toNat).word else 0)
        ∧ (let k := s.keySlot (s.me.rs a.a).toNat
           (s.me.rs a.a).toNat ≤ 1023 → Writes (.keysetSt a) a.g s s a.d (match k.st with
            | .empty => 0
            | .installed => word (2 ^ 62 + (if k.owner = 0 then 0 else ((s.region k.owner).map (·.vf)).getD 0) % 2 ^ 16)
            | .retiring => word (2 ^ 63 + (if k.owner = 0 then 0 else ((s.region k.owner).map (·.vf)).getD 0) % 2 ^ 16))))
    ∧ (∀ a : ArgDA, i ≠ 8 →
        let n (f : Channel → Nat) : Word := match s.usable (s.me.rs a.a) with
          | some q => word (f q.2)
          | none => 0
        Writes (.hpollTail a) a.g s s a.d (n (·.latch)) ∧ Writes (.hpollHead a) a.g s s a.d (n (·.head))
          ∧ Writes (.hpollDone a) a.g s s a.d (n (·.done)))

/-- R228, R236: a probe of a translation changes nothing but the leaves that the cell's station holds; for a leaf held there it
writes the leaf's word, or the first condition of R228 that applies to it: no permission, no such memory, its key slot. It rests on readings of the model (log entry 23). -/
def Sys2Proof.ProbesWriteTheTranslation : Prop :=
  ∀ (s : State) (x : ArgDA) (l : Leaf),
    let va := (s.me.rs x.a).toNat % 2 ^ 56
    let found : Prop := (s.station (stationOf s.cur.cell)).leaves.find? (fun l => l.serves (s.asidOf s.cur.cell s.cur.ctx) va) = some l
    let fails (code : Nat) : Word := probeFault { code, level := 3 - l.size }
    let v (wr : Bool) : Word :=
      if (if wr then l.w else l.r) = false then fails 2
      else if (s.home (l.frame + va % 2 ^ l.bits)).isNone then fails 4
      else if s.slotUsable l.key (s.asidTenant l.asid) = false then fails 5
      else probeWord l va (s.cur.ctx == 9)
    (found → Writes (.xlatR x) x.g s s x.d (v false) ∧ Writes (.xlatW x) x.g s s x.d (v true))
    ∧ (s.cur.ctx = 9 →
      let n := (s.me.rs x.a).toNat
      (63 < n → Traps (.xlatSet0 x) x.g s (encTrap 2 (.xlatSet0 x)) ∧ Traps (.xlatSet1 x) x.g s (encTrap 2 (.xlatSet1 x)))
      ∧ (n ≤ 63 →
        Writes (.xlatSet0 x) x.g s s x.d (((Assoc.get? n s.sets).map (·.w0)).getD 0)
          ∧ Writes (.xlatSet1 x) x.g s s x.d (((Assoc.get? n s.sets).map (·.w1)).getD 0)))

/-- Whether an access to global memory that is not performed, wherever it is, was translated through a leaf that a test names. -/
def Sys2Proof.usesLeaf (s : State) (drop : Leaf → Bool) : Bool :=
  s.glbMoving.any fun a => a.pieces.any fun p => (p.leaf.map drop) == some true

/-- R225, R237: `tinv` waits for the accesses before it and for those translated through the leaves that it drops; then they
are gone from every station, and the freed ASIDs it covers may be given again. It rests on readings of the model (log entry
23). -/
def Sys2Proof.InvalidationDropsLeaves : Prop :=
  ∀ s : State, s.cur.ctx = 9 →
    let drops (i : Instr) (g : Guard) (drop : Leaf → Bool) (whole : Nat → Bool) : Prop :=
      (s.releaseReady s.cur.cell 9 .mod = true → usesLeaf s drop = false → Becomes i g s ({ s with
          stations := s.stations.map (fun (x : Nat × Station) => (x.1, { x.2 with leaves := x.2.leaves.filter (fun l => !drop l) }))
          staleAsids := s.staleAsids.filter fun n => !whole n }.modMe Ctx.retire))
        ∧ (s.releaseReady s.cur.cell 9 .mod = false ∨ usesLeaf s drop = true → Stalls i g s)
    let asid (a : SReg) : Nat := (s.me.rs a).toNat % 2 ^ 14
    (∀ x : ArgG, drops (.tinvAll x) x.g (fun _ => true) fun _ => true)
    ∧ (∀ x : ArgA, drops (.tinvAsid x) x.g (fun l => l.asid == asid x.a) fun n => n == asid x.a)
    ∧ (∀ x : ArgAB, drops (.tinvPage x) x.g (fun l => l.serves (asid x.a) ((s.me.rs x.b).toNat % 2 ^ 56)) fun _ => false)

/-- R233, R238: `keyset inst` reads its blob and reports the first failing check, and with none the slot is installed for the
supervisor's tenant; `keyset ret` refuses a slot out of range, foreign or empty, and otherwise the slot retires while the
context waits; measurement 4 is taken again with each (R393). It rests on readings of the model (log entries 5, 11, 14, 23). -/
def Sys2Proof.KeySlotsInstallAndRetire : Prop :=
  ∀ (s : State) (x : ArgDA), s.cur.ctx = 9 →
    let a := s.me.rs x.a
    let blob := s.readLocal s.cur.cell .loc a.toNat 112
    let slot := leNat ((blob.drop 4).take 4)
    (a.toNat % 16 ≠ 0 → Traps (.keysetInst x) x.g s { cause := 4, val := a, info := 0 })
    ∧ (a.toNat % 16 = 0 → s.grantCheck s.cur.cell 9 .loc a.toNat 112 false = true →
        s.tileCheck s.cur.cell .loc a.toNat 112 false a = none →
        (s.cell s.cur.cell).conflicts .loc a.toNat 112 false = false → s.localHeld s.cur.cell 9 [] = false →
        (s.installStatus blob ≠ 0 → Writes (.keysetInst x) x.g s s x.d (word (s.installStatus blob)))
          ∧ (s.installStatus blob = 0 → Writes (.keysetInst x) x.g s
              { s with keys := Assoc.put slot { st := .installed, owner := s.myTenant, gen := (s.keySlot slot).gen + 1 } s.keys }.remeasure
              x.d 0))
    ∧ (a.toNat = 0 ∨ 1023 < a.toNat ∨ s.slotForeign a.toNat s.myTenant = true → Writes (.keysetRet x) x.g s s x.d 3)
    ∧ (a.toNat ≠ 0 → a.toNat ≤ 1023 → s.slotForeign a.toNat s.myTenant = false →
        ((s.keySlot a.toNat).st = .empty → Writes (.keysetRet x) x.g s s x.d 4)
          ∧ ((s.keySlot a.toNat).st ≠ .empty → Becomes (.keysetRet x) x.g s
              ({ s with keys := Assoc.put a.toNat { s.keySlot a.toNat with st := .retiring } s.keys }.remeasure.holds
                (.keyset x.d a.toNat))))

/-- R233, R236 to R238: the instructions of translation and key slots. -/
def Obligations.TranslationInstructionsAct : Prop :=
  ProbesWriteTheTranslation ∧ InvalidationDropsLeaves ∧ KeySlotsInstallAndRetire

/-! ### Pools and sequentially consistent accesses -/

/-- R153, R157, R158, R171: a request for a tile with a bad designator or read count is a pool request fault; else it goes to
the controller of the pool, across the link that the designator names, and its context waits. It rests on readings of the
model (log entries 19, 25). -/
def Sys2Proof.TileRequestsReachTheirController : Prop :=
  ∀ s : State,
    let c := s.cur.cell
    let r := s.ctxRegion c s.cur.ctx
    let asks (i : Instr) (g : Guard) (d : SReg) (try_ : Option PReg) (w reads : Word) : Prop :=
      let n := w.toNat
      let to_ : Place := if bit n 13 then .link (slice n 14 4) else .cell (slice n 0 10)
      let bad : Prop := s.designatorBad (s.tenantOf r) w = true ∨ 255 < reads.toNat ∨ (reads.toNat = 0 ∧ bit n 13 = true)
      (bad → Traps i g s { cause := 54, val := w, info := word (reads.toNat % 256) })
        ∧ (¬ bad → Becomes i g s ((s.send (.cell c) to_ (.talloc (slice n 10 3) (slice n 0 10)
            { cell := c, ctx := s.cur.ctx, task := s.ctxTask c s.cur.ctx, region := r, reads := reads.toNat, link := none,
              tenant := s.tenantOf r }
            try_.isSome)).holds (.talloc try_ d w reads.toNat false)))
    (∀ x : ArgDABi, s.cur.ctx ≠ 8 → asks (.talloc x) x.g x.d none (s.me.rs x.a) (s.me.srcB x.b))
    ∧ (∀ x : ArgSel, asks (.tallocTry x) x.g x.d (some x.p) (s.me.rs x.a) (s.me.srcB x.b))

/-- R155, R157, R159, R172: a handle operation on a tile of the own cell has its effect at once, with the trap of a failing
step; on another cell's tile it is sent there and its context waits; a malformed handle or read count is a fault. It rests on
readings of the model (log entry 25). -/
def Sys2Proof.HandleOperationsActOnTheirTile : Prop :=
  ∀ s : State,
    let c := s.cur.cell
    let acts (i : Instr) (g : Guard) (kind : Nat) (h : Word) (n : Nat) (d : Option SReg) : Prop :=
      let r := s.handleAt c kind h n c s.cur.ctx
      (hFormed h = false → Traps i g s { cause := 54, val := h, info := 0 })
      ∧ (hFormed h = true → hCell h = c →
        (∀ t, r.2.2 = some t → Becomes i g s (r.1.takeTrap c s.cur.ctx t))
        ∧ (r.2.2 = none → Becomes i g s (r.1.modMe fun y => (match d with
            | some d => y.ws d (word r.2.1)
            | none => y).retire)))
      ∧ (hFormed h = true → hCell h ≠ c → Becomes i g s ((s.send (.cell c) (.cell (hCell h)) (.handleOp kind h n c s.cur.ctx
          (s.ctxTask c s.cur.ctx) (s.tenantOf (s.ctxRegion c s.cur.ctx)))).holds (.handle d)))
    (∀ x : ArgABi, let n := (s.me.srcB x.b).toNat
      (n = 0 ∨ 255 < n → Traps (.tseal x) x.g s { cause := 54, val := s.me.rs x.a, info := 0 })
        ∧ (n ≠ 0 → n ≤ 255 → acts (.tseal x) x.g 0 (s.me.rs x.a) n none))
    ∧ (∀ x : ArgA, acts (.tdrop x) x.g 1 (s.me.rs x.a) 0 none)
    ∧ (∀ x : ArgDA, acts (.tcount x) x.g 2 (s.me.rs x.a) 0 (some x.d))

/-- R154, R155: the table of one tile's events. With the tile's tag: a write passes on a tile not yet consumed, a read on any
granted one; a consuming read or drop counts a sealed tile down and publishes it, and on one not yet sealed publishes it and
faults; a seal passes once, for the context the tile was granted to, before the handle is published; a count passes. With
another tag every handle operation takes the fault of a free tile. It rests on readings of the model (log entry 25). -/
def Obligations.TileEventsFollowTheirTable : Prop :=
  ∀ (t : Tile) (n : Nat) (mine : Bool),
    let pub : Tile := { t with published := true }
    let seen : Tile := if mine then t else pub
    let down : Tile := { pub with count := t.count - 1, st := if t.count ≤ 1 then .draining else .consuming }
    (t.st = .free → t.on .write true mine = (t, some 50) ∧ t.on .read true mine = (t, some 50)
      ∧ t.on .consume true mine = (t, some 49) ∧ t.on .drop true mine = (t, some 49)
      ∧ t.on (.seal n) true mine = (t, some 50) ∧ t.on .count true mine = (t, some 50))
    ∧ (t.st = .unsealed → t.on .write true mine = (t, none) ∧ t.on .read true mine = (t, none)
      ∧ t.on .consume true mine = (pub, some 52) ∧ t.on .drop true mine = (pub, some 52)
      ∧ (mine = true → t.published = false → t.on (.seal n) true mine = ({ t with st := .held, count := n }, none))
      ∧ (mine = false ∨ t.published = true → t.on (.seal n) true mine = (seen, some 52))
      ∧ t.on .count true mine = (seen, none))
    ∧ (t.st = .held → t.on .write true mine = (t, none) ∧ t.on .read true mine = (t, none)
      ∧ t.on .consume true mine = (down, none) ∧ t.on .drop true mine = (down, none)
      ∧ t.on (.seal n) true mine = (seen, some 52) ∧ t.on .count true mine = (seen, none))
    ∧ (t.st = .consuming → t.on .write true mine = (t, some 51) ∧ t.on .read true mine = (t, none)
      ∧ t.on .consume true mine = (down, none) ∧ t.on .drop true mine = (down, none)
      ∧ t.on (.seal n) true mine = (seen, some 52) ∧ t.on .count true mine = (seen, none))
    ∧ (t.st = .draining → t.on .write true mine = (t, some 51) ∧ t.on .read true mine = (t, none)
      ∧ t.on .consume true mine = (t, some 49) ∧ (t.on .drop true mine).2 = some 49
      ∧ t.on (.seal n) true mine = (seen, some 52) ∧ t.on .count true mine = (seen, none))
    ∧ t.on .drop false mine = (t, some 49) ∧ t.on (.seal n) false mine = (t, some 50) ∧ t.on .count false mine = (t, some 50)

/-- R173: `poolcfg` reports the first failing check of its table; with none the pool stands as its words say. It rests on
readings of the model (log entry 25). -/
def Sys2Proof.PoolsAreConfigured : Prop :=
  ∀ (s : State) (x : ArgPoolcfg), s.cur.ctx = 9 →
    let w := (s.me.rs x.c).toNat
    let base := (s.me.rs x.b).toNat
    let st := s.poolStatus s.cur.cell (s.me.rs x.a) w base
    (st ≠ 0 → Writes (.poolcfg x) x.g s s x.d (word st))
    ∧ (st = 0 → Writes (.poolcfg x) x.g s
        (s.setPool s.cur.cell ((s.me.rs x.a).toNat % 8) (poolOf w base x.deadline.toNat)) x.d 0)

/-- R151 to R160, R173, R174: the instructions of tiles and pools. -/
def Obligations.TileInstructionsAct : Prop :=
  TileRequestsReachTheirController ∧ HandleOperationsActOnTheirTile ∧ PoolsAreConfigured

/-- How an instruction, when ready, stops: by a trap, by a freeze in place of it (R370), or by a stall. -/
def Sys2Proof.Stops (i : Instr) (g : Guard) (s : State) : Stop → Prop
  | .trap t => Traps i g s t
  | .freeze o t => Becomes i g s (s.takeFreeze s.cur.cell s.cur.ctx o t)
  | .stall => Stalls i g s

/-- R213, R218, R330: `ldsc` and `stsc` check like other accesses, wait for all that precedes them, and, translated first where
their bytes are global, announce themselves with the window of the present time: that is their own effect, and the close of that
window, the event, completes them; a handler's is an illegal instruction. It rests on readings of the model (log entry 24). -/
def Sys2Proof.SequentiallyConsistentAccessesAnnounce : Prop :=
  ∀ (s : State) (x : ArgLdsc) (wr : Bool),
    let c := s.cur.cell
    let i : Instr := if wr then .stsc x else .ldsc x
    let q := scReq x wr s.me
    let ea := s.me.eaOf x.addr
    let a : Acc := { s.newAcc q with sc := true }
    let tells (u : State) (b : Acc) (t : State) : Prop :=
      t.mem = u.mem ∧ t.scOps = u.scOps ++ [{ window := u.clock / 32, cell := c, ctx := s.cur.ctx, seq := s.me.seq, acc := b, ready := false }]
      ∧ t.net = u.net ++ [{ src := .cell c, dst := .network, pay := .announce (u.clock / 32) c s.cur.ctx s.me.seq }]
    (s.cur.ctx = 8 → Traps i x.g s (encTrap 2 i))
    ∧ (s.cur.ctx ≠ 8 → ∀ e, s.laneCheck c s.cur.ctx q ea = some e → Stops i x.g s e)
    ∧ (s.cur.ctx ≠ 8 → s.laneCheck c s.cur.ctx q ea = none →
      (s.fullReady c s.cur.ctx = false → Stalls i x.g s)
      ∧ (s.fullReady c s.cur.ctx = true → x.addr.space ≠ .glb → ready i x.g s = true →
        ∃ t, exec i s = .next t ∧ t = s.announce (a.atLocal c x.addr.space) ∧ tells s (a.atLocal c x.addr.space) t)
      ∧ (s.fullReady c s.cur.ctx = true → x.addr.space = .glb →
        (∀ e, s.translateSc a = .error e → Stops i x.g s e)
        ∧ (∀ u b, s.translateSc a = .ok (u, b) → ready i x.g s = true →
          ∃ t, exec i s = .next t ∧ t = u.announce b ∧ t.mem = s.mem ∧ tells u b t)))

/-! ### Tasks, join counters and futures -/

/-- The signal of the executing context that sends a record, when ready: it waits for its release at module scope and for the
cell's outbound buffer; then its region counts one more record sent, the record is on its way to its target or placer, in the
buffer where it leaves the cell, and the signal counts (R209, R242, R249, R278, R326). -/
def Sys2Proof.SignalsRecord (i : Instr) (g : Guard) (s : State) (tenant : Nat) (r : Rec) (target : Word) : Prop :=
  let c := s.cur.cell
  let p := s.recordPlace c tenant r (bit target.toNat 10) (target.toNat % 2 ^ 10)
  let held : Bool := p != .cell c && !(s.cell c).outbuf.isEmpty
  (s.releaseReady c s.cur.ctx .mod = false ∨ held = true → Stalls i g s)
    ∧ (s.releaseReady c s.cur.ctx .mod = true → held = false →
      Becomes i g s (((s.countSent (headRegion r.head) c).post c p (r.pay tenant p)).signal.retire))

/-- R242, R249, R254, R258, R259, R326: `spawn` and `callat` check their head, target and reply reference in the order of the
reasons, wait for their release and the outbound buffer, and then send one record to the target; the signal is counted and their
context goes on. It rests on readings of the model (log entries 19, 32). -/
def Sys2Proof.SpawnAndCallatSendOneRecord : Prop :=
  (∀ (s : State) (x : ArgSpawn) (head reply : Word) (args : List Word),
    let c := s.cur.cell
    let r := s.ctxRegion c s.cur.ctx
    let t := word (slice s.me.sptmpl.toNat 3 18 * 8)
    let tenant := s.tenantOf r
    let n := headArgc head
    let rec_ : Rec := { head := mkHead r 0 n (headType head), reply := reply, args := args ++ List.replicate (8 - n) 0 }
    (if x.hReg then head = s.me.rs x.h else s.syncWord t = .ok head) →
    (if x.rReg then reply = s.me.rs x.r else s.syncWord (t + 8) = .ok reply) →
    (∀ f, s.headFault tenant head = some f → Traps (.spawn x) x.g s f)
    ∧ (s.headFault tenant head = none → ∀ f, s.targetFault tenant (s.me.rs x.a) = some f → Traps (.spawn x) x.g s f)
    ∧ (s.headFault tenant head = none → s.targetFault tenant (s.me.rs x.a) = none →
        s.spawnArgs x.mask.toNat t n = .ok args →
        SignalsRecord (.spawn x) x.g s tenant rec_ (s.me.rs x.a)))
  ∧ (∀ (s : State) (mask : Nat) (t : Word) (n : Nat), (∀ k, k < n → bit mask k = true) →
      s.spawnArgs mask t n = .ok ((List.range n).map fun k => s.me.rsN (4 + k)))
  ∧ (∀ (s : State) (x : ArgCallat),
      let c := s.cur.cell
      let r := s.ctxRegion c s.cur.ctx
      let t := (s.me.srcB x.t).toNat
      let tenant := s.tenantOf r
      let head := word (4 * 2 ^ 16 + t % 2 ^ 16)
      let rec_ : Rec := { head := mkHead r 1 4 t, reply := s.me.rs x.c, args := [s.me.rsN 4, s.me.rsN 5, s.me.rsN 6, s.me.rsN 7, 0, 0, 0, 0] }
      (2 ^ 16 ≤ t → Traps (.callat x) x.g s { cause := 60, val := s.me.srcB x.t, info := 1 })
      ∧ (t < 2 ^ 16 → s.headFault tenant head = none → s.targetFault tenant (s.me.rs x.a) = none →
          (∀ f, s.refFault tenant 27 (s.me.rs x.c) = some f → Traps (.callat x) x.g s f)
          ∧ (s.refFault tenant 27 (s.me.rs x.c) = none →
            SignalsRecord (.callat x) x.g s tenant rec_ (s.me.rs x.a))))

/-- R253, R257, R260, R262, R264, R265, R326: a signal to an owner checks its references, waits for its release and the outbound
buffer, and sends one request; `jdec` counts the signal and goes on, the others wait for the owner's answer; a `reply` with no reply
reference is a fault. It rests on readings of the model (log entry 32). -/
def Sys2Proof.SignalsToOwnersAreSent : Prop :=
  ∀ s : State,
    let c := s.cur.cell
    let tenant := s.tenantOf (s.ctxRegion c s.cur.ctx)
    let held (ref : Word) : Bool := refCell ref != c && !(s.cell c).outbuf.isEmpty
    let asks (i : Instr) (g : Guard) (k : OwnKind) (ref : Word) (d : Option SReg) : Prop :=
      s.refFault tenant 27 ref = none →
        (s.releaseReady c s.cur.ctx .mod = false ∨ 64 ≤ s.replyLoad c ∨ held ref = true → Stalls i g s)
        ∧ (s.releaseReady c s.cur.ctx .mod = true → s.replyLoad c < 64 → held ref = false →
            Becomes i g s ((s.post c (.cell (refCell ref)) (.owner (s.ownReq k ref))).holds (.owner d)))
    (∀ x : ArgA, s.cur.ctx ≠ 8 → let ref := (s.me.task.map (·.record.reply)).getD 0
      (ref = 0 → Traps (.reply x) x.g s { cause := 60, val := 0, info := 4 })
        ∧ (ref ≠ 0 → asks (.reply x) x.g (.fres true ((s.me.rs x.a).toNat % 2 ^ 62)) ref none))
    ∧ (∀ x : ArgFres, s.cur.ctx ≠ 8 →
        asks (.fres x) x.g (.fres (!x.fault) ((s.me.rs x.b).toNat % 2 ^ 62)) (s.me.rs x.a) none)
    ∧ (∀ x : ArgDAB, s.cur.ctx ≠ 8 →
        (∀ t, s.refFault tenant 27 (s.me.rs x.a) = none → s.contFault tenant (s.me.rs x.b) = some t → Traps (.freg x) x.g s t)
        ∧ (s.contFault tenant (s.me.rs x.b) = none → asks (.freg x) x.g (.freg (s.me.rs x.b).toNat) (s.me.rs x.a) (some x.d)))
    ∧ (∀ x : ArgABi, s.refFault tenant 25 (s.me.rs x.a) = none →
        let n := (s.me.srcB x.b).toNat
        (n = 0 ∨ 2 ^ 32 ≤ n → Traps (.jdec x) x.g s { cause := 60, val := s.me.srcB x.b, info := 5 })
        ∧ (n ≠ 0 → n < 2 ^ 32 →
          (s.releaseReady c s.cur.ctx .mod = false ∨ held (s.me.rs x.a) = true → Stalls (.jdec x) x.g s)
          ∧ (s.releaseReady c s.cur.ctx .mod = true → held (s.me.rs x.a) = false → Becomes (.jdec x) x.g s
              ((s.post c (.cell (refCell (s.me.rs x.a))) (.owner (s.ownReq (.jdec n) (s.me.rs x.a)))).signal.retire))))

/-- Whether an instruction's own write of n bytes of `.loc` at an address finds the address granted, no tile that forbids it and
nothing that holds it (R166, R188). -/
def Sys2Proof.writable (s : State) (a n : Nat) : Bool :=
  s.grantCheck s.cur.cell s.cur.ctx .loc a n true && (s.tileCheck s.cur.cell .loc a n true (word a)).isNone
    && !(s.cell s.cur.cell).conflicts .loc a n true && !s.localHeld s.cur.cell s.cur.ctx [(locA s.cur.cell a, n)]

/-- R250, R251, R261, R263: `jnew` and `fnew` write the control words of a new object of the task's region at an aligned
address of their cell and give its reference; a misaligned address, or a count that is no count, is a fault. It rests on
readings of the model (log entry 32). -/
def Sys2Proof.NewObjectsAreWritten : Prop :=
  ∀ s : State,
    let c := s.cur.cell
    let r := s.ctxRegion c s.cur.ctx
    (∀ x : ArgDABi,
      let a := (s.me.rs x.a).toNat
      let n := (s.me.srcB x.b).toNat
      (n = 0 ∨ 2 ^ 32 ≤ n → Traps (.jnew x) x.g s { cause := 60, val := s.me.srcB x.b, info := 5 })
      ∧ (n ≠ 0 → n < 2 ^ 32 → a % 64 ≠ 0 → Traps (.jnew x) x.g s { cause := 6, val := s.me.rs x.a, info := 0 })
      ∧ (n ≠ 0 → n < 2 ^ 32 → a % 64 = 0 → writable s a 8 = true → Becomes (.jnew x) x.g s
          ((s.writeLocal c .loc a (leBytes 8 (2 ^ 62 + r * 2 ^ 32 + n))).modMe fun y =>
            { (y.ws x.d (word (c + a / 64 % 2 ^ 15 * 2 ^ 10))) with seq := y.seq + 1 }.retire)))
    ∧ (∀ x : ArgDA,
      let a := (s.me.rs x.a).toNat
      (a % 16 ≠ 0 → Traps (.fnew x) x.g s { cause := 6, val := s.me.rs x.a, info := 0 })
      ∧ (a % 16 = 0 → writable s a 16 = true → Becomes (.fnew x) x.g s
          ((s.writeLocal c .loc a (leBytes 8 0 ++ leBytes 8 r)).modMe fun y =>
            { (y.ws x.d (word (c + a / 16 % 2 ^ 17 * 2 ^ 10))) with seq := y.seq + 1 }.retire)))

/-- R255 to R265: the instructions of tasks, joins and futures. -/
def Obligations.RecordsSignalsAndObjectsAreSent : Prop :=
  SpawnAndCallatSendOneRecord ∧ SignalsToOwnersAreSent ∧ NewObjectsAreWritten

/-! ### Regions and budgets -/

/-- R132, R150, R269, R281: `rgnact new` reads its image and its grant list; a status reports the first failing check, else a
child with a number that no region has is added and its number given; the rows and the scratchpad bytes that its own grant list
takes from the parent are zero. It rests on readings of the model (log entries 15, 29). -/
def Sys2Proof.NewRegionsAreAdded : Prop :=
  ∀ (s : State) (x : ArgDAB) (bs list : List Byte), s.cur.ctx = 9 →
    let parent := (s.me.rs x.b).toNat
    let n := if imageOk bs then fieldAt bs 72 2 else 0
    let no := freeNumber (0 :: s.regions.map (·.1)) 65536 4 s.fresh
    let gs := (List.range n).map fun k => grantOf (list.drop (32 * k))
    s.syncRead (s.me.rs x.a) 128 64 = .ok bs →
    (if n = 0 then list = [] else s.syncRead (word (fieldAt bs 80 8)) (32 * n) 32 = .ok list) →
    (∀ e, s.newRegion bs gs parent = .error e → Writes (.rgnactNew x) x.g s s x.d (word (2 ^ 63 + e)))
    ∧ (∀ r, s.newRegion bs gs parent = .ok r →
        let held := ((s.region parent).map (·.grants)).getD []
        Writes (.rgnactNew x) x.g s
          (((if n = 0 then s else r.grants.foldl (fun u g => u.passGrant g) s)).addRegion no r
            (r.grants.filter fun g => !(held.any fun q => q.cell == g.cell && q.vsp == g.vsp))) x.d (word no))

/-- R225, R269, R279, R281: a child's fields are its parent's but for those that its image sets, one level deeper; its image is
refused with the status of the first failing check: the image and the grants, the parent, the depth, the containment and the
isolation partition, the ASID. It rests on readings of the model (log entries 29, 59). -/
def Sys2Proof.ChildrenInheritFromTheirParent : Prop :=
  ∀ (s : State) (bs : List Byte) (gs : List (Option Grant)) (parent : Nat),
    let own := gs.filterMap id
    let good : Prop := imageOk bs = true ∧ (∀ g ∈ gs, g.isSome = true) ∧ own.all s.grantOk = true
      ∧ (own.map (·.cell)).eraseDups.length = own.length
    (¬ good → s.newRegion bs gs parent = .error 1)
    ∧ (good → (s.region parent = none ∨ s.mine parent = false) → s.newRegion bs gs parent = .error 3)
    ∧ (∀ p, good → s.region parent = some p → s.mine parent = true →
        let inside : Prop := ∀ g ∈ own, ∃ q ∈ p.grants, q.cell = g.cell ∧ g.within q = true
        let grants := if own.isEmpty then p.grants else own
        let part := if bit (fieldAt bs 0 8) 6 then fieldAt bs 37 1 else p.partition
        let asid := if bit (fieldAt bs 0 8) 8 then fieldAt bs 40 2 else p.asid
        let kept : Bool := s.partitionOk p.tenant part (grants.map (·.cell))
        let asidTaken : Prop := bit (fieldAt bs 0 8) 8 = true
          ∧ (s.asidFree p.tenant asid = false ∨ s.asidRooted p.tenant asid = false)
        (8 ≤ p.depth ∨ ¬ inside ∨ kept = false → s.newRegion bs gs parent = .error 2)
        ∧ (p.depth < 8 → inside → kept = true → (asidTaken ∨ 65535 ≤ s.regions.length) → s.newRegion bs gs parent = .error 5)
        ∧ (p.depth < 8 → inside → kept = true → ¬ asidTaken → s.regions.length < 65535 → ∃ r, s.newRegion bs gs parent = .ok r)
        ∧ (∀ r, s.newRegion bs gs parent = .ok r →
            r.parent = parent ∧ r.tenant = p.tenant ∧ r.depth = p.depth + 1
            ∧ r.grants = grants ∧ r.partition = part ∧ r.asid = asid
            ∧ r.priority = (if bit (fieldAt bs 0 8) 0 then fieldAt bs 8 1 else p.priority)
            ∧ r.budgetCap = (if bit (fieldAt bs 0 8) 2 then fieldAt bs 16 8 else p.budgetCap)
            ∧ r.exec = [] ∧ r.parked = false ∧ r.frozen = false))

/-- R269, R270, R281: a region created, and what it takes from its parent. -/
def Obligations.RegionsAreCreated : Prop := NewRegionsAreAdded ∧ ChildrenInheritFromTheirParent

/-- R274, R278, R281: `park`, `resume` and `quiet` answer 3 for a region that is not the tenant's own and 4 for one in the
wrong state; `park` waits while the subtree is busy and then switches it out; `resume` switches it in; `quiet` compares two
consecutive counting waves. It rests on readings of the model (log entries 27, 29). -/
def Sys2Proof.RegionsParkResumeAndCount : Prop :=
  ∀ (s : State) (x : ArgDA), s.cur.ctx = 9 →
    let n := (s.me.rs x.a).toNat
    let fails (i : Instr) (k : Nat) : Prop := Writes i x.g s s x.d (word (2 ^ 63 + k))
    let parked : Bool := ((s.region n).map (·.parked)).getD false
    let now := s.waveOf [n]
    (65535 < n ∨ s.mine n = false →
      fails (.rgnactPark x) 3 ∧ fails (.rgnactResume x) 3 ∧ fails (.rgnactQuiet x) 3)
    ∧ (n ≤ 65535 → s.mine n = true →
      (parked = true → fails (.rgnactPark x) 4)
      ∧ (parked = false → (∃ c ∈ s.cells, s.busyOn c.1 n = true) →
          Becomes (.rgnactPark x) x.g s ((s.modRegion n fun q => { q with
            parking := s.cur.cell :: q.parking.filter (· ≠ s.cur.cell) }).modMe fun y => { y with stalled := true }))
      ∧ (parked = false → (∀ c ∈ s.cells, s.busyOn c.1 n = false) → Writes (.rgnactPark x) x.g s (s.park n) x.d (word n))
      ∧ (parked = false → fails (.rgnactResume x) 4)
      ∧ (parked = true → Writes (.rgnactResume x) x.g s (s.unpark n) x.d (word n))
      ∧ ((s.region n).bind (·.wave) = none → Becomes (.rgnactQuiet x) x.g s
          ((s.modRegion n fun q => { q with wave := some now }).modMe fun y => { y with stalled := true }))
      ∧ (∀ before, (s.region n).bind (·.wave) = some before → Writes (.rgnactQuiet x) x.g s
          (s.modRegion n fun q => { q with wave := none }) x.d
          (if before.1 = before.2 ∧ now = before then 1 else 0)))

/-- R278, R282, R283: `kill` tears a subtree down at once and `exit` when two consecutive waves find it quiescent: its end begins,
the context waits while something of it that has started is under way, then it ends; both answer 3 for a region that they may not
kill; `ext` extends a budget once. It rests on readings of the model (log entries 27, 29). -/
def Sys2Proof.RegionsEndAndBudgetsExtend : Prop :=
  (∀ (s : State) (x : ArgDA), s.cur.ctx = 9 →
    let n := (s.me.rs x.a).toNat
    let now := s.waveOf (s.subtree n)
    let dying : Bool := ((s.region n).map (·.dying)).getD false
    let u := if dying then s else s.endSubtree n
    let ends (i : Instr) : Prop :=
      (u.subtreeBusy n = false → Writes i x.g s (u.finishTearDown n) x.d 0)
        ∧ (u.subtreeBusy n = true → Becomes i x.g s (u.modMe fun y => { y with stalled := true }))
    (s.killable n = false → Writes (.rgnkillKill x) x.g s s x.d 3 ∧ Writes (.rgnkillExit x) x.g s s x.d 3)
    ∧ (s.killable n = true →
      ends (.rgnkillKill x)
      ∧ (dying = true ∨ (now.1 = now.2 ∧ (s.region n).bind (·.wave) = some now) → ends (.rgnkillExit x))
      ∧ (dying = false → now.1 ≠ now.2 ∨ (s.region n).bind (·.wave) ≠ some now → Becomes (.rgnkillExit x) x.g s
          ((s.modRegion n fun q => { q with wave := some now }).modMe fun y => { y with stalled := true }))))
  ∧ (∀ (s : State) (x : ArgD), s.cur.ctx = 9 →
      ((s.cell s.cur.cell).run9 = none → Writes (.budgetExt x) x.g s s x.d 2)
      ∧ (∀ r, (s.cell s.cur.cell).run9 = some r →
        (s.extStatus r ≠ 0 → Writes (.budgetExt x) x.g s s x.d (word (s.extStatus r)))
        ∧ (s.extStatus r = 0 → Writes (.budgetExt x) x.g s (s.modCtx s.cur.cell r.trap.ctx fun y => { y with
            task := y.task.map fun t => { t with ext := ((s.region t.region).map (·.ext)).getD 0, extended := true } }) x.d 0)))

/-- R282, R354: after a tear-down no region of the subtree is left and every other is, and the records of the placers, the
barriers, the reductions and the clusters of its regions are gone. It rests on readings of the model (log entries 27, 29). -/
def Sys2Proof.TearDownEndsTheSubtree : Prop :=
  ∀ (s : State) (n : Nat),
    let rs := s.subtree n
    let t := s.finishTearDown n
    (∀ k ∈ rs, t.region k = none) ∧ (∀ k ∉ rs, (t.region k).isSome = (s.region k).isSome)
    ∧ (∀ b ∈ t.bars, b.2.owner ∉ rs) ∧ (∀ r ∈ t.reds, r.2.bar.owner ∉ rs) ∧ (∀ c ∈ t.clusters, c.2.region ∉ rs)
    ∧ (∀ p ∈ t.placers, ∀ q ∈ p.2, headRegion q.record.head ∉ rs)

/-- R272, R274, R278, R282, R284, R286: the other instructions of regions and budgets. -/
def Obligations.RegionsParkAndEnd : Prop :=
  RegionsParkResumeAndCount ∧ RegionsEndAndBudgetsExtend ∧ TearDownEndsTheSubtree

/-! ### Ports and hubs -/

/-- Whether some offers of the executing task must wait for the cell's outbound buffer (R326). -/
def Sys2Proof.offersHeld (s : State) (os : List Offer) : Bool :=
  (os.filterMap (s.offerTo s.taskTenant)).any fun t => s.outHeld s.cur.cell t.1

/-- The state with some offers of the executing task on their way to their ports, by the outbound buffer where they leave the cell. -/
def Sys2Proof.offersSent (s : State) (os : List Offer) : State :=
  (os.filterMap (s.offerTo s.taskTenant)).foldl (fun u t => u.post s.cur.cell t.1 t.2) s

/-- R300, R302, R326: `put` and `get` refuse a slot for the first reason that holds, and a remote port whose link is not up for the
tenant; else, when the outbound buffer is free, they send one offer to the port's hub, `put` after its release, and their context waits. It rests on readings of the model (log
entries 33, 34, 39). -/
def Sys2Proof.PutAndGetOfferOnce : Prop :=
  ∀ s : State, s.cur.ctx < 8 →
    let c := s.cur.cell
    let link (k : Nat) : Option TrapInfo := (s.me.slots.getD k none).bind fun p => s.linkFault s.taskTenant p.name
    let give (x : ArgPut) : List Offer := [s.mkOffer x.k.val (some (s.me.rs x.a)) none]
    let take (x : ArgGet) : List Offer := [s.mkOffer x.k.val none none]
    (∀ x : ArgPut, let k := x.k.val
      (∀ r, s.slotReason k (some false) = some r → Traps (.put x) x.g s { cause := 62, val := word k, info := word r })
      ∧ (s.slotReason k (some false) = none → ∀ t, link k = some t → Traps (.put x) x.g s t)
      ∧ (s.slotReason k (some false) = none → link k = none →
        (s.releaseReady c s.cur.ctx (s.offerScope k) = false ∨ offersHeld s (give x) = true → Stalls (.put x) x.g s)
        ∧ (s.releaseReady c s.cur.ctx (s.offerScope k) = true → offersHeld s (give x) = false → Becomes (.put x) x.g s
            ((offersSent s (give x)).holds (.port x.d [k] none false false)))))
    ∧ (∀ x : ArgGet, let k := x.k.val
      (∀ r, s.slotReason k (some true) = some r → Traps (.get x) x.g s { cause := 62, val := word k, info := word r })
      ∧ (s.slotReason k (some true) = none →
        (offersHeld s (take x) = true → Stalls (.get x) x.g s)
        ∧ (offersHeld s (take x) = false → Becomes (.get x) x.g s ((offersSent s (take x)).holds (.port x.d [k] none false false)))))

/-- The first slot of an `alt` that may not be used, with its reason (R300, R304). -/
def Sys2Proof.altFault (s : State) (ks : List Nat) : Option TrapInfo :=
  ks.findSome? fun k =>
    (if (s.me.slots.getD k none).map (fun p => portRemote p.name) = some true then some 2 else s.slotReason k none).map fun r =>
      { cause := 62, val := word k, info := word r }

/-- R300, R304: `alt` offers at every slot of its mask, which one hub must hold, the values of its outputs taken from
consecutive registers in the slots' rising order, when the outbound buffer is free; its context waits for one of them. It rests on
readings of the model (log entries 33, 34). -/
def Sys2Proof.AltOffersAtEverySlot : Prop :=
  ∀ (s : State) (x : ArgAlt), s.cur.ctx < 8 →
    let ks := maskSlots x.mask.toNat
    let hubs := (ks.filterMap fun k => (s.me.slots.getD k none).map (·.hub)).eraseDups
    let isIn (k : Nat) : Bool := ((s.me.slots.getD k none).map (·.isIn)).getD false
    let output : Bool := ks.any fun k => ((s.me.slots.getD k none).map (·.isIn)) == some false
    let os := ks.zipIdx.map fun k => s.mkOffer k.1 (if isIn k.1 then none else some (s.me.rsN (x.a.val + k.2))) (some s.me.seq)
    (∀ t, altFault s ks = some t → Traps (.alt x) x.g s t)
    ∧ (altFault s ks = none → 1 < hubs.length → Traps (.alt x) x.g s { cause := 62, val := word (ks.headD 0), info := 5 })
    ∧ (altFault s ks = none → hubs.length ≤ 1 →
      ((output = true ∧ s.releaseReady s.cur.cell s.cur.ctx .mod = false) ∨ offersHeld s os = true → Stalls (.alt x) x.g s)
      ∧ (output = false ∨ s.releaseReady s.cur.cell s.cur.ctx .mod = true → offersHeld s os = false → Becomes (.alt x) x.g s
          ((offersSent s os).modMe fun y => { y with seq := s.me.seq + 1, st := .waiting (.port x.d ks (some x.a) true false), stalled := false })))

/-- R302 to R304: `put`, `get` and `alt`. -/
def Obligations.PortInstructionsOffer : Prop := PutAndGetOfferOnce ∧ AltOffersAtEverySlot

/-- R285, R300, R305: `pbind` refuses a slot that the task does not have; else it unbinds the slot, and with s0 it is done; a
name that is malformed or that no directory holds is a fault after the unbinding, another goes to its port's hub while the
context waits. It rests on readings of the model (log entry 33). -/
def Sys2Proof.PbindUnbindsThenAsks : Prop :=
  ∀ (s : State) (x : ArgPbind), s.cur.ctx < 8 →
    let c := s.cur.cell
    let i := s.cur.ctx
    let k := x.k.val
    let name := s.me.rs x.a
    let region := (s.me.task.map (·.region)).getD 0
    let u := s.unbindSlot c i k
    let fault : State := u.takeTrap c i { cause := 62, val := name, info := 2 }
    let asked (p : Place) (link : Option Nat) : State :=
      (u.send (.cell c) p (.pbind c i (u.ctxTask c i) k name region s.taskTenant)).holds (.pbind name link)
    ((s.me.task.map (·.ports)).getD 0 ≤ k → Traps (.pbind x) x.g s { cause := 62, val := if x.a.val = 0 then 0 else name, info := 1 })
    ∧ (k < (s.me.task.map (·.ports)).getD 0 →
      (x.a.val = 0 → Becomes (.pbind x) x.g s u.retire)
      ∧ (x.a.val ≠ 0 → portFormed name = false → Becomes (.pbind x) x.g s fault)
      ∧ (x.a.val ≠ 0 → portFormed name = true → portRemote name = true →
        (∀ t, u.linkFault s.taskTenant name = some t → Becomes (.pbind x) x.g s (u.takeTrap c i t))
        ∧ (u.linkFault s.taskTenant name = none → Becomes (.pbind x) x.g s (asked (.link (portLink name)) (some (portLink name)))))
      ∧ (x.a.val ≠ 0 → portFormed name = true → portRemote name = false →
        (u.lookup s.taskTenant name = none → Becomes (.pbind x) x.g s fault)
        ∧ (∀ h, u.lookup s.taskTenant name = some h → Becomes (.pbind x) x.g s (asked (.cell h.1) none))))

/-- R320, R321: `cload` reads its image and loads it, or answers the first failing check; `cdrop` drops the tenant's slot that
its word names, and answers 3 for another tenant's and 1 for none. It rests on readings of the model (log entry 33). -/
def Sys2Proof.HubsLoadAndDrop : Prop :=
  (∀ (s : State) (x : ArgDAB) (head bs : List Byte), s.cur.ctx = 9 →
    let w := (s.me.rs x.b).toNat
    let r := s.loadHub s.cur.cell bs (w % 2 ^ 16) (if 2 ^ 32 ≤ w then 0 else slice w 16 16) s.myTenant
    s.syncRead (s.me.rs x.a) 128 64 = .ok head → s.syncRead (s.me.rs x.a) (hubImageSize head) 64 = .ok bs →
    (∀ e, r = .error e → Writes (.cload x) x.g s s x.d (word e))
    ∧ (∀ j t, r = .ok (j, t) → Writes (.cload x) x.g s t x.d (word (j * 2 ^ 8))))
  ∧ (∀ (s : State) (x : ArgDA), s.cur.ctx = 9 →
      let w := (s.me.rs x.a).toNat
      let hit (h : HubSlot) : Bool := w < 2 ^ 24 && h.conn == w % 2 ^ 16 && h.image.creg == slice w 16 8
      let mine := (s.cell s.cur.cell).hub.find? fun h => hit h.2 && h.2.tenant == s.myTenant
      (∀ j h, mine = some (j, h) → Writes (.cdrop x) x.g s (s.dropHub s.cur.cell j) x.d 0)
      ∧ (mine = none → Writes (.cdrop x) x.g s s x.d (if (s.cell s.cur.cell).hub.any fun h => hit h.2 then 3 else 1)))

/-- R305, R317 to R321: `pbind`, and the hub images. -/
def Obligations.PortsBindAndHubsLoad : Prop := PbindUnbindsThenAsks ∧ HubsLoadAndDrop

/-! ### Messages and atomics -/

/-- The atomic of a class (R334). -/
def Sys2Proof.atomicOf (x : ArgAtom) (cls : Fin 8) : Instr :=
  match cls with
  | 0 => .aadd x
  | 1 => .aand x
  | 2 => .aor x
  | 3 => .axor x
  | 4 => .amax x
  | 5 => .amin x
  | 6 => .aswp x
  | 7 => .acas x

/-- Whether context 8 of the executing cell is free for an atomic of the executing context (R330, R334). -/
def Sys2Proof.handlerFree (s : State) : Bool :=
  s.cur.ctx = 8 || ((s.cell s.cur.cell).run8.isNone && (s.cell s.cur.cell).in8.isEmpty && (s.cell s.cur.cell).over8.isEmpty)

/-- What an atomic, which the class gives, does when ready on a local space once its checks are passed: a key's stop; while
something holds it, a stall; with context 8 free, the old value to its destination, the new one at its home, the next slot; else it
joins the queue of context 8 and its context goes on (R212, R234, R271, R330, R334). -/
def Sys2Proof.LocalAtomic (s : State) (x : ArgAtom) (cls : Fin 8) : Prop :=
  let c := s.cur.cell
  let i := atomicOf x cls
  let ea := s.me.atomicEa x
  let n := tyBytes x.ty
  let a := (s.newAtomic x cls.val ea).atLocal c x.space
  let key := s.keyCheck c x.space ea.toNat n (s.tenantOf (s.ctxRegion c s.cur.ctx)) ea
  let held : Bool := s.localHeld c s.cur.ctx [(localHome c x.space ea.toNat, n)] || (a.ordRel && !s.releaseReady c s.cur.ctx x.scope)
  let u := if s.cur.ctx = 8 then s else s.chargeTo c (s.tenantOf (s.ctxRegion c s.cur.ctx)) .handler 1
  let r := u.performAtomic a cls.val
  (∀ e, key = some e → Stops i x.g s e)
  ∧ (key = none → held = true → Stalls i x.g s)
  ∧ (key = none → held = false → handlerFree s = true →
    (s.atomicHeld a = true → Stalls i x.g s)
    ∧ (s.atomicHeld a = false → s.badUnit a = none → ready i x.g s = true →
      ∃ t, exec i s = .next t ∧ t.mem = r.1.mem
        ∧ t = r.1.modMe fun y => { (y.ws x.data (loadWord x.ty (leBytes n r.2.toNat))) with seq := y.seq + 1 }.retire)
    ∧ (∀ k, s.atomicHeld a = false → s.badUnit a = some k → Becomes i x.g s (s.issued.faultMem a k)))
  ∧ (key = none → held = false → handlerFree s = false →
    (64 ≤ s.replyLoad c → Stalls i x.g s)
    ∧ (s.replyLoad c < 64 → Becomes i x.g s ((s.enqueue8 c (.atomic a)).issued)))

/-- What an atomic does when ready on a peer's scratchpad or on global memory once its checks are passed (R230, R231, R330, R333,
R334): a rank with no peer, or bytes outside the grant there, is a trap; else it goes to the peer. A global one goes to the column's
station; a handler's is translated and performed in line where its home is the handler's cell. -/
def Sys2Proof.RemoteAtomic (s : State) (x : ArgAtom) (cls : Fin 8) : Prop :=
  let c := s.cur.cell
  let i := atomicOf x cls
  let ea := s.me.atomicEa x
  let n := tyBytes x.ty
  let a := s.newAtomic x cls.val ea
  let rank := word (slice (s.me.rs x.base).toNat 56 8)
  let piece (k : Nat) : Piece := { lane := 0, off := 0, len := n, home := locA k ea.toNat }
  let at_ (k : Nat) : Acc := { a with peer := some k, done := true, rank := rank.toNat, pieces := [piece k] }
  (x.space = .peer →
    (s.peerCell rank = none → Traps i x.g s { cause := 28, val := ea, info := rank })
    ∧ (∀ k, s.peerCell rank = some k → s.granted (s.ctxRegion c s.cur.ctx) k .loc ea.toNat n = false →
        Traps i x.g s { cause := 7, val := ea, info := 0 })
    ∧ (∀ k, s.peerCell rank = some k → s.granted (s.ctxRegion c s.cur.ctx) k .loc ea.toNat n = true →
      (64 ≤ s.replyLoad c ∨ s.outHeld c (.cell k) = true → Stalls i x.g s)
      ∧ (s.replyLoad c < 64 → s.outHeld c (.cell k) = false → Becomes i x.g s
        (s.post c (.cell k) (.atomicReq (at_ k))).issued)))
  ∧ (x.space = .glb → 64 ≤ s.replyLoad c → Stalls i x.g s)
  ∧ (x.space = .glb → s.replyLoad c < 64 → s.cur.ctx ≠ 8 →
    (∀ t, s.issueTrap a = some t → Traps i x.g s t)
    ∧ (s.issueTrap a = none → (s.glbHeld c s.cur.ctx = true ∨ 16 ≤ s.stationLoad c ∨ s.outHeld c (stationPlace c) = true) → Stalls i x.g s)
    ∧ (s.issueTrap a = none → s.glbHeld c s.cur.ctx = false → s.stationLoad c < 16 → s.outHeld c (stationPlace c) = false →
        Becomes i x.g s (s.post c (stationPlace c) (.stationReq a)).issued))
  ∧ (x.space = .glb → s.replyLoad c < 64 → s.cur.ctx = 8 →
    let waits : Prop := s.glbHeld c 8 = true ∨ 16 ≤ s.stationLoad c ∨ ∃ b ∈ s.moving c 8, b.done = false
    (waits → Stalls i x.g s)
    ∧ (¬ waits → ∀ u ps, s.translateNow a 2 = (u, .ok ps) →
      let b := a.translated ps
      let home := ((ps.head?).map (·.home)).getD 0
      let r := u.performAtomic b cls.val
      (∀ t, u.pageTrap b ps = some t → Traps i x.g s t)
      ∧ (u.pageTrap b ps = none → homeCell home ≠ c → Traps i x.g s { cause := 63, val := ea, info := 7 })
      ∧ (u.pageTrap b ps = none → homeCell home = c → u.lineHeld b = true → Stalls i x.g s)
      ∧ (u.pageTrap b ps = none → homeCell home = c → u.lineHeld b = false → u.badUnit b = none → Becomes i x.g s
          (r.1.modMe fun y => { (y.ws x.data (loadWord x.ty (leBytes n r.2.toNat))) with seq := y.seq + 1 }.retire))))

/-- What a `.sc` atomic does when ready once its checks are passed (R213, R218, R326, R334): after all that precedes it, translated or
found at its peer first, and with the outbound buffer free for its message, it announces itself and its message goes to its home, while
its context waits. -/
def Sys2Proof.AnnouncedAtomic (s : State) (x : ArgAtom) (cls : Fin 8) : Prop :=
  let c := s.cur.cell
  let i := atomicOf x cls
  let ea := s.me.atomicEa x
  let n := tyBytes x.ty
  let a := s.newAtomic x cls.val ea
  let rank := word (slice (s.me.rs x.base).toNat 56 8)
  let key := s.keyCheck c x.space ea.toNat n (s.tenantOf (s.ctxRegion c s.cur.ctx)) ea
  let piece (k : Nat) : Piece := { lane := 0, off := 0, len := n, home := locA k ea.toNat }
  let at_ (k : Nat) : Acc := { a with peer := some k, done := true, rank := rank.toNat, pieces := [piece k] }
  let first : Prop := s.fullReady c s.cur.ctx = true ∧ s.replyLoad c < 64
  let tells (u : State) (b : Acc) : Prop :=
    let p : Place := .cell (homeCell (((b.pieces.head?).map (·.home)).getD 0))
    (u.outHeld c p = true → Stalls i x.g s)
      ∧ (u.outHeld c p = false → Becomes i x.g s (((u.announceAcc b).post c p (.atomicReq b)).modMe fun y =>
          { y with seq := y.seq + 1, st := .waiting .sc, stalled := false }))
  (s.fullReady c s.cur.ctx = false ∨ 64 ≤ s.replyLoad c → Stalls i x.g s)
  ∧ (first → x.space ≠ .glb → x.space ≠ .peer →
    (∀ e, key = some e → Stops i x.g s e) ∧ (key = none → tells s (a.atLocal c x.space)))
  ∧ (first → x.space = .glb →
    (∀ e, s.translateSc a = .error e → Stops i x.g s e)
      ∧ (∀ u b, s.translateSc a = .ok (u, b) → tells u b))
  ∧ (first → x.space = .peer →
    (s.peerCell rank = none → Traps i x.g s { cause := 28, val := ea, info := rank })
    ∧ (∀ k, s.peerCell rank = some k → s.granted (s.ctxRegion c s.cur.ctx) k .loc ea.toNat n = false →
        Traps i x.g s { cause := 7, val := ea, info := 0 })
    ∧ (∀ k, s.peerCell rank = some k → s.granted (s.ctxRegion c s.cur.ctx) k .loc ea.toNat n = true →
        tells s (at_ k)))

/-- R213, R330, R333, R334: a handler's `.sc` atomic is an illegal instruction, and an atomic that fails a check traps; each other
waits for room in its context's loads class and then acts at its home, in every space and order. It rests on readings of the model
(log entries 22, 24). -/
def Sys2Proof.AtomicsArePerformedAtTheirHome : Prop :=
  ∀ (s : State) (x : ArgAtom) (cls : Fin 8),
    let i := atomicOf x cls
    let check := s.atomicCheck x (s.me.atomicEa x)
    let allowed : Prop := s.cur.ctx ≠ 8 ∨ x.ord ≠ .sc
    let goes : Prop := allowed ∧ check = none ∧ s.loadCount s.cur.cell s.cur.ctx < 16
    (s.cur.ctx = 8 → x.ord = .sc → Traps i x.g s (encTrap 2 i))
    ∧ (allowed → ∀ t, check = some t → Traps i x.g s t)
    ∧ (allowed → check = none → 16 ≤ s.loadCount s.cur.cell s.cur.ctx → Stalls i x.g s)
    ∧ (goes → x.ord = .sc → AnnouncedAtomic s x cls)
    ∧ (goes → x.ord ≠ .sc → x.space ≠ .glb → x.space ≠ .peer → LocalAtomic s x cls)
    ∧ (goes → x.ord ≠ .sc → x.space = .glb ∨ x.space = .peer → RemoteAtomic s x cls)

/-- R334: what each atomic makes of the old value and its operands, at the width of its type; a failed compare of `acas` leaves
the old value. -/
def Sys2Proof.AtomicsComputeTheirFunction : Prop :=
  ∀ (w : Nat) (o v v2 : BitVec w), 0 < w →
    let f (cls : Nat) (sg : Bool) : BitVec w := BitVec.ofNat w (atomicNew cls w sg o.toNat v.toNat v2.toNat)
    ∀ sg, f 0 sg = o + v ∧ f 1 sg = o &&& v ∧ f 2 sg = o ||| v ∧ f 3 sg = o ^^^ v
      ∧ f 4 true = (if o.slt v then v else o) ∧ f 4 false = (if o.ult v then v else o)
      ∧ f 5 true = (if v.slt o then v else o) ∧ f 5 false = (if v.ult o then v else o)
      ∧ f 6 sg = v ∧ f 7 sg = if o = v then v2 else o

/-- R213, R333, R334: atomics, and the accesses of the order S. -/
def Obligations.AtomicsActAtTheirHome : Prop :=
  AtomicsArePerformedAtTheirHome ∧ AtomicsComputeTheirFunction ∧ SequentiallyConsistentAccessesAnnounce

/-- R332, R335: a message to a name that is malformed, or across a link that is not up for the tenant, is a message fault, and one to another
tenant's name freezes; else the message, after its release, takes the cell's output buffer and its context goes on. It rests
on readings of the model (log entries 34, 39). -/
def Obligations.MessagesTakeTheOutputBuffer : Prop :=
  ∀ (s : State) (x : ArgAmsg),
    let c := s.cur.cell
    let name := s.me.rs x.a
    let remote := epRemote name
    let bad : Prop := 2 ^ 44 ≤ name.toNat ∨ (remote = true ∧ s.linkOpen (epLink name) s.myTenant = false)
    let known : Bool := s.regions.any fun r => r.2.asid == epAsid name && r.2.tenant == s.myTenant
    let scope : Scope := if remote then .sys else .mod
    let m : Msg :=
      { name := name, target := name, cls := x.cls.val, n := x.n.val, words := (List.range x.n.val).map fun k => s.me.rsN (x.b.val + k),
        hops := 0, cell := c, ctx := s.cur.ctx, task := s.ctxTask c s.cur.ctx, region := s.ctxRegion c s.cur.ctx, tenant := s.myTenant,
        link := none }
    let f : Flight := { src := .cell c, dst := if remote then .link (epLink name) else .cell (epCell name), pay := .message m }
    (bad → Traps (.amsg x) x.g s { cause := 63, val := name, info := 1 })
    ∧ (¬ bad → remote = false → known = false → Becomes (.amsg x) x.g s
        (s.takeFreeze c s.cur.ctx .message { cause := 63, val := name, info := 2 }))
    ∧ (¬ bad → (remote = true ∨ known = true) →
      (s.releaseReady c s.cur.ctx scope = false ∨ (s.cell c).outbuf ≠ [] → Stalls (.amsg x) x.g s)
      ∧ (s.releaseReady c s.cur.ctx scope = true → (s.cell c).outbuf = [] → Becomes (.amsg x) x.g s
          ((s.modCell c fun y => { y with outbuf := [f] }).modMe Ctx.retire)))

/-- R328, R336: `htab` sets and clears the handler entries and the endpoints of the issuing region on its cell, and answers a
failure word for another's or a missing one. It rests on readings of the model (log entry 34). -/
def Sys2Proof.HandlerTableEntriesChange : Prop :=
  ∀ (s : State), s.cur.ctx < 8 →
    let c := s.cur.cell
    let r := s.ctxRegion c s.cur.ctx
    let fail (k : Nat) : Word := word (2 ^ 63 + k)
    (∀ x : ArgHtab,
      (∀ e, s.htabSet c r x.cls.val (s.me.rs x.a) = .error e → Writes (.htabSet x) x.g s s x.d (fail e))
      ∧ (∀ t, s.htabSet c r x.cls.val (s.me.rs x.a) = .ok t → Writes (.htabSet x) x.g s t x.d 0)
      ∧ (Assoc.get? x.cls.val (s.cell c).htab = none → Writes (.htabClr x) x.g s s x.d (fail (if x.cls.val < 8 then 1 else 4)))
      ∧ (∀ e, Assoc.get? x.cls.val (s.cell c).htab = some e →
        (e.region ≠ r → Writes (.htabClr x) x.g s s x.d (fail 1))
        ∧ (e.region = r →
          let t := (s.modCell c fun y => { y with htab := Assoc.erase x.cls.val y.htab }).takeRequests c
            fun m q => m.cls == x.cls.val && q == r
          Writes (.htabClr x) x.g s (t.1.foldl (fun s m => s.returnMsg c m 5) t.2) x.d 0)))
    ∧ (∀ x : ArgD,
      ((s.cell c).freeEp = none → Writes (.htabEpnew x) x.g s s x.d (fail 3))
      ∧ (∀ n, (s.cell c).freeEp = some n → Writes (.htabEpnew x) x.g s
          (s.modCell c fun y => { y with eps := Assoc.put n { region := r, st := .resident } y.eps }) x.d (mkEp (s.asidOf c s.cur.ctx) n c)))
    ∧ (∀ x : ArgDA,
      let n := s.me.rs x.a
      let t := (s.modCell c fun y => { y with eps := Assoc.erase (epNumber n) y.eps }).takeRequests c
        fun m q => epNumber m.target == epNumber n && q == r
      (s.ownEndpoint c r n = none → Writes (.htabEpdel x) x.g s s x.d (fail 4))
      ∧ (∀ e, s.ownEndpoint c r n = some e → (e.st = .resident ∨ ∃ w, e.st = .stub w) →
          Writes (.htabEpdel x) x.g s (t.1.foldl (fun s m => s.returnMsg c m 3) t.2) x.d 0)
      ∧ (∀ e, s.ownEndpoint c r n = some e → (e.st = .moving ∨ ∃ q b, e.st = .parked q b) → Writes (.htabEpdel x) x.g s s x.d (fail 4)))

/-- R331, R337, R338: `epmov` asks the target and holds; `eppark` parks a resident endpoint and resumes a parked one; each
answers a failure word for an endpoint that is not the region's or not in that state. It rests on readings of the model (log
entry 34). -/
def Sys2Proof.EndpointsMoveAndPark : Prop :=
  ∀ (s : State), s.cur.ctx < 8 →
    let c := s.cur.cell
    let r := s.ctxRegion c s.cur.ctx
    let fail (k : Nat) : Word := word (2 ^ 63 + k)
    let resident (n : Word) : Option Endpoint := (s.ownEndpoint c r n).filter fun e => e.st == .resident
    (∀ x : ArgDAB,
      let name := s.me.rs x.a
      let t := (s.me.rs x.b).toNat
      let n := epNumber name
      (959 < t ∨ s.grant r t = none → Traps (.epmov x) x.g s { cause := 63, val := name, info := 1 })
      ∧ (t ≤ 959 → (s.grant r t).isSome = true →
        (resident name = none → Writes (.epmov x) x.g s s x.d (fail 1))
        ∧ (∀ e, resident name = some e →
          let u := s.modCell c fun y => { y with eps := Assoc.put n { e with st := .moving } y.eps }
          Becomes (.epmov x) x.g s ((u.send (.cell c) (.cell t)
            (.epmov name n r (u.asidOf c s.cur.ctx) c s.cur.ctx (u.ctxTask c s.cur.ctx))).holds (.epmov x.d)))))
    ∧ (∀ x : ArgDA,
      let name := s.me.rs x.a
      (resident name = none → Writes (.epparkPark x) x.g s s x.d (fail 1))
      ∧ (∀ e, resident name = some e → Writes (.epparkPark x) x.g s (s.parkEndpoint c (epNumber name) e true) x.d 0)
      ∧ (∀ e q b, s.ownEndpoint c r name = some e → e.st = .parked q b →
          Writes (.epparkResume x) x.g s (s.resumeEndpoint c (epNumber name) e q) x.d 0)
      ∧ ((∀ e, s.ownEndpoint c r name = some e → ∀ q b, e.st ≠ .parked q b) → Writes (.epparkResume x) x.g s s x.d (fail 1)))

/-- R328, R331, R336 to R338: the handler table and the endpoint store. -/
def Obligations.HandlersAndEndpointsChange : Prop := HandlerTableEntriesChange ∧ EndpointsMoveAndPark

/-! ### Barriers and reductions -/

/-- The release that an arrival waits for (R344, R349). -/
def Sys2Proof.arrivalScope (b : BarInst) : Scope := if b.cluster then .clu else .mod

/-- R342 to R344, R351: `barv` refuses an instance for the first reason that holds; else, after its release, it counts its
arrival for the generation in which its cell has room, and gives the token; with no room it stalls. `barw` ends with the status
of its token's generation at the instance that the token names on its die, and holds while that has not ended. It rests on readings of the model (log entry 35). -/
def Sys2Proof.BarriersCountArrivals : Prop :=
  ∀ (s : State), s.cur.ctx < 8 →
    let c := s.cur.cell
    (∀ x : ArgBarv,
      let key := s.barKeyOf x.clu x.n.val
      let b := key.bind fun k => Assoc.get? k s.bars
      (∀ r, s.barReason b x.clu none = some r → Traps (.barv x) x.g s { cause := 7, val := word x.n.val, info := word r })
      ∧ (∀ k i, key = some k → b = some i → s.barReason b x.clu none = none →
        (s.releaseReady c s.cur.ctx (arrivalScope i) = false ∨ i.arrive c = none → Stalls (.barv x) x.g s)
        ∧ (∀ j g, s.releaseReady c s.cur.ctx (arrivalScope i) = true → i.arrive c = some (j, g) →
          Writes (.barv x) x.g s { s with bars := Assoc.put k j s.bars } x.d (barToken i.cluster (k % 64) g))))
    ∧ (∀ x : ArgDA,
      let n := (s.me.rs x.a).toNat
      let clu := bit n 22
      let g := n % 2 ^ 16
      let k := barKey (slice n 16 6) (c / 240)
      let b := Assoc.get? k s.bars
      let reason := s.barReason b clu (some (g, n < 2 ^ 23))
      (∀ r, reason = some r → Traps (.barw x) x.g s { cause := 5, val := s.me.rs x.a, info := word r })
      ∧ (∀ i, b = some i → reason = none →
        (i.ended g = true → Writes (.barw x) x.g s s x.d (if i.lb = some g then 1 else 0))
        ∧ (i.ended g = false → Becomes (.barw x) x.g s (s.holds (.barrier x.d k g)))))

/-- R342: a cell has room for the arrivals of the current generation up to its count, then for as many of the next, and an arrival
with no room stalls; its input is high when the count is full or it has departed, and with every input high the release fires and
makes the next generation current, modulo 2^16, at every cell at once; a wait has ended once its generation is between 1 and 32768
behind. A break releases whatever the inputs and leaves the generation as LB, by which a wait on it reports broken. -/
def Obligations.GenerationsTurn : Prop :=
  (∀ (bs : List Byte) (c : Nat) (x : BarCell), Assoc.get? c (blockBar bs).cells = some x →
    x = { cur := 0, next := 0, departed := false })
  ∧ (∀ (b : BarInst) (c : Nat) (x : BarCell), Assoc.get? c b.cells = some x →
    (x.cur < b.k → b.arrive c = some ({ b with cells := Assoc.put c { x with cur := x.cur + 1 } b.cells }, b.gen))
    ∧ (b.k ≤ x.cur → x.next < b.k →
        b.arrive c = some ({ b with cells := Assoc.put c { x with next := x.next + 1 } b.cells }, (b.gen + 1) % 2 ^ 16))
    ∧ (b.k ≤ x.cur → b.k ≤ x.next → b.arrive c = none)
    ∧ Assoc.get? c b.release.cells = some { x with cur := x.next, next := 0 })
  ∧ (∀ (s : State) (x : ArgBarv) (k : Nat) (b : BarInst), s.cur.ctx < 8 → s.barKeyOf x.clu x.n.val = some k →
    Assoc.get? k s.bars = some b → s.barReason (some b) x.clu none = none → b.arrive s.cur.cell = none → Stalls (.barv x) x.g s)
  ∧ (∀ b : BarInst, b.allHigh = true ↔ ∀ e ∈ b.cells, e.2.cur = b.k ∨ e.2.departed = true)
  ∧ (∀ (s : State) (n : Nat) (b : BarInst), Assoc.get? n s.bars = some b →
    (b.allHigh = true → exec (.barrierRelease n) s = .next (s.setBar n b.release))
    ∧ (b.allHigh = false → exec (.barrierRelease n) s = .next s))
  ∧ (∀ (s : State) (x : ArgBcfg) (b : BarInst), s.cur.ctx = 9 → Assoc.get? (barKey x.n.val x.die.val) s.bars = some b →
    s.ownsBar b = true → Writes (.bcfgBrk x) x.g s (s.setBar (barKey x.n.val x.die.val) b.break_) x.d 0)
  ∧ (∀ (b : BarInst) (g : Nat), b.gen < 2 ^ 16 → g < 2 ^ 16 →
      (b.release.gen = (b.gen + 1) % 2 ^ 16 ∧ b.release.lb = b.lb ∧ b.break_ = { b.release with lb := some b.gen })
      ∧ (b.status g = if b.lb = some g then 1 else 0)
      ∧ (b.ended g = true ↔ ∃ d, 1 ≤ d ∧ d ≤ 32768 ∧ (g + d) % 2 ^ 16 = b.gen))

/-- R343, R346, R347, R349, R352: `redp` checks like a barrier's arrival, and sends its sixteen lanes to its cell's router on
their way to the root when it arrives;
`redg` gives the lanes and flags of its generation, zero with a status for a broken or forgotten one, and holds while the
generation has not ended. It rests on readings of the model (log entries 21, 35). -/
def Sys2Proof.ReductionsSendAndGet : Prop :=
  ∀ (s : State), s.cur.ctx < 8 →
    let c := s.cur.cell
    (∀ x : ArgRedp,
      let n := x.n.val
      let r := Assoc.get? n s.reds
      (∀ k, s.barReason (r.map (·.bar)) false none = some k → Traps (.redp x) x.g s { cause := 7, val := word n, info := word k })
      ∧ (∀ i, r = some i → s.barReason (some i.bar) false none = none →
        let sc : Scope := if i.links.isEmpty then .mod else .sys
        (s.releaseReady c s.cur.ctx sc = false ∨ i.bar.arrive c = none → Stalls (.redp x) x.g s)
        ∧ (∀ j g, s.releaseReady c s.cur.ctx sc = true → i.bar.arrive c = some (j, g) →
          Writes (.redp x) x.g s ({ s with reds := Assoc.put n { i with bar := j } s.reds }.send (.cell c) (.router (routerOf c))
            (.contribution n g ((lanesOf (s.me.rv x.a)).map (laneIn i.op)))) x.d (word (n * 2 ^ 16 + g)))))
    ∧ (∀ x : ArgRedg,
      let t := s.me.rs x.a
      let n := slice t.toNat 16 3
      let g := t.toNat % 2 ^ 16
      let r := Assoc.get? n s.reds
      let reason := s.barReason (r.map (·.bar)) false (some (g, t.toNat < 2 ^ 19))
      (∀ k, reason = some k → Traps (.redg x) x.g s { cause := 5, val := t, info := word k })
      ∧ (∀ i, r = some i → reason = none →
        (i.bar.ended g = true → Becomes (.redg x) x.g s (s.modMe fun y => (y.redResult i x.d x.c g).retire))
        ∧ (i.bar.ended g = false → Becomes (.redg x) x.g s (s.holds (.reduction x.d x.c n g)))))

/-- R342, R347 to R352: the instructions of barriers and reductions. -/
def Obligations.BarriersAndReductionsCount : Prop := BarriersCountArrivals ∧ ReductionsSendAndGet

/-- R342, R346, R353: `bcfg` and `rcfg` set an instance from its block when their checks pass, answer 3 for one that is not the
tenant's own, break the waiting generation, and free the instance after breaking the current generation and the next, on which
contexts may wait; a freed number stands for nothing, and nothing of a freed reduction is on its way on the module. It rests on
readings of the model (log entry 35). -/
def Obligations.InstancesAreConfigured : Prop :=
  ∀ (s : State), s.cur.ctx = 9 →
    (∀ (x : ArgBcfg) (bs : List Byte),
      let key := barKey x.n.val x.die.val
      let own := (Assoc.get? key s.bars).filter s.ownsBar
      let st := if (Assoc.get? key s.bars).isSome then 1
        else if fieldAt bs 121 1 ≠ 0 ∨ fieldAt bs 124 4 ≠ 0 then 2
        else s.blockStatus bs (if x.n.val < 32 then none else some x.die.val)
      (s.syncRead (s.me.rs x.a) 128 64 = .ok bs →
        (st ≠ 0 → Writes (.bcfgSet x) x.g s s x.d (word st))
        ∧ (st = 0 → Writes (.bcfgSet x) x.g s { s with bars := Assoc.put key (blockBar bs) s.bars } x.d 0))
      ∧ (own = none → Writes (.bcfgFree x) x.g s s x.d 3 ∧ Writes (.bcfgBrk x) x.g s s x.d 3)
      ∧ (∀ b, own = some b →
        let t := (s.wakeBarrier key b.break_ true).wakeBarrier key b.break_.break_ true
        Writes (.bcfgBrk x) x.g s (s.setBar key b.break_) x.d 0
        ∧ Writes (.bcfgFree x) x.g s { t with bars := Assoc.erase key s.bars } x.d 0))
    ∧ (∀ (x : ArgRcfg) (bs : List Byte),
      let n := x.n.val
      let r := blockRed bs
      let own := (Assoc.get? n s.reds).filter fun r => s.ownsBar r.bar
      let st := if (Assoc.get? n s.reds).isSome then 1
        else if slice (fieldAt bs 121 1) 5 3 ≠ 0 ∨ 7 < r.links.length ∨ (bitmapCells bs).contains r.root = false then 2
        else s.blockStatus bs none
      (s.syncRead (s.me.rs x.a) 128 64 = .ok bs →
        (st ≠ 0 → Writes (.rcfgSet x) x.g s s x.d (word st))
        ∧ (st = 0 → Writes (.rcfgSet x) x.g s { s with reds := Assoc.put n r s.reds } x.d 0))
      ∧ (own = none → Writes (.rcfgFree x) x.g s s x.d 3 ∧ Writes (.rcfgBrk x) x.g s s x.d 3)
      ∧ (∀ q, own = some q →
        let t := s.freeRed n q
        Writes (.rcfgBrk x) x.g s (s.breakRed n q false) x.d 0 ∧ Writes (.rcfgFree x) x.g s t x.d 0
        ∧ Assoc.get? n t.reds = none ∧ (∀ k ∈ t.routers, k.number ≠ n)
        ∧ (∀ f ∈ t.net, ∀ g ls, f.pay ≠ .contribution n g ls)))

/-! ### Traps and the retry ring -/

/-- R356, R359, R374, R376: `trap call` and `brk` take an environment call and a breakpoint with their code; the context is
held where it stands, and its trap waits for context 9 with the next slot as the place to return to. It rests on readings of
the model (log entry 36). -/
def Sys2Proof.TrapInstructionsTakeTheirTrap : Prop :=
  ∀ (s : State) (x : ArgCode),
    (s.cur.ctx < 9 → Traps (.trapCall x) x.g s { cause := 8, val := word x.code.toNat, info := s.me.pc })
    ∧ Traps (.brk x) x.g s { cause := 3, val := word x.code.toNat, info := s.me.pc }

/-- R356, R358, R359: taking a precise trap holds the context with its registers and PC as they are, and puts one trap at the
end of the cell's queue with the cause, the value and the information; the place to return to is the instruction, or the next
slot for a breakpoint or an environment call. Nothing else in the machine changes. It rests on readings of the model (log
entry 36). -/
def Sys2Proof.TakingATrapHoldsTheContext : Prop :=
  ∀ (s : State) (c i : Nat) (t : TrapInfo), i < 9 →
    let u := s.takeTrap c i t
    let pc := (s.ctxAt c i).pc
    let q : Trap :=
      { ctx := i, async := false, ring := false, held := true, entry := 0,
        epc := if t.cause = 3 ∨ t.cause = 8 then pcNext pc else pc, info := t, region := s.ctxRegion c i, task := s.ctxTask c i,
        upto := (s.ctxAt c i).seq }
    u.ctxAt c i = { s.ctxAt c i with st := .held, stalled := false }
    ∧ (∀ d j, d ≠ c ∨ j ≠ i → u.ctxAt d j = s.ctxAt d j)
    ∧ (u.cell c).trapq = (s.cell c).trapq ++ [q]
    ∧ u.mem = s.mem ∧ u.regions = s.regions ∧ (u.cell c).run9 = (s.cell c).run9 ∧ (u.cell c).xepc = (s.cell c).xepc
    ∧ u = (s.modCtx c i fun x => { x with st := .held, stalled := false }).modCell c fun x => { x with trapq := x.trapq ++ [q] }

/-- R357, R358: with context 9 free, entering the oldest trap's handler saves the trap in xcause, xepc, xval and xinfo and
starts context 9 at the entry of the tenant's supervisor task type. It rests on readings of the model (log entry 36). -/
def Sys2Proof.EnteringTheHandlerSavesTheTrap : Prop :=
  ∀ (s : State) (c : Nat) (t : Trap) (q : List Trap) (ty : TaskType) (g : Grant) (r : Region),
    let tenant := s.tenantOf t.region
    (s.cell c).run9 = none → (s.cell c).trapq = t :: q → s.region tenant = some r → s.taskType tenant r.sup = some ty →
    s.grant tenant c = some g → s.checkTarget tenant c (word ty.entry) = none →
    let u := s.enterTrap c
    (u.cell c).trapq = q ∧ (u.cell c).xcause = t.xcause ∧ (u.cell c).xepc = t.epc ∧ (u.cell c).xval = t.info.val
    ∧ (u.cell c).xinfo = t.info.info ∧ (u.cell c).run9 = some { trap := t, start := s.clock, tenant := tenant, stopped := 0, frozenAt := none }
    ∧ (u.ctxAt c 9).pc = word ty.entry ∧ u.mem = s.mem ∧ (∀ i, i ≠ 9 → u.ctxAt c i = s.ctxAt c i)

/-- R356 to R359: taking a trap, and entering its handler. -/
def Obligations.TrapsHoldTheContextAndEnterTheHandler : Prop :=
  TakingATrapHoldsTheContext ∧ EnteringTheHandlerSavesTheTrap

/-- R330, R375, R378: `eret` in context 8 ends the handler's run, and in context 9, as `rretry ctx` does, ends the run of the
trap; the trapped context, still held and with xepc naming a place it may execute, runs on from there with an empty fetch
queue. It rests on readings of the model (log entry 36). -/
def Sys2Proof.EretReturns : Prop :=
  (∀ (s : State) (x : ArgG),
    (s.cur.ctx = 8 → Becomes (.eret x) x.g s (s.endRun8 s.cur.cell))
    ∧ (s.cur.ctx = 9 → Becomes (.eret x) x.g s (s.returnFrom9 s.cur.cell)))
  ∧ (∀ (s : State) (x : ArgD), s.cur.ctx = 9 → Becomes (.rretryCtx x) x.g s (s.returnFrom9 s.cur.cell))
  ∧ (∀ (s : State) (c : Nat) (r : Run9),
      let i := r.trap.ctx
      let pc := word ((s.cell c).xepc.toNat % 2 ^ 30)
      let u := s.returnFrom9 c
      (s.cell c).run9 = some r → r.trap.held = true → i < 9 → (s.ctxAt c i).st = .held → s.ctxTask c i = r.trap.task →
      (s.endRun9 c).checkResume (s.ctxRegion c i) c pc = none →
      u.ctxAt c i = { s.ctxAt c i with st := .running, stalled := false, pc := pc, fetchq := [] }
        ∧ (u.cell c).run9 = none ∧ u.mem = s.mem)

/-- R356, R374 to R376, R378: the instructions that take a trap and that return from one. -/
def Obligations.TrapsAreTakenAndReturnedFrom : Prop := TrapInstructionsTakeTheirTrap ∧ EretReturns

/-- R363, R364, R377, R378, R379: a ring completion answers 1, 2 or 3 for the first check that fails; else `rfill` frees the
entry and fills its destination while its task is resident, a context that holds for it going on, `rretry` issues the access again
or resumes the copy, unless its station has no room, `rskip` discards a store or goes on at the copy's next run, and `rkill ent` kills the task; each answers 0. It rests on readings of
the model (log entries 37, 54). -/
def Sys2Proof.RingEntriesComplete : Prop :=
  ∀ (s : State), s.cur.ctx = 9 →
    let c := s.cur.cell
    (∀ x : ArgRfill,
      let a := s.me.rs x.a
      (∀ n, s.completes a (fun e => e.takes x.b) = .error n → Writes (.rfill x) x.g s s x.d (word n))
      ∧ (∀ e, s.completes a (fun e => e.takes x.b) = .ok e →
        let t := s.dropEntry a.toNat
        let filled := t.modCtx c e.ctx fun y => y.fillFrom s.me e.dest x.b
        Writes (.rfill x) x.g s (if t.resident c e.ctx e.task then
          (filled.wake c e.ctx e.task .access).wake c e.ctx e.task .sc else t) x.d 0))
    ∧ (∀ x : ArgDA,
      let a := s.me.rs x.a
      let any_ := s.completes a fun _ => true
      let skip := s.completes a fun e => e.kind = 1 || e.kind = 2
      (∀ n, any_ = .error n → Writes (.rretry x) x.g s s x.d (word n) ∧ Writes (.rkillEnt x) x.g s s x.d (word n))
      ∧ (∀ n, skip = .error n → Writes (.rskip x) x.g s s x.d (word n))
      ∧ (∀ e, any_ = .ok e →
        let out := s.outEntry a.toNat
        (e.acc = none → Writes (.rretry x) x.g s (out.resumeCopy e (·.pos)) x.d 0)
        ∧ (∀ q, e.acc = some q → let r := out.reissue { q with retry := some a.toNat }
          (∀ t, r = .ok t → Writes (.rretry x) x.g s t x.d 0) ∧ (∀ k, r = .error k → Stops (.rretry x) x.g s k))
        ∧ Writes (.rkillEnt x) x.g s (if s.resident c e.ctx e.task then
            s.kill c e.ctx 0 (e.kind = 2) e.pc { cause := e.cause, val := e.addr, info := e.info } else s.dropEntries c e.task) x.d 0)
      ∧ (∀ e, skip = .ok e → Writes (.rskip x) x.g s (if e.kind = 1 then (s.dropEntry a.toNat).wake c e.ctx e.task .sc
          else (s.dropEntry a.toNat).resumeCopy e fun o => min o.lay.total ((o.pos / o.lay.run + 1) * o.lay.run)) x.d 0))
    ∧ (∀ (a : Word) (suits : REntry → Bool),
      (s.entryAt a = none → s.completes a suits = .error 1)
      ∧ (∀ e, s.entryAt a = some e →
        (suits e = false → s.completes a suits = .error 2)
        ∧ (suits e = true → e.tenant ≠ s.myTenant → s.completes a suits = .error 3)
        ∧ (suits e = true → e.tenant = s.myTenant → s.completes a suits = .ok e)))

/-- R358, R370, R371, R379: `rkill ctx` kills the held task of the run, which ends the run, and answers 1 where none is held;
`frz rgn` freezes a subtree on every cell of its grants, and answers 3 for a region that it may not freeze and 4 for one that
is frozen. It rests on readings of the model (log entries 36, 38). -/
def Sys2Proof.KillAndFreeze : Prop :=
  ∀ (s : State), s.cur.ctx = 9 →
    let c := s.cur.cell
    (∀ x : ArgD,
      let held := (s.cell c).run9.filter fun r => s.stillHeld c r
      (held = none → Writes (.rkillCtx x) x.g s s x.d 1)
      ∧ (∀ r, held = some r →
        Becomes (.rkillCtx x) x.g s ((s.endRun9 c).kill c r.trap.ctx 0 r.trap.async r.trap.epc r.trap.info)))
    ∧ (∀ x : ArgDA,
      let q := (s.me.rs x.a).toNat % 2 ^ 16
      let frozen : Bool := ((s.region q).map (·.frozen)).getD false
      (s.killable q = false → Writes (.frzRgn x) x.g s s x.d 3)
      ∧ (s.killable q = true → frozen = true → Writes (.frzRgn x) x.g s s x.d 4)
      ∧ (s.killable q = true → frozen = false →
          Writes (.frzRgn x) x.g s ((s.subtree q).foldl (fun s q => s.freezeAll q) s) x.d 0))

/-- R358, R363, R364, R370, R371, R377 to R379: the instructions of the retry ring, kills and freezes. -/
def Obligations.RingEntriesCompleteAndTasksAreKilled : Prop := RingEntriesComplete ∧ KillAndFreeze

/-! ### The host's channels and the links -/

/-- R392, R394, R395: `hpost` waits for its release, answers 1 for an unusable channel, 2 for a count that its rule refuses
and 3 outside RUN, and else takes the count and writes the status block, with an interrupt for `done` where one is configured;
`hpoll wait` holds while the latch is as given. It rests on readings of the model (log entry 40). -/
def Sys2Proof.ChannelsPostAndPoll : Prop :=
  ∀ (s : State) (x : ArgDAB), s.cur.ctx ≠ 8 →
    let u := s.usable (s.me.rs x.a)
    let v := (s.me.rs x.b).toNat
    (∀ (isDone : Bool),
      let i : Instr := if isDone then .hpostDone x else .hpostHead x
      (s.releaseReady s.cur.cell s.cur.ctx .sys = false → Stalls i x.g s)
      ∧ (s.releaseReady s.cur.cell s.cur.ctx .sys = true →
        (u = none → Writes i x.g s s x.d 1)
        ∧ (∀ n q, u = some (n, q) → q.post isDone v = none → Writes i x.g s s x.d 2)
        ∧ (∀ n q p, u = some (n, q) → q.post isDone v = some p →
          (s.vfState s.myVf ≠ some .run → Writes i x.g s s x.d 3)
          ∧ (s.vfState s.myVf = some .run →
              let msgs : List HostMsg := if isDone && p.vector ≠ 0xffff then [.msix s.myVf p.vector] else []
              let c := s.setChan s.myVf n p
              Writes i x.g s { c with
                hostOut := s.hostOut ++ [.write s.myVf p.status (leBytes 8 p.head ++ leBytes 8 p.done)] ++ msgs } x.d 0))))
    ∧ (u = none → Writes (.hpollWait x) x.g s s x.d 0)
    ∧ (∀ n q, u = some (n, q) →
      (word q.latch = s.me.rs x.b → Stalls (.hpollWait x) x.g s)
      ∧ (word q.latch ≠ s.me.rs x.b → Writes (.hpollWait x) x.g s s x.d (word q.latch)))

/-- R395: a head may move from its old value up to the tail, and a done count from its old value up to the head. -/
def Sys2Proof.CountsMoveForward : Prop :=
  ∀ (q : Channel) (v : Nat),
    q.post false v = (if q.head ≤ v ∧ v ≤ q.latch then some { q with head := v } else none)
    ∧ q.post true v = (if q.done ≤ v ∧ v ≤ q.head then some { q with done := v } else none)

/-- R387, R396: `lkrot rot` answers 3 without a share of the link, 1 for a link that is not up and 2 during a rotation; else
the rotation begins and the context waits for its switch. It rests on readings of the model (log entry 39). -/
def Sys2Proof.RotationsBegin : Prop :=
  ∀ (s : State) (x : ArgDA), s.cur.ctx = 9 →
    let w := s.me.rs x.a
    let l := s.link w.toNat
    (s.holdsLink w = false → Writes (.lkrotRot x) x.g s s x.d 3)
    ∧ (s.holdsLink w = true →
      (l.isUp = false → Writes (.lkrotRot x) x.g s s x.d 1)
      ∧ (l.isUp = true → (l.rotTx.isSome = true ∨ l.rotRx.isSome = true) → Writes (.lkrotRot x) x.g s s x.d 2)
      ∧ (l.isUp = true → l.rotTx = none → l.rotRx = none → Becomes (.lkrotRot x) x.g s
          ((s.modLink w.toNat fun k => { k with rotTx := some 0, rotRx := some 0 }).holds (.rotation x.d w.toNat))))

/-- R387, R392, R394 to R396: the instructions of host channels and links. -/
def Obligations.HostAndLinkInstructionsAct : Prop := ChannelsPostAndPoll ∧ CountsMoveForward ∧ RotationsBegin

/-! ### The scheduler's events -/

/-- The flight that the event ends is due, from src, at dst, with the payload. -/
def Sys2Proof.Machine.State.brings (s : State) (src dst : Place) (p : Pay) : Prop := s.arriving s.cur.k = some { src := src, dst := dst, pay := p }

/-- R29: a context that can issue and holds fewer than four lines takes the line after its last into its fetch queue, when its
execute units hold that line; else nothing happens. It rests on readings of the model (log entries 20, 31). -/
def Sys2Proof.FetchQueuesFillAhead : Prop :=
  ∀ (s : State),
    let c := s.cur.cell
    let i := s.cur.ctx
    let x := s.ctxAt c i
    let a : Nat := match x.fetchq.getLast? with
      | some e => e.1 + 64
      | none => lineOf x.pc
    x.canIssue = true → i < 10 → x.fetchq.length < 4 →
      (∀ v, s.fetchLine (s.ctxRegion c i) c (word a) = some v →
        exec .fetchQueueFill s = .next (s.modCtx c i fun y => { y with fetchq := Assoc.put a v y.fetchq }))
      ∧ (s.fetchLine (s.ctxRegion c i) c (word a) = none → exec .fetchQueueFill s = .next s)

/-- R243, R247, R248, R271: at a dispatch opportunity the rings take back what their images hold, and then the events that wait
for a place; a head that cannot run
leaves its ring, discarded with its reason or sent to its die's placer; else the tenant that the deficit counters choose has
its head started, at most once every four cycles. It rests on readings of the model (log entries 20, 31, 42, 58). -/
def Sys2Proof.RingsDispatchTheirHeads : Prop :=
  ∀ (s : State),
    let c := s.cur.cell
    let h := s.clearHalts c
    let u := (((h.cell c).rings.map (·.1)).foldl (fun s t => s.refillRing c t) h).lateIn c
    let soon : Bool := (u.cell c).dispCount ≠ 0 && u.clock < (u.cell c).lastDispatch + 4
    (∀ t r k, u.removable c = some (t, r, .remove k) → exec .dispatch s = .next ((u.popRing c t).discardRecord c r k))
    ∧ (∀ t r, u.removable c = some (t, r, .toPlacer) →
        exec .dispatch s = .next ((u.popRing c t).send (.cell c) (.placer (c / 240)) (.place r)))
    ∧ (u.removable c = none → soon = true → exec .dispatch s = .next u)
    ∧ (∀ t w r ty p, u.removable c = none → soon = false → u.chooseTenant c .dispatch (u.startable c) = some (t, w) →
        w.ringHead c t = some r → w.judge c t r = .start ty p →
        exec .dispatch s = .next (((w.spend c t .dispatch 1).popRing c t).startTask c t r ty p 0 none))

/-- R243, R273, R275, R276: a record that arrives joins its tenant's ring or its placer's queue, unless its region is gone; a
placer serves the first request that it can, and keeps for an aged cluster the rectangle with the fewest tasks; a pre-emption
request stops a tenant's dispatch on the cells it names. It rests on readings of the model (log entries 20, 31). -/
def Sys2Proof.PlacersServeTheirQueue : Prop :=
  ∀ (s : State),
    (∀ src c r t, s.brings src (.cell c) (.ready r t) →
      let u := s.land s.cur.k
      exec .readyRecordArrival s = .next (if (u.region (headRegion r.head)).isSome then u.pushRecord c t r else u))
    ∧ (∀ src d r, s.brings src (.placer d) (.place r) →
      let u := s.land s.cur.k
      exec .readyRecordArrival s = .next (if (u.region (headRegion r.head)).isSome then
        { u with placers := Assoc.put d (u.placers.getD d [] ++ [{ record := r, since := u.clock, reserved := none }]) u.placers }
        else u))
    ∧ (∀ d t, s.servePlaces d [] (s.placers.getD d []) = some t → exec (.placerDecision d) s = .next t)
    ∧ (∀ d, s.servePlaces d [] (s.placers.getD d []) = none → exec (.placerDecision d) s = .next s)
    ∧ (∀ d p ty cs,
      let q := s.placers.getD d []
      let r := headRegion p.record.head
      q.any (·.reserved.isSome) = false → q.find? s.aged = some p →
      s.taskType (s.tenantOf r) (headType p.record.head) = some ty → s.candidate d r ty = some cs →
      exec (.placerAging d) s = .next { s with
        placers := Assoc.put d (modifyFirst s.aged (fun p => { p with reserved := some cs }) q) s.placers })
    ∧ (∀ q : PreemptReq, (s.region q.tenant).isSome = true →
      let stop (s : State) (c : Nat) : State :=
        s.modCell c fun x => { x with halted := q.tenant :: x.halted.filter (· ≠ q.tenant) }
      exec (.preemptionRequest q) s =
        .next ((q.cells.filter (· ≤ 959)).foldl (fun s c => (stop s c).clearHalts c) s))

/-- The scheduler's events. -/
def Obligations.SchedulerEventsActAsStated : Prop := FetchQueuesFillAhead ∧ RingsDispatchTheirHeads ∧ PlacersServeTheirQueue

/-- R71, R74: a dispatched context stands at the type's entry with the frame's top in s2, the task pointer in s3 and the record's
arguments below argc from s4 on, those beyond the allotment discarded; every other scalar, every vector, `tbl`, fcsr and `sptmpl` are
zero, p0 is true and the other predicates false, `xsl` is the frame's base, and `tcycles`, `rank` and `ncells` are of the new task,
whatever the context held before. A start gives the context of its place these registers and binds the type's static ports; a fault of
the entry PC is the task's first trap. -/
def Obligations.DispatchGivesTheTaskItsRegisters : Prop :=
  ∀ (x : Ctx) (t : Task) (ty : TaskType) (p : TaskPlace) (k : SReg) (v : VReg) (q : PReg),
    let y := taskCtxOf x t ty p
    let argc := headArgc t.record.head
    y.st = .running ∧ y.pc = word ty.entry ∧ y.xsl = word t.frameLo
    ∧ y.allot = { sbase := p.sbase, scount := ty.sregs, vbase := p.vbase, vcount := ty.vregs }
    ∧ (k.val = 2 → y.rs k = word t.frameHi) ∧ (k.val = 3 → y.rs k = t.ptr)
    ∧ (4 ≤ k.val → k.val < 12 → k.val < 4 + argc → k.val < ty.sregs → y.rs k = t.record.args.getD (k.val - 4) 0)
    ∧ (k.val < 2 ∨ 12 ≤ k.val ∨ 4 ≤ k.val ∧ (4 + argc ≤ k.val ∨ ty.sregs ≤ k.val) → y.rs k = 0)
    ∧ y.rv v = 0 ∧ (y.rp q = true ↔ q.val = 0) ∧ y.fcsr = 0 ∧ y.tbl = 0 ∧ y.iret = 0 ∧ y.sptmpl = 0 ∧ y.task = some t
    ∧ ∀ (s : State) (c tenant rank : Nat) (r : Rec) (cl : Option Nat), ∃ w : Task,
        w.record = r ∧ w.region = headRegion r.head ∧ w.tenant = tenant ∧ w.start = s.clock ∧ w.rank = rank ∧ w.cluster = cl
        ∧ w.ncells = ty.ncells ∧
        let u := ((s.modCell c fun x => { x with dispCount := x.dispCount + 1, lastDispatch := s.clock }).modCtx c p.ctx fun x =>
          taskCtxOf x w ty p).bindStatic c p.ctx tenant w.ptr ty.binds
        s.startTask c tenant r ty p rank cl = match u.checkTarget (headRegion r.head) c (word ty.entry) with
          | some f => u.takeTrap c p.ctx f
          | none => u

/-! ### Events of traps, budgets and freezes -/

/-- R216, R356 to R359, R361: context 9 takes the oldest queued trap once the accesses of its context have settled; a run at
its cap ends, and what it held is killed with origin 4; a pending asynchronous trap is taken where the context stands between
instructions. It rests on readings of the model (log entry 36). -/
def Sys2Proof.TrapEventsHappen : Prop :=
  ∀ (s : State),
    let c := s.cur.cell
    let i := s.cur.ctx
    (∀ t q, (s.cell c).trapq = t :: q → s.settled c t = true → exec .trapEntry s = .next (s.enterTrap c))
    ∧ (∀ t q, (s.cell c).trapq = t :: q → s.settled c t = false → exec .trapEntry s = .next s)
    ∧ (∀ r, (s.cell c).run9 = some r → r.start + r.stopped + 16384 ≤ s.clock → (s.ctxAt c 9).frozen = none →
        let t := s.endRun9 c
        (t.stillHeld c r = false → exec .supervisorRunCap s = .next t)
        ∧ (t.stillHeld c r = true →
            exec .supervisorRunCap s = .next (t.kill c r.trap.ctx 4 r.trap.async r.trap.epc r.trap.info)))
    ∧ (∀ r, (s.cell c).run9 = some r → s.clock < r.start + r.stopped + 16384 ∨ (s.ctxAt c 9).frozen.isSome = true →
      exec .supervisorRunCap s = .next s)
    ∧ (∀ t rest, (s.ctxAt c i).asyncs = t :: rest → (s.ctxAt c i).frozen = none → i < 9 → (s.ctxAt c i).st = .running →
        exec .asynchronousTrap s = .next ((s.modCtx c i fun x => { x with asyncs := rest }).takeAsync c i t))

/-- R74, R272, R360, R366: a task that its watchdog finds at its budget takes the budget trap between instructions, with `tcycles`
as its value; one 4096 cycles beyond the budget and its extension is killed with origin 1. It rests on readings of the model (log
entry 36). -/
def Sys2Proof.BudgetsEndTasks : Prop :=
  ∀ (s : State) (t : Task),
    let c := s.cur.cell
    let i := s.cur.ctx
    let x := s.ctxAt c i
    let trap : TrapInfo := { cause := 31, val := word (s.clock - t.start), info := word t.budget }
    x.task = some t → i < 8 → x.frozen = none →
      (x.st = .running → x.asyncs = [] → t.budget + t.ext ≤ s.watchdog t → exec .budget s = .next (s.takeTrap c i trap))
      ∧ (s.watchdog t < t.budget + t.ext → exec .budget s = .next s)
      ∧ (t.budget + t.ext + 4096 ≤ s.watchdog t → exec .budgetHardLimit s = .next (s.kill c i 1 false x.pc trap))
      ∧ (s.watchdog t < t.budget + t.ext + 4096 → exec .budgetHardLimit s = .next s)

/-- R175, R372: a thaw lets the region's frozen contexts go on, cell by cell, one that froze in place of a trap with that trap,
performs the actions that the freeze held back, and settles the pools, whose requests the freeze held; a scrub kills them with origin 3, zeroes their frames and drops what the
freeze held. It rests on readings of the model (log entry 38). -/
def Sys2Proof.ThawAndScrubEndAFreeze : Prop :=
  ∀ (s : State) (q : Nat),
    let u := s.modRegion q fun x => { x with frozen := false }
    let thaw (s : State) (c : Nat) : State :=
      (((s.cell c).frozenFor q).foldl (fun s i => s.thawCtx c i) (s.modCell c fun x => x.unfreeze q)).releaseActs c
    let scrub (s : State) (c : Nat) : State :=
      let s := ((s.cell c).frozenFor q).foldl (fun s i => s.scrubCtx c i) s
      let s := s.modCell c fun x => { x with heldActs := x.heldActs.filter (·.region ≠ q) }
      (if (s.cell c).noCopy.contains q then s.withdrawCopies c q else s).modCell c fun x => x.unfreeze q
    exec (.thaw q) s = .next (((s.cells.map (·.1)).foldl thaw u).touchHubs q).settleAll
    ∧ exec (.scrub q) s = .next ((s.cells.map (·.1)).foldl scrub u).settleAll

/-- The events of traps, budgets and freezes. -/
def Obligations.TrapEventsActAsStated : Prop := TrapEventsHappen ∧ BudgetsEndTasks ∧ ThawAndScrubEndAFreeze

/-! ### Events of owners and messages -/

/-- R181, R253, R254, R257, R262 to R265, R271, R326, R329: an owner request is served by the owner cell's context 8 when that is free,
nothing waits before it and the outbound buffer is free, at the cost of one grant to its tenant, else it queues there; the owner's reply
completes the waiting signal with its value, or is its trap; the fault of a completion action is its context's asynchronous trap, or,
once its task has ended, event 9 of its region and, for cause 60, event 7 of the object's. It rests on readings of the model (log
entries 32, 34, 43). -/
def Sys2Proof.OwnersServeAndReply : Prop :=
  ∀ (s : State) (src : Place) (c : Nat) (q : OwnReq),
    let u := s.land s.cur.k
    (s.brings src (.cell c) (.owner q) → exec (match q.kind with
      | .jdec _ => .jdecArrival
      | .fres _ _ => .fresArrival
      | .freg _ => .fregArrival) s = .next (u.arrive8 c (.owner q)))
    ∧ ((u.cell c).run8 = none → (u.cell c).in8 = [] → (u.cell c).over8 = [] →
        u.ownerHeld c q = false → (u.cell c).outbuf = [] →
        u.arrive8 c (.owner q) = (u.chargeTo c (u.reqTenant (.owner q)) .handler 1).ownerRoutine c q)
    ∧ ((u.cell c).run8.isSome = true ∨ (u.cell c).in8 ≠ [] ∨ u.ownerHeld c q = true ∨ (u.cell c).outbuf ≠ [] → u.arrive8 c (.owner q) = u.enqueue8 c (.owner q))
    ∧ (∀ d st, s.brings src (.cell c) (.ownerReply q 0 st) → q.action = none → u.ctxTask c q.ctx = q.task →
        (u.ctxAt c q.ctx).st = .waiting (.owner d) →
        exec .ownerReplyArrival s = .next (u.modCtx c q.ctx fun x =>
          { (match d with | some r => x.ws r st | none => x).signalled with st := .running }.retire))
    ∧ (∀ d n st, s.brings src (.cell c) (.ownerReply q n st) → n ≠ 0 → q.action = none → u.ctxTask c q.ctx = q.task →
        (u.ctxAt c q.ctx).st = .waiting (.owner d) → exec .ownerReplyArrival s = .next (u.takeTrap c q.ctx (ownerTrap q n st)))
    ∧ (∀ id n st, s.brings src (.cell c) (.ownerReply q n st) → q.action = some id →
        let t := ownerTrap q n st
        (u.ctxTask c q.ctx = q.task → (u.ctxAt c q.ctx).st ≠ .idle →
          exec .ownerReplyArrival s = .next (u.addAsync c q.ctx q.region q.task t none))
        ∧ (u.ctxTask c q.ctx ≠ q.task → exec .ownerReplyArrival s =
            .next ((if t.cause = 60 then u.joinFault (refCell q.ref) st.toNat q t.info.toNat else u).pushEvent
              q.region c 9 q.task (word t.cause) id t.val 0)))

/-- R213, R326, R327, R334, R345: the oldest message in a cell's outbound buffer enters the mesh; one that arrives is delivered, and
returned with reason 2 from across a link where its name's ASID is not paired there; a returned message is an asynchronous trap of its
sender, or event 8 of its region; an atomic joins context 8's work in its order, a sequentially consistent one at its turn in the
order S, and its old value fills its destination, or lets the context that holds for it go on; one for a departed peer goes back. It
rests on readings of the model (log entries 24, 34, 43). -/
def Sys2Proof.MessagesTravel : Prop :=
  ∀ (s : State) (src : Place) (c : Nat),
    let u := s.land s.cur.k
    (∀ f fs, (s.cell s.cur.cell).outbuf = f :: fs → exec .messageInjection s =
        .next { (s.modCell s.cur.cell fun x => { x with outbuf := fs }) with net := s.net ++ [f] })
    ∧ (∀ m : Msg, s.brings src (.cell c) (.message m) →
        (m.link = none → exec .messageArrival s = .next (u.deliverMsg c m))
        ∧ (∀ l, m.link = some l → m.hops = 0 → u.pairedAsid l m.tenant (epAsid m.target) = false →
            exec .messageArrival s = .next (u.returnMsg c m 2)))
    ∧ (∀ a,
        let f : Flight := { src := src, dst := .cell c, pay := .atomicReq a }
        let back : Bool := a.peer.isSome && !a.arrived && !s.peerPresent a c
        s.passes s.cur.k s.homeWaits = some f →
        (back = true → exec .messageArrival s = .next (u.send (.cell c) (.cell a.cell) (.peerAbsent a)))
        ∧ (back = false → s.homeWaits s.cur.k f = true → exec .messageArrival s = .next (s.arrived s.cur.k))
        ∧ (back = false → (a.sc = true → s.scWaits a = false) → s.inOrder a = true → s.waitsFor s.cur.k src a = false →
            s.seenWait (if a.peer.isSome then s.net.length else s.cur.k) a = false →
            exec .messageArrival s = .next (u.arrive8 c (.atomic a))))
    ∧ (∀ m n, s.brings src (.cell c) (.returned m n) →
        (u.ctxTask c m.ctx = m.task → (u.ctxAt c m.ctx).st ≠ .idle → exec .returnedMessageArrival s =
          .next (u.addAsync c m.ctx m.region m.task { cause := 63, val := m.name, info := word n } none))
        ∧ (u.ctxTask c m.ctx ≠ m.task → exec .returnedMessageArrival s =
          .next (u.pushEvent m.region c 8 m.task (word n) m.name m.header 0)))
    ∧ (∀ dst a old, s.brings src dst (.atomicResult a old) →
        (a.sc = false → exec .atomicResultArrival s = .next (u.fillDest a [leBytes (tyBytes a.ty) old.toNat]))
        ∧ (a.sc = true → exec .atomicResultArrival s = .next (u.finishSc a [leBytes (tyBytes a.ty) old.toNat])))

/-- R329, R330: a free context 8 serves the oldest request of the tenant that the deficit counters choose; a handler at its
run cap, the time that it stood frozen not counted, is killed with origin 6. It rests on readings of the model (log entry 34). -/
def Sys2Proof.HandlersRun : Prop :=
  ∀ (s : State),
    let c := s.cur.cell
    let x := s.cell c
    let first (t : Nat) : Option Req8 := x.in8.find? fun q => s.reqTenant q == t
    let ready (t : Nat) : Bool := ((first t).map (s.canServe c)).getD false
    (∀ t w q, x.run8 = none → s.chooseTenant c .handler (((x.in8.map s.reqTenant).eraseDups).filter ready) = some (t, w) →
        first t = some q →
        let v := (w.modCell c fun x => { x with in8 := eraseFirst (· == q) x.in8 }).refill8 c 64
        exec .handlerRun s = .next ((v.spend c t .handler 1).serve c q))
    ∧ (∀ r, x.run8 = some r →
        exec .handlerRun s = .next s
        ∧ (r.start + r.stopped + r.cap ≤ s.clock → (s.ctxAt c 8).frozen = none →
            exec .handlerCap s = .next (s.kill c 8 6 false (s.ctxAt c 8).pc { cause := 0, val := 0, info := 0 }))
        ∧ (s.clock < r.start + r.stopped + r.cap → exec .handlerCap s = .next s))

/-- R337: at the target an endpoint that moves becomes a new resident entry, the old one its stub, and the messages that wait for it
go after it; with no entry free at the target it stays where it was, with its messages, and `epmov` answers failure word 3. It
rests on readings of the model (log entries 34, 43). -/
def Sys2Proof.EndpointsArrive : Prop :=
  ∀ (s : State) (src : Place) (c t n r asid i : Nat) (name task : Word),
    let u := s.land s.cur.k
    let put (s : State) (c n : Nat) (st : EpSt) : State :=
      s.modCell c fun y => { y with eps := Assoc.put n { region := r, st := st } y.eps }
    s.brings src (.cell t) (.epmov name n r asid c i task) → Assoc.get? n (u.cell c).eps = some { region := r, st := .moving } →
      ((u.cell t).freeEp = none → exec .epmovTargetArrival s =
        .next ((put u c n .resident).epmovAnswer c i task (word (2 ^ 63 + 3))))
      ∧ (∀ k, (u.cell t).freeEp = some k →
          let new := mkEp asid k t
          let q := u.takeRequests c fun m x => epNumber m.target == n && x == r
          exec .epmovTargetArrival s = .next ((q.1.foldl (fun s m => s.send (.cell c) (.cell t) (.message { m with target := new }))
            (put (put q.2 t k .resident) c n (.stub new))).epmovAnswer c i task new))

/-- The events of owners, messages and context 8. -/
def Obligations.OwnerAndMessageEventsActAsStated : Prop := OwnersServeAndReply ∧ MessagesTravel ∧ HandlersRun ∧ EndpointsArrive

/-! ### Events of pools and tiles -/

/-- R151, R158 to R160: a request for a pool that is not there or does not serve it is a fault; a `talloc.try` that finds the
queue busy or no tile free gets none; any other queues and is served in turn. A cancel takes a queued request away and answers
without a tile. A grant reaches the context that waits, once no freeze holds it, and one whose task is gone goes back. It rests on readings of the
model (log entries 25, 43). -/
def Sys2Proof.ControllersServeInTurn : Prop :=
  ∀ (s : State) (src : Place) (c pool n : Nat) (r : PoolReq) (try_ : Bool),
    let u := s.land s.cur.k
    let answer (f : Bool) : State := u.send (.cell c) r.place (.grant pool r none f)
    (s.brings src (.cell c) (.talloc pool n r try_) →
      (Assoc.get? pool (u.cell c).pools = none → exec .tallocRequestArrival s = .next (answer true))
      ∧ (∀ p, Assoc.get? pool (u.cell c).pools = some p →
        (u.poolServes p r = false → exec .tallocRequestArrival s = .next (answer true))
        ∧ (u.poolServes p r = true →
          (try_ = true → (p.queue ≠ [] ∨ p.free = []) → exec .tallocRequestArrival s = .next (answer false))
          ∧ (try_ = false ∨ p.queue = [] ∧ p.free ≠ [] → exec .tallocRequestArrival s = .next
              ((u.modCell c fun x => { x with pools := Assoc.put pool { p with queue := p.queue ++ [r] } x.pools }).settle c)))))
    ∧ (∀ p cell ctx task link tenant, s.brings src (.cell c) (.tallocCancel pool n cell ctx task link tenant) →
        Assoc.get? pool (u.cell c).pools = some p →
        let mine (r : PoolReq) : Bool := r.cell == cell && r.ctx == ctx && r.task == task && r.link == link
        (p.queue.find? mine = none → exec .tallocCancel s = .next u)
        ∧ (p.queue.find? mine = some r → exec .tallocCancel s = .next
            ((u.modCell c fun x => { x with pools := Assoc.put pool { p with queue := eraseFirst mine p.queue } x.pools }).send
              (.cell c) r.place (.grant pool r none false))))
    ∧ (∀ h f, s.brings src (.cell c) (.grant pool r h f) →
        (∀ t d w q b, u.ctxTask c r.ctx = r.task → (u.ctxAt c r.ctx).st = .waiting (.talloc t d w q b) →
          exec .grantReplyArrival s = .next (u.finishTalloc r h f t d w))
        ∧ (∀ w, u.ctxTask c r.ctx ≠ r.task → h = some w → exec .grantReplyArrival s =
            .next ((u.send (.cell c) src (.handleOp 3 w 0 c r.ctx r.task r.tenant)).frBump r.region c 8 1)))

/-- R155, R159, R175: a handle operation is applied at the tile's cell, whether its task lives or not; the waiting context
takes the answer, or its fault as a trap. It rests on readings of the model (log entries 25, 43). -/
def Sys2Proof.HandleOperationsAnswer : Prop :=
  ∀ (s : State) (src : Place) (c kind n cell i tenant : Nat) (h task : Word),
    let u := s.land s.cur.k
    let r := u.handleAt c kind h n cell i
    s.brings src (.cell c) (.handleOp kind h n cell i task tenant) →
      (kind = 3 → exec .handleOperationArrival s = .next (u.returnTile c h))
      ∧ (kind ≠ 3 →
        (u.ctxTask cell i ≠ task → exec .handleOperationArrival s = .next r.1)
        ∧ (∀ d, u.ctxTask cell i = task → (u.ctxAt cell i).st = .waiting (.handle d) →
          (∀ t, r.2.2 = some t → exec .handleOperationArrival s = .next (r.1.takeTrap cell i t))
          ∧ (r.2.2 = none → exec .handleOperationArrival s = .next (r.1.modCtx cell i fun x =>
              { (match d with | some d => x.ws d (word r.2.1) | none => x) with st := .running }.retire))))

/-- R163, R165: a tile that is still in use at its pool's deadline is reported once, as event 2, and stays as it is; a
region's watchdog counts quiet cycles 1,024 at a time, and at h of them enlarges the region's smallest exhausted pool. It
rests on readings of the model (log entry 25). -/
def Sys2Proof.DeadlinesAndStallsAreSeen : Prop :=
  ∀ (s : State),
    (∀ (c pool k : Nat) (p : Pool) (t : Tile), Assoc.get? pool (s.cell c).pools = some p → (s.cell c).tile (pool, k) = some t →
      let live : Bool := t.st == .unsealed || t.st == .held || t.st == .consuming
      let x := (s.cell c).setTile (pool, k) { t with raised := true }
      let u := s.setCell c { x with pools := Assoc.modify pool (fun p => { p with abandoned := p.abandoned + 1 }) x.pools }
      (p.deadline ≠ 0 → t.raised = false → live = true → p.deadline ≤ s.clock - t.born →
        exec (.abandonedTile c pool k) s =
          .next (u.pushEvent t.region c 2 0 (word t.count) ((s.cell c).handleOf c (pool, k)) (word t.ctx) 0))
      ∧ (p.deadline = 0 ∨ t.raised = true ∨ live = false ∨ s.clock - t.born < p.deadline →
        exec (.abandonedTile c pool k) s = .next s))
    ∧ (∀ (r : Nat) (x : Region), s.region r = some x →
      let quiet := if x.activity then 0 else x.quiet + 1024
      let u := s.modRegion r fun x => { x with quiet := quiet, activity := false, sampledAt := x.sampledAt + 1 }
      (s.clock / 1024 ≤ x.sampledAt → exec (.stallWatchdog r) s = .next s)
      ∧ (x.sampledAt < s.clock / 1024 → (quiet < x.h ∨ smallestPool (u.exhaustedPools r) = none) → exec (.stallWatchdog r) s = .next u)
      ∧ (∀ c k p, x.sampledAt < s.clock / 1024 → x.h ≤ quiet → smallestPool (u.exhaustedPools r) = some (c, k, p) →
          exec (.stallWatchdog r) s = .next (u.enlarge r c k p)))

/-- The events of pools and tiles. -/
def Obligations.PoolEventsActAsStated : Prop := ControllersServeInTurn ∧ HandleOperationsAnswer ∧ DeadlinesAndStallsAreSeen

/-! ### Events of the matrix unit and the copy engine -/

/-- R133, R137, R138, R147, R210: the free matrix unit starts the first startable operation of the tenant that the deficit
counters choose, its consumed operands counted down; the operation that it executes retires, after its release, with its
elements written, its flags in the task's fcsr, its entries gone and its action done. It rests on readings of the model (log
entry 26). -/
def Sys2Proof.TileOperationsExecute : Prop :=
  ∀ (s : State),
    let c := s.cur.cell
    let q := (s.cell c).tileq
    let cands := if q.any (·.started) then [] else q.filter (s.tileReady c)
    (q.any (·.started) = true → exec .tileOpStart s = .next s)
    ∧ (∀ t w o, s.chooseTenant c .tile ((cands.map fun o => s.tenantOf o.region).eraseDups) = some (t, w) →
      cands.find? (fun o => w.tenantOf o.region == t) = some o →
      let r := (w.spend c t .tile o.occupancy).consumeAll c o
      (∀ f, r.2 = some f → exec .tileOpStart s = .next (r.1.abandonTile c o f))
      ∧ (r.2 = none → exec .tileOpStart s = .next (r.1.modCell c fun x =>
          { x with tileq := modifyFirst (·.key == o.key) (fun o => { o with started := true }) x.tileq })))
    ∧ (∀ o, q.find? (·.started) = some o →
      let r := s.tileWrite c o
      let u := (if r.1.resident c o.ctx o.task then r.1.modCtx c o.ctx (·.addFlags r.2) else r.1).dropTile c o.key
      (o.rel = true → s.opReady c o.ctx o.task o.seq o.scope = false → exec .tileOpRetire s = .next s)
      ∧ (o.rel = false ∨ s.opReady c o.ctx o.task o.seq o.scope = true →
        (o.suppressed = true → exec .tileOpRetire s = .next u)
        ∧ (o.suppressed = false → exec .tileOpRetire s = .next (u.finishAct c
            { ctx := o.ctx, task := o.task, region := o.region, act := o.act, word := o.word, id := o.id, item := o.id }))))

/-- R182 to R184, R189, R191, R193, R198, R230, R277: the copy engine holds at most four active copies and reads their chunks in
turn, as tokens and station credits allow; a chunk that arrives is taken in behind those before it, unless it follows a refused one of
its attempt, or the region that its accepted copy writes for is gone; the destination's answer is all bytes taken, a fault, the end of
the copy, or a freeze; a copy that is done leaves with its entries and does its action. Each 1,024 cycles a bucket gains its rate,
debts first, up to its depth. It rests on readings of the model (log entries 15, 26, 43, 57). -/
def Sys2Proof.CopiesMove : Prop :=
  ∀ (s : State),
    let c := s.cur.cell
    let x := s.cell c
    let active := x.copyq.filter fun o => o.phase == .active
    let cands := if 4 ≤ active.length then [] else x.copyq.filter (s.copyReady c)
    let choice := s.chooseTenant c .copy ((cands.map (·.tenant)).eraseDups)
    let live := active.filter (s.chunkReady c)
    let next := match live.find? (x.copyTurn < ·.key) with
      | some o => some o
      | none => live.head?
    let u := s.land s.cur.k
    (∀ t w o, choice = some (t, w) → cands.find? (·.tenant == t) = some o →
      let v := if o.begun then w else w.spend c t .copy o.lay.total
      exec .copyStart s = .next (v.modCopy c o.key fun o => { o with phase := .active, begun := true }))
    ∧ (∀ o w, choice = none → next = some o → s.draw o.region c o.nextSize = some w →
        exec .copyStart s = .next ((w.modCell c fun x => { x with copyTurn := o.key }).readChunk c o))
    ∧ (choice = none → next = none → exec .copyStart s = .next s)
    ∧ (∀ src d a, s.brings src (.cell d) (.chunk a) →
      let past : Bool := (u.cell d).refused.any fun b => b.1.same a && (b.2 || a.attempt ≤ b.1.attempt)
      let v := u.modCell d fun x => { x with refused := x.refused.filter (!·.1.same a) }
      let faults (h : Chunk) (t : TrapInfo) (z : Bool) : State :=
        (((v.refuseChunk d a (some t) z).modCell d fun x =>
          { x with accepted := x.accepted.filter (!·.same h) }).dropSb d h.entry).drainAll d
      let gone := ((v.cell d).header a).filter (v.headerGone d)
      (past = true → exec .copyChunkArrival s = .next u)
      ∧ (past = false → gone = none → exec .copyChunkArrival s = .next ((v.bufferChunk d a).drainAll d))
      ∧ (∀ h, past = false → gone = some h →
        (∀ k, v.accept d a = .fault k → exec .copyChunkArrival s = .next (faults h (chunkTrap a k) false))
        ∧ (v.accept d a = .foreign → exec .copyChunkArrival s = .next (faults h (chunkTrap a 58) true))
        ∧ (∀ sp lo n r, v.accept d a = .ok sp lo n r → exec .copyChunkArrival s = .next (faults h (chunkTrap a 7) false))))
    ∧ (∀ src d n key f z pos fin tenant o, s.brings src (.cell d) (.chunkAck n key f z pos fin tenant) →
        (u.cell d).copyq.find? (·.key == key) = some o →
        (∀ t, f = some t → t.cause ≠ 56 →
          (o.isFaulted = true → exec .copyAcknowledgement s = .next (u.modCopy d key fun o => { o with pos := min o.pos pos }))
          ∧ (o.isFaulted = false → z = false → exec .copyAcknowledgement s = .next (u.copyFault d key pos t))
          ∧ (o.isFaulted = false → z = true → exec .copyAcknowledgement s = .next (u.copyFreeze d key pos t)))
        ∧ (∀ t, f = some t → t.cause = 56 → exec .copyAcknowledgement s = .next (u.abandonCopy d key pos t))
        ∧ (f = none → z = true → exec .copyAcknowledgement s = .next (u.freezeEngine d o pos))
        ∧ (f = none → z = false → exec .copyAcknowledgement s =
            .next (u.modCopy d key fun o => { o with acked := o.acked || fin })))
    ∧ (∀ o, x.copyq.find? (s.copyDone c) = some o →
        let its (e : REntry) : Bool := e.kind == 2 && e.data == o.id
        let v := (s.modCell c fun x =>
          { x with
            copyq := x.copyq.filter (·.key != o.key), retry := x.retry.filter (fun e => !its e.2),
            retryWait := x.retryWait.filter fun e => !its e.1 }).dropSb c o.key
        (o.suppressed = true → exec .copyRetire s = .next (v.drainAll c))
        ∧ (o.suppressed = false → exec .copyRetire s = .next ((v.finishAct c
            { ctx := o.ctx, task := o.task, region := o.region, act := o.act, word := o.word, id := o.id,
              item := o.item }).drainAll c)))
    ∧ (∀ r cell q, s.region r = some q → q.refilled.getD cell 0 < s.clock / 1024 → q.grants.any (·.cell == cell) = true →
        let p := s.repay cell q.tokRate q.debts
        exec (.copyTokenRefill r cell) s = .next (p.1.modRegion r fun y =>
          { y with
            tokens := Assoc.put cell (min y.tokDepth (y.tokens.getD cell 0 + p.2.1)) y.tokens,
            debts := p.2.2, refilled := Assoc.put cell (q.refilled.getD cell 0 + 1) y.refilled }))

/-- The events of the matrix unit and the copy engine. -/
def Obligations.EngineEventsActAsStated : Prop := TileOperationsExecute ∧ CopiesMove

/-! ### Events of ports and hubs -/

/-- R300, R310, R321, R408: an offer that reaches the slot of its port is stored while the hub holds fewer than 512, else it stands in
the spill area at a charge of 32 bytes, else its context's offer is withdrawn with reason 6 and an action's is event 3; one whose
slot or port is gone is discarded and counted. One from across a link is made at the port of the tenant that its share is paired with,
or refused. It rests on readings of the model (log entries 33, 43). -/
def Sys2Proof.OffersAreStored : Prop :=
  ∀ (s : State) (k c j conn tenant region : Nat) (o : Offer),
    let u := s.land s.cur.k
    let name := mkPort conn o.port
    (∀ l, s.brings (.link l) (.cell c) (.offer o conn tenant j region) →
      let p : Offer := { o with link := some l }
      (∀ r, u.linkedReason tenant name = some r → exec .offerArrival s =
        .next (u.answerOffer c p 0 (.withdrawn (some r)) { hub := c, slot := 0, trans := 0, cycle := u.clock }))
      ∧ (∀ d i h, u.linkedReason tenant name = none → u.lookup tenant name = some (d, i) → u.hubSlot d i = some h →
        h.conn = conn → h.tenant = tenant → (h.image.entry o.port).isSome = true → (u.cell d).storedOffers < 512 →
        exec .offerArrival s = .next (u.modCell d fun y =>
          { y with
            nextKey := y.nextKey + 1
            hub := Assoc.modify i (fun h =>
              { h with dirty := true, offers := h.offers ++ [{ p with age := 0, arrival := y.nextKey, spilled := false }] }) y.hub })))
    ∧ (s.brings (.cell k) (.cell c) (.offer o conn tenant j region) →
      (u.hubSlot c j = none → exec .offerArrival s = .next (u.frBump region c 0x20 1))
      ∧ (∀ h, u.hubSlot c j = some h →
        (h.conn ≠ conn ∨ h.tenant ≠ tenant ∨ h.image.entry o.port = none → exec .offerArrival s = .next (u.frBump region c 0x20 1))
        ∧ (h.conn = conn → h.tenant = tenant → (h.image.entry o.port).isSome = true →
          let x := u.cell c
          let add (u : State) (b : Bool) : State := u.modCell c fun y =>
            { y with
              nextKey := y.nextKey + 1
              hub := Assoc.modify j (fun h =>
                { h with dirty := true, offers := h.offers ++ [{ o with age := 0, arrival := y.nextKey, spilled := b }] }) y.hub }
          (x.storedOffers < 512 → exec .offerArrival s = .next (add u false))
          ∧ (512 ≤ x.storedOffers →
            (∀ v, u.charge h.region 32 = some v → exec .offerArrival s = .next (add v true))
            ∧ (u.charge h.region 32 = none →
              (∀ a i t n, o.by_ = .ctx a i t n → exec .offerArrival s = .next
                ((u.dropAlts c o.group.toList).answerOffer c o j (.withdrawn (some 6)) { hub := c, slot := j, trans := 0, cycle := u.clock }))
              ∧ (∀ a q, o.by_ = .action a q → exec .offerArrival s =
                  .next (u.pushEvent h.region c 3 0 5 (o.item.getD 0) 0 0)))))))

/-- R297, R298, R312, R321, R412: a FIFO item joins the FIFO that holds the output end, beyond its n items in the spill area at a
charge of 8 bytes; with no budget or no place it is discarded, event 3 with its port, and counted where its FIFO is gone. A `put` whose
item goes only to FIFOs answers 1 as soon as one of them took it; when the last of them did not, it answers 2 where one discarded the
item, else 0. It rests on readings of the model (log entries 33, 43, 57, 61). -/
def Sys2Proof.ItemsReachTheirFifo : Prop :=
  ∀ (s : State) (src : Place) (c tenant conn region number : Nat) (item name : Word) (fwd : List Offer) (cut : Bool) (f : FiringAt),
    let u := s.land s.cur.k
    let slot := (u.cell c).hub.find? fun h =>
      h.2.tenant == tenant && h.2.conn == conn && h.2.image.fifos.any fun q => q.here && q.number == number
    let ends (t : State) (e : FifoEnd) : Prop := exec .fifoItemArrival s = .next (t.fifoAnswers c fwd cut f e)
    (s.brings src (.cell c) (.fifoItem tenant conn region number item name fwd cut f) →
      (slot = none → ends (u.frBump region c 0x20 1) .gone)
      ∧ (∀ j h, slot = some (j, h) →
        let e := (indexWhere (fun q => q.here && q.number == number) h.image.fifos).getD 0
        let full : Bool := ((h.image.fifos[e]?).map (·.cap)).getD 0 ≤ ((h.fifo[e]?).map (·.length)).getD 0
        let change (t : State) (g : HubSlot → HubSlot) : State := t.modCell c fun y =>
          { y with hub := Assoc.modify j (fun h => { g h with dirty := true }) y.hub }
        let lost : State := u.pushEvent h.region c 3 0 4 item name 0
        (full = false → ends (change u fun h => { h with fifo := modifyAt (· ++ [item]) e h.fifo }) .took)
        ∧ (full = true →
          (u.charge h.region 8 = none → ends lost .cut)
          ∧ (∀ v, u.charge h.region 8 = some v →
            (v.spillPlace h.region c 8 8 = none → ends lost .cut)
            ∧ (∀ a, v.spillPlace h.region c 8 8 = some a →
              ends (change (v.spillWrite c a (leBytes 8 item.toNat)) fun h => { h with beyond := modifyAt (· ++ [a]) e h.beyond }) .took)))))
    ∧ (∀ o : Offer,
      let carries (g : Flight) : Bool := match g.pay with
        | .fifoItem _ _ _ _ _ _ os _ e => e == f && os.contains o
        | _ => false
      let change (k : List Offer → Bool → List Offer × Bool) (g : Flight) : Flight := match g.pay with
        | .fifoItem a b r n item name os cut e =>
          if e = f && os.contains o then { g with pay := .fifoItem a b r n item name (k os cut).1 (k os cut).2 e } else g
        | _ => g
      (u.fifoAnswers c [o] cut f .took =
        ({ u with net := u.net.map (change fun os z => (os.filter (· != o), z)) } : State).answerOffer c o f.slot (.fired none 1) f)
      ∧ (u.net.any carries = true →
        u.fifoAnswers c [o] cut f .gone = u
        ∧ u.fifoAnswers c [o] cut f .cut = { u with net := u.net.map (change fun os _ => (os, true)) })
      ∧ (u.net.any carries = false →
        u.fifoAnswers c [o] cut f .gone = u.answerOffer c o f.slot (.fired none (if cut then 2 else 0)) f
        ∧ u.fifoAnswers c [o] cut f .cut = u.answerOffer c o f.slot (.fired none 2) f))

/-- R303, R314: a cancel withdraws the offers of its context that the hub still holds, and the hub answers, unless one of them
has fired: then that one's completion is the answer; a cancel that comes before its offer goes on to where the offer goes. It rests on
readings of the model (log entries 33, 43). -/
def Sys2Proof.CancelsWithdrawOffers : Prop :=
  ∀ (s : State) (k c cell i n tenant : Nat) (task : Word),
    let u := s.land s.cur.k
    let his (o : Offer) : Bool := o.link == none && (match o.by_ with
      | .ctx a j t _ => a == cell && j == i && t == task
      | .action _ _ => false)
    let t := ((u.cell c).hub.map (·.1)).foldl (fun s j => s.removeOffers c j his) u
    let fired := t.net.any fun g => match g.pay with
      | .portDone o _ _ _ => his o
      | .fifoItem _ _ _ _ _ _ fwd _ _ => fwd.any his
      | _ => false
    let coming := t.net.find? fun g => match g.pay with
      | .offer o _ _ _ _ => his { o with link := match g.src with
          | .link l => some l
          | _ => none }
      | _ => false
    s.brings (.cell k) (.cell c) (.hubCancel cell i task n tenant) →
      (fired = true → exec .hubCancelArrival s = .next t)
      ∧ (∀ g, fired = false → coming = some g →
        exec .hubCancelArrival s = .next (t.send (.cell k) g.dst (.hubCancel cell i task n tenant)))
      ∧ (fired = false → coming = none → exec .hubCancelArrival s = .next (t.answerOffer c
          { port := 0, name := 0, item := none, by_ := .ctx cell i task 0, alt := none, link := none, age := 0, arrival := 0,
            spilled := false, tenant := tenant } 0 (.withdrawn none) { hub := c, slot := 0, trans := 0, cycle := t.clock }))

/-- R256, R274, R311: a hub decides the first dirty slot that is not busy and not parked, in turn from the one after the last;
a stage governor, each 256 cycles, adds the lowest candidate that is not eligible when the items waiting exceed the type's high mark,
where there is one, and else takes the last one away below its low mark, never the only one. It rests on readings of the model (log entries 15, 33). -/
def Sys2Proof.HubsDecideInTurn : Prop :=
  ∀ (s : State),
    let c := s.cur.cell
    let x := s.cell c
    let due (j : Nat) : Bool := match Assoc.get? j x.hub with
      | some h => h.dirty && h.busyUntil ≤ s.clock && !s.isParked h.region
      | none => false
    let next := ((List.range 16).map fun k => (x.hubNext + k) % 16).find? due
    (next = none → exec .decide s = .next s)
    ∧ (∀ j h, next = some j → Assoc.get? j x.hub = some h →
        exec .decide s = .next ((s.setCell c { x with hubNext := (j + 1) % 16 }).decide c j h))
    ∧ (∀ (d j : Nat) (h : HubSlot) (ty : TaskType), s.hubSlot d j = some h → h.image.actor.bind (s.taskType h.tenant) = some ty →
      let q := ((List.range h.image.fifos.length).map fun k =>
        if ((h.image.fifos[k]?).map (·.here)).getD false then h.held k else 0).sum
      let off := (s.candidates h).filter fun k => !h.eligible.contains k
      let after (el : List Nat) : State := s.modCell d fun x =>
        { x with hub := Assoc.modify j (fun h => { h with eligible := el, sampled := s.clock }) x.hub }
      (s.clock < h.sampled + 256 → exec (.stageGovernor d j) s = .next s)
      ∧ (h.sampled + 256 ≤ s.clock →
        (∀ k, off.head? = some k → ty.high < q → exec (.stageGovernor d j) s =
            .next (after ((s.candidates h).filter fun n => h.eligible.contains n || n == k)))
        ∧ (q ≤ ty.high ∨ off = [] →
          (q < ty.low → 1 < h.eligible.length → exec (.stageGovernor d j) s = .next (after h.eligible.dropLast))
          ∧ (ty.low ≤ q ∨ h.eligible.length ≤ 1 → exec (.stageGovernor d j) s = .next (after h.eligible)))))

/-- R181, R302, R303, R305, R312, R314, R315, R408: a hub's answer completes the waiting port instruction, or is its port fault, or, to
a cancelled one, lets the instruction issue again; one that finds its task gone is a lost firing; a completion action whose offer the
far side of a link refuses has that fault. A `pbind` is checked and
recorded at the port's home hub and answered there, or across its link. It rests on readings of the model (log entries 33,
43). -/
def Sys2Proof.HubsAnswer : Prop :=
  ∀ (s : State) (src : Place) (c : Nat),
    let u := s.land s.cur.k
    (∀ (o : Offer) (j : Nat) (f : FiringAt) (k i n : Nat) (task : Word), o.by_ = .ctx k i task n → i < 8 →
      (∀ item st d slots run b z, s.brings src (.cell c) (.portDone o j (.fired item st) f) → u.ctxTask c i = task →
        (u.ctxAt c i).st = .waiting (.port d slots run b z) → exec .portCompletionArrival s =
          .next (u.modCtx c i fun x => x.portResult d slots run b n item st))
      ∧ (∀ item st, s.brings src (.cell c) (.portDone o j (.fired item st) f) → u.ctxTask c i ≠ task →
          exec .portCompletionArrival s = .next (u.lostFiring c o task (item.getD (word st)) f))
      ∧ (∀ r d slots run b z, s.brings src (.cell c) (.portDone o j (.withdrawn (some r)) f) → u.ctxTask c i = task →
        (u.ctxAt c i).st = .waiting (.port d slots run b z) →
          exec .portCompletionArrival s = .next (u.takeTrap c i (portFault (word n) r)))
      ∧ (∀ d slots run b, s.brings src (.cell c) (.portDone o j (.withdrawn none) f) → u.ctxTask c i = task →
        (u.ctxAt c i).st = .waiting (.port d slots run b true) →
          exec .portCompletionArrival s = .next (u.modCtx c i fun x => { x with st := .running })))
    ∧ (∀ (o : Offer) (j k r : Nat) (e : EndAct) (f : FiringAt), o.by_ = .action k e →
      s.brings src (.cell c) (.portDone o j (.withdrawn (some r)) f) →
        exec .portCompletionArrival s = .next (u.actFault c e (portFault o.name r)))
    ∧ (∀ (k hub i n region tenant : Nat) (task name : Word),
      let hubPlace : Place := .cell hub
      (∀ r, s.brings (.cell k) hubPlace (.pbind c i task n name region tenant) → u.bindReason tenant region hub name false = some r →
        exec .pbindRequestArrival s = .next (u.bindAnswer c i task n name none r))
      ∧ (s.brings (.cell k) hubPlace (.pbind c i task n name region tenant) → u.bindReason tenant region hub name false = none →
        u.ctxTask c i = task → (u.ctxAt c i).bindWaits = true →
        let b : Binding := { name := name, tenant := tenant, cell := c, ctx := i, slot := n, task := task }
        exec .pbindRequestArrival s = .next ((u.recordBind hub b).bindAnswer c i task n name (u.boundSlot tenant name false) 0))
      ∧ (∀ l r, s.brings (.link l) hubPlace (.pbind c i task n name region tenant) → u.bindReason tenant region hub name true = some r →
        exec .pbindRequestArrival s = .next (u.send hubPlace (.link l) (.pbindAnswer c i task n name none r tenant)))
      ∧ (∀ p r, s.brings src (.cell c) (.pbindAnswer k i task n name p r tenant) →
        exec .pbindRequestArrival s = .next (u.bindAnswer c i task n name p r)))

/-- The events of ports and hubs. -/
def Obligations.HubEventsActAsStated : Prop :=
  OffersAreStored ∧ ItemsReachTheirFifo ∧ CancelsWithdrawOffers ∧ HubsDecideInTurn ∧ HubsAnswer

/-! ### Events of barriers and reductions -/

/-- R21, R342, R346 to R349, R402: a barrier with every input high releases its generation, and no other; contributions combine in
the registers of the routers on their way, which wake, while their generation goes on, each register forwarding what it holds toward the root;
with all inputs high and all contributions there, the root sends its partial over each link, and with every link's partial come it
rounds each lane once and releases. A partial that disagrees breaks its generation, event 10, and so does a break of another
module's or a lost link. It rests on readings of the model (log entries 21, 35, 43). -/
def Obligations.BarrierEventsActAsStated : Prop :=
  ∀ (s : State),
    let u := s.land s.cur.k
    (∀ n b, Assoc.get? n s.bars = some b →
      (b.allHigh = true → exec (.barrierRelease n) s = .next (s.setBar n b.release))
      ∧ (b.allHigh = false → exec (.barrierRelease n) s = .next s))
    ∧ (∀ src dst n g ls r, s.brings src dst (.contribution n g ls) → Assoc.get? n s.reds = some r →
      (∀ p, dst = .router p → r.bar.ended g = true → exec .reductionCombine s = .next u)
      ∧ (∀ p, dst = .router p → r.bar.ended g = false → exec .reductionCombine s = .next ((u.wakeRouter p).addLanes p n g r.op ls)
        ∧ (u.wakeRouter p).gated.contains p = false
        ∧ ((u.wakeRouter p).addLanes p n g r.op ls).routerLanes p n g = ((u.routerLanes p n g).zip ls).map fun x => RLane.combine r.op x.1 x.2))
    ∧ (∀ r q, s.arriving s.cur.k = none → Assoc.get? s.cur.ctx s.reds = some r →
      (s.routers.find? fun x => x.router == s.cur.cell && x.number == s.cur.ctx) = some q → s.cur.cell ≠ routerOf r.root →
      exec .reductionCombine s = .next ((s.clearRouter s.cur.cell s.cur.ctx q.gen).send (.router s.cur.cell)
        (.router (nextRouter s.cur.cell (routerOf r.root))) (.contribution s.cur.ctx q.gen q.lanes)))
    ∧ (∀ src c p r, s.brings src (.cell c) (.partialSum p) → Assoc.get? p.number s.reds = some r →
      r.bar.ended p.gen = false → r.links.contains p.link = true →
      let bad : Prop := p.op ≠ r.op ∨ p.rm ≠ r.rm
      let told := u.pushEvent r.bar.owner c 10 0 (word p.number) (word p.gen) (word p.link) 0
      let kept (v : State) (broken : Bool) : State :=
        { v with reds := Assoc.put p.number { r with partials := r.partials ++ [{ p with broken := broken }] } v.reds }
      (p.broken = false → ¬ bad → exec .reductionPartialArrival s = .next (kept u false))
      ∧ (p.broken = false → bad → p.gen = r.bar.gen → exec .reductionPartialArrival s = .next (told.breakRed p.number r false))
      ∧ (p.broken = false → bad → p.gen ≠ r.bar.gen → exec .reductionPartialArrival s = .next (kept told true))
      ∧ (p.broken = true → p.gen = r.bar.gen → exec .reductionPartialArrival s = .next (u.breakRed p.number r false))
      ∧ (p.broken = true → p.gen ≠ r.bar.gen → exec .reductionPartialArrival s = .next (kept u true)))
    ∧ (∀ n r, Assoc.get? n s.reds = some r →
      let g := r.bar.gen
      let ps := r.partials.filter (·.gen == g)
      let own := s.routerLanes (routerOf r.root) n g
      let come : Prop := r.bar.allHigh = true ∧ s.contributing n g (routerOf r.root) = false
      (ps.any (·.broken) = true → exec (.reductionResult n) s = .next (s.breakRed n r false))
      ∧ (ps.any (·.broken) = false → ¬ come → exec (.reductionResult n) s = .next s)
      ∧ (ps.any (·.broken) = false → come → r.links.any s.linkLost = true → exec (.reductionResult n) s = .next (s.breakRed n r false))
      ∧ (ps.any (·.broken) = false → come → r.links.any s.linkLost = false →
        (r.links ≠ [] → r.sentGen ≠ some g →
          let w := r.links.foldl (fun s l => s.send (.cell r.root) (.link l) (.partialSum
            { link := l, number := n, gen := g, op := r.op, rm := r.rm, lanes := own, broken := false })) s
          exec (.reductionResult n) s = .next { w with reds := Assoc.put n { r with sentGen := some g } w.reds })
        ∧ (r.links = [] ∨ r.sentGen = some g → (r.links.all fun l => ps.any (·.link == l)) = false →
          exec (.reductionResult n) s = .next s)
        ∧ (r.links = [] ∨ r.sentGen = some g → (r.links.all fun l => ps.any (·.link == l)) = true →
          let out := (ps.foldl (fun ls p => (ls.zip p.lanes).map fun q => RLane.combine r.op q.1 q.2) own).map (·.result r.op r.rm)
          let res : RResult := { gen := g, lanes := out.map fun o => BitVec.ofNat 32 o.1, flags := orFlags out }
          exec (.reductionResult n) s = .next (s.setRed n
            { r with
              bar := r.bar.release, partials := r.partials.filter (·.gen ≠ g), sentGen := none,
              results := (res :: r.results).take 2 } false))))

/-! ### Events of memory -/

/-- R228 to R231: a request goes on at its station when no earlier request of its context is before it, none of its context
waits for a walk there of another page than its own, no earlier unresolved store or atomic entry holds its context, and a walker of
its partition's share is free if it needs one; a walk that ends caches the leaf that it finds, and the accesses that waited stand at
their station again, or fault by the tables as they now stand. It rests on readings of the model (log entries 23, 43, 50, 55). -/
def Sys2Proof.StationsTranslate : Prop :=
  ∀ (s : State),
    (∀ src d c a, s.net[s.cur.k]? = some { src := src, dst := .station d c, pay := .stationReq a } →
      let st := d * 16 + c
      let same (b : Acc) : Bool := b.cell == a.cell && b.ctx == a.ctx && b.task == a.task && b.seq ≤ a.seq
      let behind : Bool := ((s.net.take s.cur.k).any fun f => match f.pay with | .stationReq b => same b | _ => false)
        || ((s.station st).walks.any fun w => w.waiting.any same && !(match s.xlatAt st a with
          | .miss va => w.asid == a.asid && w.page == va / 65536 * 65536
          | _ => false))
      let held : Bool := match a.op with
        | .copy _ => false
        | _ => (s.ringHeld a.cell a.ctx).any fun b => b.op != .load && b.seq < a.seq && b.task == a.task
      let overtakes : Bool := (s.passes s.cur.k (s.stationWaits st)).isNone
      (behind = true ∨ held = true ∨ overtakes = true → exec .stationRequest s = .next s)
      ∧ (behind = false → held = false → overtakes = false → exec .stationRequest s =
          .next (((s.land s.cur.k).stationTake st a).getD s)))
    ∧ (∀ d c k w, (s.station (d * 16 + c)).walks[k]? = some w →
      let u := s.modStation (d * 16 + c) fun x => { x with walks := dropAt k x.walks }
      (∀ l, u.walk w.asid w.page (false, false) = .ok l →
        let v := u.cacheLeaf (d * 16 + c) l
        exec (.walkComplete d c k) s = .next { v with
          net := (w.waiting.map fun a => ({ src := .cell a.cell, dst := .station d c, pay := .stationReq a } : Flight)) ++ u.net })
      ∧ (∀ e, u.walk w.asid w.page (false, false) = .error e →
        let done (s : State) (a : Acc) : State :=
          match s.walk w.asid w.page a.op.need with
          | .error f =>
            let va := ((a.runs.find? fun r => r.2.2.1 / 65536 * 65536 == w.page).map (·.2.2.1)).getD w.page
            s.deliverFault a (a.laneAddr va) (a.pageFault va f) (s.foreign a.asid f)
          | .ok _ => s
        exec (.walkComplete d c k) s = .next (w.waiting.foldl done u)))

/-- R201, R204, R205, R207, R215, R234, R363, R371: a load's value is fixed, and a write performed, at its home in the order of its
context, unless an earlier flight of the same way that does not wait there itself stands before it, a load also past the writes that
stand at its station; an unreadable unit is a memory error. The oldest fault that waits takes a ring entry when there is room for its tenant. It rests on readings of the model
(log entries 22, 23, 43). -/
def Sys2Proof.AccessesArePerformedInOrder : Prop :=
  ∀ (s : State) (src dst : Place) (a : Acc),
    let k := s.cur.k
    let u := s.land k
    let glb : Flight := { src := src, dst := dst, pay := .glb a }
    let goes (n : Nat) (f : Flight) : Bool := f.standsAtStation || s.homeWaits n f
    (s.passes k goes = some glb → a.op = .load →
      (s.inOrder a = true → s.earlierChunk a = false → (a.kind == .S && s.waitsFor k src a) = false → s.seenWait k a = false →
        (∀ n, s.badUnit a = some n → exec .loadValueReturned s = .next (u.faultMem a n))
        ∧ (s.badUnit a = none → exec .loadValueReturned s = .next (u.deliver a (a.laneBytes (s.pieceBytes k src a)))))
      ∧ (s.homeWaits k glb = true → exec .loadValueReturned s = .next s))
    ∧ (s.passes k s.homeWaits = some glb → a.isLoad = false →
      (s.inOrder a = true → s.earlierChunk a = false → s.waitsFor k src a = false → s.seenWait k a = false →
        (∀ n, s.badUnit a = some n → exec .writePerformedAtHome s =
          .next (match a.op with | .copy _ => u.deliverFault a 0 (memError n) false | _ => u.faultMem a n))
        ∧ (s.badUnit a = none → exec .writePerformedAtHome s = .next ((u.performWrite a).ackCopy a)))
      ∧ (s.homeWaits k glb = true → exec .writePerformedAtHome s = .next s))
    ∧ (∀ bs, s.passes k goes = some { src := src, dst := dst, pay := .value a bs } →
        exec .loadValueReturned s = .next (u.deliver a bs))
    ∧ (∀ i e,
      let x := s.cell s.cur.cell
      indexWhere (fun e => s.ringRoom s.cur.cell e.1.tenant && (x.ctx e.1.ctx).frozen.isNone) x.retryWait = some i →
      x.retryWait[i]? = some e → exec .ringEntryFreed s =
        .next ((s.setCell s.cur.cell { x with retryWait := dropAt i x.retryWait }).ringPut s.cur.cell e.1 e.2.1 e.2.2))

/-- R157, R188, R215, R345: an access to a peer is performed in its order at the peer's scratchpad, when no engine operation there
conflicts and the tiles allow it, else it waits there; a consuming load takes its count step there; it comes back from a peer that has
departed before it came, as cause 28: precise for a context that holds for it, else a retry-ring entry. It rests on readings of the model (log entries 22,
43). -/
def Sys2Proof.PeersAreAccessed : Prop :=
  ∀ (s : State) (src : Place) (c : Nat) (a : Acc) (p : Piece) (ps : List Piece),
    let u := s.land s.cur.k
    let off := p.home - locA c 0
    (s.brings src (.cell c) (.peer a) → a.pieces = p :: ps →
      (a.arrived = false → s.peerPresent a c = false →
        exec .peerAccessArrival s = .next (u.send (.cell c) (.cell a.cell) (.peerAbsent a)))
      ∧ (a.arrived = true ∨ s.peerPresent a c = true →
        (s.inOrder a = false ∨ s.seenWait s.net.length a = true ∨ (s.cell c).conflicts .loc off p.len (a.op == .store) = true →
          exec .peerAccessArrival s = .next (s.arrived s.cur.k))
        ∧ (s.inOrder a = true → s.seenWait s.net.length a = false → (s.cell c).conflicts .loc off p.len (a.op == .store) = false → a.cons = false →
          (∀ t, u.tileCheck c .loc off p.len (a.op == .store) a.firstAddr = some t →
            exec .peerAccessArrival s = .next (u.peerTrap a t))
          ∧ (u.tileCheck c .loc off p.len (a.op == .store) a.firstAddr = none →
            (a.op = .store → exec .peerAccessArrival s = .next ((u.freeEntry a).writeBytes p.home (a.pieceData p)))
            ∧ (a.op ≠ .store → exec .peerAccessArrival s =
                .next (u.send (.cell c) (.cell a.cell) (.value a [u.readBytes p.home p.len])))))
        ∧ (s.inOrder a = true → s.seenWait s.net.length a = false → (s.cell c).conflicts .loc off p.len (a.op == .store) = false → a.cons = true →
          let r := u.consumeAt c .loc off p.len a.firstAddr a.cell a.ctx
          (∀ t, r.2 = some t → exec .peerAccessArrival s = .next (r.1.peerTrap a t))
          ∧ (r.2 = none → exec .peerAccessArrival s =
              .next (r.1.send (.cell c) (.cell a.cell) (.value a [u.readBytes p.home p.len]))))))
    ∧ (∀ dst, s.brings src dst (.peerAbsent a) →
      let t : TrapInfo := { cause := 28, val := a.firstAddr, info := word a.rank }
      exec .peerAbsentReturn s = .next (if a.sc then (u.scDone a).trapSc a t
        else if a.cons then u.peerTrap a t else u.faultAcc a a.firstAddr t))

/-- R213, R214, R334: an announcement makes its operation ready, and when its window has closed, 96 cycles after its end, its home
performs the first operation of the order S, a load or a store, unless an engine operation there conflicts or a write that its context
may have seen waits; an atomic runs in its home's context 8 instead; an unreadable unit is a memory error. It rests on readings of the model (log entries 24, 43, 54). -/
def Sys2Proof.WindowsCloseInOrder : Prop :=
  ∀ (s : State),
    (∀ src dst w c i n, s.brings src dst (.announce w c i n) →
      exec .scAnnouncementArrival s = .next { s.land s.cur.k with
        scOps := s.scOps.map fun o => if o.window = w ∧ o.cell = c ∧ o.ctx = i ∧ o.seq = n then { o with ready := true } else o })
    ∧ (s.scOps = [] → exec .windowClose s = .next s)
    ∧ (∀ o, firstSc s.scOps = some o →
      let a := o.acc
      let u := { s with scOps := eraseFirst (· == o) s.scOps }
      let early : Prop := o.ready = false ∨ s.clock < 32 * (o.window + 1) + 96
      (early ∨ a.isAtomic = true ∨ s.scWaits a = true ∨ s.homeConflict a (a.op != .load) = true → exec .windowClose s = .next s)
      ∧ (¬ early → o.cell = a.cell → o.ctx = a.ctx → o.seq = a.seq →
        s.scWaits a = s.waitsFor s.net.length (stationPlace a.cell) a)
      ∧ (¬ early → a.isAtomic = false → s.scWaits a = false → s.homeConflict a (a.op != .load) = false →
        (∀ n, u.badUnit a = some n → exec .windowClose s = .next (u.faultMem a n))
        ∧ (u.badUnit a = none →
          (a.op = .load → exec .windowClose s =
            .next (u.finishSc a (a.laneBytes fun p => u.readUnder (u.homeTag p.key p.home) p.home p.len)))
          ∧ (a.op ≠ .load → exec .windowClose s = .next ((u.performWrite a).finishSc a [])))))

/-- R233, R238, R393: a retiring key slot that nothing uses is empty, the contexts that wait for it in `keyset ret` go on with
status 0, and measurement 4 records it. It rests on readings of the model (log entries 5, 23). -/
def Sys2Proof.KeySlotsEmpty : Prop :=
  ∀ (s : State) (k : Nat),
    let u := { s with keys := Assoc.put k { st := .empty, owner := 0, gen := (s.keySlot k).gen + 1 } s.keys }.remeasure
    let waits (x : Ctx) : Bool := match x.st with
      | .waiting (.keyset _ n) => n == k
      | _ => false
    ((s.keySlot k).st ≠ .retiring ∨ s.slotIdle k = false → exec (.keySlotEmpty k) s = .next s)
    ∧ ((s.keySlot k).st = .retiring → s.slotIdle k = true → exec (.keySlotEmpty k) s =
        .next ((u.ctxsWhere waits).foldl (fun s p => s.modCtx p.1 p.2 fun x => match x.st with
          | .waiting (.keyset d _) => { x.ws d 0 with st := .running }.retire
          | _ => x) u))

/-- The events of memory. -/
def Obligations.MemoryEventsActAsStated : Prop :=
  StationsTranslate ∧ AccessesArePerformedInOrder ∧ PeersAreAccessed ∧ WindowsCloseInOrder ∧ KeySlotsEmpty

/-! ### Events of the links -/

/-- R384 to R387, R396: a group that a link accepts is taken in once, and its acknowledgement and its request to resend are
obeyed; one that it does not accept is answered with the last number accepted, one without flits is such an answer; 3,600 cycles
without progress resend; a retrained link is up with new keys and numbers, and one that trains 18,000,000 cycles goes down and fails
what waits on it; a rotation installs, switches and retires its keys, each direction by itself. It rests on readings of the
model (log entries 11, 15, 20, 39, 45). -/
def Obligations.LinkEventsActAsStated : Prop :=
  ∀ (s : State),
    (∀ g : WaleGroup,
      let a := s.sealAll g.link
      let b := if g.verifies then a.acknowledge g.link g.ack else a
      let u := if g.verifies && g.nak then b.resend g.link else b
      let share := (u.link g.link).shares.find? (·.share == g.share)
      ((s.link g.link).isUp = false → exec (.waleGroupReceive g) s = .next s)
      ∧ ((s.link g.link).isUp = true →
        (g.nflits = 0 ∨ (u.link g.link).isUp = false → exec (.waleGroupReceive g) s = .next u)
        ∧ (g.nflits ≠ 0 → (u.link g.link).isUp = true →
          (share = none ∨ (u.link g.link).accepts g = false → exec (.waleGroupReceive g) s =
            .next (u.modLink g.link fun x => { x with answers := x.answers ++ [(true, x.rxSeq)] }))
          ∧ (∀ h, share = some h → (u.link g.link).accepts g = true → exec (.waleGroupReceive g) s =
            .next (((u.modLink g.link fun x => x.took g).takeIn g.link h.tenant g.pays).endTurned g.link)))))
    ∧ (∀ (x : LinkState) (g : WaleGroup), (x.took g).rxSeq = g.seq ∧ (x.took g).answers = x.answers ++ [(false, g.seq)])
    ∧ (∀ n,
      let u := s.sealAll n
      ((u.link n).isUp = false ∨ (u.link n).unacked = [] → exec (.waleResendTimeout n) s = .next u)
      ∧ ((u.link n).isUp = true → (u.link n).unacked ≠ [] →
        (u.clock < (u.link n).lastAck + 3600 → exec (.waleResendTimeout n) s = .next u)
        ∧ ((u.link n).lastAck + 3600 ≤ u.clock → exec (.waleResendTimeout n) s = .next (u.resend n))))
    ∧ (∀ n, Assoc.get? n s.links = none ∨ (s.link n).isUp = true → exec (.waleRetrainComplete n) s = .next s)
    ∧ (∀ n x, Assoc.get? n s.links = some x → x.isUp = false →
      let k := Config.pick 5 s.fresh % (x.unacked.length + 1)
      let u := s.modLink n fun y =>
        { y with
          st := .up, txSlot := 0, rxSlot := 0, txSlots := [.active, .installed], rxSlots := [.active, .installed],
          txKeys := [Config.linkKey s.fresh 0, Config.linkKey s.fresh 1], rxKeys := [Config.linkKey s.fresh 2, Config.linkKey s.fresh 3],
          txSeq := (y.txSeq + 2 ^ 56 - (x.unacked.length - k)) % 2 ^ 56, sealed := 0, unacked := [], rotTx := none, rotRx := none,
          rxOld := false, retries := 0, attempts := 0, lastAck := s.clock, session := s.fresh, derived := 4, answers := [] }
      exec (.waleRetrainComplete n) s = .next (((x.unacked.drop k).flatMap (·.pays)).foldl State.lose u))
    ∧ (∀ n,
      let x := s.link n
      let down := s.modLink n fun x => { x with st := .down, unacked := x.unacked.map fun g => { g with pays := [] } }
      let u := { down with net := down.net.filter fun f => f.dst != Place.link n }
      (x.st = .training → x.downSince + 18000000 ≤ s.clock → exec (.waleDownTimeout n) s =
        .next (((x.unacked.flatMap (·.pays) ++ s.leaving n).foldl State.lose u).loseWaits n))
      ∧ (x.st ≠ .training ∨ s.clock < x.downSince + 18000000 → exec (.waleDownTimeout n) s = .next s))
    ∧ (∀ n,
      let x := s.link n
      let set {α : Type} (k : Nat) (v : α) (l : List α) : List α := modifyAt (fun _ => v) k l
      let turn (old : Nat) (l : List LSlot) : List LSlot := set (1 - old) .active (set old .retiring l)
      let none_ : LinkKey := { key := 0, salt := 0 }
      (x.isUp = false → exec (.rotationKeyInstall n) s = .next s ∧ exec (.rotationSwitch n) s = .next s
        ∧ exec (.rotationRetire n) s = .next s)
      ∧ (x.isUp = true →
        (x.rotTx = some 0 ∨ (x.rotTx = none ∧ x.rotRx = none) → exec (.rotationKeyInstall n) s = .next (s.modLink n fun y =>
          { y with
            rotTx := some 1, rotRx := some 1, derived := y.derived + 2,
            txSlots := set (1 - x.txSlot) .installed y.txSlots, rxSlots := set (1 - x.rxSlot) .installed y.rxSlots,
            txKeys := set (1 - x.txSlot) (Config.linkKey y.session y.derived) y.txKeys,
            rxKeys := set (1 - x.rxSlot) (Config.linkKey y.session (y.derived + 1)) y.rxKeys }))
        ∧ (x.rotTx ≠ some 0 → x.rotTx ≠ none ∨ x.rotRx ≠ none → exec (.rotationKeyInstall n) s = .next s)
        ∧ (x.rotTx = some 1 → exec (.rotationSwitch n) s = .next (((s.sealAll n).modLink n fun y =>
            { y with
              rotTx := some 2, txSlot := 1 - y.txSlot, sealed := 0, txSlots := turn y.txSlot y.txSlots }).endTurned n))
        ∧ (x.rotTx ≠ some 1 → x.rotRx = some 1 → exec (.rotationSwitch n) s = .next ((s.modLink n fun y =>
            { y with
              rotRx := some 2, rxSlot := 1 - y.rxSlot, rxSlots := turn y.rxSlot y.rxSlots, rxOld := true }).endTurned n))
        ∧ (x.rotTx ≠ some 1 → x.rotRx ≠ some 1 → exec (.rotationSwitch n) s = .next s)
        ∧
        (let tx : Prop := x.rotTx = some 2 ∧ x.unacked.any (·.slot == 1 - x.txSlot) = false
         let rx : Prop := x.rotRx = some 3 ∨ (x.rotRx = some 2 ∧ Config.pick 6 s.fresh % 2 = 1)
         let ends (s : State) : State := s.modLink n fun y =>
           { y with
             rotRx := none, rxOld := false, rxSlots := set (1 - y.rxSlot) .idle y.rxSlots, rxKeys := set (1 - y.rxSlot) none_ y.rxKeys }
         let u := s.modLink n fun y =>
           { y with rotTx := none, txSlots := set (1 - y.txSlot) .idle y.txSlots, txKeys := set (1 - y.txSlot) none_ y.txKeys }
         (¬ tx → ¬ rx → exec (.rotationRetire n) s = .next s)
         ∧ (tx → ¬ rx → exec (.rotationRetire n) s = .next u)
         ∧ (¬ tx → rx → exec (.rotationRetire n) s = .next (ends s))
         ∧ (tx → rx → exec (.rotationRetire n) s = .next (ends u)))))

/-! ### Events of the host and of the module's own units -/

/-- R388 to R393, R398: a notify write in the doorbell page moves the latch of a mapped channel forward, up to 2^e beyond its head, and
any other is counted; a channel closes and then is unmapped, with its latch kept for the next mapping; a host request outside its two
windows, or without integrity, moves its function to ERROR, and else reads or writes the tenant's memory, where that translates and no
unreadable unit is in the way; nothing comes over a host link that is not up; the Slath processor answers SPDM, and the chain of slot 0 ends in the public key of the device's
identity (R400). It rests on readings of the model (log entries 20, 28, 40, 45, 62). -/
def Sys2Proof.HostsAreServed : Prop :=
  ∀ (s : State),
    let error (vf : Nat) : State :=
      { s with vfs := Assoc.modify vf (fun f => { f with st := .error }) s.vfs, hostOut := s.hostOut ++ [.error vf] }
    let reaches (f : Vf) : Prop := f.st ≠ .error ∧ s.hostUp.contains f.link = true
    (∀ vf addr r, Assoc.get? vf s.vfs = none → exec (.notifyWrite vf addr r) s = .next s)
    ∧ (∀ vf addr (r : NotifyReq) f, Assoc.get? vf s.vfs = some f →
      let rings : Prop := f.doorbell ≤ addr ∧ addr < f.doorbell + 4096
      let off := addr - f.doorbell
      let n := off / 8
      let q := s.chan vf n
      let v := r.tail % 2 ^ 64
      (¬ reaches f → exec (.notifyWrite vf addr r) s = .next s)
      ∧ (reaches f → r.intact = false ∨ ¬ rings → exec (.notifyWrite vf addr r) s = .next (error vf))
      ∧ (reaches f → r.intact = true → rings →
        (off % 8 ≠ 0 ∨ 255 < n → exec (.notifyWrite vf addr r) s = .next s)
        ∧ (off % 8 = 0 → n ≤ 255 →
          (q.st = .mapped → q.latch < v → v ≤ q.head + 2 ^ q.e →
            exec (.notifyWrite vf addr r) s = .next (s.setChan vf n { q with latch := v }))
          ∧ (q.st = .mapped → v ≤ q.latch ∨ q.head + 2 ^ q.e < v →
            exec (.notifyWrite vf addr r) s = .next (s.setChan vf n { q with rejected := (q.rejected + 1) % 2 ^ 64 }))
          ∧ (q.st ≠ .mapped → exec (.notifyWrite vf addr r) s = .next (s.setChan vf n { q with late := max q.late v })))))
    ∧ (∀ vf n, 255 < n → exec (.channelUnmap vf n) s = .next s)
    ∧ (∀ vf n, n ≤ 255 →
      let q := s.chan vf n
      exec (.channelUnmap vf n) s = .next (match q.st with
        | .unmapped => s
        | .mapped => s.setChan vf n { q with st := .closing, tailsnap := q.latch }
        | .closing => s.setChan vf n { q with st := .unmapped }))
    ∧ (∀ r : ChanReq, r.chan ≤ 255 → (s.vfState r.vf).isSome = true → (s.chan r.vf r.chan).st = .unmapped → 4 ≤ r.e → r.e ≤ 16 →
        6 ≤ r.z → r.z ≤ 12 →
      let q := s.chan r.vf r.chan
      exec (.channelMap r) s = .next (s.setChan r.vf r.chan
        { q with
          sub := r.sub, comp := r.comp, status := r.status, e := r.e, z := r.z, vector := r.vector % 2 ^ 16,
          st := .mapped, latch := max q.tailsnap q.late, late := 0 }))
    ∧ (∀ r : ChanReq, 255 < r.chan ∨ s.vfState r.vf = none ∨ (s.chan r.vf r.chan).st ≠ .unmapped ∨ r.e < 4 ∨ 16 < r.e ∨ r.z < 6
        ∨ 12 < r.z → exec (.channelMap r) s = .next s)
    ∧ (∀ r : HostReq, Assoc.get? r.vf s.vfs = none ∨ s.vfTenant r.vf = none → exec (.hostRequest r) s = .next s)
    ∧ (∀ (r : HostReq) f, Assoc.get? r.vf s.vfs = some f → ¬ reaches f → exec (.hostRequest r) s = .next s)
    ∧ (∀ (r : HostReq) f t x, Assoc.get? r.vf s.vfs = some f → s.vfTenant r.vf = some (t, x) → reaches f →
      let n := (r.data.map (·.length)).getD r.len
      let inside : Bool := f.base ≤ r.addr && r.addr + n ≤ f.base + f.size
      let rings : Prop := f.doorbell ≤ r.addr ∧ r.addr < f.doorbell + 4096
      (r.intact = false → exec (.hostRequest r) s = .next (error r.vf))
      ∧ (r.intact = true → inside = false → ¬ rings → exec (.hostRequest r) s = .next (error r.vf))
      ∧ (r.intact = true → inside = false → rings → exec (.hostRequest r) s = .next s)
      ∧ (r.intact = true → inside = true →
        (∀ bs, r.data = some bs → exec (.hostRequest r) s = .next ((s.glbWrite x.asid r.addr bs).getD s))
        ∧ (r.data = none → s.glbRead x.asid r.addr n = none → exec (.hostRequest r) s = .next s)
        ∧ (∀ bs, r.data = none → s.glbRead x.asid r.addr n = some bs → exec (.hostRequest r) s = .next { s with
            hostOut := s.hostOut ++ [.read r.vf r.addr bs] })))
    ∧ (s.recovery = false →
      (∀ n, exec (.spdmRequest (.openSession n)) s = .next { s with sessions := n :: s.sessions.filter (· ≠ n) })
      ∧ (∀ n, exec (.spdmRequest (.closeSession n)) s = .next { s with sessions := s.sessions.filter (· ≠ n) })
      ∧ (∀ k m, k ≠ 0 → s.meas[k - 1]? = some m →
          exec (.spdmRequest (.measurement k)) s = .next { s with hostOut := s.hostOut ++ [.spdm k (leBytes 64 m.toNat)] })
      ∧ (∀ vf, exec (.spdmRequest (.lock vf)) s = .next (s.moveVf vf (· == .unlocked) .locked)
          ∧ (s.streamFree vf = true → exec (.spdmRequest (.start vf)) s = .next (s.moveVf vf (· == .locked) .run))
          ∧ (s.streamFree vf = false → exec (.spdmRequest (.start vf)) s = .next s)
          ∧ exec (.spdmRequest (.stop vf)) s = .next (s.moveVf vf (fun _ => true) .unlocked))
      ∧ (∀ seed, s.identity = some seed → exec (.spdmRequest (.certificate 0)) s = .next { s with hostOut :=
          s.hostOut ++ [.certificate 0 (Config.certificates ++ leBytes 32 (Config.publicKey seed).toNat)] })
      ∧ (∀ vf f, Assoc.get? vf s.vfs = some f → exec (.spdmRequest (.interfaces vf)) s = .next { s with hostOut :=
          s.hostOut ++ [.interfaces vf f.doorbell (f.base, f.size)] }))
    ∧ (s.recovery = true → ∀ r, exec (.spdmRequest r) s = .next s)

/-- R398 to R403: a module reset boots, with the flash and the rollback counter kept, the identity that the helper data and the
power-up values give, every cell, region and byte of memory as the reset leaves them, and the failed vaults absent, unless it ends in
recovery; measurements 3 and 4 are then zero (log entry 5); the physical function writes flash, and a commit of an image that verifies
with no older version (log entry 11) raises the rollback counter; more than 3,000 W or 6,000 A, or a vault above 95 °C, throttles, and a
vault above 110 °C resets the module, which the host is told; a router that has had nothing to forward for 4,096 cycles is gated, and
stays so until it wakes. It rests on readings of the model (log entries 3, 5, 7, 11, 20, 41, 62). -/
def Sys2Proof.ModuleUnitsAct : Prop :=
  ∀ (s : State),
    (∀ b,
      let seed := if Config.corrects s.helper b.puf then some (Config.seedOf s.helper) else none
      let microcode := s.flash.getD 2 []
      ∃ t, exec (.moduleReset b) s = .next t ∧ t.mem = [] ∧ t.cells = [] ∧ t.regions = [] ∧ t.clock = 0 ∧ t.flash = s.flash
      ∧ t.rollback = s.rollback ∧ t.helper = s.helper ∧ t.puf = b.puf ∧ t.identity = seed
      ∧ (seed = none ∨ s.imageGood microcode = false ∨ (s.flash.take 2).any s.imageGood = false →
          t.recovery = true ∧ t.hostUp = b.hostLinks.filter (· == 0))
      ∧ (∀ fw, seed.isSome = true → s.imageGood microcode = true → (s.flash.take 2).find? s.imageGood = some fw →
        t.recovery = false ∧ t.absent = (List.range 960).filter b.failed.contains
          ∧ t.meas = [Config.sha512 fw, Config.sha512 microcode, 0, 0]
          ∧ t.hostUp = hostLinks.filter b.hostLinks.contains
          ∧ t.links = waleLinks.map fun l => (l, bootLink s.fresh (b.links.contains l))))
    ∧ (∀ q : CommitReq, 2 < q.place → exec (.imageCommit q) s = .next s)
    ∧ (∀ q : CommitReq, q.place ≤ 2 →
      let flash := (s.flash ++ [[], [], []]).take 3
      let image := flash.getD q.place []
      (∀ bs, q.write = some bs → exec (.imageCommit q) s = .next { s with flash := modifyAt (fun _ => bs) q.place flash })
      ∧ (q.write = none → s.recovery = false → s.imageGood image = true →
          exec (.imageCommit q) s = .next { s with rollback := max s.rollback (Config.imageVersion image) })
      ∧ (q.write = none → (s.recovery = true ∨ s.imageGood image = false) → exec (.imageCommit q) s = .next s))
    ∧ (∀ w a,
      (3000000 < w ∨ 6000000 < a ∨ s.hot ≠ [] → exec (.powerSample w a) s = .next (s.throttleStep true))
      ∧ (w ≤ 3000000 → a ≤ 6000000 → s.hot = [] → exec (.powerSample w a) s = .next (s.throttleStep false)))
    ∧ (∀ d p, 3 < d ∨ 255 < p ∨ s.clock < 4096 ∨ s.routed (routerNo d p) = true → exec (.routerPowerGate d p) s = .next s)
    ∧ (∀ d p, d ≤ 3 → p ≤ 255 → 4096 ≤ s.clock → s.routed (routerNo d p) = false →
      exec (.routerPowerGate d p) s = .next { s with gated := routerNo d p :: s.gated.filter (· ≠ routerNo d p) })
    ∧ (∀ d p, exec (.routerWake d p) s = .next { s with gated := s.gated.filter (· ≠ routerNo d p) })
    ∧ (∀ v t, v ≤ 959 →
      (110 < t →
        let u := s.boot (Config.found s.fresh)
        exec (.vaultTemperature v t) s = .next { u with hostOut := u.hostOut ++ [.thermalTrip] })
      ∧ (95 < t → t ≤ 110 →
          exec (.vaultTemperature v t) s = .next ({ s with hot := v :: s.hot.filter (· ≠ v) }.throttleStep true))
      ∧ (t = 95 → s.hot.contains v = true →
          exec (.vaultTemperature v t) s = .next ({ s with hot := v :: s.hot.filter (· ≠ v) }.throttleStep true))
      ∧ (t < 95 ∨ (t = 95 ∧ s.hot.contains v = false) →
          exec (.vaultTemperature v t) s = .next { s with hot := s.hot.filter (· ≠ v) }))
    ∧ (∀ v t, 959 < v → exec (.vaultTemperature v t) s = .next s)

/-- The events of the host and of the module's units. -/
def Obligations.HostEventsActAsStated : Prop := HostsAreServed ∧ ModuleUnitsAct

/-! ### Events of the Slath processor and the loader -/

/-- R224, R225, R269, R270, R279, R281, R329, R357, R389, R392: a tenant created has its control block, nothing under way, its
grants' fault records zero, its ASIDs' roots, no task types, and its virtual function, unlocked, on its host link with its table of
channel descriptors, whose address the host is told; all else stays. Where a check fails, or in recovery, nothing is created: so for
a number that still owns a key slot. It rests on readings of the model (log entries 4, 15, 20, 29, 36, 40, 59). -/
def Sys2Proof.TenantsAreCreated : Prop :=
  ∀ (s : State) (q : TenantReq),
    let x := q.control
    let ok : Prop := q.no ≠ 0 ∧ q.no ≤ 65535 ∧ s.region q.no = none ∧ (∀ g ∈ x.grants, s.grantOk g = true ∧ s.leavesArea g = true)
      ∧ x.asid ≠ 0 ∧ x.asid ≤ 16383 ∧ s.asidFree q.no x.asid = true ∧ (∀ t ∈ q.roots, s.rootOk q.no t = true)
      ∧ (∃ t ∈ q.roots, t.1 = x.asid) ∧ hostLinks.contains q.link = true ∧ Assoc.get? x.vf s.vfs = none ∧ s.recovery = false
      ∧ s.partitionOk q.no x.partition (x.grants.map (·.cell)) = true ∧ (∀ k ∈ s.keys, k.2.owner = q.no → k.2.st = .empty)
    let r : Region := { x.begun s.clock with parent := 0, tenant := q.no, depth := 0, asids := q.roots.map (·.1) }
    let vf : Vf := { st := .unlocked, link := q.link, doorbell := q.doorbell, base := q.window.1, size := q.window.2,
                     tableVa := q.table.1, table := q.table.2 }
    let u := { s.addRegion q.no r x.grants with
      roots := q.roots.foldl (fun m a => Assoc.put a.1 a.2 m) s.roots, types := Assoc.put q.no [] s.types
      vfs := Assoc.put x.vf vf s.vfs, hostOut := s.hostOut ++ [.channelTable x.vf q.table.1] }
    (ok → ∃ t, exec (.tenantCreate q) s = .next t
      ∧ t = (List.range 256).foldl (fun s n => s.writeDescriptor x.vf n Channel.fresh) u
      ∧ t.region q.no = some r ∧ r.tenant = q.no ∧ r.parent = 0 ∧ r.depth = 0 ∧ r.grants = x.grants ∧ r.priority = x.priority
      ∧ r.h = x.h0 ∧ r.parked = false ∧ r.exec = [] ∧ r.placed = []
      ∧ (∀ n, n ≠ q.no → t.region n = s.region n)
      ∧ Assoc.get? q.no t.types = some [] ∧ Assoc.get? x.vf t.vfs = some vf
      ∧ (∀ n, n ≠ x.vf → Assoc.get? n t.vfs = Assoc.get? n s.vfs)
      ∧ t.cells = s.cells ∧ t.net = s.net ∧ t.keys = s.keys ∧ t.links = s.links)
    ∧ (¬ ok → exec (.tenantCreate q) s = .next s)

/-- R67, R282: the tear-down of a tenant region ends its subtree and the runs of its supervisor; while something of it that has
started is under way it goes no further; then its subtree is gone, with its rings, deficits, task types, virtual function
and channels, and its shares of the links, as measurement 4 records. Any other number changes nothing. It rests on readings of the model (log entries 5, 20, 27, 29). -/
def Sys2Proof.TenantsAreTornDown : Prop :=
  ∀ (s : State) (q : Nat),
    (s.region q = none → exec (.tenantTeardown q) s = .next s)
    ∧ (∀ x, s.region q = some x →
      let ends := (s.cells.map (·.1)).foldl (fun s c => if (s.cell c).run9.any (·.tenant == q) then s.endRun9 c else s)
        (s.endSubtree q)
      let u := if x.dying then s else ends
      let v := u.finishTearDown q
      (x.parent ≠ 0 → exec (.tenantTeardown q) s = .next s)
      ∧ (x.parent = 0 → u.subtreeBusy q = true → exec (.tenantTeardown q) s = .next u)
      ∧ (x.parent = 0 → u.subtreeBusy q = false → ∃ t, exec (.tenantTeardown q) s = .next t
        ∧ t.mem = v.mem ∧ t.regions = v.regions ∧ t.net = v.net ∧ t.keys = v.keys
        ∧ (∀ c, Assoc.get? q (t.cell c).rings = none ∧ Assoc.get? q (t.cell c).deficits = none)
        ∧ Assoc.get? q t.types = none ∧ Assoc.get? x.vf t.vfs = none ∧ (∀ k ∈ t.chans, k.1 / 256 ≠ x.vf)
        ∧ (∀ l ∈ t.links, ∀ h ∈ l.2.shares, h.tenant ≠ q)
        ∧ (3 < s.meas.length → t.meas[3]? = some (Config.sha512 t.configBytes))))

/-- R221, R229, R279, R308, R383, R393: an isolation partition whose cells are there and stand in no other, that holds one tenant
if it is disjoint, and whose shares leave no station more than its 16 walkers and 16 groups of entries, is configured: its cells, whether
it is disjoint, each well-formed interleave set, each share of a station or a link; measurement 4, by the formula of log entry 5, takes
it; memory, cells and regions stay. Any other changes nothing. It rests on readings of the model (log entries 5, 20,
50, 59). -/
def Sys2Proof.PartitionsAreConfigured : Prop :=
  ∀ (s : State) (q : PartReq),
    let his := s.regions.filter fun r => r.2.partition == q.partition
    let there := s.regions.filter fun r => r.2.grants.any fun g => q.cells.contains g.cell
    let slots := (s.cells.filter fun x => q.cells.contains x.1).flatMap fun x => x.2.hub.map (·.2.tenant)
    let shares (k : Nat) : List (Nat × Nat × Nat) :=
      (q.stations.filter fun x => x.1 == k) ++ (s.stationShares.getD k []).filter (·.1 ≠ q.partition)
    let ok : Prop := q.partition ≤ 255 ∧ (∀ c ∈ q.cells, c ≤ 959 ∧ s.absent.contains c = false)
      ∧ (∀ x ∈ q.stations, x.1 < 64 ∧ (q.stations.filter fun y => y.1 == x.1).length = 1
        ∧ ((shares x.1).map (·.2.1)).sum ≤ 16 ∧ ((shares x.1).map (·.2.2)).sum ≤ 16)
      ∧ (∀ p ∈ s.partitions, p.1 = q.partition ∨ ∀ c ∈ q.cells, c ∉ p.2)
      ∧ (q.disjoint = true → (((his ++ there).map (·.2.tenant)) ++ slots).eraseDups.length ≤ 1
        ∧ ∀ r ∈ his, ∀ g ∈ r.2.grants, g.cell ∈ q.cells)
    (¬ ok → exec (.isolationPartitionConfigure q) s = .next s)
    ∧ (ok → ∃ t, exec (.isolationPartitionConfigure q) s = .next t
      ∧ Assoc.get? q.partition t.partitions = some q.cells
      ∧ (∀ n, n ≠ q.partition → Assoc.get? n t.partitions = Assoc.get? n s.partitions)
      ∧ (q.partition ∈ t.disjoint ↔ q.disjoint = true)
      ∧ (∀ n v, q.sets = [(n, v)] → (s.setOk n v = true → Assoc.get? n t.sets = some v) ∧ (s.setOk n v = false → t.sets = s.sets))
      ∧ (q.sets = [] → t.sets = s.sets)
      ∧ (∀ n e w, q.stations = [(n, e, w)] → Assoc.get? n t.stationShares =
          some ((q.partition, e, w) :: (s.stationShares.getD n []).filter (·.1 ≠ q.partition)))
      ∧ (∀ l h x, q.shares = [(l, h)] → l < 16 → h.share < 8 → Assoc.get? l s.links = some x → ∃ y, Assoc.get? l t.links = some y
          ∧ y.shares = h :: x.shares.filter (·.share ≠ h.share))
      ∧ (3 < s.meas.length → t.meas[3]? = some (Config.sha512 t.configBytes))
      ∧ t.mem = s.mem ∧ t.cells = s.cells ∧ t.regions = s.regions ∧ t.net = s.net ∧ t.keys = s.keys)

/-- R65 to R68, R241, R286: a load of an image that passes every check reports status 0, with its task types in the tenant's table
from its base on, the request's where it is free; it changes no other region and no context; one that fails reports its status and
leaves memory, cells and regions as they are; one that replaces code in execution waits. It rests on readings of the model (log
entries 5, 15, 20, 42). -/
def Sys2Proof.LoadsEndWithTheirStatus : Prop :=
  ∀ (s : State) (q : LoadReq),
    let cells := (List.range 960).filter q.cells.contains
    let fails (n : Nat) : Prop := s.tryLoad q = .ok { s with hostOut := s.hostOut ++ [.loadStatus n q.region] }
    (s.region q.region = none ∨ s.isDying q.region = true → fails 10)
    ∧ (∀ x, s.region q.region = some x → s.isDying q.region = false →
      (∀ n, checkImage q.image = .error n → fails n)
      ∧ (∀ ss, checkImage q.image = .ok ss →
        let n := (recordsOf ss 3 64).length
        let conns := ((recordsOf ss 10 32).map fun r => fieldLe r 2 2 + 1).foldl max 0
        let based := s.withBases x.tenant n conns q
        (s.basesFree x.tenant q.typeBase n q.connBase conns = true → based = some q)
        ∧ (based = none → fails 7)
        ∧ (∀ p, based = some p →
          (s.basesFree x.tenant p.typeBase n p.connBase conns = true ∧ p = { q with typeBase := p.typeBase, connBase := p.connBase })
          ∧ (∀ n, s.prepare p ss cells = .error n → fails n)
          ∧ (∀ ts places, s.prepare p ss cells = .ok (ts, places) →
            let code := s.replacing cells ts places
            (code ≠ [] → s.tryLoad q = .error code)
            ∧ (code = [] →
              (∀ n, s.load p x cells ts places = .error n → fails n)
              ∧ (∀ t, s.load p x cells ts places = .ok t →
                let glb := ts.zipIdx.filterMap fun y =>
                  if y.1.kind = 2 && y.1.space = 4 then (places.offs.getD y.2 none).map fun o => (o, y.1.bytes) else none
                ((t.putGlb x.asid glb).2 = false → ∃ v, s.tryLoad q = .ok (v.report 7 q.region) ∧ v = (s.putGlb x.asid glb).1
                  ∧ v.cells = s.cells ∧ v.regions = s.regions ∧ v.types = s.types)
                ∧ ((t.putGlb x.asid glb).2 = true → ∃ v out, s.tryLoad q = .ok v ∧ v.mem = (t.putGlb x.asid glb).1.mem
                  ∧ v.hostOut = s.hostOut ++ out ++ [.loadStatus 0 q.region]
                  ∧ v.types = t.types ∧ v.regions = t.regions ∧ v.cells = t.cells
                  ∧ (∀ n, n ≠ q.region → v.region n = s.region n) ∧ (∀ c i, v.ctxAt c i = s.ctxAt c i)
                  ∧ ∃ rs images types, linkTypes ts cells p.connBase = .ok (rs, images, types)
                    ∧ Assoc.get? x.tenant v.types = some (setTypes (s.types.getD x.tenant []) p.typeBase types))))))))

/-- R65, R67: a load request whose turn it is ends with its status, and leaves the list of those that wait; one that must wait, for
code in execution or behind another of its region, is in that list once, with the code that no task may enter. In recovery nothing is
loaded. It rests on readings of the model (log entries 20, 42). -/
def Sys2Proof.LoadsTakeTheirTurn : Prop :=
  ∀ (s : State) (q : LoadReq),
    let k := s.cur.k
    let again : Prop := k ≠ 0 ∧ (s.loads[k - 1]?).map (·.req) = some q
    (s.recovery = true → exec (.ngloadLoad q) s = .next s)
    ∧ (s.recovery = false →
      (¬ again →
        ((∃ p ∈ s.loads, p.req.region = q.region) → exec (.ngloadLoad q) s =
          .next { s with loads := s.loads ++ [{ req := q, code := [] }] })
        ∧ ((∀ p ∈ s.loads, p.req.region ≠ q.region) →
          (∀ code, s.tryLoad q = .error code → exec (.ngloadLoad q) s = .next { s with loads := s.loads ++ [{ req := q, code := code }] })
          ∧ (∀ t, s.tryLoad q = .ok t → exec (.ngloadLoad q) s = .next t)))
      ∧ (again →
        ((∃ p ∈ s.loads.take (k - 1), p.req.region = q.region) → exec (.ngloadLoad q) s = .next s)
        ∧ ((∀ p ∈ s.loads.take (k - 1), p.req.region ≠ q.region) →
          (∀ code, s.tryLoad q = .error code → exec (.ngloadLoad q) s =
            .next { s with loads := modifyAt (fun w => { w with code := code }) (k - 1) s.loads })
          ∧ (∀ t, s.tryLoad q = .ok t → exec (.ngloadLoad q) s = .next { t with loads := t.loads.eraseIdx (k - 1) }))))

/-- The events of the Slath processor and the loader. -/
def Obligations.SlathEventsActAsStated : Prop :=
  TenantsAreCreated ∧ TenantsAreTornDown ∧ PartitionsAreConfigured ∧ LoadsEndWithTheirStatus ∧ LoadsTakeTheirTurn

/-! ### Decoding -/

/-- R36 to R42: the words that the spec prints for `add s4, s4, s5`, `li s4, 5`, `cmp lt, p4, s5, s6`, `loop s20` two lines back to
slot 1, `vfma v4, v5, v6, v7`, `ldc.i32 s7, .loc[s8 + s9<<2]`, `send s4, .loc[s9], .vlt[s10], 4096, join s12`, `amsg s9, 12, s4, 2` and
`rgnact new, s5, s9, s10` decode to them. One word more is none that the spec prints: that of `sub.sat.i32 s6, s6, s7` is the model's
choice of how R36 is read (log entry 30). -/
def Obligations.SpecWordsDecode : Prop :=
  let g : Guard := { neg := false, p := 0 }
  decodeTableWord 96 0x01000081_02800000_00000000 = some (.add { g := g, ty := .i64, sat := false, d := 4, a := 4, b := .reg 5 })
  ∧ decodeTableWord 96 0x1c000080_00000000_00000005 = some (.li { g := g, ty := .i64, d := 4, imm := 5 })
  ∧ decodeTableWord 96 0x1f020c81_43000000_00000000 = some (.cmp { g := g, cond := .lt, ty := .i64, pd := 4, a := 5, b := .reg 6 })
  ∧ decodeTableWord 96 0x2e000280_0000000f_fffffff1 = some (.loop { g := g, a := 20, t := { loff := 0x1fffffffe, slot := 1 } })
  ∧ decodeTableWord 96 0x43000891_63478000_00000000 = some (.vfma { g := g, r := .rne, d := 4, a := 5, b := .vec 6, c := 7 })
  ∧ decodeTableWord 96 0x720100e2_04840a00_00000000 = some (.ldc
      { g := g, ty := .i32, data := 7, ord := .plain, scope := .ctx,
        addr := { handle := false, space := .loc, base := 8, index := 9, scale := 2, disp := 0 } })
  ∧ decodeTableWord 96 0x80000082_450c4080_00001000 = some (.send
      { g := g, sspace := .loc, dspace := .vlt, d := 4, a := 9, b := 10, n := 4096, cons := false,
        fin := { act := .join, c := 12, acq := false, rel := false, scope := .ctx } })
  ∧ decodeTableWord 96 0xb0000002_42000000_0000004c = some (.amsg { g := g, a := 9, cls := 12, b := 4, n := 2 })
  ∧ decodeTableWord 96 0x990000a2_45000000_00000000 = some (.rgnactNew { g := g, d := 5, a := 9, b := 10 })
  ∧ decodeTableWord 96 0x020000c1_83801200_00000000 = some (.sub { g := g, ty := .i32, sat := true, d := 6, a := 6, b := .reg 7 })

/-- R25 to R46: the encoding of a well-formed instruction is a word of 96 bits that decodes to the instruction, with every operand
at every value that its field admits. -/
def Obligations.DecodingInvertsEncoding : Prop :=
  ∀ i : Instr, i.wf = true → i.toRaw.isSome = true → encode i < 2 ^ 96 ∧ decode (encode i) = .ok i

/-- R34, R45: a word that decodes is the encoding of the instruction that it decodes to, so that no two words stand for one
instruction and a reserved or unused field that is not zero makes no instruction. -/
def Obligations.EncodingInvertsDecoding : Prop :=
  ∀ (w : Nat) (i : Instr), w < 2 ^ 96 → decode w = .ok i → encode i = w ∧ i.wf = true

/-- The XOR of the bits of group i of a line: bit i of each of its 64 bytes (R27). -/
def Sys2Proof.parityGroup (v i : Nat) : Bool := (List.range 64).foldl (fun p k => p != bit v (8 * k + i)) false

/-- R27: the line that the parity byte seals has even parity in each of the eight groups, one line word bit and 63 line bits each, and
its byte 63 is the XOR of bytes 0 to 62; a line passes the check of its parity exactly when every group is even. -/
def Obligations.LineParityIsEven : Prop :=
  (∀ l : Line, (∀ n, l.slots.getD n 0 < 2 ^ 96) →
    (∀ i, i < 8 → parityGroup l.sealed.toNat i = false)
    ∧ slice l.sealed.toNat 504 8 = (List.range 63).foldl (fun p k => p ^^^ slice l.sealed.toNat (8 * k) 8) 0
    ∧ l.sealed.slots = l.slots ∧ l.sealed.lineWord % 2 ^ 24 = l.lineWord % 2 ^ 24)
  ∧ (∀ v : Nat, v < 2 ^ 512 → (syndrome v = 0 ↔ ∀ i, i < 8 → parityGroup v i = false))

/-! ### Issuing -/

/-- The guard of an instruction row (R34): the head of its encoding. -/
def Sys2Proof.rowGuard (i : Instr) : Option Guard :=
  i.toRaw.map fun r => match r with
    | .reg f => f.g
    | .imm f => guardOf f.gn f.gp
    | .mem f => f.g
    | .br f => f.g
    | .mat f => f.g
    | .asy f => f.g

/-- R25 to R29, R32, R271: a step in which a context issues, with nothing pending for it, from a line that passes its checks, is
the execution of the instruction that the bytes at its PC decode to; then its tenant is charged one issue, unless it stalled, and
time passes; the second of a pair executes behind the first when that has gone on to it. Where the debugger goes on from a breakpoint,
the word that stood under it issues instead. It rests on readings of the model (log entries 1, 8, 17, 44, 46). -/
def Obligations.StepExecutesTheDecodedInstruction : Prop :=
  ∀ (s : State) (c k v : Nat) (ts : List Turn) (i : Instr),
    let u := { s with agenda := ts, cur := { cell := c, ctx := k, k := 0 } }
    let w := u.keepLine c k v
    let l := Line.ofNat v
    let n := slotOf u.me.pc
    let charged (t : State) : State := if (t.ctxAt c k).stalled then t else t.chargeTo c (w.tenantOf (w.ctxRegion c k)) .issue 1
    s.agenda = .issue c k :: ts → k < 10 → u.me.canIssue = true → u.me.asyncs = [] → u.budgetDue c k = false →
    u.lineFor c k = some v → lineTrap u.me.pc v = none →
      (u.steppedWord = none → decode (l.slot n) = .ok i →
        (l.pair n = false → step s = match exec i w with
          | .next t => .next (charged t).elapse
          | o => o)
        ∧ (∀ j t z, l.pair n = true → decode (l.slot (n + 1)) = .ok j → exec i w = .next t → t.me.movedOn u.me.pc = true →
            exec j t = .next z → z.me.stalled = false → step s = .next (charged z).elapse))
      ∧ (∀ b, u.steppedWord = some b → decode b = .ok i → step s = match exec i w with
          | .next t => .next (charged (t.stepped c k)).elapse
          | o => o)

/-- R29, R45, R46, R272, R361: before its instruction a context takes a pending asynchronous trap, then a budget trap, then an
access fault (1) for a PC outside its execute units, a machine check (48) for a line whose parity is wrong, an illegal line
(24), and an illegal instruction (2) for a word that does not decode, with the values that R45 gives. It rests on readings of
the model (log entry 18). -/
def Obligations.IssueChecksComeInOrder : Prop :=
  ∀ (s : State) (c k : Nat), s.cur = { cell := c, ctx := k, k := 0 } → k < 10 → s.me.canIssue = true →
    let x := s.me
    (x.asyncs ≠ [] → issueTurn c k s = exec .asynchronousTrap s)
    ∧ (x.asyncs = [] → s.budgetDue c k = true → issueTurn c k s = exec .budget s)
    ∧ (x.asyncs = [] → s.budgetDue c k = false →
      (s.lineFor c k = none → issueTurn c k s = .next (s.takeTrap c k { cause := 1, val := x.pc, info := 0 }))
      ∧ (∀ v, s.lineFor c k = some v →
        let u := s.keepLine c k v
        let l := Line.ofNat v
        (syndrome v ≠ 0 → issueTurn c k s = .next (u.takeTrap c k
          { cause := 48, val := word (lineOf x.pc), info := word (syndrome v * 2 ^ 32 + l.lineWord) }))
        ∧ (syndrome v = 0 → l.legal = false → issueTurn c k s = .next (u.takeTrap c k
          { cause := 24, val := word (lineOf x.pc), info := word l.lineWord }))
        ∧ (syndrome v = 0 → l.legal = true → s.steppedWord = none → l.pair (slotOf x.pc) = false → ∀ e, decode (l.slot (slotOf x.pc)) = .error e →
            issueTurn c k s = .next (u.takeTrap c k
              { cause := 2, val := word (l.slot (slotOf x.pc) / 2 ^ 32), info := word (l.slot (slotOf x.pc) % 2 ^ 32) }))))

/-- R34: an instruction whose guard is false, and whose registers are allotted, goes on to the next slot and changes nothing
else, whatever it is. -/
def Obligations.FalseGuardsChangeNothing : Prop :=
  ∀ (i : Instr) (g : Guard) (s : State), rowGuard i = some g → issuing s = true → s.me.guard g = false → beyondAllotment i s = none →
    exec i s = .next (s.goesOn s.me)

/-- The contexts that an instruction's entry allows (R9 and the entries). -/
def Sys2Proof.allowedIn : Instr → Nat → Bool
  | .bcfgSet _, c | .bcfgFree _, c | .bcfgBrk _, c | .bcfgRd _, c | .rcfgSet _, c | .rcfgFree _, c | .rcfgBrk _, c | .rcfgRd _, c
  | .xlatSet0 _, c | .xlatSet1 _, c | .tinvAll _, c | .tinvAsid _, c | .tinvPage _, c | .keysetInst _, c | .keysetRet _, c
  | .keysetSt _, c | .cload _, c | .cdrop _, c | .lkrotRot _, c | .lkrotSt _, c | .poolcfg _, c | .rgnactNew _, c | .rgnactPark _, c
  | .rgnactResume _, c | .rgnactQuiet _, c | .rgnkillKill _, c | .rgnkillExit _, c | .budgetExt _, c | .rretryCtx _, c
  | .trapRing _, c | .rfill _, c | .rretry _, c | .rskip _, c | .rkillEnt _, c | .rkillCtx _, c | .frzRgn _, c | .frzRd _, c =>
    decide (c = 9)
  | .barv _, c | .barw _, c | .redp _, c | .redg _, c | .htabSet _, c | .htabClr _, c | .htabEpnew _, c | .htabEpdel _, c
  | .htabRd _, c | .epmov _, c | .epparkPark _, c | .epparkResume _, c | .put _, c | .get _, c | .alt _, c | .pbind _, c
  | .budgetRd _, c | .done _, c => decide (c < 8)
  | .hpostHead _, c | .hpostDone _, c | .hpollTail _, c | .hpollHead _, c | .hpollDone _, c | .hpollWait _, c | .talloc _, c
  | .reply _, c | .fres _, c | .freg _, c | .ldsc _, c | .stsc _, c => decide (c ≠ 8)
  | .rdsr x, c => !x.n.sup || decide (c = 9)
  | .wrsr x, c => !x.n.sup || decide (c = 9)
  | .aadd x, c | .aand x, c | .aor x, c | .axor x, c | .amax x, c | .amin x, c | .aswp x, c | .acas x, c =>
    decide (c ≠ 8) || x.ord != .sc
  | .eret _, c => decide (c = 8) || decide (c = 9)
  | .trapCall _, c => decide (c < 9)
  | _, _ => true

/-- R9, R35, R45, R46, R73: in a context that its entry does not allow, an instruction whose guard is true is illegal (2),
with its word as the value and information; one that names a register beyond the allotment, whatever its guard, is cause 26
with the operand as information; one with a pending operand stalls. It rests on readings of the model (log entries 18, 19). -/
def Obligations.IllegalAndPendingOperandsComeFirst : Prop :=
  ∀ (i : Instr) (g : Guard) (s : State), rowGuard i = some g → issuing s = true →
    let trap (t : TrapInfo) : Prop := exec i s = .next (s.takeTrap s.cur.cell s.cur.ctx t)
    (s.me.guard g = true → allowedIn i s.cur.ctx = false →
      trap { cause := 2, val := word (encode i / 2 ^ 32), info := word (encode i % 2 ^ 32) })
    ∧ (∀ k, (s.me.guard g = false ∨ allowedIn i s.cur.ctx = true) → beyondAllotment i s = some k →
        trap { cause := 26, val := word (encode i / 2 ^ 32), info := word k })
    ∧ (s.me.guard g = true → allowedIn i s.cur.ctx = true → beyondAllotment i s = none → waitsForOperand i s = true →
        exec i s = .next (s.modMe fun y => { y with stalled := true }))

/-! ### What instructions leave alone -/

/-- The instructions of the register and vector chapters that write registers and flags only. -/
def Sys2Proof.registerOnly : Instr → Bool
  | .add _ | .sub _ | .mul _ | .mulh _ | .mulhu _ | .div _ | .divu _ | .rem _ | .remu _ | .and _ | .or _ | .xor _ | .andn _ | .shl _
  | .shr _ | .sar _ | .rol _ | .min _ | .max _ | .minu _ | .maxu _ | .clz _ | .ctz _ | .popc _ | .bext _ | .bins _ | .lea _ | .li _
  | .mov _ | .sel _ | .ppack _ | .cmp _ | .pand _ | .por _ | .pxor _ | .pnot _ | .punpk _ | .fadd _ | .fsub _ | .fmul _ | .fdiv _
  | .fmin _ | .fmax _ | .fma _ | .fsqrt _ | .fcmp _ | .fcvt _ | .fclass _ | .vadd _ | .vsub _ | .vmul _ | .vmin _ | .vmax _
  | .vand _ | .vor _ | .vxor _ | .vshl _ | .vshr _ | .vsra _ | .vabs _ | .vneg _ | .vfma _ | .vsel _ | .vrcp _ | .vrsqrt _
  | .vexp2 _ | .vlog2 _ | .vcmp _ | .vcvt _ | .vexpand _ | .vredsum _ | .vredmax _ | .vdot _ | .vsplat _ | .vperm _ | .vidx _
  | .vmovs _ | .vqnt _ | .vdqnt _ | .vscacc _ => true
  | _ => false

/-- R69, R73, R104: a ready instruction of the register or vector chapter answers with a trap, or goes on to the next slot: then
memory, every other context and the rest of the machine are as before, and of its own context every register that it does not
name as a destination; of fcsr it sets at most the six sticky flags, unless fcsr is its destination. -/
def Obligations.RegisterInstructionsChangeOnlyTheirDestination : Prop :=
  ∀ (i : Instr) (g : Guard) (r : Raw) (s : State), registerOnly i = true → i.toRaw = some r → rowGuard i = some g →
    ready i g s = true →
      (∃ v, exec i s = .next (s.takeTrap s.cur.cell s.cur.ctx { cause := 27, val := v, info := 0 }))
      ∨ ∃ y : Ctx, exec i s = .next (s.goesOn y)
        ∧ (∀ k : SReg, k.val ∉ r.writes → y.rs k = s.me.rs k)
        ∧ (∀ k : VReg, 64 + k.val ∉ r.writes → y.rv k = s.me.rv k)
        ∧ (∀ k : PReg, 96 + k.val ∉ r.writes → y.rp k = s.me.rp k)
        ∧ (110 ∉ r.writes → y.tbl = s.me.tbl)
        ∧ (109 ∉ r.writes → ∃ f : Nat, f < 64 ∧ y.fcsr = s.me.fcsr ||| word f)
        ∧ y = { s.me with s := y.s, v := y.v, p := y.p, tbl := y.tbl, fcsr := y.fcsr }
        ∧ (s.goesOn y).mem = s.mem
        ∧ (∀ c j, (c ≠ s.cur.cell ∨ j ≠ s.cur.ctx) → (s.goesOn y).ctxAt c j = s.ctxAt c j)

/-- The bytes of a store of n bytes at an address of a local space: the address is not among them, nor in a `.vlt` unit that the
store re-encrypts because it was last written under another key (R232). -/
def Sys2Proof.untouched (s : State) (sp : Space) (ea n a : Nat) : Prop :=
  let h := localHome s.cur.cell sp ea
  (a < h ∨ h + n ≤ a)
    ∧ (sp = .vlt → a / 64 ∈ unitsOf h n → s.tagOf (a / 64) = s.vltTag s.cur.cell (a - vltA s.cur.cell 0))

/-- R146, R167 to R169, R232: an admitted local store that nothing holds answers a next state in which every byte outside the
bytes at its effective address reads as before, its context has every register as before, and every other context and region
is as before; a local load leaves every byte of memory as before, and every register but its destination. It rests on readings
of the model (log entries 9, 16, 22). -/
def Obligations.LocalAccessesChangeOnlyTheirBytes : Prop :=
  ∀ s : State, Memory.wf s.mem = true →
    let c := s.cur.cell
    let go (q : MemReq) : Prop := admitted s q = true ∧ isLocal q = true ∧ performs s q = true
    let rest (t : State) : Prop := t.regions = s.regions ∧ t.net = s.net ∧ t.keys = s.keys
      ∧ ∀ d j, (d ≠ c ∨ j ≠ s.cur.ctx) → t.ctxAt d j = s.ctxAt d j
    let stores (i : Instr) (g : Guard) (parts : List (Space × Nat × Nat)) : Prop := ready i g s = true →
      ∃ t, exec i s = .next t ∧ rest t ∧ t.me = accessDone s.me
        ∧ ∀ a, (∀ p ∈ parts, untouched s p.1 p.2.1 p.2.2 a) → t.readByte a = s.readByte a
    let loads (i : Instr) (g : Guard) (d : Nat) : Prop := ready i g s = true →
      ∃ t, exec i s = .next t ∧ rest t ∧ t.mem = s.mem
        ∧ (∀ k : SReg, k.val ≠ d → t.me.rs k = s.me.rs k) ∧ (∀ k : VReg, 64 + k.val ≠ d → t.me.rv k = s.me.rv k)
        ∧ t.me.p = s.me.p ∧ t.me.fcsr = s.me.fcsr ∧ (d ≠ 110 → t.me.tbl = s.me.tbl)
    (∀ (x : ArgLd) (r : _), s.resolve x.addr = .ok r →
      (go (stReq x s.me r) → stores (.st x) x.g [(r.2.1, r.2.2.2.1.toNat, tyBytes x.ty)])
      ∧ (go (ldReq x false r) → loads (.ld x) x.g x.data.val))
    ∧ (∀ (x : ArgVld) (r : _), s.resolve x.addr = .ok r →
      (go (vstReq x s.me r) → stores (.vst x) x.g [(r.2.1, r.2.2.2.1.toNat, 64)])
      ∧ (go (vldReq x false r) → loads (.vld x) x.g (64 + x.data.val)))
    ∧ (∀ x : ArgAccwr, go (accwrReq x s.me) → stores (.accwr x) x.g [(.acc, (s.me.rs x.a).toNat, 64)])
    ∧ (∀ x : ArgAccrd, go (accrdReq x s.me) → loads (.accrd x) x.g (64 + x.d.val))
    ∧ (∀ x : ArgVgat,
      (go (gatherReq x true s.me) → stores (.vsca x) x.g ((gatherAddrs x s.me).map fun e => (x.space, e.toNat, 4)))
      ∧ (go (gatherReq x false s.me) → loads (.vgat x) x.g (64 + x.data.val)))

/-! ### What every step keeps -/

/-- A state that is sound: its memory is in canonical form, and no turn of its agenda asks for an instruction row as an event. -/
def Sys2Proof.Sound (s : State) : Prop :=
  Memory.wf s.mem = true ∧ ∀ t ∈ s.agenda, ∀ i at_, t = .event i at_ → i.toRaw = none

/-- From a sound state a step answers a next state, never a fault or a refusal, and that state is sound. It rests on readings
of the model (log entries 1, 16). -/
def Obligations.StepsFromSoundStatesStaySound : Prop := ∀ s : State, Sound s → ∃ t, step s = .next t ∧ Sound t

/-- R398: at reset memory and every cell's state are zero, `cycles` is 0, every pool is unconfigured, every hub slot is free,
every ring is empty, and every key slot but slot 0 is empty; the state is sound. It rests on readings of the model (log
entries 1, 2, 3, 5, 6, 7, 16). -/
def Obligations.ResetLeavesAllStateZero : Prop :=
  let s := State.reset
  Sound s ∧ s.clock = 0 ∧ (∀ a, s.readByte a = 0)
  ∧ (∀ c, (s.cell c).pools = [] ∧ (s.cell c).hub = [] ∧ (s.cell c).rings = [] ∧ (s.cell c).xcause = 0 ∧ (s.cell c).xepc = 0
      ∧ (s.cell c).xval = 0 ∧ (s.cell c).xinfo = 0)
  ∧ (∀ c i, (s.ctxAt c i).st = .idle ∧ (s.ctxAt c i).pc = 0 ∧ (s.ctxAt c i).fcsr = 0 ∧ (s.ctxAt c i).tbl = 0
      ∧ (∀ r, (s.ctxAt c i).rs r = 0) ∧ (∀ r, (s.ctxAt c i).rv r = 0) ∧ (∀ r : PReg, (s.ctxAt c i).rp r = decide (r.val = 0)))
  ∧ (∀ k, k ≠ 0 → (s.keySlot k).st = .empty) ∧ s.regions = [] ∧ s.net = []

/-- R27, R201, R232: bytes written under a key read as written under it, and every byte outside the units that they touch
reads as before; a vault unit last written under another key reads as bytes unrelated to what it holds. It rests on readings
of the model (log entries 9, 16). -/
def Obligations.BytesReadAsWrittenUnderTheirKey : Prop :=
  ∀ (s : State) (tag : Nat × Nat) (a : Nat) (bs : List Byte), Memory.wf s.mem = true → a + bs.length ≤ 2 ^ 40 →
    let t := s.writeUnder tag a bs
    t.readUnder tag a bs.length = bs
    ∧ (∀ k, k / 64 ∉ unitsOf a bs.length → t.readByte k = s.readByte k ∧ t.tagOf (k / 64) = s.tagOf (k / 64))
    ∧ (∀ k, a ≤ k → k < a + bs.length → t.tagOf (k / 64) = tag)
    ∧ (∀ other k, a ≤ k → k < a + bs.length → other ≠ tag → t.readUnder other k 1 = [Config.foreignByte tag other (t.unitPlain (k / 64)) k])
    ∧ Memory.wf t.mem = true

/-- R94, R101, R104: a binary32 value rounds to its own pattern, without a flag, in every rounding mode. -/
def Obligations.RepresentableValuesRoundToThemselves : Prop :=
  ∀ (n : Nat) (md : Rnd), n < 2 ^ 32 → (f32Val n).isNan = false → (f32Val n).round 24 md = (n, 0)

end
end

