-- ==== Sys2Proof/Laws/Fields.lean ====
section
/-! SUPPORT. Coded fields read back (R33 to R42): every field written by the encoder is read by the decoder as what it was. -/
set_option linter.unusedSimpArgs false
namespace Sys2Proof

@[simp] theorem fin_val {n : Nat} (i : Fin n) : fin? n i.val = some i := by simp [fin?]
@[simp] theorem sreg_val (r : SReg) : sreg? r.val = some r := by simp [sreg?]
@[simp] theorem vreg_vcode (r : VReg) : vreg? (vcode r) = some r := by simp [vreg?, vcode]
@[simp] theorem preg_pcode (r : PReg) : preg? (pcode r) = some r := by simp [preg?, pcode]
@[simp] theorem sreg_vcode (r : VReg) : sreg? (vcode r) = none := by
  have : ¬ 64 + r.val < 64 := by omega
  simp [sreg?, vcode, fin?, this]
@[simp] theorem anyReg_field (r : AnyReg) : anyReg? r.field = some r := by cases r <;> simp [anyReg?, AnyReg.field]
@[simp] theorem b2n_eq_one (b : Bool) : (b2n b == 1) = b := by cases b <;> rfl
theorem b2n_lt (b : Bool) : b2n b < 2 := by cases b <;> decide
@[simp] theorem guardOf_fields (g : Guard) : guardOf (b2n g.neg) g.p.val = g := by
  rcases g with ⟨n, p⟩
  cases n <;> simp [guardOf, b2n]
@[simp] theorem Ty.ofCode_code (t : Ty) : Ty.ofCode t.code = some t := by cases t <;> rfl
@[simp] theorem Rnd.ofCode_code (r : Rnd) : Rnd.ofCode r.code = r := by cases r <;> rfl
@[simp] theorem Space.ofCode_code (s : Space) : Space.ofCode s.code = some s := by cases s <;> rfl
@[simp] theorem MOrd.ofCode_code (o : MOrd) : MOrd.ofCode o.code = o := by cases o <;> rfl
@[simp] theorem Scope.ofCode_code (s : Scope) : Scope.ofCode s.code = some s := by cases s <;> rfl
@[simp] theorem Cond.ofCode_code (c : Cond) : Cond.ofCode c.code = some c := by cases c <;> rfl
@[simp] theorem FCond.ofCode_code (c : FCond) : FCond.ofCode c.code = some c := by cases c <;> rfl
@[simp] theorem CAct.ofCode_code (c : CAct) : CAct.ofCode c.code = some c := by cases c <;> rfl
@[simp] theorem Pair.ofCode_code (p : Pair) : Pair.ofCode p.code = some p := by cases p <;> rfl
@[simp] theorem MCode.ofCode_code (m : MCode) : MCode.ofCode m.code = some m := by cases m <;> rfl
@[simp] theorem SysReg.ofCode_code (n : SysReg) : SysReg.ofCode n.code = some n := by cases n <;> rfl
@[simp] theorem Special.ofCode_code (x : Special) : Special.ofCode x.code = some x := by cases x <;> rfl
@[simp] theorem FenceKind.ofCode_code (k : FenceKind) : FenceKind.ofCode k.code = some k := by cases k <;> rfl
@[simp] theorem VCond.ofCodes_codes (c : VCond) : VCond.ofCodes c.ty c.code = some c := by
  cases c <;> simp [VCond.ofCodes, VCond.ty, VCond.code]
@[simp] theorem SbSel.ofCode_code (x : SbSel) : SbSel.ofCode x.code = some x := by
  cases x with
  | status n => simp [SbSel.ofCode, SbSel.code, show ¬ 256 ≤ n.val by omega]
  | entry n => simp [SbSel.ofCode, SbSel.code]
@[simp] theorem CSel.ofCode_code (x : CSel) : CSel.ofCode x.code = some x := by
  cases x with
  | fifo n =>
    have := n.isLt
    simp [CSel.ofCode, CSel.code, show ¬ 32 ≤ n.val by omega, show ¬ 48 ≤ 16 + n.val by omega, show ¬ 32 ≤ 16 + n.val by omega,
      show ¬ 16 + n.val = 0 by omega, show ¬ 16 + n.val = 1 by omega, show ¬ 16 + n.val = 2 by omega, show ¬ 16 + n.val = 3 by omega]
  | offer n =>
    have := n.isLt
    simp [CSel.ofCode, CSel.code, show ¬ 48 ≤ 32 + n.val by omega,
      show ¬ 32 + n.val = 0 by omega, show ¬ 32 + n.val = 1 by omega, show ¬ 32 + n.val = 2 by omega, show ¬ 32 + n.val = 3 by omega]
  | item n =>
    have := n.isLt
    simp [CSel.ofCode, CSel.code, show ¬ 48 + n.val = 0 by omega, show ¬ 48 + n.val = 1 by omega, show ¬ 48 + n.val = 2 by omega,
      show ¬ 48 + n.val = 3 by omega]
  | _ => rfl
/-- Operand b reads back (R36). -/
@[simp] theorem RegF.srcB_fields (b : SrcB) (m fn gn gp d a c ty rnd sat aux : Nat) :
    RegF.srcB ⟨m, fn, gn, gp, d, a, b.field, c, ty, rnd, sat, b.isel, aux, b.immF⟩ = some b := by
  cases b <;> simp [RegF.srcB, SrcB.field, SrcB.isel, SrcB.immF]
/-- A vector operand b reads back (R117). -/
@[simp] theorem RegF.vsrcB_fields (b : VSrcB) (m fn gn gp d a c ty rnd sat aux : Nat) :
    RegF.vsrcB ⟨m, fn, gn, gp, d, a, b.field, c, ty, rnd, sat, b.isel, aux, b.immF⟩ = some b := by
  cases b <;> simp [RegF.vsrcB, VSrcB.field, VSrcB.isel, VSrcB.immF]
end Sys2Proof
end

