-- ==== Sys2Proof/Laws/Args.lean ====
section
/-! SUPPORT. Operand shapes read back: the fields that an operand shape is written to are read as the same operands (R33 to R42). -/
set_option maxRecDepth 4000
set_option linter.unusedSimpArgs false
namespace Sys2Proof
theorem ArgG.dec_enc (m f : Nat) (x : ArgG) (r : _) (h : ArgG.enc m f x = .reg r) : ArgG.dec r = some x := by
  cases h
  simp [ArgG.dec, regH, memH, memA, brH, matH, asyH, RegF.g, MemF.g, BrF.g, MatF.g, AsyF.g]
theorem ArgA.dec_enc (m f : Nat) (x : ArgA) (r : _) (h : ArgA.enc m f x = .reg r) : ArgA.dec r = some x := by
  cases h
  simp [ArgA.dec, regH, memH, memA, brH, matH, asyH, RegF.g, MemF.g, BrF.g, MatF.g, AsyF.g]
theorem ArgD.dec_enc (m f : Nat) (x : ArgD) (r : _) (h : ArgD.enc m f x = .reg r) : ArgD.dec r = some x := by
  cases h
  simp [ArgD.dec, regH, memH, memA, brH, matH, asyH, RegF.g, MemF.g, BrF.g, MatF.g, AsyF.g]
theorem ArgDA.dec_enc (m f : Nat) (x : ArgDA) (r : _) (h : ArgDA.enc m f x = .reg r) : ArgDA.dec r = some x := by
  cases h
  simp [ArgDA.dec, regH, memH, memA, brH, matH, asyH, RegF.g, MemF.g, BrF.g, MatF.g, AsyF.g]
theorem ArgAB.dec_enc (m f : Nat) (x : ArgAB) (r : _) (h : ArgAB.enc m f x = .reg r) : ArgAB.dec r = some x := by
  cases h
  simp [ArgAB.dec, regH, memH, memA, brH, matH, asyH, RegF.g, MemF.g, BrF.g, MatF.g, AsyF.g]
theorem ArgDAB.dec_enc (m f : Nat) (x : ArgDAB) (r : _) (h : ArgDAB.enc m f x = .reg r) : ArgDAB.dec r = some x := by
  cases h
  simp [ArgDAB.dec, regH, memH, memA, brH, matH, asyH, RegF.g, MemF.g, BrF.g, MatF.g, AsyF.g]
theorem ArgABi.dec_enc (m f : Nat) (x : ArgABi) (r : _) (h : ArgABi.enc m f x = .reg r) : ArgABi.dec r = some x := by
  cases h
  simp [ArgABi.dec, regH, memH, memA, brH, matH, asyH, RegF.g, MemF.g, BrF.g, MatF.g, AsyF.g]
theorem ArgDABi.dec_enc (m f : Nat) (x : ArgDABi) (r : _) (h : ArgDABi.enc m f x = .reg r) : ArgDABi.dec r = some x := by
  cases h
  simp [ArgDABi.dec, regH, memH, memA, brH, matH, asyH, RegF.g, MemF.g, BrF.g, MatF.g, AsyF.g]
theorem ArgInt.dec_enc (m f : Nat) (x : ArgInt) (r : _) (h : ArgInt.enc m f x = .reg r) : ArgInt.dec r = some x := by
  cases h
  simp [ArgInt.dec, regH, memH, memA, brH, matH, asyH, RegF.g, MemF.g, BrF.g, MatF.g, AsyF.g]
theorem ArgTDA.dec_enc (m f : Nat) (x : ArgTDA) (r : _) (h : ArgTDA.enc m f x = .reg r) : ArgTDA.dec r = some x := by
  cases h
  simp [ArgTDA.dec, regH, memH, memA, brH, matH, asyH, RegF.g, MemF.g, BrF.g, MatF.g, AsyF.g]
theorem ArgBext.dec_enc (m f : Nat) (x : ArgBext) (r : _) (h : ArgBext.enc m f x = .reg r) : ArgBext.dec r = some x := by
  cases h
  simp [ArgBext.dec, regH, memH, memA, brH, matH, asyH, RegF.g, MemF.g, BrF.g, MatF.g, AsyF.g]
theorem ArgBins.dec_enc (m f : Nat) (x : ArgBins) (r : _) (h : ArgBins.enc m f x = .reg r) : ArgBins.dec r = some x := by
  cases h
  simp [ArgBins.dec, regH, memH, memA, brH, matH, asyH, RegF.g, MemF.g, BrF.g, MatF.g, AsyF.g]
theorem ArgSel.dec_enc (m f : Nat) (x : ArgSel) (r : _) (h : ArgSel.enc m f x = .reg r) : ArgSel.dec r = some x := by
  cases h
  simp [ArgSel.dec, regH, memH, memA, brH, matH, asyH, RegF.g, MemF.g, BrF.g, MatF.g, AsyF.g]
theorem ArgCmp.dec_enc (m : Nat) (x : ArgCmp) (r : _) (h : ArgCmp.enc m x = .reg r) : ArgCmp.dec r = some x := by
  cases h
  simp [ArgCmp.dec, regH, memH, memA, brH, matH, asyH, RegF.g, MemF.g, BrF.g, MatF.g, AsyF.g]
theorem ArgP3.dec_enc (m f : Nat) (x : ArgP3) (r : _) (h : ArgP3.enc m f x = .reg r) : ArgP3.dec r = some x := by
  cases h
  simp [ArgP3.dec, regH, memH, memA, brH, matH, asyH, RegF.g, MemF.g, BrF.g, MatF.g, AsyF.g]
theorem ArgP2.dec_enc (m f : Nat) (x : ArgP2) (r : _) (h : ArgP2.enc m f x = .reg r) : ArgP2.dec r = some x := by
  cases h
  simp [ArgP2.dec, regH, memH, memA, brH, matH, asyH, RegF.g, MemF.g, BrF.g, MatF.g, AsyF.g]
theorem ArgPunpk.dec_enc (m f : Nat) (x : ArgPunpk) (r : _) (h : ArgPunpk.enc m f x = .reg r) : ArgPunpk.dec r = some x := by
  cases h
  simp [ArgPunpk.dec, regH, memH, memA, brH, matH, asyH, RegF.g, MemF.g, BrF.g, MatF.g, AsyF.g]
theorem ArgRdsr.dec_enc (m f : Nat) (x : ArgRdsr) (r : _) (h : ArgRdsr.enc m f x = .reg r) : ArgRdsr.dec r = some x := by
  cases h
  simp [ArgRdsr.dec, regH, memH, memA, brH, matH, asyH, RegF.g, MemF.g, BrF.g, MatF.g, AsyF.g]
theorem ArgWrsr.dec_enc (m f : Nat) (x : ArgWrsr) (r : _) (h : ArgWrsr.enc m f x = .reg r) : ArgWrsr.dec r = some x := by
  cases h
  simp [ArgWrsr.dec, regH, memH, memA, brH, matH, asyH, RegF.g, MemF.g, BrF.g, MatF.g, AsyF.g]
theorem ArgFAr.dec_enc (m f : Nat) (x : ArgFAr) (r : _) (h : ArgFAr.enc m f x = .reg r) : ArgFAr.dec r = some x := by
  cases h
  simp [ArgFAr.dec, regH, memH, memA, brH, matH, asyH, RegF.g, MemF.g, BrF.g, MatF.g, AsyF.g]
theorem ArgFma.dec_enc (m f : Nat) (x : ArgFma) (r : _) (h : ArgFma.enc m f x = .reg r) : ArgFma.dec r = some x := by
  cases h
  simp [ArgFma.dec, regH, memH, memA, brH, matH, asyH, RegF.g, MemF.g, BrF.g, MatF.g, AsyF.g]
theorem ArgFsqrt.dec_enc (m f : Nat) (x : ArgFsqrt) (r : _) (h : ArgFsqrt.enc m f x = .reg r) : ArgFsqrt.dec r = some x := by
  cases h
  simp [ArgFsqrt.dec, regH, memH, memA, brH, matH, asyH, RegF.g, MemF.g, BrF.g, MatF.g, AsyF.g]
theorem ArgFcmp.dec_enc (m : Nat) (x : ArgFcmp) (r : _) (h : ArgFcmp.enc m x = .reg r) : ArgFcmp.dec r = some x := by
  cases h
  simp [ArgFcmp.dec, regH, memH, memA, brH, matH, asyH, RegF.g, MemF.g, BrF.g, MatF.g, AsyF.g]
theorem ArgFcvt.dec_enc (m : Nat) (x : ArgFcvt) (r : _) (h : ArgFcvt.enc m x = .reg r) : ArgFcvt.dec r = some x := by
  cases h
  simp [ArgFcvt.dec, regH, memH, memA, brH, matH, asyH, RegF.g, MemF.g, BrF.g, MatF.g, AsyF.g]
theorem ArgV.dec_enc (m f : Nat) (x : ArgV) (r : _) (h : ArgV.enc m f x = .reg r) : ArgV.dec r = some x := by
  cases h
  simp [ArgV.dec, regH, memH, memA, brH, matH, asyH, RegF.g, MemF.g, BrF.g, MatF.g, AsyF.g]
theorem ArgVfma.dec_enc (m f : Nat) (x : ArgVfma) (r : _) (h : ArgVfma.enc m f x = .reg r) : ArgVfma.dec r = some x := by
  cases h
  simp [ArgVfma.dec, regH, memH, memA, brH, matH, asyH, RegF.g, MemF.g, BrF.g, MatF.g, AsyF.g]
theorem ArgVun.dec_enc (m f : Nat) (x : ArgVun) (r : _) (h : ArgVun.enc m f x = .reg r) : ArgVun.dec r = some x := by
  cases h
  simp [ArgVun.dec, regH, memH, memA, brH, matH, asyH, RegF.g, MemF.g, BrF.g, MatF.g, AsyF.g]
theorem ArgVsel.dec_enc (m f : Nat) (x : ArgVsel) (r : _) (h : ArgVsel.enc m f x = .reg r) : ArgVsel.dec r = some x := by
  cases h
  simp [ArgVsel.dec, regH, memH, memA, brH, matH, asyH, RegF.g, MemF.g, BrF.g, MatF.g, AsyF.g]
theorem ArgVcvt.dec_enc (m : Nat) (x : ArgVcvt) (r : _) (h : ArgVcvt.enc m x = .reg r) : ArgVcvt.dec r = some x := by
  cases h
  simp [ArgVcvt.dec, regH, memH, memA, brH, matH, asyH, RegF.g, MemF.g, BrF.g, MatF.g, AsyF.g]
theorem ArgVexp.dec_enc (m f : Nat) (x : ArgVexp) (r : _) (h : ArgVexp.enc m f x = .reg r) : ArgVexp.dec r = some x := by
  cases h
  simp [ArgVexp.dec, regH, memH, memA, brH, matH, asyH, RegF.g, MemF.g, BrF.g, MatF.g, AsyF.g]
theorem ArgVV.dec_enc (m f : Nat) (x : ArgVV) (r : _) (h : ArgVV.enc m f x = .reg r) : ArgVV.dec r = some x := by
  cases h
  simp [ArgVV.dec, regH, memH, memA, brH, matH, asyH, RegF.g, MemF.g, BrF.g, MatF.g, AsyF.g]
theorem ArgVred.dec_enc (m f : Nat) (x : ArgVred) (r : _) (h : ArgVred.enc m f x = .reg r) : ArgVred.dec r = some x := by
  cases h
  simp [ArgVred.dec, regH, memH, memA, brH, matH, asyH, RegF.g, MemF.g, BrF.g, MatF.g, AsyF.g]
theorem ArgVdot.dec_enc (m f : Nat) (x : ArgVdot) (r : _) (h : ArgVdot.enc m f x = .reg r) : ArgVdot.dec r = some x := by
  cases h
  simp [ArgVdot.dec, regH, memH, memA, brH, matH, asyH, RegF.g, MemF.g, BrF.g, MatF.g, AsyF.g]
theorem ArgVsplat.dec_enc (m f : Nat) (x : ArgVsplat) (r : _) (h : ArgVsplat.enc m f x = .reg r) : ArgVsplat.dec r = some x := by
  cases h
  simp [ArgVsplat.dec, regH, memH, memA, brH, matH, asyH, RegF.g, MemF.g, BrF.g, MatF.g, AsyF.g]
theorem ArgVperm.dec_enc (m f : Nat) (x : ArgVperm) (r : _) (h : ArgVperm.enc m f x = .reg r) : ArgVperm.dec r = some x := by
  cases h
  simp [ArgVperm.dec, regH, memH, memA, brH, matH, asyH, RegF.g, MemF.g, BrF.g, MatF.g, AsyF.g]
theorem ArgVidx.dec_enc (m f : Nat) (x : ArgVidx) (r : _) (h : ArgVidx.enc m f x = .reg r) : ArgVidx.dec r = some x := by
  cases h
  simp [ArgVidx.dec, regH, memH, memA, brH, matH, asyH, RegF.g, MemF.g, BrF.g, MatF.g, AsyF.g]
theorem ArgVscacc.dec_enc (m f : Nat) (x : ArgVscacc) (r : _) (h : ArgVscacc.enc m f x = .reg r) : ArgVscacc.dec r = some x := by
  cases h
  simp [ArgVscacc.dec, regH, memH, memA, brH, matH, asyH, RegF.g, MemF.g, BrF.g, MatF.g, AsyF.g]
theorem ArgPoolcfg.dec_enc (m f : Nat) (x : ArgPoolcfg) (r : _) (h : ArgPoolcfg.enc m f x = .reg r) : ArgPoolcfg.dec r = some x := by
  cases h
  simp [ArgPoolcfg.dec, regH, memH, memA, brH, matH, asyH, RegF.g, MemF.g, BrF.g, MatF.g, AsyF.g]
theorem ArgPoolst.dec_enc (m f : Nat) (x : ArgPoolst) (r : _) (h : ArgPoolst.enc m f x = .reg r) : ArgPoolst.dec r = some x := by
  cases h
  simp [ArgPoolst.dec, regH, memH, memA, brH, matH, asyH, RegF.g, MemF.g, BrF.g, MatF.g, AsyF.g]
theorem ArgFence.dec_enc (m : Nat) (x : ArgFence) (r : _) (h : ArgFence.enc m x = .reg r) : ArgFence.dec r = some x := by
  cases h
  simp [ArgFence.dec, regH, memH, memA, brH, matH, asyH, RegF.g, MemF.g, BrF.g, MatF.g, AsyF.g]
theorem ArgCallat.dec_enc (m f : Nat) (x : ArgCallat) (r : _) (h : ArgCallat.enc m f x = .reg r) : ArgCallat.dec r = some x := by
  cases h
  simp [ArgCallat.dec, regH, memH, memA, brH, matH, asyH, RegF.g, MemF.g, BrF.g, MatF.g, AsyF.g]
theorem ArgFres.dec_enc (m : Nat) (x : ArgFres) (r : _) (h : ArgFres.enc m x = .reg r) : ArgFres.dec r = some x := by
  cases h
  simp [ArgFres.dec, regH, memH, memA, brH, matH, asyH, RegF.g, MemF.g, BrF.g, MatF.g, AsyF.g]
theorem ArgTid.dec_enc (m f : Nat) (x : ArgTid) (r : _) (h : ArgTid.enc m f x = .reg r) : ArgTid.dec r = some x := by
  cases h
  simp [ArgTid.dec, regH, memH, memA, brH, matH, asyH, RegF.g, MemF.g, BrF.g, MatF.g, AsyF.g]
theorem ArgPut.dec_enc (m f : Nat) (x : ArgPut) (r : _) (h : ArgPut.enc m f x = .reg r) : ArgPut.dec r = some x := by
  cases h
  simp [ArgPut.dec, regH, memH, memA, brH, matH, asyH, RegF.g, MemF.g, BrF.g, MatF.g, AsyF.g]
theorem ArgGet.dec_enc (m f : Nat) (x : ArgGet) (r : _) (h : ArgGet.enc m f x = .reg r) : ArgGet.dec r = some x := by
  cases h
  simp [ArgGet.dec, regH, memH, memA, brH, matH, asyH, RegF.g, MemF.g, BrF.g, MatF.g, AsyF.g]
theorem ArgAlt.dec_enc (m f : Nat) (x : ArgAlt) (r : _) (h : ArgAlt.enc m f x = .reg r) : ArgAlt.dec r = some x := by
  cases h
  simp [ArgAlt.dec, regH, memH, memA, brH, matH, asyH, RegF.g, MemF.g, BrF.g, MatF.g, AsyF.g]
theorem ArgPbind.dec_enc (m f : Nat) (x : ArgPbind) (r : _) (h : ArgPbind.enc m f x = .reg r) : ArgPbind.dec r = some x := by
  cases h
  simp [ArgPbind.dec, regH, memH, memA, brH, matH, asyH, RegF.g, MemF.g, BrF.g, MatF.g, AsyF.g]
theorem ArgPortst.dec_enc (m f : Nat) (x : ArgPortst) (r : _) (h : ArgPortst.enc m f x = .reg r) : ArgPortst.dec r = some x := by
  cases h
  simp [ArgPortst.dec, regH, memH, memA, brH, matH, asyH, RegF.g, MemF.g, BrF.g, MatF.g, AsyF.g]
theorem ArgHtab.dec_enc (m f : Nat) (x : ArgHtab) (r : _) (h : ArgHtab.enc m f x = .reg r) : ArgHtab.dec r = some x := by
  cases h
  simp [ArgHtab.dec, regH, memH, memA, brH, matH, asyH, RegF.g, MemF.g, BrF.g, MatF.g, AsyF.g]
theorem ArgRedp.dec_enc (m f : Nat) (x : ArgRedp) (r : _) (h : ArgRedp.enc m f x = .reg r) : ArgRedp.dec r = some x := by
  cases h
  simp [ArgRedp.dec, regH, memH, memA, brH, matH, asyH, RegF.g, MemF.g, BrF.g, MatF.g, AsyF.g]
theorem ArgRedg.dec_enc (m f : Nat) (x : ArgRedg) (r : _) (h : ArgRedg.enc m f x = .reg r) : ArgRedg.dec r = some x := by
  cases h
  simp [ArgRedg.dec, regH, memH, memA, brH, matH, asyH, RegF.g, MemF.g, BrF.g, MatF.g, AsyF.g]
theorem ArgRcfg.dec_enc (m f : Nat) (x : ArgRcfg) (r : _) (h : ArgRcfg.enc m f x = .reg r) : ArgRcfg.dec r = some x := by
  cases h
  simp [ArgRcfg.dec, regH, memH, memA, brH, matH, asyH, RegF.g, MemF.g, BrF.g, MatF.g, AsyF.g]
theorem ArgCode.dec_enc (m f : Nat) (x : ArgCode) (r : _) (h : ArgCode.enc m f x = .reg r) : ArgCode.dec r = some x := by
  cases h
  simp [ArgCode.dec, regH, memH, memA, brH, matH, asyH, RegF.g, MemF.g, BrF.g, MatF.g, AsyF.g]
theorem ArgTrapRing.dec_enc (m f : Nat) (x : ArgTrapRing) (r : _) (h : ArgTrapRing.enc m f x = .reg r) : ArgTrapRing.dec r = some x := by
  cases h
  simp [ArgTrapRing.dec, regH, memH, memA, brH, matH, asyH, RegF.g, MemF.g, BrF.g, MatF.g, AsyF.g]
theorem ArgRfill.dec_enc (m f : Nat) (x : ArgRfill) (r : _) (h : ArgRfill.enc m f x = .reg r) : ArgRfill.dec r = some x := by
  cases h
  simp [ArgRfill.dec, regH, memH, memA, brH, matH, asyH, RegF.g, MemF.g, BrF.g, MatF.g, AsyF.g]
theorem ArgLi.dec_enc (m f : Nat) (x : ArgLi) (r : _) (h : ArgLi.enc m f x = .imm r) : ArgLi.dec r = some x := by
  cases h
  simp [ArgLi.dec, regH, memH, memA, brH, matH, asyH, RegF.g, MemF.g, BrF.g, MatF.g, AsyF.g]
theorem ArgMov.dec_enc (m f : Nat) (x : ArgMov) (r : _) (h : ArgMov.enc m f x = .reg r) : ArgMov.dec r = some x := by
  cases h
  rcases x with ⟨g, d, s⟩
  have hr : ∀ r : SReg, ¬ r.val = 109 := by omega
  have h0 : ∀ k, 104 ≤ k → sreg? k = none := by
    intro k hk; unfold sreg? fin?; rw [dif_neg (by omega)]
  have hs : ∀ k : Special, sreg? k.code = none := by intro k; apply h0; cases k <;> decide
  cases d <;> cases s <;> simp [ArgMov.dec, regH, RegF.g, MovDst.field, MovSrc.field, hr, hs]
theorem ArgBr.dec_enc (m : Nat) (x : ArgBr) (r : _) (h : ArgBr.enc m x = .br r) : ArgBr.dec r = some x := by
  cases h
  simp [ArgBr.dec, regH, memH, memA, brH, matH, asyH, RegF.g, MemF.g, BrF.g, MatF.g, AsyF.g, BrF.target]
theorem ArgT.dec_enc (m f : Nat) (x : ArgT) (r : _) (h : ArgT.enc m f x = .br r) : ArgT.dec r = some x := by
  cases h
  simp [ArgT.dec, regH, memH, memA, brH, matH, asyH, RegF.g, MemF.g, BrF.g, MatF.g, AsyF.g, BrF.target]
theorem ArgLoop.dec_enc (m f : Nat) (x : ArgLoop) (r : _) (h : ArgLoop.enc m f x = .br r) : ArgLoop.dec r = some x := by
  cases h
  simp [ArgLoop.dec, regH, memH, memA, brH, matH, asyH, RegF.g, MemF.g, BrF.g, MatF.g, AsyF.g, BrF.target]
theorem ArgVcmp.dec_enc (m : Nat) (x : ArgVcmp) (r : _) (h : ArgVcmp.enc m x = .reg r) : ArgVcmp.dec r = some x := by
  cases h
  simp [ArgVcmp.dec, regH, memH, memA, brH, matH, asyH, RegF.g, MemF.g, BrF.g, MatF.g, AsyF.g]
theorem ArgVmovs.dec_enc (m : Nat) (x : ArgVmovs) (r : _) (h : ArgVmovs.enc m x = .reg r) : ArgVmovs.dec r = some x := by
  rcases x with ⟨g, v⟩
  cases v <;> (cases h; simp [ArgVmovs.dec, regH, RegF.g])
theorem ArgVq.dec_enc (m f : Nat) (x : ArgVq) (r : _) (h : ArgVq.enc m f x = .reg r) : ArgVq.dec r = some x := by
  cases h
  simp [ArgVq.dec, regH, memH, memA, brH, matH, asyH, RegF.g, MemF.g, BrF.g, MatF.g, AsyF.g]
theorem ArgLea.dec_enc (m f : Nat) (x : ArgLea) (r : _) (h : ArgLea.enc m f x = .mem r) : ArgLea.dec r = some x := by
  cases h
  simp [ArgLea.dec, regH, memH, memA, brH, matH, asyH, RegF.g, MemF.g, BrF.g, MatF.g, AsyF.g, MemF.addr]
theorem ArgLdtab.dec_enc (m f : Nat) (x : ArgLdtab) (r : _) (h : ArgLdtab.enc m f x = .mem r) : ArgLdtab.dec r = some x := by
  cases h
  simp [ArgLdtab.dec, regH, memH, memA, brH, matH, asyH, RegF.g, MemF.g, BrF.g, MatF.g, AsyF.g, MemF.addr]
theorem ArgLd.dec_enc (m : Nat) (x : ArgLd) (r : _) (h : ArgLd.enc m x = .mem r) : ArgLd.dec r = some x := by
  cases h
  simp [ArgLd.dec, regH, memH, memA, brH, matH, asyH, RegF.g, MemF.g, BrF.g, MatF.g, AsyF.g, MemF.addr]
theorem ArgVld.dec_enc (m f : Nat) (x : ArgVld) (r : _) (h : ArgVld.enc m f x = .mem r) : ArgVld.dec r = some x := by
  cases h
  simp [ArgVld.dec, regH, memH, memA, brH, matH, asyH, RegF.g, MemF.g, BrF.g, MatF.g, AsyF.g, MemF.addr]
theorem ArgVgat.dec_enc (m f : Nat) (x : ArgVgat) (r : _) (h : ArgVgat.enc m f x = .mem r) : ArgVgat.dec r = some x := by
  cases h
  simp [ArgVgat.dec, regH, memH, memA, brH, matH, asyH, RegF.g, MemF.g, BrF.g, MatF.g, AsyF.g]
theorem ArgLdsc.dec_enc (m : Nat) (x : ArgLdsc) (r : _) (h : ArgLdsc.enc m x = .mem r) : ArgLdsc.dec r = some x := by
  cases h
  simp [ArgLdsc.dec, regH, memH, memA, brH, matH, asyH, RegF.g, MemF.g, BrF.g, MatF.g, AsyF.g, MemF.addr]
theorem ArgAtom.dec_enc (m : Nat) (x : ArgAtom) (r : _) (h : ArgAtom.enc m x = .mem r) : ArgAtom.dec r = some x := by
  cases h
  rcases x with ⟨g, ty, data, sp, ba, ix, di, od, ar, fa, sc⟩
  cases ar <;> cases fa <;> simp [ArgAtom.dec, memH, MemF.g, show b2n true = 1 from rfl, show b2n false = 0 from rfl]
theorem ArgMma.dec_enc (m : Nat) (x : ArgMma) (r : _) (h : ArgMma.enc m x = .mat r) : ArgMma.dec r = some x := by
  cases h
  simp [ArgMma.dec, regH, memH, memA, brH, matH, asyH, RegF.g, MemF.g, BrF.g, MatF.g, AsyF.g, MatF.fin, AsyF.fin]
theorem ArgAccz.dec_enc (m f : Nat) (x : ArgAccz) (r : _) (h : ArgAccz.enc m f x = .mat r) : ArgAccz.dec r = some x := by
  cases h
  simp [ArgAccz.dec, regH, memH, memA, brH, matH, asyH, RegF.g, MemF.g, BrF.g, MatF.g, AsyF.g, MatF.fin, AsyF.fin]
theorem ArgAccsc.dec_enc (m : Nat) (x : ArgAccsc) (r : _) (h : ArgAccsc.enc m x = .mat r) : ArgAccsc.dec r = some x := by
  cases h
  rcases x with ⟨g, st, i32, r, d, a, b, m, n6, fi⟩
  cases st <;> cases i32 <;> simp [ArgAccsc.dec, matH, MatF.g, MatF.fin, show b2n true = 1 from rfl, show b2n false = 0 from rfl]
theorem ArgAccmv.dec_enc (m : Nat) (x : ArgAccmv) (r : _) (h : ArgAccmv.enc m x = .mat r) : ArgAccmv.dec r = some x := by
  cases h
  have h1 : (x.ty.code * 32 + x.r.code * 4) / 32 = x.ty.code := by cases x.r <;> simp [Rnd.code] <;> omega
  have h2 : Rnd.ofCode ((x.ty.code * 32 + x.r.code * 4) / 4) = x.r := by cases x.r <;> cases x.ty <;> rfl
  simp [ArgAccmv.dec, matH, MatF.g, MatF.fin, h1, h2]
theorem ArgAccrd.dec_enc (m f : Nat) (x : ArgAccrd) (r : _) (h : ArgAccrd.enc m f x = .mat r) : ArgAccrd.dec r = some x := by
  cases h
  simp [ArgAccrd.dec, regH, memH, memA, brH, matH, asyH, RegF.g, MemF.g, BrF.g, MatF.g, AsyF.g]
theorem ArgAccwr.dec_enc (m f : Nat) (x : ArgAccwr) (r : _) (h : ArgAccwr.enc m f x = .mat r) : ArgAccwr.dec r = some x := by
  cases h
  simp [ArgAccwr.dec, regH, memH, memA, brH, matH, asyH, RegF.g, MemF.g, BrF.g, MatF.g, AsyF.g]
theorem ArgSend.dec_enc (m f : Nat) (x : ArgSend) (r : _) (h : ArgSend.enc m f x = .asy r) : ArgSend.dec r = some x := by
  cases h
  simp [ArgSend.dec, regH, memH, memA, brH, matH, asyH, RegF.g, MemF.g, BrF.g, MatF.g, AsyF.g, MatF.fin, AsyF.fin]
theorem ArgSendt.dec_enc (m f : Nat) (x : ArgSendt) (r : _) (h : ArgSendt.enc m f x = .asy r) : ArgSendt.dec r = some x := by
  cases h
  have h1 : ((b2n x.remote * 16 + x.link.val) / 16 == 1) = x.remote := by
    have := x.link.isLt
    cases x.remote <;> simp [b2n] <;> omega
  have h2 : Fin.ofNat 16 (b2n x.remote * 16 + x.link.val) = x.link := by
    apply Fin.ext; simp only [Fin.val_ofNat]; have := x.link.isLt; omega
  simp only [ArgSendt.dec, asyH, h1, h2]
  simp [asyH, AsyF.g, AsyF.fin]
theorem ArgFill.dec_enc (m f : Nat) (x : ArgFill) (r : _) (h : ArgFill.enc m f x = .asy r) : ArgFill.dec r = some x := by
  cases h
  simp [ArgFill.dec, regH, memH, memA, brH, matH, asyH, RegF.g, MemF.g, BrF.g, MatF.g, AsyF.g, MatF.fin, AsyF.fin]
theorem ArgWait.dec_enc (m f : Nat) (x : ArgWait) (r : _) (h : ArgWait.enc m f x = .reg r) : ArgWait.dec r = some x := by
  cases h
  have := x.l.isLt
  have := x.s.isLt
  have := x.c.isLt
  have := x.t.isLt
  have h1 : Fin.ofNat 64 (x.l.val + x.s.val * 64 + x.c.val * 4096 + x.t.val * 262144) = x.l := by
    apply Fin.ext; simp only [Fin.val_ofNat]; omega
  have h2 : Fin.ofNat 64 ((x.l.val + x.s.val * 64 + x.c.val * 4096 + x.t.val * 262144) / 64) = x.s := by
    apply Fin.ext; simp only [Fin.val_ofNat]; omega
  have h3 : Fin.ofNat 64 ((x.l.val + x.s.val * 64 + x.c.val * 4096 + x.t.val * 262144) / 4096) = x.c := by
    apply Fin.ext; simp only [Fin.val_ofNat]; omega
  have h4 : Fin.ofNat 64 ((x.l.val + x.s.val * 64 + x.c.val * 4096 + x.t.val * 262144) / 262144) = x.t := by
    apply Fin.ext; simp only [Fin.val_ofNat]; omega
  simp only [ArgWait.dec, regH, h1, h2, h3, h4]
  simp [regH, RegF.g]
theorem ArgSbstat.dec_enc (m f : Nat) (x : ArgSbstat) (r : _) (h : ArgSbstat.enc m f x = .reg r) : ArgSbstat.dec r = some x := by
  cases h
  simp [ArgSbstat.dec, regH, memH, memA, brH, matH, asyH, RegF.g, MemF.g, BrF.g, MatF.g, AsyF.g]
theorem ArgSpawn.dec_enc (m f : Nat) (x : ArgSpawn) (r : _) (h : ArgSpawn.enc m f x = .reg r) : ArgSpawn.dec r = some x := by
  cases h
  have := x.mask.isLt
  have h1 : ((x.mask.toNat + b2n x.hReg * 256 + b2n x.rReg * 512) / 256 % 2 == 1) = x.hReg := by
    cases x.hReg <;> cases x.rReg <;> simp [b2n] <;> omega
  have h2 : ((x.mask.toNat + b2n x.hReg * 256 + b2n x.rReg * 512) / 512 % 2 == 1) = x.rReg := by
    cases x.hReg <;> cases x.rReg <;> simp [b2n] <;> omega
  have h3 : BitVec.ofNat 8 (x.mask.toNat + b2n x.hReg * 256 + b2n x.rReg * 512) = x.mask := by
    apply BitVec.eq_of_toNat_eq
    simp only [BitVec.toNat_ofNat]
    omega
  simp [ArgSpawn.dec, regH, RegF.g, h1, h2, h3]
theorem ArgCstat.dec_enc (m f : Nat) (x : ArgCstat) (r : _) (h : ArgCstat.enc m f x = .reg r) : ArgCstat.dec r = some x := by
  cases h
  simp [ArgCstat.dec, regH, memH, memA, brH, matH, asyH, RegF.g, MemF.g, BrF.g, MatF.g, AsyF.g]
theorem ArgAmsg.dec_enc (m f : Nat) (x : ArgAmsg) (r : _) (h : ArgAmsg.enc m f x = .reg r) : ArgAmsg.dec r = some x := by
  cases h
  have := x.cls.isLt
  have := x.n.isLt
  have h1 : Fin.ofNat 32 (x.cls.val + x.n.val * 32) = x.cls := by
    apply Fin.ext; simp only [Fin.val_ofNat]; omega
  have h2 : Fin.ofNat 8 ((x.cls.val + x.n.val * 32) / 32) = x.n := by
    apply Fin.ext; simp only [Fin.val_ofNat]; omega
  simp only [ArgAmsg.dec, regH, h1, h2]
  simp [regH, RegF.g]
theorem ArgBarv.dec_enc (m f : Nat) (x : ArgBarv) (r : _) (h : ArgBarv.enc m f x = .reg r) : ArgBarv.dec r = some x := by
  cases h
  have := x.n.isLt
  have h1 : ((x.n.val + b2n x.clu * 64) / 64 % 2 == 1) = x.clu := by cases x.clu <;> simp [b2n] <;> omega
  have h2 : Fin.ofNat 64 (x.n.val + b2n x.clu * 64) = x.n := by
    apply Fin.ext; simp only [Fin.val_ofNat]; omega
  simp only [ArgBarv.dec, regH, h1, h2]
  simp [regH, RegF.g]
theorem ArgBcfg.dec_enc (m f : Nat) (x : ArgBcfg) (r : _) (h : ArgBcfg.enc m f x = .reg r) : ArgBcfg.dec r = some x := by
  cases h
  have := x.n.isLt
  have := x.die.isLt
  have h1 : Fin.ofNat 64 (x.n.val + x.die.val * 64) = x.n := by
    apply Fin.ext; simp only [Fin.val_ofNat]; omega
  have h2 : Fin.ofNat 4 ((x.n.val + x.die.val * 64) / 64) = x.die := by
    apply Fin.ext; simp only [Fin.val_ofNat]; omega
  simp only [ArgBcfg.dec, regH, h1, h2]
  simp [regH, RegF.g]
end Sys2Proof
end

