-- ==== Sys2Proof/Laws/Assoc.lean ====
section
/-! SUPPORT. What a sorted association list holds after an update. -/
namespace Sys2Proof.Machine

@[simp] theorem Assoc.get?_put_same {α : Type} (k : Nat) (v : α) (m : Assoc α) : Assoc.get? k (Assoc.put k v m) = some v := by
  induction m with
  | nil => simp [Assoc.put, Assoc.get?]
  | cons e m ih =>
    obtain ⟨j, x⟩ := e
    simp only [Assoc.put]
    split
    · simp [Assoc.get?]
    · split
      · simp [Assoc.get?]
      · have : j ≠ k := by omega
        simp [Assoc.get?, this, ih]

@[simp] theorem Assoc.get?_put_other {α : Type} (j k : Nat) (v : α) (m : Assoc α) (h : j ≠ k) :
    Assoc.get? j (Assoc.put k v m) = Assoc.get? j m := by
  have hk : k ≠ j := fun e => h e.symm
  induction m with
  | nil => simp [Assoc.put, Assoc.get?, hk]
  | cons e m ih =>
    obtain ⟨i, x⟩ := e
    simp only [Assoc.put]
    split
    · simp [Assoc.get?, hk]
    · split
      · subst_vars; simp [Assoc.get?, hk]
      · simp [Assoc.get?, ih]

@[simp] theorem Assoc.getD_put_same {α : Type} (k : Nat) (v d : α) (m : Assoc α) : (Assoc.put k v m).getD k d = v := by
  simp [Assoc.getD]

@[simp] theorem Assoc.getD_put_other {α : Type} (j k : Nat) (v d : α) (m : Assoc α) (h : j ≠ k) :
    (Assoc.put k v m).getD j d = m.getD j d := by
  simp [Assoc.getD, h]

theorem Assoc.get?_erase {α : Type} (j k : Nat) (m : Assoc α) :
    Assoc.get? j (Assoc.erase k m) = if j = k then none else Assoc.get? j m := by
  induction m with
  | nil => simp [Assoc.erase, Assoc.get?]
  | cons e m ih =>
    obtain ⟨i, x⟩ := e
    unfold Assoc.erase
    by_cases hi : i = k
    · subst hi
      by_cases hj : j = i
      · subst hj; simp [ih]
      · have : ¬ i = j := fun e => hj e.symm
        simp [ih, hj, Assoc.get?, this]
    · by_cases hj : j = k
      · subst hj
        simp [hi, ih, Assoc.get?]
      · simp [hi, ih, Assoc.get?, hj]

theorem Assoc.get?_modify {α : Type} (j k : Nat) (f : α → α) (m : Assoc α) :
    Assoc.get? j (Assoc.modify k f m) = if j = k then (Assoc.get? j m).map f else Assoc.get? j m := by
  induction m with
  | nil => simp [Assoc.modify, Assoc.get?]
  | cons e m ih =>
    obtain ⟨i, x⟩ := e
    simp only [Assoc.modify]
    split
    · subst_vars
      by_cases h : j = i
      · simp [Assoc.get?, h]
      · simp [Assoc.get?, h, Ne.symm h]
    · by_cases h : i = j
      · subst_vars; simp [Assoc.get?, *]
      · simp [Assoc.get?, h, ih]

end Sys2Proof.Machine
end

