-- ==== Sys2Proof/Laws/State.lean ====
section
/-! SUPPORT. What each update of the state leaves as it was: one lemma for each field and each update. -/
namespace Sys2Proof.Machine

/-! ### A cell replaced -/

@[simp] theorem State.setCell_agenda (s : State) (c : Nat) (x : Cell) : (s.setCell c x).agenda = s.agenda := rfl
@[simp] theorem State.setCell_cur (s : State) (c : Nat) (x : Cell) : (s.setCell c x).cur = s.cur := rfl
@[simp] theorem State.setCell_clock (s : State) (c : Nat) (x : Cell) : (s.setCell c x).clock = s.clock := rfl
@[simp] theorem State.setCell_fresh (s : State) (c : Nat) (x : Cell) : (s.setCell c x).fresh = s.fresh := rfl
@[simp] theorem State.setCell_net (s : State) (c : Nat) (x : Cell) : (s.setCell c x).net = s.net := rfl
@[simp] theorem State.setCell_mem (s : State) (c : Nat) (x : Cell) : (s.setCell c x).mem = s.mem := rfl
@[simp] theorem State.setCell_keyTags (s : State) (c : Nat) (x : Cell) : (s.setCell c x).keyTags = s.keyTags := rfl
@[simp] theorem State.setCell_poison (s : State) (c : Nat) (x : Cell) : (s.setCell c x).poison = s.poison := rfl
@[simp] theorem State.setCell_sets (s : State) (c : Nat) (x : Cell) : (s.setCell c x).sets = s.sets := rfl
@[simp] theorem State.setCell_roots (s : State) (c : Nat) (x : Cell) : (s.setCell c x).roots = s.roots := rfl
@[simp] theorem State.setCell_staleAsids (s : State) (c : Nat) (x : Cell) : (s.setCell c x).staleAsids = s.staleAsids := rfl
@[simp] theorem State.setCell_keys (s : State) (c : Nat) (x : Cell) : (s.setCell c x).keys = s.keys := rfl
@[simp] theorem State.setCell_stations (s : State) (c : Nat) (x : Cell) : (s.setCell c x).stations = s.stations := rfl
@[simp] theorem State.setCell_stationShares (s : State) (c : Nat) (x : Cell) : (s.setCell c x).stationShares = s.stationShares := rfl
@[simp] theorem State.setCell_regions (s : State) (c : Nat) (x : Cell) : (s.setCell c x).regions = s.regions := rfl
@[simp] theorem State.setCell_types (s : State) (c : Nat) (x : Cell) : (s.setCell c x).types = s.types := rfl
@[simp] theorem State.setCell_directory (s : State) (c : Nat) (x : Cell) : (s.setCell c x).directory = s.directory := rfl
@[simp] theorem State.setCell_placers (s : State) (c : Nat) (x : Cell) : (s.setCell c x).placers = s.placers := rfl
@[simp] theorem State.setCell_clusters (s : State) (c : Nat) (x : Cell) : (s.setCell c x).clusters = s.clusters := rfl
@[simp] theorem State.setCell_bars (s : State) (c : Nat) (x : Cell) : (s.setCell c x).bars = s.bars := rfl
@[simp] theorem State.setCell_reds (s : State) (c : Nat) (x : Cell) : (s.setCell c x).reds = s.reds := rfl
@[simp] theorem State.setCell_routers (s : State) (c : Nat) (x : Cell) : (s.setCell c x).routers = s.routers := rfl
@[simp] theorem State.setCell_scOps (s : State) (c : Nat) (x : Cell) : (s.setCell c x).scOps = s.scOps := rfl
@[simp] theorem State.setCell_links (s : State) (c : Nat) (x : Cell) : (s.setCell c x).links = s.links := rfl
@[simp] theorem State.setCell_chans (s : State) (c : Nat) (x : Cell) : (s.setCell c x).chans = s.chans := rfl
@[simp] theorem State.setCell_vfs (s : State) (c : Nat) (x : Cell) : (s.setCell c x).vfs = s.vfs := rfl
@[simp] theorem State.setCell_meas (s : State) (c : Nat) (x : Cell) : (s.setCell c x).meas = s.meas := rfl
@[simp] theorem State.setCell_partitions (s : State) (c : Nat) (x : Cell) : (s.setCell c x).partitions = s.partitions := rfl
@[simp] theorem State.setCell_disjoint (s : State) (c : Nat) (x : Cell) : (s.setCell c x).disjoint = s.disjoint := rfl
@[simp] theorem State.setCell_throttle (s : State) (c : Nat) (x : Cell) : (s.setCell c x).throttle = s.throttle := rfl
@[simp] theorem State.setCell_throttleSteps (s : State) (c : Nat) (x : Cell) : (s.setCell c x).throttleSteps = s.throttleSteps := rfl
@[simp] theorem State.setCell_throttleAt (s : State) (c : Nat) (x : Cell) : (s.setCell c x).throttleAt = s.throttleAt := rfl
@[simp] theorem State.setCell_hot (s : State) (c : Nat) (x : Cell) : (s.setCell c x).hot = s.hot := rfl
@[simp] theorem State.setCell_gated (s : State) (c : Nat) (x : Cell) : (s.setCell c x).gated = s.gated := rfl
@[simp] theorem State.setCell_torn (s : State) (c : Nat) (x : Cell) : (s.setCell c x).torn = s.torn := rfl
@[simp] theorem State.setCell_passed (s : State) (c : Nat) (x : Cell) : (s.setCell c x).passed = s.passed := rfl
@[simp] theorem State.setCell_helper (s : State) (c : Nat) (x : Cell) : (s.setCell c x).helper = s.helper := rfl
@[simp] theorem State.setCell_puf (s : State) (c : Nat) (x : Cell) : (s.setCell c x).puf = s.puf := rfl
@[simp] theorem State.setCell_hostUp (s : State) (c : Nat) (x : Cell) : (s.setCell c x).hostUp = s.hostUp := rfl
@[simp] theorem State.setCell_breaks (s : State) (c : Nat) (x : Cell) : (s.setCell c x).breaks = s.breaks := rfl
@[simp] theorem State.setCell_stepping (s : State) (c : Nat) (x : Cell) : (s.setCell c x).stepping = s.stepping := rfl
@[simp] theorem State.setCell_recovery (s : State) (c : Nat) (x : Cell) : (s.setCell c x).recovery = s.recovery := rfl
@[simp] theorem State.setCell_rollback (s : State) (c : Nat) (x : Cell) : (s.setCell c x).rollback = s.rollback := rfl
@[simp] theorem State.setCell_identity (s : State) (c : Nat) (x : Cell) : (s.setCell c x).identity = s.identity := rfl
@[simp] theorem State.setCell_sessions (s : State) (c : Nat) (x : Cell) : (s.setCell c x).sessions = s.sessions := rfl
@[simp] theorem State.setCell_flash (s : State) (c : Nat) (x : Cell) : (s.setCell c x).flash = s.flash := rfl
@[simp] theorem State.setCell_absent (s : State) (c : Nat) (x : Cell) : (s.setCell c x).absent = s.absent := rfl
@[simp] theorem State.setCell_loads (s : State) (c : Nat) (x : Cell) : (s.setCell c x).loads = s.loads := rfl
@[simp] theorem State.setCell_hostOut (s : State) (c : Nat) (x : Cell) : (s.setCell c x).hostOut = s.hostOut := rfl

/-! ### A cell changed -/

@[simp] theorem State.modCell_agenda (s : State) (c : Nat) (f : Cell → Cell) : (s.modCell c f).agenda = s.agenda := rfl
@[simp] theorem State.modCell_cur (s : State) (c : Nat) (f : Cell → Cell) : (s.modCell c f).cur = s.cur := rfl
@[simp] theorem State.modCell_clock (s : State) (c : Nat) (f : Cell → Cell) : (s.modCell c f).clock = s.clock := rfl
@[simp] theorem State.modCell_fresh (s : State) (c : Nat) (f : Cell → Cell) : (s.modCell c f).fresh = s.fresh := rfl
@[simp] theorem State.modCell_net (s : State) (c : Nat) (f : Cell → Cell) : (s.modCell c f).net = s.net := rfl
@[simp] theorem State.modCell_mem (s : State) (c : Nat) (f : Cell → Cell) : (s.modCell c f).mem = s.mem := rfl
@[simp] theorem State.modCell_keyTags (s : State) (c : Nat) (f : Cell → Cell) : (s.modCell c f).keyTags = s.keyTags := rfl
@[simp] theorem State.modCell_poison (s : State) (c : Nat) (f : Cell → Cell) : (s.modCell c f).poison = s.poison := rfl
@[simp] theorem State.modCell_sets (s : State) (c : Nat) (f : Cell → Cell) : (s.modCell c f).sets = s.sets := rfl
@[simp] theorem State.modCell_roots (s : State) (c : Nat) (f : Cell → Cell) : (s.modCell c f).roots = s.roots := rfl
@[simp] theorem State.modCell_staleAsids (s : State) (c : Nat) (f : Cell → Cell) : (s.modCell c f).staleAsids = s.staleAsids := rfl
@[simp] theorem State.modCell_keys (s : State) (c : Nat) (f : Cell → Cell) : (s.modCell c f).keys = s.keys := rfl
@[simp] theorem State.modCell_stations (s : State) (c : Nat) (f : Cell → Cell) : (s.modCell c f).stations = s.stations := rfl
@[simp] theorem State.modCell_stationShares (s : State) (c : Nat) (f : Cell → Cell) : (s.modCell c f).stationShares = s.stationShares := rfl
@[simp] theorem State.modCell_regions (s : State) (c : Nat) (f : Cell → Cell) : (s.modCell c f).regions = s.regions := rfl
@[simp] theorem State.modCell_types (s : State) (c : Nat) (f : Cell → Cell) : (s.modCell c f).types = s.types := rfl
@[simp] theorem State.modCell_directory (s : State) (c : Nat) (f : Cell → Cell) : (s.modCell c f).directory = s.directory := rfl
@[simp] theorem State.modCell_placers (s : State) (c : Nat) (f : Cell → Cell) : (s.modCell c f).placers = s.placers := rfl
@[simp] theorem State.modCell_clusters (s : State) (c : Nat) (f : Cell → Cell) : (s.modCell c f).clusters = s.clusters := rfl
@[simp] theorem State.modCell_bars (s : State) (c : Nat) (f : Cell → Cell) : (s.modCell c f).bars = s.bars := rfl
@[simp] theorem State.modCell_reds (s : State) (c : Nat) (f : Cell → Cell) : (s.modCell c f).reds = s.reds := rfl
@[simp] theorem State.modCell_routers (s : State) (c : Nat) (f : Cell → Cell) : (s.modCell c f).routers = s.routers := rfl
@[simp] theorem State.modCell_scOps (s : State) (c : Nat) (f : Cell → Cell) : (s.modCell c f).scOps = s.scOps := rfl
@[simp] theorem State.modCell_links (s : State) (c : Nat) (f : Cell → Cell) : (s.modCell c f).links = s.links := rfl
@[simp] theorem State.modCell_chans (s : State) (c : Nat) (f : Cell → Cell) : (s.modCell c f).chans = s.chans := rfl
@[simp] theorem State.modCell_vfs (s : State) (c : Nat) (f : Cell → Cell) : (s.modCell c f).vfs = s.vfs := rfl
@[simp] theorem State.modCell_meas (s : State) (c : Nat) (f : Cell → Cell) : (s.modCell c f).meas = s.meas := rfl
@[simp] theorem State.modCell_partitions (s : State) (c : Nat) (f : Cell → Cell) : (s.modCell c f).partitions = s.partitions := rfl
@[simp] theorem State.modCell_disjoint (s : State) (c : Nat) (f : Cell → Cell) : (s.modCell c f).disjoint = s.disjoint := rfl
@[simp] theorem State.modCell_throttle (s : State) (c : Nat) (f : Cell → Cell) : (s.modCell c f).throttle = s.throttle := rfl
@[simp] theorem State.modCell_throttleSteps (s : State) (c : Nat) (f : Cell → Cell) : (s.modCell c f).throttleSteps = s.throttleSteps := rfl
@[simp] theorem State.modCell_throttleAt (s : State) (c : Nat) (f : Cell → Cell) : (s.modCell c f).throttleAt = s.throttleAt := rfl
@[simp] theorem State.modCell_hot (s : State) (c : Nat) (f : Cell → Cell) : (s.modCell c f).hot = s.hot := rfl
@[simp] theorem State.modCell_gated (s : State) (c : Nat) (f : Cell → Cell) : (s.modCell c f).gated = s.gated := rfl
@[simp] theorem State.modCell_torn (s : State) (c : Nat) (f : Cell → Cell) : (s.modCell c f).torn = s.torn := rfl
@[simp] theorem State.modCell_passed (s : State) (c : Nat) (f : Cell → Cell) : (s.modCell c f).passed = s.passed := rfl
@[simp] theorem State.modCell_helper (s : State) (c : Nat) (f : Cell → Cell) : (s.modCell c f).helper = s.helper := rfl
@[simp] theorem State.modCell_puf (s : State) (c : Nat) (f : Cell → Cell) : (s.modCell c f).puf = s.puf := rfl
@[simp] theorem State.modCell_hostUp (s : State) (c : Nat) (f : Cell → Cell) : (s.modCell c f).hostUp = s.hostUp := rfl
@[simp] theorem State.modCell_breaks (s : State) (c : Nat) (f : Cell → Cell) : (s.modCell c f).breaks = s.breaks := rfl
@[simp] theorem State.modCell_stepping (s : State) (c : Nat) (f : Cell → Cell) : (s.modCell c f).stepping = s.stepping := rfl
@[simp] theorem State.modCell_recovery (s : State) (c : Nat) (f : Cell → Cell) : (s.modCell c f).recovery = s.recovery := rfl
@[simp] theorem State.modCell_rollback (s : State) (c : Nat) (f : Cell → Cell) : (s.modCell c f).rollback = s.rollback := rfl
@[simp] theorem State.modCell_identity (s : State) (c : Nat) (f : Cell → Cell) : (s.modCell c f).identity = s.identity := rfl
@[simp] theorem State.modCell_sessions (s : State) (c : Nat) (f : Cell → Cell) : (s.modCell c f).sessions = s.sessions := rfl
@[simp] theorem State.modCell_flash (s : State) (c : Nat) (f : Cell → Cell) : (s.modCell c f).flash = s.flash := rfl
@[simp] theorem State.modCell_absent (s : State) (c : Nat) (f : Cell → Cell) : (s.modCell c f).absent = s.absent := rfl
@[simp] theorem State.modCell_loads (s : State) (c : Nat) (f : Cell → Cell) : (s.modCell c f).loads = s.loads := rfl
@[simp] theorem State.modCell_hostOut (s : State) (c : Nat) (f : Cell → Cell) : (s.modCell c f).hostOut = s.hostOut := rfl

/-! ### A context changed -/

@[simp] theorem State.modCtx_agenda (s : State) (c i : Nat) (f : Ctx → Ctx) : (s.modCtx c i f).agenda = s.agenda := rfl
@[simp] theorem State.modCtx_cur (s : State) (c i : Nat) (f : Ctx → Ctx) : (s.modCtx c i f).cur = s.cur := rfl
@[simp] theorem State.modCtx_clock (s : State) (c i : Nat) (f : Ctx → Ctx) : (s.modCtx c i f).clock = s.clock := rfl
@[simp] theorem State.modCtx_fresh (s : State) (c i : Nat) (f : Ctx → Ctx) : (s.modCtx c i f).fresh = s.fresh := rfl
@[simp] theorem State.modCtx_net (s : State) (c i : Nat) (f : Ctx → Ctx) : (s.modCtx c i f).net = s.net := rfl
@[simp] theorem State.modCtx_mem (s : State) (c i : Nat) (f : Ctx → Ctx) : (s.modCtx c i f).mem = s.mem := rfl
@[simp] theorem State.modCtx_keyTags (s : State) (c i : Nat) (f : Ctx → Ctx) : (s.modCtx c i f).keyTags = s.keyTags := rfl
@[simp] theorem State.modCtx_poison (s : State) (c i : Nat) (f : Ctx → Ctx) : (s.modCtx c i f).poison = s.poison := rfl
@[simp] theorem State.modCtx_sets (s : State) (c i : Nat) (f : Ctx → Ctx) : (s.modCtx c i f).sets = s.sets := rfl
@[simp] theorem State.modCtx_roots (s : State) (c i : Nat) (f : Ctx → Ctx) : (s.modCtx c i f).roots = s.roots := rfl
@[simp] theorem State.modCtx_staleAsids (s : State) (c i : Nat) (f : Ctx → Ctx) : (s.modCtx c i f).staleAsids = s.staleAsids := rfl
@[simp] theorem State.modCtx_keys (s : State) (c i : Nat) (f : Ctx → Ctx) : (s.modCtx c i f).keys = s.keys := rfl
@[simp] theorem State.modCtx_stations (s : State) (c i : Nat) (f : Ctx → Ctx) : (s.modCtx c i f).stations = s.stations := rfl
@[simp] theorem State.modCtx_stationShares (s : State) (c i : Nat) (f : Ctx → Ctx) : (s.modCtx c i f).stationShares = s.stationShares := rfl
@[simp] theorem State.modCtx_regions (s : State) (c i : Nat) (f : Ctx → Ctx) : (s.modCtx c i f).regions = s.regions := rfl
@[simp] theorem State.modCtx_types (s : State) (c i : Nat) (f : Ctx → Ctx) : (s.modCtx c i f).types = s.types := rfl
@[simp] theorem State.modCtx_directory (s : State) (c i : Nat) (f : Ctx → Ctx) : (s.modCtx c i f).directory = s.directory := rfl
@[simp] theorem State.modCtx_placers (s : State) (c i : Nat) (f : Ctx → Ctx) : (s.modCtx c i f).placers = s.placers := rfl
@[simp] theorem State.modCtx_clusters (s : State) (c i : Nat) (f : Ctx → Ctx) : (s.modCtx c i f).clusters = s.clusters := rfl
@[simp] theorem State.modCtx_bars (s : State) (c i : Nat) (f : Ctx → Ctx) : (s.modCtx c i f).bars = s.bars := rfl
@[simp] theorem State.modCtx_reds (s : State) (c i : Nat) (f : Ctx → Ctx) : (s.modCtx c i f).reds = s.reds := rfl
@[simp] theorem State.modCtx_routers (s : State) (c i : Nat) (f : Ctx → Ctx) : (s.modCtx c i f).routers = s.routers := rfl
@[simp] theorem State.modCtx_scOps (s : State) (c i : Nat) (f : Ctx → Ctx) : (s.modCtx c i f).scOps = s.scOps := rfl
@[simp] theorem State.modCtx_links (s : State) (c i : Nat) (f : Ctx → Ctx) : (s.modCtx c i f).links = s.links := rfl
@[simp] theorem State.modCtx_chans (s : State) (c i : Nat) (f : Ctx → Ctx) : (s.modCtx c i f).chans = s.chans := rfl
@[simp] theorem State.modCtx_vfs (s : State) (c i : Nat) (f : Ctx → Ctx) : (s.modCtx c i f).vfs = s.vfs := rfl
@[simp] theorem State.modCtx_meas (s : State) (c i : Nat) (f : Ctx → Ctx) : (s.modCtx c i f).meas = s.meas := rfl
@[simp] theorem State.modCtx_partitions (s : State) (c i : Nat) (f : Ctx → Ctx) : (s.modCtx c i f).partitions = s.partitions := rfl
@[simp] theorem State.modCtx_disjoint (s : State) (c i : Nat) (f : Ctx → Ctx) : (s.modCtx c i f).disjoint = s.disjoint := rfl
@[simp] theorem State.modCtx_throttle (s : State) (c i : Nat) (f : Ctx → Ctx) : (s.modCtx c i f).throttle = s.throttle := rfl
@[simp] theorem State.modCtx_throttleSteps (s : State) (c i : Nat) (f : Ctx → Ctx) : (s.modCtx c i f).throttleSteps = s.throttleSteps := rfl
@[simp] theorem State.modCtx_throttleAt (s : State) (c i : Nat) (f : Ctx → Ctx) : (s.modCtx c i f).throttleAt = s.throttleAt := rfl
@[simp] theorem State.modCtx_hot (s : State) (c i : Nat) (f : Ctx → Ctx) : (s.modCtx c i f).hot = s.hot := rfl
@[simp] theorem State.modCtx_gated (s : State) (c i : Nat) (f : Ctx → Ctx) : (s.modCtx c i f).gated = s.gated := rfl
@[simp] theorem State.modCtx_torn (s : State) (c i : Nat) (f : Ctx → Ctx) : (s.modCtx c i f).torn = s.torn := rfl
@[simp] theorem State.modCtx_passed (s : State) (c i : Nat) (f : Ctx → Ctx) : (s.modCtx c i f).passed = s.passed := rfl
@[simp] theorem State.modCtx_helper (s : State) (c i : Nat) (f : Ctx → Ctx) : (s.modCtx c i f).helper = s.helper := rfl
@[simp] theorem State.modCtx_puf (s : State) (c i : Nat) (f : Ctx → Ctx) : (s.modCtx c i f).puf = s.puf := rfl
@[simp] theorem State.modCtx_hostUp (s : State) (c i : Nat) (f : Ctx → Ctx) : (s.modCtx c i f).hostUp = s.hostUp := rfl
@[simp] theorem State.modCtx_breaks (s : State) (c i : Nat) (f : Ctx → Ctx) : (s.modCtx c i f).breaks = s.breaks := rfl
@[simp] theorem State.modCtx_stepping (s : State) (c i : Nat) (f : Ctx → Ctx) : (s.modCtx c i f).stepping = s.stepping := rfl
@[simp] theorem State.modCtx_recovery (s : State) (c i : Nat) (f : Ctx → Ctx) : (s.modCtx c i f).recovery = s.recovery := rfl
@[simp] theorem State.modCtx_rollback (s : State) (c i : Nat) (f : Ctx → Ctx) : (s.modCtx c i f).rollback = s.rollback := rfl
@[simp] theorem State.modCtx_identity (s : State) (c i : Nat) (f : Ctx → Ctx) : (s.modCtx c i f).identity = s.identity := rfl
@[simp] theorem State.modCtx_sessions (s : State) (c i : Nat) (f : Ctx → Ctx) : (s.modCtx c i f).sessions = s.sessions := rfl
@[simp] theorem State.modCtx_flash (s : State) (c i : Nat) (f : Ctx → Ctx) : (s.modCtx c i f).flash = s.flash := rfl
@[simp] theorem State.modCtx_absent (s : State) (c i : Nat) (f : Ctx → Ctx) : (s.modCtx c i f).absent = s.absent := rfl
@[simp] theorem State.modCtx_loads (s : State) (c i : Nat) (f : Ctx → Ctx) : (s.modCtx c i f).loads = s.loads := rfl
@[simp] theorem State.modCtx_hostOut (s : State) (c i : Nat) (f : Ctx → Ctx) : (s.modCtx c i f).hostOut = s.hostOut := rfl

/-! ### The executing context changed -/

@[simp] theorem State.modMe_agenda (s : State) (f : Ctx → Ctx) : (s.modMe f).agenda = s.agenda := rfl
@[simp] theorem State.modMe_cur (s : State) (f : Ctx → Ctx) : (s.modMe f).cur = s.cur := rfl
@[simp] theorem State.modMe_clock (s : State) (f : Ctx → Ctx) : (s.modMe f).clock = s.clock := rfl
@[simp] theorem State.modMe_fresh (s : State) (f : Ctx → Ctx) : (s.modMe f).fresh = s.fresh := rfl
@[simp] theorem State.modMe_net (s : State) (f : Ctx → Ctx) : (s.modMe f).net = s.net := rfl
@[simp] theorem State.modMe_mem (s : State) (f : Ctx → Ctx) : (s.modMe f).mem = s.mem := rfl
@[simp] theorem State.modMe_keyTags (s : State) (f : Ctx → Ctx) : (s.modMe f).keyTags = s.keyTags := rfl
@[simp] theorem State.modMe_poison (s : State) (f : Ctx → Ctx) : (s.modMe f).poison = s.poison := rfl
@[simp] theorem State.modMe_sets (s : State) (f : Ctx → Ctx) : (s.modMe f).sets = s.sets := rfl
@[simp] theorem State.modMe_roots (s : State) (f : Ctx → Ctx) : (s.modMe f).roots = s.roots := rfl
@[simp] theorem State.modMe_staleAsids (s : State) (f : Ctx → Ctx) : (s.modMe f).staleAsids = s.staleAsids := rfl
@[simp] theorem State.modMe_keys (s : State) (f : Ctx → Ctx) : (s.modMe f).keys = s.keys := rfl
@[simp] theorem State.modMe_stations (s : State) (f : Ctx → Ctx) : (s.modMe f).stations = s.stations := rfl
@[simp] theorem State.modMe_stationShares (s : State) (f : Ctx → Ctx) : (s.modMe f).stationShares = s.stationShares := rfl
@[simp] theorem State.modMe_regions (s : State) (f : Ctx → Ctx) : (s.modMe f).regions = s.regions := rfl
@[simp] theorem State.modMe_types (s : State) (f : Ctx → Ctx) : (s.modMe f).types = s.types := rfl
@[simp] theorem State.modMe_directory (s : State) (f : Ctx → Ctx) : (s.modMe f).directory = s.directory := rfl
@[simp] theorem State.modMe_placers (s : State) (f : Ctx → Ctx) : (s.modMe f).placers = s.placers := rfl
@[simp] theorem State.modMe_clusters (s : State) (f : Ctx → Ctx) : (s.modMe f).clusters = s.clusters := rfl
@[simp] theorem State.modMe_bars (s : State) (f : Ctx → Ctx) : (s.modMe f).bars = s.bars := rfl
@[simp] theorem State.modMe_reds (s : State) (f : Ctx → Ctx) : (s.modMe f).reds = s.reds := rfl
@[simp] theorem State.modMe_routers (s : State) (f : Ctx → Ctx) : (s.modMe f).routers = s.routers := rfl
@[simp] theorem State.modMe_scOps (s : State) (f : Ctx → Ctx) : (s.modMe f).scOps = s.scOps := rfl
@[simp] theorem State.modMe_links (s : State) (f : Ctx → Ctx) : (s.modMe f).links = s.links := rfl
@[simp] theorem State.modMe_chans (s : State) (f : Ctx → Ctx) : (s.modMe f).chans = s.chans := rfl
@[simp] theorem State.modMe_vfs (s : State) (f : Ctx → Ctx) : (s.modMe f).vfs = s.vfs := rfl
@[simp] theorem State.modMe_meas (s : State) (f : Ctx → Ctx) : (s.modMe f).meas = s.meas := rfl
@[simp] theorem State.modMe_partitions (s : State) (f : Ctx → Ctx) : (s.modMe f).partitions = s.partitions := rfl
@[simp] theorem State.modMe_disjoint (s : State) (f : Ctx → Ctx) : (s.modMe f).disjoint = s.disjoint := rfl
@[simp] theorem State.modMe_throttle (s : State) (f : Ctx → Ctx) : (s.modMe f).throttle = s.throttle := rfl
@[simp] theorem State.modMe_throttleSteps (s : State) (f : Ctx → Ctx) : (s.modMe f).throttleSteps = s.throttleSteps := rfl
@[simp] theorem State.modMe_throttleAt (s : State) (f : Ctx → Ctx) : (s.modMe f).throttleAt = s.throttleAt := rfl
@[simp] theorem State.modMe_hot (s : State) (f : Ctx → Ctx) : (s.modMe f).hot = s.hot := rfl
@[simp] theorem State.modMe_gated (s : State) (f : Ctx → Ctx) : (s.modMe f).gated = s.gated := rfl
@[simp] theorem State.modMe_torn (s : State) (f : Ctx → Ctx) : (s.modMe f).torn = s.torn := rfl
@[simp] theorem State.modMe_passed (s : State) (f : Ctx → Ctx) : (s.modMe f).passed = s.passed := rfl
@[simp] theorem State.modMe_helper (s : State) (f : Ctx → Ctx) : (s.modMe f).helper = s.helper := rfl
@[simp] theorem State.modMe_puf (s : State) (f : Ctx → Ctx) : (s.modMe f).puf = s.puf := rfl
@[simp] theorem State.modMe_hostUp (s : State) (f : Ctx → Ctx) : (s.modMe f).hostUp = s.hostUp := rfl
@[simp] theorem State.modMe_breaks (s : State) (f : Ctx → Ctx) : (s.modMe f).breaks = s.breaks := rfl
@[simp] theorem State.modMe_stepping (s : State) (f : Ctx → Ctx) : (s.modMe f).stepping = s.stepping := rfl
@[simp] theorem State.modMe_recovery (s : State) (f : Ctx → Ctx) : (s.modMe f).recovery = s.recovery := rfl
@[simp] theorem State.modMe_rollback (s : State) (f : Ctx → Ctx) : (s.modMe f).rollback = s.rollback := rfl
@[simp] theorem State.modMe_identity (s : State) (f : Ctx → Ctx) : (s.modMe f).identity = s.identity := rfl
@[simp] theorem State.modMe_sessions (s : State) (f : Ctx → Ctx) : (s.modMe f).sessions = s.sessions := rfl
@[simp] theorem State.modMe_flash (s : State) (f : Ctx → Ctx) : (s.modMe f).flash = s.flash := rfl
@[simp] theorem State.modMe_absent (s : State) (f : Ctx → Ctx) : (s.modMe f).absent = s.absent := rfl
@[simp] theorem State.modMe_loads (s : State) (f : Ctx → Ctx) : (s.modMe f).loads = s.loads := rfl
@[simp] theorem State.modMe_hostOut (s : State) (f : Ctx → Ctx) : (s.modMe f).hostOut = s.hostOut := rfl

/-! ### The next slot -/

@[simp] theorem State.retire_agenda (s : State) : (s.retire).agenda = s.agenda := rfl
@[simp] theorem State.retire_cur (s : State) : (s.retire).cur = s.cur := rfl
@[simp] theorem State.retire_clock (s : State) : (s.retire).clock = s.clock := rfl
@[simp] theorem State.retire_fresh (s : State) : (s.retire).fresh = s.fresh := rfl
@[simp] theorem State.retire_net (s : State) : (s.retire).net = s.net := rfl
@[simp] theorem State.retire_mem (s : State) : (s.retire).mem = s.mem := rfl
@[simp] theorem State.retire_keyTags (s : State) : (s.retire).keyTags = s.keyTags := rfl
@[simp] theorem State.retire_poison (s : State) : (s.retire).poison = s.poison := rfl
@[simp] theorem State.retire_sets (s : State) : (s.retire).sets = s.sets := rfl
@[simp] theorem State.retire_roots (s : State) : (s.retire).roots = s.roots := rfl
@[simp] theorem State.retire_staleAsids (s : State) : (s.retire).staleAsids = s.staleAsids := rfl
@[simp] theorem State.retire_keys (s : State) : (s.retire).keys = s.keys := rfl
@[simp] theorem State.retire_stations (s : State) : (s.retire).stations = s.stations := rfl
@[simp] theorem State.retire_stationShares (s : State) : (s.retire).stationShares = s.stationShares := rfl
@[simp] theorem State.retire_regions (s : State) : (s.retire).regions = s.regions := rfl
@[simp] theorem State.retire_types (s : State) : (s.retire).types = s.types := rfl
@[simp] theorem State.retire_directory (s : State) : (s.retire).directory = s.directory := rfl
@[simp] theorem State.retire_placers (s : State) : (s.retire).placers = s.placers := rfl
@[simp] theorem State.retire_clusters (s : State) : (s.retire).clusters = s.clusters := rfl
@[simp] theorem State.retire_bars (s : State) : (s.retire).bars = s.bars := rfl
@[simp] theorem State.retire_reds (s : State) : (s.retire).reds = s.reds := rfl
@[simp] theorem State.retire_routers (s : State) : (s.retire).routers = s.routers := rfl
@[simp] theorem State.retire_scOps (s : State) : (s.retire).scOps = s.scOps := rfl
@[simp] theorem State.retire_links (s : State) : (s.retire).links = s.links := rfl
@[simp] theorem State.retire_chans (s : State) : (s.retire).chans = s.chans := rfl
@[simp] theorem State.retire_vfs (s : State) : (s.retire).vfs = s.vfs := rfl
@[simp] theorem State.retire_meas (s : State) : (s.retire).meas = s.meas := rfl
@[simp] theorem State.retire_partitions (s : State) : (s.retire).partitions = s.partitions := rfl
@[simp] theorem State.retire_disjoint (s : State) : (s.retire).disjoint = s.disjoint := rfl
@[simp] theorem State.retire_throttle (s : State) : (s.retire).throttle = s.throttle := rfl
@[simp] theorem State.retire_throttleSteps (s : State) : (s.retire).throttleSteps = s.throttleSteps := rfl
@[simp] theorem State.retire_throttleAt (s : State) : (s.retire).throttleAt = s.throttleAt := rfl
@[simp] theorem State.retire_hot (s : State) : (s.retire).hot = s.hot := rfl
@[simp] theorem State.retire_gated (s : State) : (s.retire).gated = s.gated := rfl
@[simp] theorem State.retire_torn (s : State) : (s.retire).torn = s.torn := rfl
@[simp] theorem State.retire_passed (s : State) : (s.retire).passed = s.passed := rfl
@[simp] theorem State.retire_helper (s : State) : (s.retire).helper = s.helper := rfl
@[simp] theorem State.retire_puf (s : State) : (s.retire).puf = s.puf := rfl
@[simp] theorem State.retire_hostUp (s : State) : (s.retire).hostUp = s.hostUp := rfl
@[simp] theorem State.retire_breaks (s : State) : (s.retire).breaks = s.breaks := rfl
@[simp] theorem State.retire_stepping (s : State) : (s.retire).stepping = s.stepping := rfl
@[simp] theorem State.retire_recovery (s : State) : (s.retire).recovery = s.recovery := rfl
@[simp] theorem State.retire_rollback (s : State) : (s.retire).rollback = s.rollback := rfl
@[simp] theorem State.retire_identity (s : State) : (s.retire).identity = s.identity := rfl
@[simp] theorem State.retire_sessions (s : State) : (s.retire).sessions = s.sessions := rfl
@[simp] theorem State.retire_flash (s : State) : (s.retire).flash = s.flash := rfl
@[simp] theorem State.retire_absent (s : State) : (s.retire).absent = s.absent := rfl
@[simp] theorem State.retire_loads (s : State) : (s.retire).loads = s.loads := rfl
@[simp] theorem State.retire_hostOut (s : State) : (s.retire).hostOut = s.hostOut := rfl

/-! ### A region changed -/

@[simp] theorem State.modRegion_agenda (s : State) (r : Nat) (f : Region → Region) : (s.modRegion r f).agenda = s.agenda := rfl
@[simp] theorem State.modRegion_cur (s : State) (r : Nat) (f : Region → Region) : (s.modRegion r f).cur = s.cur := rfl
@[simp] theorem State.modRegion_clock (s : State) (r : Nat) (f : Region → Region) : (s.modRegion r f).clock = s.clock := rfl
@[simp] theorem State.modRegion_fresh (s : State) (r : Nat) (f : Region → Region) : (s.modRegion r f).fresh = s.fresh := rfl
@[simp] theorem State.modRegion_net (s : State) (r : Nat) (f : Region → Region) : (s.modRegion r f).net = s.net := rfl
@[simp] theorem State.modRegion_mem (s : State) (r : Nat) (f : Region → Region) : (s.modRegion r f).mem = s.mem := rfl
@[simp] theorem State.modRegion_keyTags (s : State) (r : Nat) (f : Region → Region) : (s.modRegion r f).keyTags = s.keyTags := rfl
@[simp] theorem State.modRegion_poison (s : State) (r : Nat) (f : Region → Region) : (s.modRegion r f).poison = s.poison := rfl
@[simp] theorem State.modRegion_sets (s : State) (r : Nat) (f : Region → Region) : (s.modRegion r f).sets = s.sets := rfl
@[simp] theorem State.modRegion_roots (s : State) (r : Nat) (f : Region → Region) : (s.modRegion r f).roots = s.roots := rfl
@[simp] theorem State.modRegion_staleAsids (s : State) (r : Nat) (f : Region → Region) : (s.modRegion r f).staleAsids = s.staleAsids := rfl
@[simp] theorem State.modRegion_keys (s : State) (r : Nat) (f : Region → Region) : (s.modRegion r f).keys = s.keys := rfl
@[simp] theorem State.modRegion_stations (s : State) (r : Nat) (f : Region → Region) : (s.modRegion r f).stations = s.stations := rfl
@[simp] theorem State.modRegion_stationShares (s : State) (r : Nat) (f : Region → Region) : (s.modRegion r f).stationShares = s.stationShares := rfl
@[simp] theorem State.modRegion_types (s : State) (r : Nat) (f : Region → Region) : (s.modRegion r f).types = s.types := rfl
@[simp] theorem State.modRegion_directory (s : State) (r : Nat) (f : Region → Region) : (s.modRegion r f).directory = s.directory := rfl
@[simp] theorem State.modRegion_placers (s : State) (r : Nat) (f : Region → Region) : (s.modRegion r f).placers = s.placers := rfl
@[simp] theorem State.modRegion_clusters (s : State) (r : Nat) (f : Region → Region) : (s.modRegion r f).clusters = s.clusters := rfl
@[simp] theorem State.modRegion_bars (s : State) (r : Nat) (f : Region → Region) : (s.modRegion r f).bars = s.bars := rfl
@[simp] theorem State.modRegion_reds (s : State) (r : Nat) (f : Region → Region) : (s.modRegion r f).reds = s.reds := rfl
@[simp] theorem State.modRegion_routers (s : State) (r : Nat) (f : Region → Region) : (s.modRegion r f).routers = s.routers := rfl
@[simp] theorem State.modRegion_scOps (s : State) (r : Nat) (f : Region → Region) : (s.modRegion r f).scOps = s.scOps := rfl
@[simp] theorem State.modRegion_links (s : State) (r : Nat) (f : Region → Region) : (s.modRegion r f).links = s.links := rfl
@[simp] theorem State.modRegion_chans (s : State) (r : Nat) (f : Region → Region) : (s.modRegion r f).chans = s.chans := rfl
@[simp] theorem State.modRegion_vfs (s : State) (r : Nat) (f : Region → Region) : (s.modRegion r f).vfs = s.vfs := rfl
@[simp] theorem State.modRegion_meas (s : State) (r : Nat) (f : Region → Region) : (s.modRegion r f).meas = s.meas := rfl
@[simp] theorem State.modRegion_partitions (s : State) (r : Nat) (f : Region → Region) : (s.modRegion r f).partitions = s.partitions := rfl
@[simp] theorem State.modRegion_disjoint (s : State) (r : Nat) (f : Region → Region) : (s.modRegion r f).disjoint = s.disjoint := rfl
@[simp] theorem State.modRegion_throttle (s : State) (r : Nat) (f : Region → Region) : (s.modRegion r f).throttle = s.throttle := rfl
@[simp] theorem State.modRegion_throttleSteps (s : State) (r : Nat) (f : Region → Region) : (s.modRegion r f).throttleSteps = s.throttleSteps := rfl
@[simp] theorem State.modRegion_throttleAt (s : State) (r : Nat) (f : Region → Region) : (s.modRegion r f).throttleAt = s.throttleAt := rfl
@[simp] theorem State.modRegion_hot (s : State) (r : Nat) (f : Region → Region) : (s.modRegion r f).hot = s.hot := rfl
@[simp] theorem State.modRegion_gated (s : State) (r : Nat) (f : Region → Region) : (s.modRegion r f).gated = s.gated := rfl
@[simp] theorem State.modRegion_torn (s : State) (r : Nat) (f : Region → Region) : (s.modRegion r f).torn = s.torn := rfl
@[simp] theorem State.modRegion_passed (s : State) (r : Nat) (f : Region → Region) : (s.modRegion r f).passed = s.passed := rfl
@[simp] theorem State.modRegion_helper (s : State) (r : Nat) (f : Region → Region) : (s.modRegion r f).helper = s.helper := rfl
@[simp] theorem State.modRegion_puf (s : State) (r : Nat) (f : Region → Region) : (s.modRegion r f).puf = s.puf := rfl
@[simp] theorem State.modRegion_hostUp (s : State) (r : Nat) (f : Region → Region) : (s.modRegion r f).hostUp = s.hostUp := rfl
@[simp] theorem State.modRegion_breaks (s : State) (r : Nat) (f : Region → Region) : (s.modRegion r f).breaks = s.breaks := rfl
@[simp] theorem State.modRegion_stepping (s : State) (r : Nat) (f : Region → Region) : (s.modRegion r f).stepping = s.stepping := rfl
@[simp] theorem State.modRegion_recovery (s : State) (r : Nat) (f : Region → Region) : (s.modRegion r f).recovery = s.recovery := rfl
@[simp] theorem State.modRegion_rollback (s : State) (r : Nat) (f : Region → Region) : (s.modRegion r f).rollback = s.rollback := rfl
@[simp] theorem State.modRegion_identity (s : State) (r : Nat) (f : Region → Region) : (s.modRegion r f).identity = s.identity := rfl
@[simp] theorem State.modRegion_sessions (s : State) (r : Nat) (f : Region → Region) : (s.modRegion r f).sessions = s.sessions := rfl
@[simp] theorem State.modRegion_flash (s : State) (r : Nat) (f : Region → Region) : (s.modRegion r f).flash = s.flash := rfl
@[simp] theorem State.modRegion_absent (s : State) (r : Nat) (f : Region → Region) : (s.modRegion r f).absent = s.absent := rfl
@[simp] theorem State.modRegion_loads (s : State) (r : Nat) (f : Region → Region) : (s.modRegion r f).loads = s.loads := rfl
@[simp] theorem State.modRegion_hostOut (s : State) (r : Nat) (f : Region → Region) : (s.modRegion r f).hostOut = s.hostOut := rfl
@[simp] theorem State.modRegion_cells (s : State) (r : Nat) (f : Region → Region) : (s.modRegion r f).cells = s.cells := rfl

/-! ### A message sent -/

@[simp] theorem State.send_agenda (s : State) (a b : Place) (p : Pay) : (s.send a b p).agenda = s.agenda := rfl
@[simp] theorem State.send_cur (s : State) (a b : Place) (p : Pay) : (s.send a b p).cur = s.cur := rfl
@[simp] theorem State.send_clock (s : State) (a b : Place) (p : Pay) : (s.send a b p).clock = s.clock := rfl
@[simp] theorem State.send_fresh (s : State) (a b : Place) (p : Pay) : (s.send a b p).fresh = s.fresh := rfl
@[simp] theorem State.send_mem (s : State) (a b : Place) (p : Pay) : (s.send a b p).mem = s.mem := rfl
@[simp] theorem State.send_keyTags (s : State) (a b : Place) (p : Pay) : (s.send a b p).keyTags = s.keyTags := rfl
@[simp] theorem State.send_poison (s : State) (a b : Place) (p : Pay) : (s.send a b p).poison = s.poison := rfl
@[simp] theorem State.send_sets (s : State) (a b : Place) (p : Pay) : (s.send a b p).sets = s.sets := rfl
@[simp] theorem State.send_roots (s : State) (a b : Place) (p : Pay) : (s.send a b p).roots = s.roots := rfl
@[simp] theorem State.send_staleAsids (s : State) (a b : Place) (p : Pay) : (s.send a b p).staleAsids = s.staleAsids := rfl
@[simp] theorem State.send_keys (s : State) (a b : Place) (p : Pay) : (s.send a b p).keys = s.keys := rfl
@[simp] theorem State.send_stations (s : State) (a b : Place) (p : Pay) : (s.send a b p).stations = s.stations := rfl
@[simp] theorem State.send_stationShares (s : State) (a b : Place) (p : Pay) : (s.send a b p).stationShares = s.stationShares := rfl
@[simp] theorem State.send_regions (s : State) (a b : Place) (p : Pay) : (s.send a b p).regions = s.regions := rfl
@[simp] theorem State.send_types (s : State) (a b : Place) (p : Pay) : (s.send a b p).types = s.types := rfl
@[simp] theorem State.send_directory (s : State) (a b : Place) (p : Pay) : (s.send a b p).directory = s.directory := rfl
@[simp] theorem State.send_placers (s : State) (a b : Place) (p : Pay) : (s.send a b p).placers = s.placers := rfl
@[simp] theorem State.send_clusters (s : State) (a b : Place) (p : Pay) : (s.send a b p).clusters = s.clusters := rfl
@[simp] theorem State.send_bars (s : State) (a b : Place) (p : Pay) : (s.send a b p).bars = s.bars := rfl
@[simp] theorem State.send_reds (s : State) (a b : Place) (p : Pay) : (s.send a b p).reds = s.reds := rfl
@[simp] theorem State.send_routers (s : State) (a b : Place) (p : Pay) : (s.send a b p).routers = s.routers := rfl
@[simp] theorem State.send_scOps (s : State) (a b : Place) (p : Pay) : (s.send a b p).scOps = s.scOps := rfl
@[simp] theorem State.send_links (s : State) (a b : Place) (p : Pay) : (s.send a b p).links = s.links := rfl
@[simp] theorem State.send_chans (s : State) (a b : Place) (p : Pay) : (s.send a b p).chans = s.chans := rfl
@[simp] theorem State.send_vfs (s : State) (a b : Place) (p : Pay) : (s.send a b p).vfs = s.vfs := rfl
@[simp] theorem State.send_meas (s : State) (a b : Place) (p : Pay) : (s.send a b p).meas = s.meas := rfl
@[simp] theorem State.send_partitions (s : State) (a b : Place) (p : Pay) : (s.send a b p).partitions = s.partitions := rfl
@[simp] theorem State.send_disjoint (s : State) (a b : Place) (p : Pay) : (s.send a b p).disjoint = s.disjoint := rfl
@[simp] theorem State.send_throttle (s : State) (a b : Place) (p : Pay) : (s.send a b p).throttle = s.throttle := rfl
@[simp] theorem State.send_throttleSteps (s : State) (a b : Place) (p : Pay) : (s.send a b p).throttleSteps = s.throttleSteps := rfl
@[simp] theorem State.send_throttleAt (s : State) (a b : Place) (p : Pay) : (s.send a b p).throttleAt = s.throttleAt := rfl
@[simp] theorem State.send_hot (s : State) (a b : Place) (p : Pay) : (s.send a b p).hot = s.hot := rfl
@[simp] theorem State.send_gated (s : State) (a b : Place) (p : Pay) : (s.send a b p).gated = s.gated := rfl
@[simp] theorem State.send_torn (s : State) (a b : Place) (p : Pay) : (s.send a b p).torn = s.torn := rfl
@[simp] theorem State.send_passed (s : State) (a b : Place) (p : Pay) : (s.send a b p).passed = s.passed := rfl
@[simp] theorem State.send_helper (s : State) (a b : Place) (p : Pay) : (s.send a b p).helper = s.helper := rfl
@[simp] theorem State.send_puf (s : State) (a b : Place) (p : Pay) : (s.send a b p).puf = s.puf := rfl
@[simp] theorem State.send_hostUp (s : State) (a b : Place) (p : Pay) : (s.send a b p).hostUp = s.hostUp := rfl
@[simp] theorem State.send_breaks (s : State) (a b : Place) (p : Pay) : (s.send a b p).breaks = s.breaks := rfl
@[simp] theorem State.send_stepping (s : State) (a b : Place) (p : Pay) : (s.send a b p).stepping = s.stepping := rfl
@[simp] theorem State.send_recovery (s : State) (a b : Place) (p : Pay) : (s.send a b p).recovery = s.recovery := rfl
@[simp] theorem State.send_rollback (s : State) (a b : Place) (p : Pay) : (s.send a b p).rollback = s.rollback := rfl
@[simp] theorem State.send_identity (s : State) (a b : Place) (p : Pay) : (s.send a b p).identity = s.identity := rfl
@[simp] theorem State.send_sessions (s : State) (a b : Place) (p : Pay) : (s.send a b p).sessions = s.sessions := rfl
@[simp] theorem State.send_flash (s : State) (a b : Place) (p : Pay) : (s.send a b p).flash = s.flash := rfl
@[simp] theorem State.send_absent (s : State) (a b : Place) (p : Pay) : (s.send a b p).absent = s.absent := rfl
@[simp] theorem State.send_loads (s : State) (a b : Place) (p : Pay) : (s.send a b p).loads = s.loads := rfl
@[simp] theorem State.send_hostOut (s : State) (a b : Place) (p : Pay) : (s.send a b p).hostOut = s.hostOut := rfl
@[simp] theorem State.send_cells (s : State) (a b : Place) (p : Pay) : (s.send a b p).cells = s.cells := rfl

/-! ### Bytes written -/

@[simp] theorem State.writeBytes_agenda (s : State) (a : Nat) (bs : List Byte) : (s.writeBytes a bs).agenda = s.agenda := rfl
@[simp] theorem State.writeBytes_cur (s : State) (a : Nat) (bs : List Byte) : (s.writeBytes a bs).cur = s.cur := rfl
@[simp] theorem State.writeBytes_clock (s : State) (a : Nat) (bs : List Byte) : (s.writeBytes a bs).clock = s.clock := rfl
@[simp] theorem State.writeBytes_fresh (s : State) (a : Nat) (bs : List Byte) : (s.writeBytes a bs).fresh = s.fresh := rfl
@[simp] theorem State.writeBytes_net (s : State) (a : Nat) (bs : List Byte) : (s.writeBytes a bs).net = s.net := rfl
@[simp] theorem State.writeBytes_keyTags (s : State) (a : Nat) (bs : List Byte) : (s.writeBytes a bs).keyTags = s.keyTags := rfl
@[simp] theorem State.writeBytes_poison (s : State) (a : Nat) (bs : List Byte) : (s.writeBytes a bs).poison = s.poison := rfl
@[simp] theorem State.writeBytes_sets (s : State) (a : Nat) (bs : List Byte) : (s.writeBytes a bs).sets = s.sets := rfl
@[simp] theorem State.writeBytes_roots (s : State) (a : Nat) (bs : List Byte) : (s.writeBytes a bs).roots = s.roots := rfl
@[simp] theorem State.writeBytes_staleAsids (s : State) (a : Nat) (bs : List Byte) : (s.writeBytes a bs).staleAsids = s.staleAsids := rfl
@[simp] theorem State.writeBytes_keys (s : State) (a : Nat) (bs : List Byte) : (s.writeBytes a bs).keys = s.keys := rfl
@[simp] theorem State.writeBytes_stations (s : State) (a : Nat) (bs : List Byte) : (s.writeBytes a bs).stations = s.stations := rfl
@[simp] theorem State.writeBytes_stationShares (s : State) (a : Nat) (bs : List Byte) : (s.writeBytes a bs).stationShares = s.stationShares := rfl
@[simp] theorem State.writeBytes_regions (s : State) (a : Nat) (bs : List Byte) : (s.writeBytes a bs).regions = s.regions := rfl
@[simp] theorem State.writeBytes_types (s : State) (a : Nat) (bs : List Byte) : (s.writeBytes a bs).types = s.types := rfl
@[simp] theorem State.writeBytes_directory (s : State) (a : Nat) (bs : List Byte) : (s.writeBytes a bs).directory = s.directory := rfl
@[simp] theorem State.writeBytes_placers (s : State) (a : Nat) (bs : List Byte) : (s.writeBytes a bs).placers = s.placers := rfl
@[simp] theorem State.writeBytes_clusters (s : State) (a : Nat) (bs : List Byte) : (s.writeBytes a bs).clusters = s.clusters := rfl
@[simp] theorem State.writeBytes_bars (s : State) (a : Nat) (bs : List Byte) : (s.writeBytes a bs).bars = s.bars := rfl
@[simp] theorem State.writeBytes_reds (s : State) (a : Nat) (bs : List Byte) : (s.writeBytes a bs).reds = s.reds := rfl
@[simp] theorem State.writeBytes_routers (s : State) (a : Nat) (bs : List Byte) : (s.writeBytes a bs).routers = s.routers := rfl
@[simp] theorem State.writeBytes_scOps (s : State) (a : Nat) (bs : List Byte) : (s.writeBytes a bs).scOps = s.scOps := rfl
@[simp] theorem State.writeBytes_links (s : State) (a : Nat) (bs : List Byte) : (s.writeBytes a bs).links = s.links := rfl
@[simp] theorem State.writeBytes_chans (s : State) (a : Nat) (bs : List Byte) : (s.writeBytes a bs).chans = s.chans := rfl
@[simp] theorem State.writeBytes_vfs (s : State) (a : Nat) (bs : List Byte) : (s.writeBytes a bs).vfs = s.vfs := rfl
@[simp] theorem State.writeBytes_meas (s : State) (a : Nat) (bs : List Byte) : (s.writeBytes a bs).meas = s.meas := rfl
@[simp] theorem State.writeBytes_partitions (s : State) (a : Nat) (bs : List Byte) : (s.writeBytes a bs).partitions = s.partitions := rfl
@[simp] theorem State.writeBytes_disjoint (s : State) (a : Nat) (bs : List Byte) : (s.writeBytes a bs).disjoint = s.disjoint := rfl
@[simp] theorem State.writeBytes_throttle (s : State) (a : Nat) (bs : List Byte) : (s.writeBytes a bs).throttle = s.throttle := rfl
@[simp] theorem State.writeBytes_throttleSteps (s : State) (a : Nat) (bs : List Byte) : (s.writeBytes a bs).throttleSteps = s.throttleSteps := rfl
@[simp] theorem State.writeBytes_throttleAt (s : State) (a : Nat) (bs : List Byte) : (s.writeBytes a bs).throttleAt = s.throttleAt := rfl
@[simp] theorem State.writeBytes_hot (s : State) (a : Nat) (bs : List Byte) : (s.writeBytes a bs).hot = s.hot := rfl
@[simp] theorem State.writeBytes_gated (s : State) (a : Nat) (bs : List Byte) : (s.writeBytes a bs).gated = s.gated := rfl
@[simp] theorem State.writeBytes_torn (s : State) (a : Nat) (bs : List Byte) : (s.writeBytes a bs).torn = s.torn := rfl
@[simp] theorem State.writeBytes_passed (s : State) (a : Nat) (bs : List Byte) : (s.writeBytes a bs).passed = s.passed := rfl
@[simp] theorem State.writeBytes_helper (s : State) (a : Nat) (bs : List Byte) : (s.writeBytes a bs).helper = s.helper := rfl
@[simp] theorem State.writeBytes_puf (s : State) (a : Nat) (bs : List Byte) : (s.writeBytes a bs).puf = s.puf := rfl
@[simp] theorem State.writeBytes_hostUp (s : State) (a : Nat) (bs : List Byte) : (s.writeBytes a bs).hostUp = s.hostUp := rfl
@[simp] theorem State.writeBytes_breaks (s : State) (a : Nat) (bs : List Byte) : (s.writeBytes a bs).breaks = s.breaks := rfl
@[simp] theorem State.writeBytes_stepping (s : State) (a : Nat) (bs : List Byte) : (s.writeBytes a bs).stepping = s.stepping := rfl
@[simp] theorem State.writeBytes_recovery (s : State) (a : Nat) (bs : List Byte) : (s.writeBytes a bs).recovery = s.recovery := rfl
@[simp] theorem State.writeBytes_rollback (s : State) (a : Nat) (bs : List Byte) : (s.writeBytes a bs).rollback = s.rollback := rfl
@[simp] theorem State.writeBytes_identity (s : State) (a : Nat) (bs : List Byte) : (s.writeBytes a bs).identity = s.identity := rfl
@[simp] theorem State.writeBytes_sessions (s : State) (a : Nat) (bs : List Byte) : (s.writeBytes a bs).sessions = s.sessions := rfl
@[simp] theorem State.writeBytes_flash (s : State) (a : Nat) (bs : List Byte) : (s.writeBytes a bs).flash = s.flash := rfl
@[simp] theorem State.writeBytes_absent (s : State) (a : Nat) (bs : List Byte) : (s.writeBytes a bs).absent = s.absent := rfl
@[simp] theorem State.writeBytes_loads (s : State) (a : Nat) (bs : List Byte) : (s.writeBytes a bs).loads = s.loads := rfl
@[simp] theorem State.writeBytes_hostOut (s : State) (a : Nat) (bs : List Byte) : (s.writeBytes a bs).hostOut = s.hostOut := rfl
@[simp] theorem State.writeBytes_cells (s : State) (a : Nat) (bs : List Byte) : (s.writeBytes a bs).cells = s.cells := rfl

/-! ### A context of a cell replaced -/

@[simp] theorem Cell.setCtx_dispCount (x : Cell) (i : Nat) (y : Ctx) : (x.setCtx i y).dispCount = x.dispCount := rfl
@[simp] theorem Cell.setCtx_lastDispatch (x : Cell) (i : Nat) (y : Ctx) : (x.setCtx i y).lastDispatch = x.lastDispatch := rfl
@[simp] theorem Cell.setCtx_rings (x : Cell) (i : Nat) (y : Ctx) : (x.setCtx i y).rings = x.rings := rfl
@[simp] theorem Cell.setCtx_lateEvents (x : Cell) (i : Nat) (y : Ctx) : (x.setCtx i y).lateEvents = x.lateEvents := rfl
@[simp] theorem Cell.setCtx_deficits (x : Cell) (i : Nat) (y : Ctx) : (x.setCtx i y).deficits = x.deficits := rfl
@[simp] theorem Cell.setCtx_halted (x : Cell) (i : Nat) (y : Ctx) : (x.setCtx i y).halted = x.halted := rfl
@[simp] theorem Cell.setCtx_pools (x : Cell) (i : Nat) (y : Ctx) : (x.setCtx i y).pools = x.pools := rfl
@[simp] theorem Cell.setCtx_sb (x : Cell) (i : Nat) (y : Ctx) : (x.setCtx i y).sb = x.sb := rfl
@[simp] theorem Cell.setCtx_nextKey (x : Cell) (i : Nat) (y : Ctx) : (x.setCtx i y).nextKey = x.nextKey := rfl
@[simp] theorem Cell.setCtx_tileq (x : Cell) (i : Nat) (y : Ctx) : (x.setCtx i y).tileq = x.tileq := rfl
@[simp] theorem Cell.setCtx_copyq (x : Cell) (i : Nat) (y : Ctx) : (x.setCtx i y).copyq = x.copyq := rfl
@[simp] theorem Cell.setCtx_copyTurn (x : Cell) (i : Nat) (y : Ctx) : (x.setCtx i y).copyTurn = x.copyTurn := rfl
@[simp] theorem Cell.setCtx_inbound (x : Cell) (i : Nat) (y : Ctx) : (x.setCtx i y).inbound = x.inbound := rfl
@[simp] theorem Cell.setCtx_inSpill (x : Cell) (i : Nat) (y : Ctx) : (x.setCtx i y).inSpill = x.inSpill := rfl
@[simp] theorem Cell.setCtx_spilled (x : Cell) (i : Nat) (y : Ctx) : (x.setCtx i y).spilled = x.spilled := rfl
@[simp] theorem Cell.setCtx_accepted (x : Cell) (i : Nat) (y : Ctx) : (x.setCtx i y).accepted = x.accepted := rfl
@[simp] theorem Cell.setCtx_refused (x : Cell) (i : Nat) (y : Ctx) : (x.setCtx i y).refused = x.refused := rfl
@[simp] theorem Cell.setCtx_noCopy (x : Cell) (i : Nat) (y : Ctx) : (x.setCtx i y).noCopy = x.noCopy := rfl
@[simp] theorem Cell.setCtx_heldActs (x : Cell) (i : Nat) (y : Ctx) : (x.setCtx i y).heldActs = x.heldActs := rfl
@[simp] theorem Cell.setCtx_frozenRegs (x : Cell) (i : Nat) (y : Ctx) : (x.setCtx i y).frozenRegs = x.frozenRegs := rfl
@[simp] theorem Cell.setCtx_hub (x : Cell) (i : Nat) (y : Ctx) : (x.setCtx i y).hub = x.hub := rfl
@[simp] theorem Cell.setCtx_hubNext (x : Cell) (i : Nat) (y : Ctx) : (x.setCtx i y).hubNext = x.hubNext := rfl
@[simp] theorem Cell.setCtx_binds (x : Cell) (i : Nat) (y : Ctx) : (x.setCtx i y).binds = x.binds := rfl
@[simp] theorem Cell.setCtx_htab (x : Cell) (i : Nat) (y : Ctx) : (x.setCtx i y).htab = x.htab := rfl
@[simp] theorem Cell.setCtx_eps (x : Cell) (i : Nat) (y : Ctx) : (x.setCtx i y).eps = x.eps := rfl
@[simp] theorem Cell.setCtx_in8 (x : Cell) (i : Nat) (y : Ctx) : (x.setCtx i y).in8 = x.in8 := rfl
@[simp] theorem Cell.setCtx_over8 (x : Cell) (i : Nat) (y : Ctx) : (x.setCtx i y).over8 = x.over8 := rfl
@[simp] theorem Cell.setCtx_outbuf (x : Cell) (i : Nat) (y : Ctx) : (x.setCtx i y).outbuf = x.outbuf := rfl
@[simp] theorem Cell.setCtx_run8 (x : Cell) (i : Nat) (y : Ctx) : (x.setCtx i y).run8 = x.run8 := rfl
@[simp] theorem Cell.setCtx_trapq (x : Cell) (i : Nat) (y : Ctx) : (x.setCtx i y).trapq = x.trapq := rfl
@[simp] theorem Cell.setCtx_run9 (x : Cell) (i : Nat) (y : Ctx) : (x.setCtx i y).run9 = x.run9 := rfl
@[simp] theorem Cell.setCtx_xcause (x : Cell) (i : Nat) (y : Ctx) : (x.setCtx i y).xcause = x.xcause := rfl
@[simp] theorem Cell.setCtx_xepc (x : Cell) (i : Nat) (y : Ctx) : (x.setCtx i y).xepc = x.xepc := rfl
@[simp] theorem Cell.setCtx_xval (x : Cell) (i : Nat) (y : Ctx) : (x.setCtx i y).xval = x.xval := rfl
@[simp] theorem Cell.setCtx_xinfo (x : Cell) (i : Nat) (y : Ctx) : (x.setCtx i y).xinfo = x.xinfo := rfl
@[simp] theorem Cell.setCtx_retry (x : Cell) (i : Nat) (y : Ctx) : (x.setCtx i y).retry = x.retry := rfl
@[simp] theorem Cell.setCtx_retryWait (x : Cell) (i : Nat) (y : Ctx) : (x.setCtx i y).retryWait = x.retryWait := rfl

/-! ### The next slot of a context -/

@[simp] theorem Ctx.retire_st (x : Ctx) : (x.retire).st = x.st := rfl
@[simp] theorem Ctx.retire_s (x : Ctx) : (x.retire).s = x.s := rfl
@[simp] theorem Ctx.retire_v (x : Ctx) : (x.retire).v = x.v := rfl
@[simp] theorem Ctx.retire_p (x : Ctx) : (x.retire).p = x.p := rfl
@[simp] theorem Ctx.retire_tbl (x : Ctx) : (x.retire).tbl = x.tbl := rfl
@[simp] theorem Ctx.retire_fcsr (x : Ctx) : (x.retire).fcsr = x.fcsr := rfl
@[simp] theorem Ctx.retire_xsl (x : Ctx) : (x.retire).xsl = x.xsl := rfl
@[simp] theorem Ctx.retire_sptmpl (x : Ctx) : (x.retire).sptmpl = x.sptmpl := rfl
@[simp] theorem Ctx.retire_allot (x : Ctx) : (x.retire).allot = x.allot := rfl
@[simp] theorem Ctx.retire_task (x : Ctx) : (x.retire).task = x.task := rfl
@[simp] theorem Ctx.retire_seq (x : Ctx) : (x.retire).seq = x.seq := rfl
@[simp] theorem Ctx.retire_opSeq (x : Ctx) : (x.retire).opSeq = x.opSeq := rfl
@[simp] theorem Ctx.retire_slots (x : Ctx) : (x.retire).slots = x.slots := rfl
@[simp] theorem Ctx.retire_portDone (x : Ctx) : (x.retire).portDone = x.portDone := rfl
@[simp] theorem Ctx.retire_portZero (x : Ctx) : (x.retire).portZero = x.portZero := rfl
@[simp] theorem Ctx.retire_fetchq (x : Ctx) : (x.retire).fetchq = x.fetchq := rfl
@[simp] theorem Ctx.retire_asyncs (x : Ctx) : (x.retire).asyncs = x.asyncs := rfl
@[simp] theorem Ctx.retire_frozen (x : Ctx) : (x.retire).frozen = x.frozen := rfl
@[simp] theorem Ctx.retire_freezeTrap (x : Ctx) : (x.retire).freezeTrap = x.freezeTrap := rfl

/-! ### A taken branch of a context -/

@[simp] theorem Ctx.jump_st (x : Ctx) (pc : Word) : (x.jump pc).st = x.st := rfl
@[simp] theorem Ctx.jump_s (x : Ctx) (pc : Word) : (x.jump pc).s = x.s := rfl
@[simp] theorem Ctx.jump_v (x : Ctx) (pc : Word) : (x.jump pc).v = x.v := rfl
@[simp] theorem Ctx.jump_p (x : Ctx) (pc : Word) : (x.jump pc).p = x.p := rfl
@[simp] theorem Ctx.jump_tbl (x : Ctx) (pc : Word) : (x.jump pc).tbl = x.tbl := rfl
@[simp] theorem Ctx.jump_fcsr (x : Ctx) (pc : Word) : (x.jump pc).fcsr = x.fcsr := rfl
@[simp] theorem Ctx.jump_xsl (x : Ctx) (pc : Word) : (x.jump pc).xsl = x.xsl := rfl
@[simp] theorem Ctx.jump_sptmpl (x : Ctx) (pc : Word) : (x.jump pc).sptmpl = x.sptmpl := rfl
@[simp] theorem Ctx.jump_allot (x : Ctx) (pc : Word) : (x.jump pc).allot = x.allot := rfl
@[simp] theorem Ctx.jump_task (x : Ctx) (pc : Word) : (x.jump pc).task = x.task := rfl
@[simp] theorem Ctx.jump_seq (x : Ctx) (pc : Word) : (x.jump pc).seq = x.seq := rfl
@[simp] theorem Ctx.jump_opSeq (x : Ctx) (pc : Word) : (x.jump pc).opSeq = x.opSeq := rfl
@[simp] theorem Ctx.jump_slots (x : Ctx) (pc : Word) : (x.jump pc).slots = x.slots := rfl
@[simp] theorem Ctx.jump_portDone (x : Ctx) (pc : Word) : (x.jump pc).portDone = x.portDone := rfl
@[simp] theorem Ctx.jump_portZero (x : Ctx) (pc : Word) : (x.jump pc).portZero = x.portZero := rfl
@[simp] theorem Ctx.jump_asyncs (x : Ctx) (pc : Word) : (x.jump pc).asyncs = x.asyncs := rfl
@[simp] theorem Ctx.jump_frozen (x : Ctx) (pc : Word) : (x.jump pc).frozen = x.frozen := rfl
@[simp] theorem Ctx.jump_freezeTrap (x : Ctx) (pc : Word) : (x.jump pc).freezeTrap = x.freezeTrap := rfl

/-! ### A vector written -/

@[simp] theorem Ctx.wv_st (x : Ctx) (r : VReg) (v : VWord) : (x.wv r v).st = x.st := rfl
@[simp] theorem Ctx.wv_stalled (x : Ctx) (r : VReg) (v : VWord) : (x.wv r v).stalled = x.stalled := rfl
@[simp] theorem Ctx.wv_pc (x : Ctx) (r : VReg) (v : VWord) : (x.wv r v).pc = x.pc := rfl
@[simp] theorem Ctx.wv_s (x : Ctx) (r : VReg) (v : VWord) : (x.wv r v).s = x.s := rfl
@[simp] theorem Ctx.wv_p (x : Ctx) (r : VReg) (v : VWord) : (x.wv r v).p = x.p := rfl
@[simp] theorem Ctx.wv_tbl (x : Ctx) (r : VReg) (v : VWord) : (x.wv r v).tbl = x.tbl := rfl
@[simp] theorem Ctx.wv_fcsr (x : Ctx) (r : VReg) (v : VWord) : (x.wv r v).fcsr = x.fcsr := rfl
@[simp] theorem Ctx.wv_xsl (x : Ctx) (r : VReg) (v : VWord) : (x.wv r v).xsl = x.xsl := rfl
@[simp] theorem Ctx.wv_sptmpl (x : Ctx) (r : VReg) (v : VWord) : (x.wv r v).sptmpl = x.sptmpl := rfl
@[simp] theorem Ctx.wv_allot (x : Ctx) (r : VReg) (v : VWord) : (x.wv r v).allot = x.allot := rfl
@[simp] theorem Ctx.wv_task (x : Ctx) (r : VReg) (v : VWord) : (x.wv r v).task = x.task := rfl
@[simp] theorem Ctx.wv_iret (x : Ctx) (r : VReg) (v : VWord) : (x.wv r v).iret = x.iret := rfl
@[simp] theorem Ctx.wv_seq (x : Ctx) (r : VReg) (v : VWord) : (x.wv r v).seq = x.seq := rfl
@[simp] theorem Ctx.wv_opSeq (x : Ctx) (r : VReg) (v : VWord) : (x.wv r v).opSeq = x.opSeq := rfl
@[simp] theorem Ctx.wv_slots (x : Ctx) (r : VReg) (v : VWord) : (x.wv r v).slots = x.slots := rfl
@[simp] theorem Ctx.wv_portDone (x : Ctx) (r : VReg) (v : VWord) : (x.wv r v).portDone = x.portDone := rfl
@[simp] theorem Ctx.wv_portZero (x : Ctx) (r : VReg) (v : VWord) : (x.wv r v).portZero = x.portZero := rfl
@[simp] theorem Ctx.wv_fetchq (x : Ctx) (r : VReg) (v : VWord) : (x.wv r v).fetchq = x.fetchq := rfl
@[simp] theorem Ctx.wv_asyncs (x : Ctx) (r : VReg) (v : VWord) : (x.wv r v).asyncs = x.asyncs := rfl
@[simp] theorem Ctx.wv_frozen (x : Ctx) (r : VReg) (v : VWord) : (x.wv r v).frozen = x.frozen := rfl
@[simp] theorem Ctx.wv_freezeTrap (x : Ctx) (r : VReg) (v : VWord) : (x.wv r v).freezeTrap = x.freezeTrap := rfl

/-! ### A scalar written -/

@[simp] theorem Ctx.ws_st (x : Ctx) (r : SReg) (v : Word) : (x.ws r v).st = x.st := by unfold Ctx.ws; split <;> rfl
@[simp] theorem Ctx.ws_stalled (x : Ctx) (r : SReg) (v : Word) : (x.ws r v).stalled = x.stalled := by unfold Ctx.ws; split <;> rfl
@[simp] theorem Ctx.ws_pc (x : Ctx) (r : SReg) (v : Word) : (x.ws r v).pc = x.pc := by unfold Ctx.ws; split <;> rfl
@[simp] theorem Ctx.ws_v (x : Ctx) (r : SReg) (v : Word) : (x.ws r v).v = x.v := by unfold Ctx.ws; split <;> rfl
@[simp] theorem Ctx.ws_p (x : Ctx) (r : SReg) (v : Word) : (x.ws r v).p = x.p := by unfold Ctx.ws; split <;> rfl
@[simp] theorem Ctx.ws_tbl (x : Ctx) (r : SReg) (v : Word) : (x.ws r v).tbl = x.tbl := by unfold Ctx.ws; split <;> rfl
@[simp] theorem Ctx.ws_fcsr (x : Ctx) (r : SReg) (v : Word) : (x.ws r v).fcsr = x.fcsr := by unfold Ctx.ws; split <;> rfl
@[simp] theorem Ctx.ws_xsl (x : Ctx) (r : SReg) (v : Word) : (x.ws r v).xsl = x.xsl := by unfold Ctx.ws; split <;> rfl
@[simp] theorem Ctx.ws_sptmpl (x : Ctx) (r : SReg) (v : Word) : (x.ws r v).sptmpl = x.sptmpl := by unfold Ctx.ws; split <;> rfl
@[simp] theorem Ctx.ws_allot (x : Ctx) (r : SReg) (v : Word) : (x.ws r v).allot = x.allot := by unfold Ctx.ws; split <;> rfl
@[simp] theorem Ctx.ws_task (x : Ctx) (r : SReg) (v : Word) : (x.ws r v).task = x.task := by unfold Ctx.ws; split <;> rfl
@[simp] theorem Ctx.ws_iret (x : Ctx) (r : SReg) (v : Word) : (x.ws r v).iret = x.iret := by unfold Ctx.ws; split <;> rfl
@[simp] theorem Ctx.ws_seq (x : Ctx) (r : SReg) (v : Word) : (x.ws r v).seq = x.seq := by unfold Ctx.ws; split <;> rfl
@[simp] theorem Ctx.ws_opSeq (x : Ctx) (r : SReg) (v : Word) : (x.ws r v).opSeq = x.opSeq := by unfold Ctx.ws; split <;> rfl
@[simp] theorem Ctx.ws_slots (x : Ctx) (r : SReg) (v : Word) : (x.ws r v).slots = x.slots := by unfold Ctx.ws; split <;> rfl
@[simp] theorem Ctx.ws_portDone (x : Ctx) (r : SReg) (v : Word) : (x.ws r v).portDone = x.portDone := by unfold Ctx.ws; split <;> rfl
@[simp] theorem Ctx.ws_portZero (x : Ctx) (r : SReg) (v : Word) : (x.ws r v).portZero = x.portZero := by unfold Ctx.ws; split <;> rfl
@[simp] theorem Ctx.ws_fetchq (x : Ctx) (r : SReg) (v : Word) : (x.ws r v).fetchq = x.fetchq := by unfold Ctx.ws; split <;> rfl
@[simp] theorem Ctx.ws_asyncs (x : Ctx) (r : SReg) (v : Word) : (x.ws r v).asyncs = x.asyncs := by unfold Ctx.ws; split <;> rfl
@[simp] theorem Ctx.ws_frozen (x : Ctx) (r : SReg) (v : Word) : (x.ws r v).frozen = x.frozen := by unfold Ctx.ws; split <;> rfl
@[simp] theorem Ctx.ws_freezeTrap (x : Ctx) (r : SReg) (v : Word) : (x.ws r v).freezeTrap = x.freezeTrap := by unfold Ctx.ws; split <;> rfl

/-! ### A predicate written -/

@[simp] theorem Ctx.wp_st (x : Ctx) (r : PReg) (v : Bool) : (x.wp r v).st = x.st := by unfold Ctx.wp; split <;> rfl
@[simp] theorem Ctx.wp_stalled (x : Ctx) (r : PReg) (v : Bool) : (x.wp r v).stalled = x.stalled := by unfold Ctx.wp; split <;> rfl
@[simp] theorem Ctx.wp_pc (x : Ctx) (r : PReg) (v : Bool) : (x.wp r v).pc = x.pc := by unfold Ctx.wp; split <;> rfl
@[simp] theorem Ctx.wp_s (x : Ctx) (r : PReg) (v : Bool) : (x.wp r v).s = x.s := by unfold Ctx.wp; split <;> rfl
@[simp] theorem Ctx.wp_v (x : Ctx) (r : PReg) (v : Bool) : (x.wp r v).v = x.v := by unfold Ctx.wp; split <;> rfl
@[simp] theorem Ctx.wp_tbl (x : Ctx) (r : PReg) (v : Bool) : (x.wp r v).tbl = x.tbl := by unfold Ctx.wp; split <;> rfl
@[simp] theorem Ctx.wp_fcsr (x : Ctx) (r : PReg) (v : Bool) : (x.wp r v).fcsr = x.fcsr := by unfold Ctx.wp; split <;> rfl
@[simp] theorem Ctx.wp_xsl (x : Ctx) (r : PReg) (v : Bool) : (x.wp r v).xsl = x.xsl := by unfold Ctx.wp; split <;> rfl
@[simp] theorem Ctx.wp_sptmpl (x : Ctx) (r : PReg) (v : Bool) : (x.wp r v).sptmpl = x.sptmpl := by unfold Ctx.wp; split <;> rfl
@[simp] theorem Ctx.wp_allot (x : Ctx) (r : PReg) (v : Bool) : (x.wp r v).allot = x.allot := by unfold Ctx.wp; split <;> rfl
@[simp] theorem Ctx.wp_task (x : Ctx) (r : PReg) (v : Bool) : (x.wp r v).task = x.task := by unfold Ctx.wp; split <;> rfl
@[simp] theorem Ctx.wp_iret (x : Ctx) (r : PReg) (v : Bool) : (x.wp r v).iret = x.iret := by unfold Ctx.wp; split <;> rfl
@[simp] theorem Ctx.wp_seq (x : Ctx) (r : PReg) (v : Bool) : (x.wp r v).seq = x.seq := by unfold Ctx.wp; split <;> rfl
@[simp] theorem Ctx.wp_opSeq (x : Ctx) (r : PReg) (v : Bool) : (x.wp r v).opSeq = x.opSeq := by unfold Ctx.wp; split <;> rfl
@[simp] theorem Ctx.wp_slots (x : Ctx) (r : PReg) (v : Bool) : (x.wp r v).slots = x.slots := by unfold Ctx.wp; split <;> rfl
@[simp] theorem Ctx.wp_portDone (x : Ctx) (r : PReg) (v : Bool) : (x.wp r v).portDone = x.portDone := by unfold Ctx.wp; split <;> rfl
@[simp] theorem Ctx.wp_portZero (x : Ctx) (r : PReg) (v : Bool) : (x.wp r v).portZero = x.portZero := by unfold Ctx.wp; split <;> rfl
@[simp] theorem Ctx.wp_fetchq (x : Ctx) (r : PReg) (v : Bool) : (x.wp r v).fetchq = x.fetchq := by unfold Ctx.wp; split <;> rfl
@[simp] theorem Ctx.wp_asyncs (x : Ctx) (r : PReg) (v : Bool) : (x.wp r v).asyncs = x.asyncs := by unfold Ctx.wp; split <;> rfl
@[simp] theorem Ctx.wp_frozen (x : Ctx) (r : PReg) (v : Bool) : (x.wp r v).frozen = x.frozen := by unfold Ctx.wp; split <;> rfl
@[simp] theorem Ctx.wp_freezeTrap (x : Ctx) (r : PReg) (v : Bool) : (x.wp r v).freezeTrap = x.freezeTrap := by unfold Ctx.wp; split <;> rfl

end Sys2Proof.Machine
end

