-- ==== Sys2Proof/Laws/Context.lean ====
section
/-! SUPPORT. Reading a cell or a context back after an update, registers after a write, and two updates of one context. -/
namespace Sys2Proof.Machine

theorem Assoc.put_put {α : Type} (k : Nat) (v w : α) (m : Assoc α) : Assoc.put k v (Assoc.put k w m) = Assoc.put k v m := by
  induction m with
  | nil => simp [Assoc.put]
  | cons e m ih =>
    obtain ⟨j, x⟩ := e
    by_cases h1 : k < j
    · simp [Assoc.put, h1]
    · by_cases h2 : k = j
      · simp [Assoc.put, h2]
      · simp [Assoc.put, h1, h2, ih]

@[simp] theorem Cell.ctx_setCtx_same (x : Cell) (i : Nat) (y : Ctx) (h : i < 10) : (x.setCtx i y).ctx i = y := by
  have : i < (x.ctxs.setIfInBounds i y).size := h
  simp [Cell.ctx, Cell.setCtx, Vector.getD, h]

@[simp] theorem Cell.ctx_setCtx_other (x : Cell) (i j : Nat) (y : Ctx) (h : j ≠ i) : (x.setCtx i y).ctx j = x.ctx j := by
  by_cases hj : j < 10
  · simp [Cell.ctx, Cell.setCtx, Vector.getD, hj, Ne.symm h]
  · simp [Cell.ctx, Cell.setCtx, Vector.getD, hj]

theorem Cell.setCtx_setCtx (x : Cell) (i : Nat) (y z : Ctx) : (x.setCtx i y).setCtx i z = x.setCtx i z := by
  simp [Cell.setCtx]

@[simp] theorem State.cell_setCell_same (s : State) (c : Nat) (x : Cell) : (s.setCell c x).cell c = x := by
  simp [State.cell, State.setCell]

@[simp] theorem State.cell_setCell_other (s : State) (c d : Nat) (x : Cell) (h : d ≠ c) : (s.setCell c x).cell d = s.cell d := by
  simp [State.cell, State.setCell, h]

@[simp] theorem State.cell_modCell_same (s : State) (c : Nat) (f : Cell → Cell) : (s.modCell c f).cell c = f (s.cell c) := by
  simp [State.modCell]

@[simp] theorem State.cell_modCell_other (s : State) (c d : Nat) (f : Cell → Cell) (h : d ≠ c) :
    (s.modCell c f).cell d = s.cell d := by
  simp [State.modCell, h]

theorem State.setCell_setCell (s : State) (c : Nat) (x y : Cell) : (s.setCell c x).setCell c y = s.setCell c y := by
  simp [State.setCell, Assoc.put_put]

theorem State.modCell_modCell (s : State) (c : Nat) (f g : Cell → Cell) :
    (s.modCell c f).modCell c g = s.modCell c fun x => g (f x) := by
  unfold State.modCell
  rw [State.setCell_setCell, State.cell_setCell_same]

@[simp] theorem State.ctxAt_modCtx_same (s : State) (c i : Nat) (f : Ctx → Ctx) (h : i < 10) :
    (s.modCtx c i f).ctxAt c i = f (s.ctxAt c i) := by
  simp [State.ctxAt, State.modCtx, h]

theorem State.ctxAt_modCtx_other (s : State) (c i d j : Nat) (f : Ctx → Ctx) (h : d ≠ c ∨ j ≠ i) :
    (s.modCtx c i f).ctxAt d j = s.ctxAt d j := by
  by_cases hd : d = c
  · subst hd
    have hj : j ≠ i := by simpa using h
    simp [State.ctxAt, State.modCtx, hj]
  · simp [State.ctxAt, State.modCtx, hd]

theorem State.modCtx_modCtx (s : State) (c i : Nat) (f g : Ctx → Ctx) (h : i < 10) :
    (s.modCtx c i f).modCtx c i g = s.modCtx c i fun x => g (f x) := by
  unfold State.modCtx
  rw [State.modCell_modCell]
  congr 1
  funext x
  rw [Cell.ctx_setCtx_same _ _ _ h, Cell.setCtx_setCtx]

@[simp] theorem State.me_modMe (s : State) (f : Ctx → Ctx) (h : s.cur.ctx < 10) : (s.modMe f).me = f s.me := by
  simp [State.me, State.modMe, h]

theorem State.modMe_modMe (s : State) (f g : Ctx → Ctx) (h : s.cur.ctx < 10) :
    (s.modMe f).modMe g = s.modMe fun x => g (f x) :=
  State.modCtx_modCtx s s.cur.cell s.cur.ctx f g h

/-- An update of the executing context, and then the next slot, in one. -/
theorem State.retire_modMe (s : State) (f : Ctx → Ctx) (h : s.cur.ctx < 10) :
    (s.modMe f).retire = s.modMe fun x => (f x).retire := State.modMe_modMe s f Ctx.retire h

/-- A scalar after a write: s0 stays zero (R35). -/
theorem Ctx.rs_ws (x : Ctx) (r q : SReg) (v : Word) :
    (x.ws r v).rs q = if q.val = 0 then 0 else if q = r then v else x.rs q := by
  unfold Ctx.ws Ctx.rs
  by_cases hq : q.val = 0
  · simp [hq]
  · by_cases hr : r.val = 0
    · have : q ≠ r := fun e => hq (e ▸ hr)
      simp [hq, hr, this]
    · by_cases e : q = r
      · subst e; simp [hq, Vector.get]
      · have hn : r.val ≠ q.val := fun h => e (Fin.ext h.symm)
        simp only [hq, hr, e, if_false]
        exact Vector.getElem_set_ne _ _ hn

/-- A predicate after a write: p0 stays true (R35). -/
theorem Ctx.rp_wp (x : Ctx) (r q : PReg) (v : Bool) :
    (x.wp r v).rp q = if q.val = 0 then true else if q = r then v else x.rp q := by
  unfold Ctx.wp Ctx.rp
  by_cases hq : q.val = 0
  · simp [hq]
  · by_cases hr : r.val = 0
    · have : q ≠ r := fun e => hq (e ▸ hr)
      simp [hq, hr, this]
    · by_cases e : q = r
      · subst e; simp [hq, Vector.get]
      · have hn : r.val ≠ q.val := fun h => e (Fin.ext h.symm)
        simp only [hq, hr, e, if_false]
        exact Vector.getElem_set_ne _ _ hn

/-- A vector after a write. -/
theorem Ctx.rv_wv (x : Ctx) (r q : VReg) (v : VWord) : (x.wv r v).rv q = if q = r then v else x.rv q := by
  unfold Ctx.wv Ctx.rv
  by_cases e : q = r
  · subst e
    rw [if_pos rfl]
    exact Vector.getElem_set_self _
  · rw [if_neg e]
    exact Vector.getElem_set_ne r.isLt q.isLt fun h => e (Fin.ext h.symm)

end Sys2Proof.Machine
end

