-- ==== Sys2Proof/Laws/Exec.lean ====
section
/-! SUPPORT. What `exec` is for each instruction and event: its meaning. -/
namespace Sys2Proof.Machine

theorem exec_add (x : ArgInt) (s : State) : exec (.add x) s = execAdd x s := rfl
theorem exec_sub (x : ArgInt) (s : State) : exec (.sub x) s = execSub x s := rfl
theorem exec_mul (x : ArgInt) (s : State) : exec (.mul x) s = execMul x s := rfl
theorem exec_mulh (x : ArgInt) (s : State) : exec (.mulh x) s = execMulh x s := rfl
theorem exec_mulhu (x : ArgInt) (s : State) : exec (.mulhu x) s = execMulhu x s := rfl
theorem exec_div (x : ArgInt) (s : State) : exec (.div x) s = execDiv x s := rfl
theorem exec_divu (x : ArgInt) (s : State) : exec (.divu x) s = execDivu x s := rfl
theorem exec_rem (x : ArgInt) (s : State) : exec (.rem x) s = execRem x s := rfl
theorem exec_remu (x : ArgInt) (s : State) : exec (.remu x) s = execRemu x s := rfl
theorem exec_and (x : ArgInt) (s : State) : exec (.and x) s = execAnd x s := rfl
theorem exec_or (x : ArgInt) (s : State) : exec (.or x) s = execOr x s := rfl
theorem exec_xor (x : ArgInt) (s : State) : exec (.xor x) s = execXor x s := rfl
theorem exec_andn (x : ArgInt) (s : State) : exec (.andn x) s = execAndn x s := rfl
theorem exec_shl (x : ArgInt) (s : State) : exec (.shl x) s = execShl x s := rfl
theorem exec_shr (x : ArgInt) (s : State) : exec (.shr x) s = execShr x s := rfl
theorem exec_sar (x : ArgInt) (s : State) : exec (.sar x) s = execSar x s := rfl
theorem exec_rol (x : ArgInt) (s : State) : exec (.rol x) s = execRol x s := rfl
theorem exec_min (x : ArgInt) (s : State) : exec (.min x) s = execMin x s := rfl
theorem exec_max (x : ArgInt) (s : State) : exec (.max x) s = execMax x s := rfl
theorem exec_minu (x : ArgInt) (s : State) : exec (.minu x) s = execMinu x s := rfl
theorem exec_maxu (x : ArgInt) (s : State) : exec (.maxu x) s = execMaxu x s := rfl
theorem exec_clz (x : ArgTDA) (s : State) : exec (.clz x) s = execClz x s := rfl
theorem exec_ctz (x : ArgTDA) (s : State) : exec (.ctz x) s = execCtz x s := rfl
theorem exec_popc (x : ArgTDA) (s : State) : exec (.popc x) s = execPopc x s := rfl
theorem exec_bext (x : ArgBext) (s : State) : exec (.bext x) s = execBext x s := rfl
theorem exec_bins (x : ArgBins) (s : State) : exec (.bins x) s = execBins x s := rfl
theorem exec_lea (x : ArgLea) (s : State) : exec (.lea x) s = execLea x s := rfl
theorem exec_li (x : ArgLi) (s : State) : exec (.li x) s = execLi x s := rfl
theorem exec_mov (x : ArgMov) (s : State) : exec (.mov x) s = execMov x s := rfl
theorem exec_sel (x : ArgSel) (s : State) : exec (.sel x) s = execSel x s := rfl
theorem exec_cmp (x : ArgCmp) (s : State) : exec (.cmp x) s = execCmp x s := rfl
theorem exec_pand (x : ArgP3) (s : State) : exec (.pand x) s = execPand x s := rfl
theorem exec_por (x : ArgP3) (s : State) : exec (.por x) s = execPor x s := rfl
theorem exec_pxor (x : ArgP3) (s : State) : exec (.pxor x) s = execPxor x s := rfl
theorem exec_pnot (x : ArgP2) (s : State) : exec (.pnot x) s = execPnot x s := rfl
theorem exec_ppack (x : ArgD) (s : State) : exec (.ppack x) s = execPpack x s := rfl
theorem exec_punpk (x : ArgPunpk) (s : State) : exec (.punpk x) s = execPunpk x s := rfl
theorem exec_br (x : ArgBr) (s : State) : exec (.br x) s = execBr x s := rfl
theorem exec_jmp (x : ArgT) (s : State) : exec (.jmp x) s = execJmp x s := rfl
theorem exec_call (x : ArgT) (s : State) : exec (.call x) s = execCall x s := rfl
theorem exec_loop (x : ArgLoop) (s : State) : exec (.loop x) s = execLoop x s := rfl
theorem exec_jr (x : ArgA) (s : State) : exec (.jr x) s = execJr x s := rfl
theorem exec_callr (x : ArgA) (s : State) : exec (.callr x) s = execCallr x s := rfl
theorem exec_ret (x : ArgA) (s : State) : exec (.ret x) s = execRet x s := rfl
theorem exec_done (x : ArgG) (s : State) : exec (.done x) s = execDone x s := rfl
theorem exec_rdsr (x : ArgRdsr) (s : State) : exec (.rdsr x) s = execRdsr x s := rfl
theorem exec_wrsr (x : ArgWrsr) (s : State) : exec (.wrsr x) s = execWrsr x s := rfl
theorem exec_fadd (x : ArgFAr) (s : State) : exec (.fadd x) s = execFadd x s := rfl
theorem exec_fsub (x : ArgFAr) (s : State) : exec (.fsub x) s = execFsub x s := rfl
theorem exec_fmul (x : ArgFAr) (s : State) : exec (.fmul x) s = execFmul x s := rfl
theorem exec_fdiv (x : ArgFAr) (s : State) : exec (.fdiv x) s = execFdiv x s := rfl
theorem exec_fmin (x : ArgFAr) (s : State) : exec (.fmin x) s = execFmin x s := rfl
theorem exec_fmax (x : ArgFAr) (s : State) : exec (.fmax x) s = execFmax x s := rfl
theorem exec_fma (x : ArgFma) (s : State) : exec (.fma x) s = execFma x s := rfl
theorem exec_fsqrt (x : ArgFsqrt) (s : State) : exec (.fsqrt x) s = execFsqrt x s := rfl
theorem exec_fcmp (x : ArgFcmp) (s : State) : exec (.fcmp x) s = execFcmp x s := rfl
theorem exec_fcvt (x : ArgFcvt) (s : State) : exec (.fcvt x) s = execFcvt x s := rfl
theorem exec_fclass (x : ArgTDA) (s : State) : exec (.fclass x) s = execFclass x s := rfl
theorem exec_vadd (x : ArgV) (s : State) : exec (.vadd x) s = execVadd x s := rfl
theorem exec_vsub (x : ArgV) (s : State) : exec (.vsub x) s = execVsub x s := rfl
theorem exec_vmul (x : ArgV) (s : State) : exec (.vmul x) s = execVmul x s := rfl
theorem exec_vfma (x : ArgVfma) (s : State) : exec (.vfma x) s = execVfma x s := rfl
theorem exec_vmin (x : ArgV) (s : State) : exec (.vmin x) s = execVmin x s := rfl
theorem exec_vmax (x : ArgV) (s : State) : exec (.vmax x) s = execVmax x s := rfl
theorem exec_vabs (x : ArgVun) (s : State) : exec (.vabs x) s = execVabs x s := rfl
theorem exec_vneg (x : ArgVun) (s : State) : exec (.vneg x) s = execVneg x s := rfl
theorem exec_vand (x : ArgV) (s : State) : exec (.vand x) s = execVand x s := rfl
theorem exec_vor (x : ArgV) (s : State) : exec (.vor x) s = execVor x s := rfl
theorem exec_vxor (x : ArgV) (s : State) : exec (.vxor x) s = execVxor x s := rfl
theorem exec_vshl (x : ArgV) (s : State) : exec (.vshl x) s = execVshl x s := rfl
theorem exec_vshr (x : ArgV) (s : State) : exec (.vshr x) s = execVshr x s := rfl
theorem exec_vsra (x : ArgV) (s : State) : exec (.vsra x) s = execVsra x s := rfl
theorem exec_vcmp (x : ArgVcmp) (s : State) : exec (.vcmp x) s = execVcmp x s := rfl
theorem exec_vsel (x : ArgVsel) (s : State) : exec (.vsel x) s = execVsel x s := rfl
theorem exec_vcvt (x : ArgVcvt) (s : State) : exec (.vcvt x) s = execVcvt x s := rfl
theorem exec_vexpand (x : ArgVexp) (s : State) : exec (.vexpand x) s = execVexpand x s := rfl
theorem exec_vrcp (x : ArgVV) (s : State) : exec (.vrcp x) s = execVrcp x s := rfl
theorem exec_vrsqrt (x : ArgVV) (s : State) : exec (.vrsqrt x) s = execVrsqrt x s := rfl
theorem exec_vexp2 (x : ArgVV) (s : State) : exec (.vexp2 x) s = execVexp2 x s := rfl
theorem exec_vlog2 (x : ArgVV) (s : State) : exec (.vlog2 x) s = execVlog2 x s := rfl
theorem exec_vredsum (x : ArgVred) (s : State) : exec (.vredsum x) s = execVredsum x s := rfl
theorem exec_vredmax (x : ArgVred) (s : State) : exec (.vredmax x) s = execVredmax x s := rfl
theorem exec_vdot (x : ArgVdot) (s : State) : exec (.vdot x) s = execVdot x s := rfl
theorem exec_vsplat (x : ArgVsplat) (s : State) : exec (.vsplat x) s = execVsplat x s := rfl
theorem exec_vperm (x : ArgVperm) (s : State) : exec (.vperm x) s = execVperm x s := rfl
theorem exec_vidx (x : ArgVidx) (s : State) : exec (.vidx x) s = execVidx x s := rfl
theorem exec_vmovs (x : ArgVmovs) (s : State) : exec (.vmovs x) s = execVmovs x s := rfl
theorem exec_vqnt (x : ArgVq) (s : State) : exec (.vqnt x) s = execVqnt x s := rfl
theorem exec_vdqnt (x : ArgVq) (s : State) : exec (.vdqnt x) s = execVdqnt x s := rfl
theorem exec_vscacc (x : ArgVscacc) (s : State) : exec (.vscacc x) s = execVscacc x s := rfl
theorem exec_ldtab (x : ArgLdtab) (s : State) : exec (.ldtab x) s = execLdtab x s := rfl
theorem exec_mma (x : ArgMma) (s : State) : exec (.mma x) s = execMma x s := rfl
theorem exec_accz (x : ArgAccz) (s : State) : exec (.accz x) s = execAccz x s := rfl
theorem exec_accsc (x : ArgAccsc) (s : State) : exec (.accsc x) s = execAccsc x s := rfl
theorem exec_accst (x : ArgAccmv) (s : State) : exec (.accst x) s = execAccst x s := rfl
theorem exec_accld (x : ArgAccmv) (s : State) : exec (.accld x) s = execAccld x s := rfl
theorem exec_accrd (x : ArgAccrd) (s : State) : exec (.accrd x) s = execAccrd x s := rfl
theorem exec_accwr (x : ArgAccwr) (s : State) : exec (.accwr x) s = execAccwr x s := rfl
theorem exec_ld (x : ArgLd) (s : State) : exec (.ld x) s = execLd x s := rfl
theorem exec_st (x : ArgLd) (s : State) : exec (.st x) s = execSt x s := rfl
theorem exec_ldc (x : ArgLd) (s : State) : exec (.ldc x) s = execLdc x s := rfl
theorem exec_vld (x : ArgVld) (s : State) : exec (.vld x) s = execVld x s := rfl
theorem exec_vst (x : ArgVld) (s : State) : exec (.vst x) s = execVst x s := rfl
theorem exec_vldc (x : ArgVld) (s : State) : exec (.vldc x) s = execVldc x s := rfl
theorem exec_vgat (x : ArgVgat) (s : State) : exec (.vgat x) s = execVgat x s := rfl
theorem exec_vsca (x : ArgVgat) (s : State) : exec (.vsca x) s = execVsca x s := rfl
theorem exec_talloc (x : ArgDABi) (s : State) : exec (.talloc x) s = execTalloc x s := rfl
theorem exec_tallocTry (x : ArgSel) (s : State) : exec (.tallocTry x) s = execTallocTry x s := rfl
theorem exec_tseal (x : ArgABi) (s : State) : exec (.tseal x) s = execTseal x s := rfl
theorem exec_tdrop (x : ArgA) (s : State) : exec (.tdrop x) s = execTdrop x s := rfl
theorem exec_tcount (x : ArgDA) (s : State) : exec (.tcount x) s = execTcount x s := rfl
theorem exec_poolcfg (x : ArgPoolcfg) (s : State) : exec (.poolcfg x) s = execPoolcfg x s := rfl
theorem exec_poolst (x : ArgPoolst) (s : State) : exec (.poolst x) s = execPoolst x s := rfl
theorem exec_send (x : ArgSend) (s : State) : exec (.send x) s = execSend x s := rfl
theorem exec_sendLay (x : ArgSend) (s : State) : exec (.sendLay x) s = execSendLay x s := rfl
theorem exec_sendt (x : ArgSendt) (s : State) : exec (.sendt x) s = execSendt x s := rfl
theorem exec_fill (x : ArgFill) (s : State) : exec (.fill x) s = execFill x s := rfl
theorem exec_fillLay (x : ArgFill) (s : State) : exec (.fillLay x) s = execFillLay x s := rfl
theorem exec_wait (x : ArgWait) (s : State) : exec (.wait x) s = execWait x s := rfl
theorem exec_sbstat (x : ArgSbstat) (s : State) : exec (.sbstat x) s = execSbstat x s := rfl
theorem exec_fence (x : ArgFence) (s : State) : exec (.fence x) s = execFence x s := rfl
theorem exec_ldsc (x : ArgLdsc) (s : State) : exec (.ldsc x) s = execLdsc x s := rfl
theorem exec_stsc (x : ArgLdsc) (s : State) : exec (.stsc x) s = execStsc x s := rfl
theorem exec_xlatR (x : ArgDA) (s : State) : exec (.xlatR x) s = execXlatR x s := rfl
theorem exec_xlatW (x : ArgDA) (s : State) : exec (.xlatW x) s = execXlatW x s := rfl
theorem exec_xlatSet0 (x : ArgDA) (s : State) : exec (.xlatSet0 x) s = execXlatSet0 x s := rfl
theorem exec_xlatSet1 (x : ArgDA) (s : State) : exec (.xlatSet1 x) s = execXlatSet1 x s := rfl
theorem exec_tinvAll (x : ArgG) (s : State) : exec (.tinvAll x) s = execTinvAll x s := rfl
theorem exec_tinvAsid (x : ArgA) (s : State) : exec (.tinvAsid x) s = execTinvAsid x s := rfl
theorem exec_tinvPage (x : ArgAB) (s : State) : exec (.tinvPage x) s = execTinvPage x s := rfl
theorem exec_keysetInst (x : ArgDA) (s : State) : exec (.keysetInst x) s = execKeysetInst x s := rfl
theorem exec_keysetRet (x : ArgDA) (s : State) : exec (.keysetRet x) s = execKeysetRet x s := rfl
theorem exec_keysetSt (x : ArgDA) (s : State) : exec (.keysetSt x) s = execKeysetSt x s := rfl
theorem exec_spawn (x : ArgSpawn) (s : State) : exec (.spawn x) s = execSpawn x s := rfl
theorem exec_callat (x : ArgCallat) (s : State) : exec (.callat x) s = execCallat x s := rfl
theorem exec_reply (x : ArgA) (s : State) : exec (.reply x) s = execReply x s := rfl
theorem exec_jnew (x : ArgDABi) (s : State) : exec (.jnew x) s = execJnew x s := rfl
theorem exec_jdec (x : ArgABi) (s : State) : exec (.jdec x) s = execJdec x s := rfl
theorem exec_fnew (x : ArgDA) (s : State) : exec (.fnew x) s = execFnew x s := rfl
theorem exec_fres (x : ArgFres) (s : State) : exec (.fres x) s = execFres x s := rfl
theorem exec_freg (x : ArgDAB) (s : State) : exec (.freg x) s = execFreg x s := rfl
theorem exec_tid (x : ArgTid) (s : State) : exec (.tid x) s = execTid x s := rfl
theorem exec_rgnactNew (x : ArgDAB) (s : State) : exec (.rgnactNew x) s = execRgnactNew x s := rfl
theorem exec_rgnactPark (x : ArgDA) (s : State) : exec (.rgnactPark x) s = execRgnactPark x s := rfl
theorem exec_rgnactResume (x : ArgDA) (s : State) : exec (.rgnactResume x) s = execRgnactResume x s := rfl
theorem exec_rgnactQuiet (x : ArgDA) (s : State) : exec (.rgnactQuiet x) s = execRgnactQuiet x s := rfl
theorem exec_rgnkillKill (x : ArgDA) (s : State) : exec (.rgnkillKill x) s = execRgnkillKill x s := rfl
theorem exec_rgnkillExit (x : ArgDA) (s : State) : exec (.rgnkillExit x) s = execRgnkillExit x s := rfl
theorem exec_budgetRd (x : ArgD) (s : State) : exec (.budgetRd x) s = execBudgetRd x s := rfl
theorem exec_budgetExt (x : ArgD) (s : State) : exec (.budgetExt x) s = execBudgetExt x s := rfl
theorem exec_put (x : ArgPut) (s : State) : exec (.put x) s = execPut x s := rfl
theorem exec_get (x : ArgGet) (s : State) : exec (.get x) s = execGet x s := rfl
theorem exec_alt (x : ArgAlt) (s : State) : exec (.alt x) s = execAlt x s := rfl
theorem exec_pbind (x : ArgPbind) (s : State) : exec (.pbind x) s = execPbind x s := rfl
theorem exec_portst (x : ArgPortst) (s : State) : exec (.portst x) s = execPortst x s := rfl
theorem exec_cload (x : ArgDAB) (s : State) : exec (.cload x) s = execCload x s := rfl
theorem exec_cdrop (x : ArgDA) (s : State) : exec (.cdrop x) s = execCdrop x s := rfl
theorem exec_cstat (x : ArgCstat) (s : State) : exec (.cstat x) s = execCstat x s := rfl
theorem exec_amsg (x : ArgAmsg) (s : State) : exec (.amsg x) s = execAmsg x s := rfl
theorem exec_htabSet (x : ArgHtab) (s : State) : exec (.htabSet x) s = execHtabSet x s := rfl
theorem exec_htabClr (x : ArgHtab) (s : State) : exec (.htabClr x) s = execHtabClr x s := rfl
theorem exec_htabEpnew (x : ArgD) (s : State) : exec (.htabEpnew x) s = execHtabEpnew x s := rfl
theorem exec_htabEpdel (x : ArgDA) (s : State) : exec (.htabEpdel x) s = execHtabEpdel x s := rfl
theorem exec_htabRd (x : ArgHtab) (s : State) : exec (.htabRd x) s = execHtabRd x s := rfl
theorem exec_aadd (x : ArgAtom) (s : State) : exec (.aadd x) s = execAadd x s := rfl
theorem exec_aand (x : ArgAtom) (s : State) : exec (.aand x) s = execAand x s := rfl
theorem exec_aor (x : ArgAtom) (s : State) : exec (.aor x) s = execAor x s := rfl
theorem exec_axor (x : ArgAtom) (s : State) : exec (.axor x) s = execAxor x s := rfl
theorem exec_amax (x : ArgAtom) (s : State) : exec (.amax x) s = execAmax x s := rfl
theorem exec_amin (x : ArgAtom) (s : State) : exec (.amin x) s = execAmin x s := rfl
theorem exec_aswp (x : ArgAtom) (s : State) : exec (.aswp x) s = execAswp x s := rfl
theorem exec_acas (x : ArgAtom) (s : State) : exec (.acas x) s = execAcas x s := rfl
theorem exec_epmov (x : ArgDAB) (s : State) : exec (.epmov x) s = execEpmov x s := rfl
theorem exec_epparkPark (x : ArgDA) (s : State) : exec (.epparkPark x) s = execEpparkPark x s := rfl
theorem exec_epparkResume (x : ArgDA) (s : State) : exec (.epparkResume x) s = execEpparkResume x s := rfl
theorem exec_barv (x : ArgBarv) (s : State) : exec (.barv x) s = execBarv x s := rfl
theorem exec_barw (x : ArgDA) (s : State) : exec (.barw x) s = execBarw x s := rfl
theorem exec_redp (x : ArgRedp) (s : State) : exec (.redp x) s = execRedp x s := rfl
theorem exec_redg (x : ArgRedg) (s : State) : exec (.redg x) s = execRedg x s := rfl
theorem exec_bcfgSet (x : ArgBcfg) (s : State) : exec (.bcfgSet x) s = execBcfgSet x s := rfl
theorem exec_bcfgFree (x : ArgBcfg) (s : State) : exec (.bcfgFree x) s = execBcfgFree x s := rfl
theorem exec_bcfgBrk (x : ArgBcfg) (s : State) : exec (.bcfgBrk x) s = execBcfgBrk x s := rfl
theorem exec_bcfgRd (x : ArgBcfg) (s : State) : exec (.bcfgRd x) s = execBcfgRd x s := rfl
theorem exec_rcfgSet (x : ArgRcfg) (s : State) : exec (.rcfgSet x) s = execRcfgSet x s := rfl
theorem exec_rcfgFree (x : ArgRcfg) (s : State) : exec (.rcfgFree x) s = execRcfgFree x s := rfl
theorem exec_rcfgBrk (x : ArgRcfg) (s : State) : exec (.rcfgBrk x) s = execRcfgBrk x s := rfl
theorem exec_rcfgRd (x : ArgRcfg) (s : State) : exec (.rcfgRd x) s = execRcfgRd x s := rfl
theorem exec_trapCall (x : ArgCode) (s : State) : exec (.trapCall x) s = execTrapCall x s := rfl
theorem exec_trapRing (x : ArgTrapRing) (s : State) : exec (.trapRing x) s = execTrapRing x s := rfl
theorem exec_eret (x : ArgG) (s : State) : exec (.eret x) s = execEret x s := rfl
theorem exec_brk (x : ArgCode) (s : State) : exec (.brk x) s = execBrk x s := rfl
theorem exec_rfill (x : ArgRfill) (s : State) : exec (.rfill x) s = execRfill x s := rfl
theorem exec_rretry (x : ArgDA) (s : State) : exec (.rretry x) s = execRretry x s := rfl
theorem exec_rretryCtx (x : ArgD) (s : State) : exec (.rretryCtx x) s = execRretryCtx x s := rfl
theorem exec_rskip (x : ArgDA) (s : State) : exec (.rskip x) s = execRskip x s := rfl
theorem exec_rkillEnt (x : ArgDA) (s : State) : exec (.rkillEnt x) s = execRkillEnt x s := rfl
theorem exec_rkillCtx (x : ArgD) (s : State) : exec (.rkillCtx x) s = execRkillCtx x s := rfl
theorem exec_frzRgn (x : ArgDA) (s : State) : exec (.frzRgn x) s = execFrzRgn x s := rfl
theorem exec_frzRd (x : ArgDA) (s : State) : exec (.frzRd x) s = execFrzRd x s := rfl
theorem exec_hpostHead (x : ArgDAB) (s : State) : exec (.hpostHead x) s = execHpostHead x s := rfl
theorem exec_hpostDone (x : ArgDAB) (s : State) : exec (.hpostDone x) s = execHpostDone x s := rfl
theorem exec_hpollTail (x : ArgDA) (s : State) : exec (.hpollTail x) s = execHpollTail x s := rfl
theorem exec_hpollHead (x : ArgDA) (s : State) : exec (.hpollHead x) s = execHpollHead x s := rfl
theorem exec_hpollDone (x : ArgDA) (s : State) : exec (.hpollDone x) s = execHpollDone x s := rfl
theorem exec_hpollWait (x : ArgDAB) (s : State) : exec (.hpollWait x) s = execHpollWait x s := rfl
theorem exec_lkrotRot (x : ArgDA) (s : State) : exec (.lkrotRot x) s = execLkrotRot x s := rfl
theorem exec_lkrotSt (x : ArgDA) (s : State) : exec (.lkrotSt x) s = execLkrotSt x s := rfl
theorem exec_ngloadLoad (req : LoadReq) (s : State) : exec (.ngloadLoad req) s = execNgloadLoad req s := rfl
theorem exec_tenantCreate (req : TenantReq) (s : State) : exec (.tenantCreate req) s = execTenantCreate req s := rfl
theorem exec_placerDecision (die : Nat) (s : State) : exec (.placerDecision die) s = execPlacerDecision die s := rfl
theorem exec_placerAging (die : Nat) (s : State) : exec (.placerAging die) s = execPlacerAging die s := rfl
theorem exec_preemptionRequest (req : PreemptReq) (s : State) : exec (.preemptionRequest req) s = execPreemptionRequest req s := rfl
theorem exec_abandonedTile (cell : Nat) (pool : Nat) (tile : Nat) (s : State) : exec (.abandonedTile cell pool tile) s = execAbandonedTile cell pool tile s := rfl
theorem exec_stallWatchdog (region : Nat) (s : State) : exec (.stallWatchdog region) s = execStallWatchdog region s := rfl
theorem exec_stageGovernor (cell : Nat) (slot : Nat) (s : State) : exec (.stageGovernor cell slot) s = execStageGovernor cell slot s := rfl
theorem exec_barrierRelease (inst : Nat) (s : State) : exec (.barrierRelease inst) s = execBarrierRelease inst s := rfl
theorem exec_reductionResult (red : Nat) (s : State) : exec (.reductionResult red) s = execReductionResult red s := rfl
theorem exec_walkComplete (die : Nat) (column : Nat) (walk : Nat) (s : State) : exec (.walkComplete die column walk) s = execWalkComplete die column walk s := rfl
theorem exec_keySlotEmpty (slot : Nat) (s : State) : exec (.keySlotEmpty slot) s = execKeySlotEmpty slot s := rfl
theorem exec_thaw (region : Nat) (s : State) : exec (.thaw region) s = execThaw region s := rfl
theorem exec_scrub (region : Nat) (s : State) : exec (.scrub region) s = execScrub region s := rfl
theorem exec_copyTokenRefill (region : Nat) (cell : Nat) (s : State) : exec (.copyTokenRefill region cell) s = execCopyTokenRefill region cell s := rfl
theorem exec_waleGroupReceive (grp : WaleGroup) (s : State) : exec (.waleGroupReceive grp) s = execWaleGroupReceive grp s := rfl
theorem exec_waleResendTimeout (link : Nat) (s : State) : exec (.waleResendTimeout link) s = execWaleResendTimeout link s := rfl
theorem exec_waleRetrainComplete (link : Nat) (s : State) : exec (.waleRetrainComplete link) s = execWaleRetrainComplete link s := rfl
theorem exec_waleDownTimeout (link : Nat) (s : State) : exec (.waleDownTimeout link) s = execWaleDownTimeout link s := rfl
theorem exec_rotationKeyInstall (link : Nat) (s : State) : exec (.rotationKeyInstall link) s = execRotationKeyInstall link s := rfl
theorem exec_rotationSwitch (link : Nat) (s : State) : exec (.rotationSwitch link) s = execRotationSwitch link s := rfl
theorem exec_rotationRetire (link : Nat) (s : State) : exec (.rotationRetire link) s = execRotationRetire link s := rfl
theorem exec_notifyWrite (vf addr : Nat) (req : NotifyReq) (s : State) : exec (.notifyWrite vf addr req) s = execNotifyWrite vf addr req s := rfl
theorem exec_channelUnmap (vf : Nat) (chan : Nat) (s : State) : exec (.channelUnmap vf chan) s = execChannelUnmap vf chan s := rfl
theorem exec_channelMap (req : ChanReq) (s : State) : exec (.channelMap req) s = execChannelMap req s := rfl
theorem exec_hostRequest (req : HostReq) (s : State) : exec (.hostRequest req) s = execHostRequest req s := rfl
theorem exec_spdmRequest (req : SpdmReq) (s : State) : exec (.spdmRequest req) s = execSpdmRequest req s := rfl
theorem exec_moduleReset (boot : BootInput) (s : State) : exec (.moduleReset boot) s = execModuleReset boot s := rfl
theorem exec_imageCommit (req : CommitReq) (s : State) : exec (.imageCommit req) s = execImageCommit req s := rfl
theorem exec_powerSample (milliwatts : Nat) (milliamps : Nat) (s : State) : exec (.powerSample milliwatts milliamps) s = execPowerSample milliwatts milliamps s := rfl
theorem exec_routerPowerGate (die : Nat) (pos : Nat) (s : State) : exec (.routerPowerGate die pos) s = execRouterPowerGate die pos s := rfl
theorem exec_routerWake (die : Nat) (pos : Nat) (s : State) : exec (.routerWake die pos) s = execRouterWake die pos s := rfl
theorem exec_vaultTemperature (vault : Nat) (celsius : Nat) (s : State) : exec (.vaultTemperature vault celsius) s = execVaultTemperature vault celsius s := rfl
theorem exec_tenantTeardown (region : Nat) (s : State) : exec (.tenantTeardown region) s = execTenantTeardown region s := rfl
theorem exec_isolationPartitionConfigure (req : PartReq) (s : State) : exec (.isolationPartitionConfigure req) s = execIsolationPartitionConfigure req s := rfl
theorem exec_fetchQueueFill (s : State) : exec .fetchQueueFill s = execFetchQueueFill s := rfl
theorem exec_dispatch (s : State) : exec .dispatch s = execDispatch s := rfl
theorem exec_readyRecordArrival (s : State) : exec .readyRecordArrival s = execReadyRecordArrival s := rfl
theorem exec_budget (s : State) : exec .budget s = execBudget s := rfl
theorem exec_budgetHardLimit (s : State) : exec .budgetHardLimit s = execBudgetHardLimit s := rfl
theorem exec_trapEntry (s : State) : exec .trapEntry s = execTrapEntry s := rfl
theorem exec_asynchronousTrap (s : State) : exec .asynchronousTrap s = execAsynchronousTrap s := rfl
theorem exec_supervisorRunCap (s : State) : exec .supervisorRunCap s = execSupervisorRunCap s := rfl
theorem exec_handlerRun (s : State) : exec .handlerRun s = execHandlerRun s := rfl
theorem exec_handlerCap (s : State) : exec .handlerCap s = execHandlerCap s := rfl
theorem exec_tileOpStart (s : State) : exec .tileOpStart s = execTileOpStart s := rfl
theorem exec_tileOpRetire (s : State) : exec .tileOpRetire s = execTileOpRetire s := rfl
theorem exec_copyStart (s : State) : exec .copyStart s = execCopyStart s := rfl
theorem exec_copyChunkArrival (s : State) : exec .copyChunkArrival s = execCopyChunkArrival s := rfl
theorem exec_copyAcknowledgement (s : State) : exec .copyAcknowledgement s = execCopyAcknowledgement s := rfl
theorem exec_copyRetire (s : State) : exec .copyRetire s = execCopyRetire s := rfl
theorem exec_tallocRequestArrival (s : State) : exec .tallocRequestArrival s = execTallocRequestArrival s := rfl
theorem exec_tallocCancel (s : State) : exec .tallocCancel s = execTallocCancel s := rfl
theorem exec_grantReplyArrival (s : State) : exec .grantReplyArrival s = execGrantReplyArrival s := rfl
theorem exec_handleOperationArrival (s : State) : exec .handleOperationArrival s = execHandleOperationArrival s := rfl
theorem exec_jdecArrival (s : State) : exec .jdecArrival s = execJdecArrival s := rfl
theorem exec_fresArrival (s : State) : exec .fresArrival s = execFresArrival s := rfl
theorem exec_fregArrival (s : State) : exec .fregArrival s = execFregArrival s := rfl
theorem exec_ownerReplyArrival (s : State) : exec .ownerReplyArrival s = execOwnerReplyArrival s := rfl
theorem exec_messageArrival (s : State) : exec .messageArrival s = execMessageArrival s := rfl
theorem exec_returnedMessageArrival (s : State) : exec .returnedMessageArrival s = execReturnedMessageArrival s := rfl
theorem exec_messageInjection (s : State) : exec .messageInjection s = execMessageInjection s := rfl
theorem exec_atomicResultArrival (s : State) : exec .atomicResultArrival s = execAtomicResultArrival s := rfl
theorem exec_peerAccessArrival (s : State) : exec .peerAccessArrival s = execPeerAccessArrival s := rfl
theorem exec_peerAbsentReturn (s : State) : exec .peerAbsentReturn s = execPeerAbsentReturn s := rfl
theorem exec_offerArrival (s : State) : exec .offerArrival s = execOfferArrival s := rfl
theorem exec_decide (s : State) : exec .decide s = execDecide s := rfl
theorem exec_fifoItemArrival (s : State) : exec .fifoItemArrival s = execFifoItemArrival s := rfl
theorem exec_hubCancelArrival (s : State) : exec .hubCancelArrival s = execHubCancelArrival s := rfl
theorem exec_portCompletionArrival (s : State) : exec .portCompletionArrival s = execPortCompletionArrival s := rfl
theorem exec_reductionCombine (s : State) : exec .reductionCombine s = execReductionCombine s := rfl
theorem exec_reductionPartialArrival (s : State) : exec .reductionPartialArrival s = execReductionPartialArrival s := rfl
theorem exec_scAnnouncementArrival (s : State) : exec .scAnnouncementArrival s = execScAnnouncementArrival s := rfl
theorem exec_windowClose (s : State) : exec .windowClose s = execWindowClose s := rfl
theorem exec_stationRequest (s : State) : exec .stationRequest s = execStationRequest s := rfl
theorem exec_ringEntryFreed (s : State) : exec .ringEntryFreed s = execRingEntryFreed s := rfl
theorem exec_writePerformedAtHome (s : State) : exec .writePerformedAtHome s = execWritePerformedAtHome s := rfl
theorem exec_loadValueReturned (s : State) : exec .loadValueReturned s = execLoadValueReturned s := rfl
theorem exec_pbindRequestArrival (s : State) : exec .pbindRequestArrival s = execPbindRequestArrival s := rfl
theorem exec_epmovTargetArrival (s : State) : exec .epmovTargetArrival s = execEpmovTargetArrival s := rfl

end Sys2Proof.Machine
end

