-- ==== Sys2Proof/Laws/Fit.lean ====
section
/-! SUPPORT. The fields of every encoding stand in their widths (R33 to R41), and the fields of a word whose fields stand in their
widths are read back from the word. -/
set_option maxRecDepth 4000
set_option linter.unusedSimpArgs false
set_option linter.unusedVariables false
namespace Sys2Proof
/-- The fields of a word stand in their widths (R33 to R41). -/
def Raw.fits : Raw → Prop
  | .reg f => f.major < 2 ^ 8 ∧ f.fn < 2 ^ 8 ∧ f.gn < 2 ∧ f.gp < 2 ^ 3 ∧ f.d < 2 ^ 7 ∧ f.a < 2 ^ 7 ∧ f.b < 2 ^ 7 ∧ f.c < 2 ^ 7
      ∧ f.ty < 2 ^ 4 ∧ f.rnd < 2 ^ 2 ∧ f.sat < 2 ∧ f.isel < 2 ∧ f.aux < 2 ^ 8 ∧ f.imm < 2 ^ 32
  | .imm f => f.major < 2 ^ 8 ∧ f.fn < 2 ^ 8 ∧ f.gn < 2 ∧ f.gp < 2 ^ 3 ∧ f.d < 2 ^ 7 ∧ f.ty < 2 ^ 4 ∧ f.res < 2 ^ 3 ∧ f.imm < 2 ^ 62
  | .mem f => f.major < 2 ^ 8 ∧ f.fn < 2 ^ 8 ∧ f.gn < 2 ∧ f.gp < 2 ^ 3 ∧ f.data < 2 ^ 7 ∧ f.base < 2 ^ 7 ∧ f.index < 2 ^ 7
      ∧ f.space < 2 ^ 3 ∧ f.size < 2 ^ 3 ∧ f.ord < 2 ^ 2 ∧ f.scope < 2 ^ 3 ∧ f.cons < 2 ∧ f.scale < 2 ^ 3 ∧ f.aux < 2 ^ 3 ∧ f.disp < 2 ^ 37
  | .br f => f.major < 2 ^ 8 ∧ f.fn < 2 ^ 8 ∧ f.gn < 2 ∧ f.gp < 2 ^ 3 ∧ f.a < 2 ^ 7 ∧ f.b < 2 ^ 7 ∧ f.res < 2 ^ 26 ∧ f.loff < 2 ^ 33
      ∧ f.slot < 2 ^ 3
  | .mat f => f.major < 2 ^ 8 ∧ f.fn < 2 ^ 8 ∧ f.gn < 2 ∧ f.gp < 2 ^ 3 ∧ f.d < 2 ^ 7 ∧ f.a < 2 ^ 7 ∧ f.b < 2 ^ 7 ∧ f.c < 2 ^ 7
      ∧ f.pairc < 2 ^ 4 ∧ f.mcode < 2 ^ 2 ∧ f.n6 < 2 ^ 6 ∧ f.ca < 2 ∧ f.cb < 2 ∧ f.cact < 2 ^ 3 ∧ f.acq < 2 ∧ f.rel < 2
      ∧ f.scope < 2 ^ 3 ∧ f.maux < 2 ^ 26
  | .asy f => f.major < 2 ^ 8 ∧ f.fn < 2 ^ 8 ∧ f.gn < 2 ∧ f.gp < 2 ^ 3 ∧ f.d < 2 ^ 7 ∧ f.a < 2 ^ 7 ∧ f.b < 2 ^ 7 ∧ f.c < 2 ^ 7
      ∧ f.dsp < 2 ^ 3 ∧ f.ssp < 2 ^ 3 ∧ f.cact < 2 ^ 3 ∧ f.acq < 2 ∧ f.rel < 2 ∧ f.scope < 2 ^ 3 ∧ f.cons < 2 ∧ f.res < 2
      ∧ f.imm < 2 ^ 32
/-- The format of a word. -/
def Raw.fmt : Raw → Fmt
  | .reg _ => .reg | .imm _ => .imm | .mem _ => .mem | .br _ => .br | .mat _ => .mat | .asy _ => .asy
/-- The major opcode of a word. -/
def Raw.major : Raw → Nat
  | .reg f => f.major | .imm f => f.major | .mem f => f.major | .br f => f.major | .mat f => f.major | .asy f => f.major
theorem RegF.unpack_pack (f : RegF) (h : (Raw.reg f).fits) : RegF.unpack f.pack = f := by
  rcases f with ⟨ma, fn, gn, gp, d, a, b, c, ty, rnd, sat, isel, aux, imm⟩
  simp only [Raw.fits] at h
  simp only [RegF.unpack, RegF.pack, packHead, slice, RegF.mk.injEq]
  omega
theorem ImmF.unpack_pack (f : ImmF) (h : (Raw.imm f).fits) : ImmF.unpack f.pack = f := by
  rcases f with ⟨ma, fn, gn, gp, d, ty, res, imm⟩
  simp only [Raw.fits] at h
  simp only [ImmF.unpack, ImmF.pack, packHead, slice, ImmF.mk.injEq]
  omega
theorem MemF.unpack_pack (f : MemF) (h : (Raw.mem f).fits) : MemF.unpack f.pack = f := by
  rcases f with ⟨ma, fn, gn, gp, d, a, b, c, ty, rnd, sat, isel, aux, imm, q⟩
  simp only [Raw.fits] at h
  simp only [MemF.unpack, MemF.pack, packHead, slice, MemF.mk.injEq]
  omega
theorem BrF.unpack_pack (f : BrF) (h : (Raw.br f).fits) : BrF.unpack f.pack = f := by
  rcases f with ⟨ma, fn, gn, gp, d, a, b, c, ty⟩
  simp only [Raw.fits] at h
  simp only [BrF.unpack, BrF.pack, packHead, slice, BrF.mk.injEq]
  omega
theorem MatF.unpack_pack (f : MatF) (h : (Raw.mat f).fits) : MatF.unpack f.pack = f := by
  rcases f with ⟨ma, fn, gn, gp, d, a, b, c, ty, rnd, sat, isel, aux, imm, q, r, t, u⟩
  simp only [Raw.fits] at h
  simp only [MatF.unpack, MatF.pack, packHead, slice, MatF.mk.injEq]
  omega
theorem AsyF.unpack_pack (f : AsyF) (h : (Raw.asy f).fits) : AsyF.unpack f.pack = f := by
  rcases f with ⟨ma, fn, gn, gp, d, a, b, c, ty, rnd, sat, isel, aux, imm, q, r, t⟩
  simp only [Raw.fits] at h
  simp only [AsyF.unpack, AsyF.pack, packHead, slice, AsyF.mk.injEq]
  omega
/-- The low k bits of a word. -/
def lowBits (w k : Nat) : Nat := w % 2 ^ k
theorem slice_add (w k n m : Nat) (hm : k + n = m) : slice w k n * 2 ^ k + lowBits w k = lowBits w m := by
  subst hm
  rw [lowBits, lowBits, slice, Nat.pow_add, Nat.mod_mul, Nat.mul_comm]
  omega
theorem RegF.pack_unpack (w : Nat) (h : w < 2 ^ 96) : (RegF.unpack w).pack = w := by
  simp only [RegF.pack, RegF.unpack, packHead]
  have h0 := slice_add w 0 32 32 rfl
  have h32 := slice_add w 32 8 40 rfl
  have h40 := slice_add w 40 1 41 rfl
  have h41 := slice_add w 41 1 42 rfl
  have h42 := slice_add w 42 2 44 rfl
  have h44 := slice_add w 44 4 48 rfl
  have h48 := slice_add w 48 7 55 rfl
  have h55 := slice_add w 55 7 62 rfl
  have h62 := slice_add w 62 7 69 rfl
  have h69 := slice_add w 69 7 76 rfl
  have h76 := slice_add w 76 3 79 rfl
  have h79 := slice_add w 79 1 80 rfl
  have h80 := slice_add w 80 8 88 rfl
  have h88 := slice_add w 88 8 96 rfl
  have h97 : lowBits w 96 = w := Nat.mod_eq_of_lt h
  have hz : lowBits w 0 = 0 := Nat.mod_one w
  clear h
  generalize slice w = s at *
  generalize lowBits w = l at *
  rw [← h97, ← h88, ← h80, ← h79, ← h76, ← h69, ← h62, ← h55, ← h48, ← h44, ← h42, ← h41, ← h40, ← h32, ← h0, hz]
  simp only [Nat.add_assoc, Nat.add_zero, Nat.pow_zero, Nat.mul_one]
theorem ImmF.pack_unpack (w : Nat) (h : w < 2 ^ 96) : (ImmF.unpack w).pack = w := by
  simp only [ImmF.pack, ImmF.unpack, packHead]
  have h0 := slice_add w 0 62 62 rfl
  have h62 := slice_add w 62 3 65 rfl
  have h65 := slice_add w 65 4 69 rfl
  have h69 := slice_add w 69 7 76 rfl
  have h76 := slice_add w 76 3 79 rfl
  have h79 := slice_add w 79 1 80 rfl
  have h80 := slice_add w 80 8 88 rfl
  have h88 := slice_add w 88 8 96 rfl
  have h97 : lowBits w 96 = w := Nat.mod_eq_of_lt h
  have hz : lowBits w 0 = 0 := Nat.mod_one w
  clear h
  generalize slice w = s at *
  generalize lowBits w = l at *
  rw [← h97, ← h88, ← h80, ← h79, ← h76, ← h69, ← h65, ← h62, ← h0, hz]
  simp only [Nat.add_assoc, Nat.add_zero, Nat.pow_zero, Nat.mul_one]
theorem MemF.pack_unpack (w : Nat) (h : w < 2 ^ 96) : (MemF.unpack w).pack = w := by
  simp only [MemF.pack, MemF.unpack, packHead]
  have h0 := slice_add w 0 37 37 rfl
  have h37 := slice_add w 37 3 40 rfl
  have h40 := slice_add w 40 3 43 rfl
  have h43 := slice_add w 43 1 44 rfl
  have h44 := slice_add w 44 3 47 rfl
  have h47 := slice_add w 47 2 49 rfl
  have h49 := slice_add w 49 3 52 rfl
  have h52 := slice_add w 52 3 55 rfl
  have h55 := slice_add w 55 7 62 rfl
  have h62 := slice_add w 62 7 69 rfl
  have h69 := slice_add w 69 7 76 rfl
  have h76 := slice_add w 76 3 79 rfl
  have h79 := slice_add w 79 1 80 rfl
  have h80 := slice_add w 80 8 88 rfl
  have h88 := slice_add w 88 8 96 rfl
  have h97 : lowBits w 96 = w := Nat.mod_eq_of_lt h
  have hz : lowBits w 0 = 0 := Nat.mod_one w
  clear h
  generalize slice w = s at *
  generalize lowBits w = l at *
  rw [← h97, ← h88, ← h80, ← h79, ← h76, ← h69, ← h62, ← h55, ← h52, ← h49, ← h47, ← h44, ← h43, ← h40, ← h37, ← h0, hz]
  simp only [Nat.add_assoc, Nat.add_zero, Nat.pow_zero, Nat.mul_one]
theorem BrF.pack_unpack (w : Nat) (h : w < 2 ^ 96) : (BrF.unpack w).pack = w := by
  simp only [BrF.pack, BrF.unpack, packHead]
  have h0 := slice_add w 0 3 3 rfl
  have h3 := slice_add w 3 33 36 rfl
  have h36 := slice_add w 36 26 62 rfl
  have h62 := slice_add w 62 7 69 rfl
  have h69 := slice_add w 69 7 76 rfl
  have h76 := slice_add w 76 3 79 rfl
  have h79 := slice_add w 79 1 80 rfl
  have h80 := slice_add w 80 8 88 rfl
  have h88 := slice_add w 88 8 96 rfl
  have h97 : lowBits w 96 = w := Nat.mod_eq_of_lt h
  have hz : lowBits w 0 = 0 := Nat.mod_one w
  clear h
  generalize slice w = s at *
  generalize lowBits w = l at *
  rw [← h97, ← h88, ← h80, ← h79, ← h76, ← h69, ← h62, ← h36, ← h3, ← h0, hz]
  simp only [Nat.add_assoc, Nat.add_zero, Nat.pow_zero, Nat.mul_one]
theorem MatF.pack_unpack (w : Nat) (h : w < 2 ^ 96) : (MatF.unpack w).pack = w := by
  simp only [MatF.pack, MatF.unpack, packHead]
  have h0 := slice_add w 0 26 26 rfl
  have h26 := slice_add w 26 3 29 rfl
  have h29 := slice_add w 29 1 30 rfl
  have h30 := slice_add w 30 1 31 rfl
  have h31 := slice_add w 31 3 34 rfl
  have h34 := slice_add w 34 1 35 rfl
  have h35 := slice_add w 35 1 36 rfl
  have h36 := slice_add w 36 6 42 rfl
  have h42 := slice_add w 42 2 44 rfl
  have h44 := slice_add w 44 4 48 rfl
  have h48 := slice_add w 48 7 55 rfl
  have h55 := slice_add w 55 7 62 rfl
  have h62 := slice_add w 62 7 69 rfl
  have h69 := slice_add w 69 7 76 rfl
  have h76 := slice_add w 76 3 79 rfl
  have h79 := slice_add w 79 1 80 rfl
  have h80 := slice_add w 80 8 88 rfl
  have h88 := slice_add w 88 8 96 rfl
  have h97 : lowBits w 96 = w := Nat.mod_eq_of_lt h
  have hz : lowBits w 0 = 0 := Nat.mod_one w
  clear h
  generalize slice w = s at *
  generalize lowBits w = l at *
  rw [← h97, ← h88, ← h80, ← h79, ← h76, ← h69, ← h62, ← h55, ← h48, ← h44, ← h42, ← h36, ← h35, ← h34, ← h31, ← h30, ← h29, ← h26, ← h0, hz]
  simp only [Nat.add_assoc, Nat.add_zero, Nat.pow_zero, Nat.mul_one]
theorem AsyF.pack_unpack (w : Nat) (h : w < 2 ^ 96) : (AsyF.unpack w).pack = w := by
  simp only [AsyF.pack, AsyF.unpack, packHead]
  have h0 := slice_add w 0 32 32 rfl
  have h32 := slice_add w 32 1 33 rfl
  have h33 := slice_add w 33 1 34 rfl
  have h34 := slice_add w 34 3 37 rfl
  have h37 := slice_add w 37 1 38 rfl
  have h38 := slice_add w 38 1 39 rfl
  have h39 := slice_add w 39 3 42 rfl
  have h42 := slice_add w 42 3 45 rfl
  have h45 := slice_add w 45 3 48 rfl
  have h48 := slice_add w 48 7 55 rfl
  have h55 := slice_add w 55 7 62 rfl
  have h62 := slice_add w 62 7 69 rfl
  have h69 := slice_add w 69 7 76 rfl
  have h76 := slice_add w 76 3 79 rfl
  have h79 := slice_add w 79 1 80 rfl
  have h80 := slice_add w 80 8 88 rfl
  have h88 := slice_add w 88 8 96 rfl
  have h97 : lowBits w 96 = w := Nat.mod_eq_of_lt h
  have hz : lowBits w 0 = 0 := Nat.mod_one w
  clear h
  generalize slice w = s at *
  generalize lowBits w = l at *
  rw [← h97, ← h88, ← h80, ← h79, ← h76, ← h69, ← h62, ← h55, ← h48, ← h45, ← h42, ← h39, ← h38, ← h37, ← h34, ← h33, ← h32, ← h0, hz]
  simp only [Nat.add_assoc, Nat.add_zero, Nat.pow_zero, Nat.mul_one]
/-- A word whose fields stand in their widths has 96 bits, and its top byte is the major opcode (R33). -/
theorem Raw.pack_head (r : Raw) (h : r.fits) : slice r.pack 88 8 = r.major ∧ r.pack < 2 ^ 96 := by
  cases r with
  | reg f => simp only [Raw.fits, Raw.pack, RegF.pack, packHead, slice, Raw.major] at *; omega
  | imm f => simp only [Raw.fits, Raw.pack, ImmF.pack, packHead, slice, Raw.major] at *; omega
  | mem f => simp only [Raw.fits, Raw.pack, MemF.pack, packHead, slice, Raw.major] at *; omega
  | br f => simp only [Raw.fits, Raw.pack, BrF.pack, packHead, slice, Raw.major] at *; omega
  | mat f => simp only [Raw.fits, Raw.pack, MatF.pack, packHead, slice, Raw.major] at *; omega
  | asy f => simp only [Raw.fits, Raw.pack, AsyF.pack, packHead, slice, Raw.major] at *; omega
/-- The fields of a word are read back from it. -/
theorem Raw.unpack_pack (r : Raw) (h : r.fits) (hm : fmtOf r.major = some r.fmt) : unpack r.pack = some r := by
  unfold unpack
  rw [(r.pack_head h).1, hm]
  cases r with
  | reg f => exact congrArg (fun x => some (Raw.reg x)) (f.unpack_pack h)
  | imm f => exact congrArg (fun x => some (Raw.imm x)) (f.unpack_pack h)
  | mem f => exact congrArg (fun x => some (Raw.mem x)) (f.unpack_pack h)
  | br f => exact congrArg (fun x => some (Raw.br x)) (f.unpack_pack h)
  | mat f => exact congrArg (fun x => some (Raw.mat x)) (f.unpack_pack h)
  | asy f => exact congrArg (fun x => some (Raw.asy x)) (f.unpack_pack h)
/-- A word of 96 bits is the word of the fields cut from it. -/
theorem Raw.pack_unpack (w : Nat) (r : Raw) (h : unpack w = some r) (hw : w < 2 ^ 96) : r.pack = w := by
  unfold unpack at h
  cases hf : fmtOf (slice w 88 8) with
  | none => rw [hf] at h; cases h
  | some f =>
    rw [hf] at h
    cases f <;> cases h
    · exact RegF.pack_unpack w hw
    · exact ImmF.pack_unpack w hw
    · exact MemF.pack_unpack w hw
    · exact BrF.pack_unpack w hw
    · exact MatF.pack_unpack w hw
    · exact AsyF.pack_unpack w hw
theorem Ty.code_lt (t : Ty) : t.code < 2 ^ 4 := by cases t <;> decide
theorem Rnd.code_lt (t : Rnd) : t.code < 2 ^ 2 := by cases t <;> decide
theorem Space.code_lt (t : Space) : t.code < 2 ^ 3 := by cases t <;> decide
theorem MOrd.code_lt (t : MOrd) : t.code < 2 ^ 2 := by cases t <;> decide
theorem Scope.code_lt (t : Scope) : t.code < 2 ^ 3 := by cases t <;> decide
theorem Cond.code_lt (t : Cond) : t.code < 2 ^ 8 := by cases t <;> decide
theorem FCond.code_lt (t : FCond) : t.code < 2 ^ 8 := by cases t <;> decide
theorem VCond.code_lt (t : VCond) : t.code < 2 ^ 8 := by
  cases t with
  | signed c | unsigned c => exact c.code_lt
  | float c => exact c.code_lt
theorem CAct.code_lt (t : CAct) : t.code < 2 ^ 3 := by cases t <;> decide
theorem Pair.code_lt (t : Pair) : t.code < 2 ^ 4 := by cases t <;> decide
theorem MCode.code_lt (t : MCode) : t.code < 2 ^ 2 := by cases t <;> decide
theorem SysReg.code_lt (t : SysReg) : t.code < 2 ^ 32 := by cases t <;> decide
theorem Special.code_lt (t : Special) : t.code < 2 ^ 7 := by cases t <;> decide
theorem FenceKind.code_lt (t : FenceKind) : t.code < 2 ^ 8 := by cases t <;> decide
theorem SbSel.code_lt (t : SbSel) : t.code < 2 ^ 32 := by
  cases t <;> simp only [SbSel.code] <;> omega
theorem CSel.code_lt (t : CSel) : t.code < 2 ^ 32 := by
  cases t <;> simp only [CSel.code] <;> omega
theorem Ty.sizeCode_lt (t : Ty) : t.sizeCode < 2 ^ 3 := by cases t <;> decide
theorem SrcB.field_lt (b : SrcB) : b.field < 2 ^ 7 := by cases b <;> simp only [SrcB.field] <;> omega
theorem SrcB.isel_lt (b : SrcB) : b.isel < 2 := by cases b <;> simp [SrcB.isel, VSrcB.isel]
theorem SrcB.immF_lt (b : SrcB) : b.immF < 2 ^ 32 := by cases b <;> simp only [SrcB.immF] <;> omega
theorem VSrcB.field_lt (b : VSrcB) : b.field < 2 ^ 7 := by cases b <;> simp only [VSrcB.field, vcode] <;> omega
theorem VSrcB.isel_lt (b : VSrcB) : b.isel < 2 := by cases b <;> simp [SrcB.isel, VSrcB.isel]
theorem VSrcB.immF_lt (b : VSrcB) : b.immF < 2 ^ 32 := by cases b <;> simp only [VSrcB.immF] <;> omega
theorem AnyReg.field_lt (b : AnyReg) : b.field < 2 ^ 7 := by cases b <;> simp only [AnyReg.field, vcode] <;> omega
theorem MovDst.field_lt (b : MovDst) : b.field < 2 ^ 7 := by cases b <;> simp only [MovDst.field] <;> omega
theorem MovSrc.field_lt (b : MovSrc) : b.field < 2 ^ 7 := by
  cases b with
  | reg r => simp only [MovSrc.field]; omega
  | special x => exact x.code_lt
theorem ArgG.enc_fits (m f : Nat) (x : ArgG) (hm : m < 2 ^ 8) (hf : f < 2 ^ 8) : (ArgG.enc m f x).fits := by
  have := b2n_lt x.g.neg
  simp only [ArgG.enc, Raw.fits, regH, memH, memA, brH, matH, asyH, vcode, pcode] at *
  omega
theorem ArgA.enc_fits (m f : Nat) (x : ArgA) (hm : m < 2 ^ 8) (hf : f < 2 ^ 8) : (ArgA.enc m f x).fits := by
  have := b2n_lt x.g.neg
  simp only [ArgA.enc, Raw.fits, regH, memH, memA, brH, matH, asyH, vcode, pcode] at *
  omega
theorem ArgD.enc_fits (m f : Nat) (x : ArgD) (hm : m < 2 ^ 8) (hf : f < 2 ^ 8) : (ArgD.enc m f x).fits := by
  have := b2n_lt x.g.neg
  simp only [ArgD.enc, Raw.fits, regH, memH, memA, brH, matH, asyH, vcode, pcode] at *
  omega
theorem ArgDA.enc_fits (m f : Nat) (x : ArgDA) (hm : m < 2 ^ 8) (hf : f < 2 ^ 8) : (ArgDA.enc m f x).fits := by
  have := b2n_lt x.g.neg
  simp only [ArgDA.enc, Raw.fits, regH, memH, memA, brH, matH, asyH, vcode, pcode] at *
  omega
theorem ArgAB.enc_fits (m f : Nat) (x : ArgAB) (hm : m < 2 ^ 8) (hf : f < 2 ^ 8) : (ArgAB.enc m f x).fits := by
  have := b2n_lt x.g.neg
  simp only [ArgAB.enc, Raw.fits, regH, memH, memA, brH, matH, asyH, vcode, pcode] at *
  omega
theorem ArgDAB.enc_fits (m f : Nat) (x : ArgDAB) (hm : m < 2 ^ 8) (hf : f < 2 ^ 8) : (ArgDAB.enc m f x).fits := by
  have := b2n_lt x.g.neg
  simp only [ArgDAB.enc, Raw.fits, regH, memH, memA, brH, matH, asyH, vcode, pcode] at *
  omega
theorem ArgABi.enc_fits (m f : Nat) (x : ArgABi) (hm : m < 2 ^ 8) (hf : f < 2 ^ 8) : (ArgABi.enc m f x).fits := by
  have := x.b.field_lt
  have := x.b.immF_lt
  have := x.b.isel_lt
  have := b2n_lt x.g.neg
  simp only [ArgABi.enc, Raw.fits, regH, memH, memA, brH, matH, asyH, vcode, pcode] at *
  omega
theorem ArgDABi.enc_fits (m f : Nat) (x : ArgDABi) (hm : m < 2 ^ 8) (hf : f < 2 ^ 8) : (ArgDABi.enc m f x).fits := by
  have := x.b.field_lt
  have := x.b.immF_lt
  have := x.b.isel_lt
  have := b2n_lt x.g.neg
  simp only [ArgDABi.enc, Raw.fits, regH, memH, memA, brH, matH, asyH, vcode, pcode] at *
  omega
theorem ArgInt.enc_fits (m f : Nat) (x : ArgInt) (hm : m < 2 ^ 8) (hf : f < 2 ^ 8) : (ArgInt.enc m f x).fits := by
  have := x.b.field_lt
  have := x.b.immF_lt
  have := x.b.isel_lt
  have := x.ty.code_lt
  have := b2n_lt x.g.neg
  have := b2n_lt x.sat
  simp only [ArgInt.enc, Raw.fits, regH, memH, memA, brH, matH, asyH, vcode, pcode] at *
  omega
theorem ArgTDA.enc_fits (m f : Nat) (x : ArgTDA) (hm : m < 2 ^ 8) (hf : f < 2 ^ 8) : (ArgTDA.enc m f x).fits := by
  have := x.ty.code_lt
  have := b2n_lt x.g.neg
  simp only [ArgTDA.enc, Raw.fits, regH, memH, memA, brH, matH, asyH, vcode, pcode] at *
  omega
theorem ArgBext.enc_fits (m f : Nat) (x : ArgBext) (hm : m < 2 ^ 8) (hf : f < 2 ^ 8) : (ArgBext.enc m f x).fits := by
  have := x.pos.field_lt
  have := x.pos.immF_lt
  have := x.pos.isel_lt
  have := x.ty.code_lt
  have := b2n_lt x.g.neg
  simp only [ArgBext.enc, Raw.fits, regH, memH, memA, brH, matH, asyH, vcode, pcode] at *
  omega
theorem ArgBins.enc_fits (m f : Nat) (x : ArgBins) (hm : m < 2 ^ 8) (hf : f < 2 ^ 8) : (ArgBins.enc m f x).fits := by
  have := x.pos.field_lt
  have := x.pos.immF_lt
  have := x.pos.isel_lt
  have := b2n_lt x.g.neg
  simp only [ArgBins.enc, Raw.fits, regH, memH, memA, brH, matH, asyH, vcode, pcode] at *
  omega
theorem ArgSel.enc_fits (m f : Nat) (x : ArgSel) (hm : m < 2 ^ 8) (hf : f < 2 ^ 8) : (ArgSel.enc m f x).fits := by
  have := x.b.field_lt
  have := x.b.immF_lt
  have := x.b.isel_lt
  have := b2n_lt x.g.neg
  simp only [ArgSel.enc, Raw.fits, regH, memH, memA, brH, matH, asyH, vcode, pcode] at *
  omega
theorem ArgCmp.enc_fits (m : Nat) (x : ArgCmp) (hm : m < 2 ^ 8) : (ArgCmp.enc m x).fits := by
  have := x.b.field_lt
  have := x.b.immF_lt
  have := x.b.isel_lt
  have := x.cond.code_lt
  have := x.ty.code_lt
  have := b2n_lt x.g.neg
  simp only [ArgCmp.enc, Raw.fits, regH, memH, memA, brH, matH, asyH, vcode, pcode] at *
  omega
theorem ArgP3.enc_fits (m f : Nat) (x : ArgP3) (hm : m < 2 ^ 8) (hf : f < 2 ^ 8) : (ArgP3.enc m f x).fits := by
  have := b2n_lt x.g.neg
  simp only [ArgP3.enc, Raw.fits, regH, memH, memA, brH, matH, asyH, vcode, pcode] at *
  omega
theorem ArgP2.enc_fits (m f : Nat) (x : ArgP2) (hm : m < 2 ^ 8) (hf : f < 2 ^ 8) : (ArgP2.enc m f x).fits := by
  have := b2n_lt x.g.neg
  simp only [ArgP2.enc, Raw.fits, regH, memH, memA, brH, matH, asyH, vcode, pcode] at *
  omega
theorem ArgPunpk.enc_fits (m f : Nat) (x : ArgPunpk) (hm : m < 2 ^ 8) (hf : f < 2 ^ 8) : (ArgPunpk.enc m f x).fits := by
  have := b2n_lt x.g.neg
  simp only [ArgPunpk.enc, Raw.fits, regH, memH, memA, brH, matH, asyH, vcode, pcode] at *
  omega
theorem ArgRdsr.enc_fits (m f : Nat) (x : ArgRdsr) (hm : m < 2 ^ 8) (hf : f < 2 ^ 8) : (ArgRdsr.enc m f x).fits := by
  have := x.n.code_lt
  have := b2n_lt x.g.neg
  simp only [ArgRdsr.enc, Raw.fits, regH, memH, memA, brH, matH, asyH, vcode, pcode] at *
  omega
theorem ArgWrsr.enc_fits (m f : Nat) (x : ArgWrsr) (hm : m < 2 ^ 8) (hf : f < 2 ^ 8) : (ArgWrsr.enc m f x).fits := by
  have := x.n.code_lt
  have := b2n_lt x.g.neg
  simp only [ArgWrsr.enc, Raw.fits, regH, memH, memA, brH, matH, asyH, vcode, pcode] at *
  omega
theorem ArgFAr.enc_fits (m f : Nat) (x : ArgFAr) (hm : m < 2 ^ 8) (hf : f < 2 ^ 8) : (ArgFAr.enc m f x).fits := by
  have := Ty.f32.code_lt
  have := x.b.field_lt
  have := x.b.immF_lt
  have := x.b.isel_lt
  have := x.r.code_lt
  have := b2n_lt x.g.neg
  simp only [ArgFAr.enc, Raw.fits, regH, memH, memA, brH, matH, asyH, vcode, pcode] at *
  omega
theorem ArgFma.enc_fits (m f : Nat) (x : ArgFma) (hm : m < 2 ^ 8) (hf : f < 2 ^ 8) : (ArgFma.enc m f x).fits := by
  have := Ty.f32.code_lt
  have := x.b.field_lt
  have := x.b.immF_lt
  have := x.b.isel_lt
  have := x.r.code_lt
  have := b2n_lt x.g.neg
  simp only [ArgFma.enc, Raw.fits, regH, memH, memA, brH, matH, asyH, vcode, pcode] at *
  omega
theorem ArgFsqrt.enc_fits (m f : Nat) (x : ArgFsqrt) (hm : m < 2 ^ 8) (hf : f < 2 ^ 8) : (ArgFsqrt.enc m f x).fits := by
  have := Ty.f32.code_lt
  have := x.r.code_lt
  have := b2n_lt x.g.neg
  simp only [ArgFsqrt.enc, Raw.fits, regH, memH, memA, brH, matH, asyH, vcode, pcode] at *
  omega
theorem ArgFcmp.enc_fits (m : Nat) (x : ArgFcmp) (hm : m < 2 ^ 8) : (ArgFcmp.enc m x).fits := by
  have := Ty.f32.code_lt
  have := x.b.field_lt
  have := x.b.immF_lt
  have := x.b.isel_lt
  have := x.cond.code_lt
  have := b2n_lt x.g.neg
  simp only [ArgFcmp.enc, Raw.fits, regH, memH, memA, brH, matH, asyH, vcode, pcode] at *
  omega
theorem ArgFcvt.enc_fits (m : Nat) (x : ArgFcvt) (hm : m < 2 ^ 8) : (ArgFcvt.enc m x).fits := by
  have := x.r.code_lt
  have := x.ty.code_lt
  have := b2n_lt x.fromTy
  have := b2n_lt x.g.neg
  simp only [ArgFcvt.enc, Raw.fits, regH, memH, memA, brH, matH, asyH, vcode, pcode] at *
  omega
theorem ArgV.enc_fits (m f : Nat) (x : ArgV) (hm : m < 2 ^ 8) (hf : f < 2 ^ 8) : (ArgV.enc m f x).fits := by
  have := x.b.field_lt
  have := x.b.immF_lt
  have := x.b.isel_lt
  have := x.r.code_lt
  have := x.ty.code_lt
  have := b2n_lt x.g.neg
  have := b2n_lt x.sat
  simp only [ArgV.enc, Raw.fits, regH, memH, memA, brH, matH, asyH, vcode, pcode] at *
  omega
theorem ArgVfma.enc_fits (m f : Nat) (x : ArgVfma) (hm : m < 2 ^ 8) (hf : f < 2 ^ 8) : (ArgVfma.enc m f x).fits := by
  have := Ty.f32.code_lt
  have := x.b.field_lt
  have := x.b.immF_lt
  have := x.b.isel_lt
  have := x.r.code_lt
  have := b2n_lt x.g.neg
  simp only [ArgVfma.enc, Raw.fits, regH, memH, memA, brH, matH, asyH, vcode, pcode] at *
  omega
theorem ArgVun.enc_fits (m f : Nat) (x : ArgVun) (hm : m < 2 ^ 8) (hf : f < 2 ^ 8) : (ArgVun.enc m f x).fits := by
  have := x.ty.code_lt
  have := b2n_lt x.g.neg
  have := b2n_lt x.sat
  simp only [ArgVun.enc, Raw.fits, regH, memH, memA, brH, matH, asyH, vcode, pcode] at *
  omega
theorem ArgVsel.enc_fits (m f : Nat) (x : ArgVsel) (hm : m < 2 ^ 8) (hf : f < 2 ^ 8) : (ArgVsel.enc m f x).fits := by
  have := x.b.field_lt
  have := x.b.immF_lt
  have := x.b.isel_lt
  have := b2n_lt x.g.neg
  simp only [ArgVsel.enc, Raw.fits, regH, memH, memA, brH, matH, asyH, vcode, pcode] at *
  omega
theorem ArgVcvt.enc_fits (m : Nat) (x : ArgVcvt) (hm : m < 2 ^ 8) : (ArgVcvt.enc m x).fits := by
  have := x.r.code_lt
  have := x.ty.code_lt
  have := b2n_lt x.fromTy
  have := b2n_lt x.g.neg
  simp only [ArgVcvt.enc, Raw.fits, regH, memH, memA, brH, matH, asyH, vcode, pcode] at *
  omega
theorem ArgVexp.enc_fits (m f : Nat) (x : ArgVexp) (hm : m < 2 ^ 8) (hf : f < 2 ^ 8) : (ArgVexp.enc m f x).fits := by
  have := x.ty.code_lt
  have := b2n_lt x.g.neg
  simp only [ArgVexp.enc, Raw.fits, regH, memH, memA, brH, matH, asyH, vcode, pcode] at *
  omega
theorem ArgVV.enc_fits (m f : Nat) (x : ArgVV) (hm : m < 2 ^ 8) (hf : f < 2 ^ 8) : (ArgVV.enc m f x).fits := by
  have := Ty.f32.code_lt
  have := b2n_lt x.g.neg
  simp only [ArgVV.enc, Raw.fits, regH, memH, memA, brH, matH, asyH, vcode, pcode] at *
  omega
theorem ArgVred.enc_fits (m f : Nat) (x : ArgVred) (hm : m < 2 ^ 8) (hf : f < 2 ^ 8) : (ArgVred.enc m f x).fits := by
  have := x.r.code_lt
  have := x.ty.code_lt
  have := b2n_lt x.g.neg
  have := b2n_lt x.sat
  simp only [ArgVred.enc, Raw.fits, regH, memH, memA, brH, matH, asyH, vcode, pcode] at *
  omega
theorem ArgVdot.enc_fits (m f : Nat) (x : ArgVdot) (hm : m < 2 ^ 8) (hf : f < 2 ^ 8) : (ArgVdot.enc m f x).fits := by
  have := x.r.code_lt
  have := x.ty.code_lt
  have := b2n_lt x.g.neg
  have := b2n_lt x.sat
  simp only [ArgVdot.enc, Raw.fits, regH, memH, memA, brH, matH, asyH, vcode, pcode] at *
  omega
theorem ArgVsplat.enc_fits (m f : Nat) (x : ArgVsplat) (hm : m < 2 ^ 8) (hf : f < 2 ^ 8) : (ArgVsplat.enc m f x).fits := by
  have := x.ty.code_lt
  have := b2n_lt x.g.neg
  simp only [ArgVsplat.enc, Raw.fits, regH, memH, memA, brH, matH, asyH, vcode, pcode] at *
  omega
theorem ArgVperm.enc_fits (m f : Nat) (x : ArgVperm) (hm : m < 2 ^ 8) (hf : f < 2 ^ 8) : (ArgVperm.enc m f x).fits := by
  have := b2n_lt x.g.neg
  simp only [ArgVperm.enc, Raw.fits, regH, memH, memA, brH, matH, asyH, vcode, pcode] at *
  omega
theorem ArgVidx.enc_fits (m f : Nat) (x : ArgVidx) (hm : m < 2 ^ 8) (hf : f < 2 ^ 8) : (ArgVidx.enc m f x).fits := by
  have := x.b.field_lt
  have := x.b.immF_lt
  have := x.b.isel_lt
  have := b2n_lt x.g.neg
  simp only [ArgVidx.enc, Raw.fits, regH, memH, memA, brH, matH, asyH, vcode, pcode] at *
  omega
theorem ArgVscacc.enc_fits (m f : Nat) (x : ArgVscacc) (hm : m < 2 ^ 8) (hf : f < 2 ^ 8) : (ArgVscacc.enc m f x).fits := by
  have := x.b.field_lt
  have := x.b.immF_lt
  have := x.b.isel_lt
  have := x.r.code_lt
  have := x.ty.code_lt
  have := b2n_lt x.g.neg
  simp only [ArgVscacc.enc, Raw.fits, regH, memH, memA, brH, matH, asyH, vcode, pcode] at *
  omega
theorem ArgPoolcfg.enc_fits (m f : Nat) (x : ArgPoolcfg) (hm : m < 2 ^ 8) (hf : f < 2 ^ 8) : (ArgPoolcfg.enc m f x).fits := by
  have := b2n_lt x.g.neg
  simp only [ArgPoolcfg.enc, Raw.fits, regH, memH, memA, brH, matH, asyH, vcode, pcode] at *
  omega
theorem ArgPoolst.enc_fits (m f : Nat) (x : ArgPoolst) (hm : m < 2 ^ 8) (hf : f < 2 ^ 8) : (ArgPoolst.enc m f x).fits := by
  have := b2n_lt x.g.neg
  simp only [ArgPoolst.enc, Raw.fits, regH, memH, memA, brH, matH, asyH, vcode, pcode] at *
  omega
theorem ArgFence.enc_fits (m : Nat) (x : ArgFence) (hm : m < 2 ^ 8) : (ArgFence.enc m x).fits := by
  have := x.kind.code_lt
  have := x.scope.code_lt
  have := b2n_lt x.g.neg
  simp only [ArgFence.enc, Raw.fits, regH, memH, memA, brH, matH, asyH, vcode, pcode] at *
  omega
theorem ArgCallat.enc_fits (m f : Nat) (x : ArgCallat) (hm : m < 2 ^ 8) (hf : f < 2 ^ 8) : (ArgCallat.enc m f x).fits := by
  have := x.t.field_lt
  have := x.t.immF_lt
  have := x.t.isel_lt
  have := b2n_lt x.g.neg
  simp only [ArgCallat.enc, Raw.fits, regH, memH, memA, brH, matH, asyH, vcode, pcode] at *
  omega
theorem ArgFres.enc_fits (m : Nat) (x : ArgFres) (hm : m < 2 ^ 8) : (ArgFres.enc m x).fits := by
  have := b2n_lt x.fault
  have := b2n_lt x.g.neg
  simp only [ArgFres.enc, Raw.fits, regH, memH, memA, brH, matH, asyH, vcode, pcode] at *
  omega
theorem ArgTid.enc_fits (m f : Nat) (x : ArgTid) (hm : m < 2 ^ 8) (hf : f < 2 ^ 8) : (ArgTid.enc m f x).fits := by
  have := b2n_lt x.g.neg
  simp only [ArgTid.enc, Raw.fits, regH, memH, memA, brH, matH, asyH, vcode, pcode] at *
  omega
theorem ArgPut.enc_fits (m f : Nat) (x : ArgPut) (hm : m < 2 ^ 8) (hf : f < 2 ^ 8) : (ArgPut.enc m f x).fits := by
  have := b2n_lt x.g.neg
  simp only [ArgPut.enc, Raw.fits, regH, memH, memA, brH, matH, asyH, vcode, pcode] at *
  omega
theorem ArgGet.enc_fits (m f : Nat) (x : ArgGet) (hm : m < 2 ^ 8) (hf : f < 2 ^ 8) : (ArgGet.enc m f x).fits := by
  have := b2n_lt x.g.neg
  simp only [ArgGet.enc, Raw.fits, regH, memH, memA, brH, matH, asyH, vcode, pcode] at *
  omega
theorem ArgAlt.enc_fits (m f : Nat) (x : ArgAlt) (hm : m < 2 ^ 8) (hf : f < 2 ^ 8) : (ArgAlt.enc m f x).fits := by
  have := b2n_lt x.g.neg
  simp only [ArgAlt.enc, Raw.fits, regH, memH, memA, brH, matH, asyH, vcode, pcode] at *
  omega
theorem ArgPbind.enc_fits (m f : Nat) (x : ArgPbind) (hm : m < 2 ^ 8) (hf : f < 2 ^ 8) : (ArgPbind.enc m f x).fits := by
  have := b2n_lt x.g.neg
  simp only [ArgPbind.enc, Raw.fits, regH, memH, memA, brH, matH, asyH, vcode, pcode] at *
  omega
theorem ArgPortst.enc_fits (m f : Nat) (x : ArgPortst) (hm : m < 2 ^ 8) (hf : f < 2 ^ 8) : (ArgPortst.enc m f x).fits := by
  have := b2n_lt x.g.neg
  simp only [ArgPortst.enc, Raw.fits, regH, memH, memA, brH, matH, asyH, vcode, pcode] at *
  omega
theorem ArgHtab.enc_fits (m f : Nat) (x : ArgHtab) (hm : m < 2 ^ 8) (hf : f < 2 ^ 8) : (ArgHtab.enc m f x).fits := by
  have := b2n_lt x.g.neg
  simp only [ArgHtab.enc, Raw.fits, regH, memH, memA, brH, matH, asyH, vcode, pcode] at *
  omega
theorem ArgRedp.enc_fits (m f : Nat) (x : ArgRedp) (hm : m < 2 ^ 8) (hf : f < 2 ^ 8) : (ArgRedp.enc m f x).fits := by
  have := b2n_lt x.g.neg
  simp only [ArgRedp.enc, Raw.fits, regH, memH, memA, brH, matH, asyH, vcode, pcode] at *
  omega
theorem ArgRedg.enc_fits (m f : Nat) (x : ArgRedg) (hm : m < 2 ^ 8) (hf : f < 2 ^ 8) : (ArgRedg.enc m f x).fits := by
  have := b2n_lt x.g.neg
  simp only [ArgRedg.enc, Raw.fits, regH, memH, memA, brH, matH, asyH, vcode, pcode] at *
  omega
theorem ArgRcfg.enc_fits (m f : Nat) (x : ArgRcfg) (hm : m < 2 ^ 8) (hf : f < 2 ^ 8) : (ArgRcfg.enc m f x).fits := by
  have := b2n_lt x.g.neg
  simp only [ArgRcfg.enc, Raw.fits, regH, memH, memA, brH, matH, asyH, vcode, pcode] at *
  omega
theorem ArgCode.enc_fits (m f : Nat) (x : ArgCode) (hm : m < 2 ^ 8) (hf : f < 2 ^ 8) : (ArgCode.enc m f x).fits := by
  have := b2n_lt x.g.neg
  simp only [ArgCode.enc, Raw.fits, regH, memH, memA, brH, matH, asyH, vcode, pcode] at *
  omega
theorem ArgTrapRing.enc_fits (m f : Nat) (x : ArgTrapRing) (hm : m < 2 ^ 8) (hf : f < 2 ^ 8) : (ArgTrapRing.enc m f x).fits := by
  have := b2n_lt x.g.neg
  simp only [ArgTrapRing.enc, Raw.fits, regH, memH, memA, brH, matH, asyH, vcode, pcode] at *
  omega
theorem ArgRfill.enc_fits (m f : Nat) (x : ArgRfill) (hm : m < 2 ^ 8) (hf : f < 2 ^ 8) : (ArgRfill.enc m f x).fits := by
  have := x.b.field_lt
  have := b2n_lt x.g.neg
  simp only [ArgRfill.enc, Raw.fits, regH, memH, memA, brH, matH, asyH, vcode, pcode] at *
  omega
theorem ArgLi.enc_fits (m f : Nat) (x : ArgLi) (hm : m < 2 ^ 8) (hf : f < 2 ^ 8) : (ArgLi.enc m f x).fits := by
  have := x.ty.code_lt
  have := b2n_lt x.g.neg
  simp only [ArgLi.enc, Raw.fits, regH, memH, memA, brH, matH, asyH, vcode, pcode] at *
  omega
theorem ArgMov.enc_fits (m f : Nat) (x : ArgMov) (hm : m < 2 ^ 8) (hf : f < 2 ^ 8) : (ArgMov.enc m f x).fits := by
  have := x.dst.field_lt
  have := x.src.field_lt
  have := b2n_lt x.g.neg
  simp only [ArgMov.enc, Raw.fits, regH, memH, memA, brH, matH, asyH, vcode, pcode] at *
  omega
theorem ArgBr.enc_fits (m : Nat) (x : ArgBr) (hm : m < 2 ^ 8) : (ArgBr.enc m x).fits := by
  have := b2n_lt x.g.neg
  have := b2n_lt x.z
  simp only [ArgBr.enc, Raw.fits, regH, memH, memA, brH, matH, asyH, vcode, pcode] at *
  omega
theorem ArgT.enc_fits (m f : Nat) (x : ArgT) (hm : m < 2 ^ 8) (hf : f < 2 ^ 8) : (ArgT.enc m f x).fits := by
  have := b2n_lt x.g.neg
  simp only [ArgT.enc, Raw.fits, regH, memH, memA, brH, matH, asyH, vcode, pcode] at *
  omega
theorem ArgLoop.enc_fits (m f : Nat) (x : ArgLoop) (hm : m < 2 ^ 8) (hf : f < 2 ^ 8) : (ArgLoop.enc m f x).fits := by
  have := b2n_lt x.g.neg
  simp only [ArgLoop.enc, Raw.fits, regH, memH, memA, brH, matH, asyH, vcode, pcode] at *
  omega
theorem ArgVcmp.enc_fits (m : Nat) (x : ArgVcmp) (hm : m < 2 ^ 8) : (ArgVcmp.enc m x).fits := by
  have := x.b.field_lt
  have := x.b.immF_lt
  have := x.b.isel_lt
  have := x.cond.code_lt
  have := x.cond.ty.code_lt
  have := b2n_lt x.g.neg
  simp only [ArgVcmp.enc, Raw.fits, regH, memH, memA, brH, matH, asyH, vcode, pcode] at *
  omega
theorem ArgVmovs.enc_fits (m : Nat) (x : ArgVmovs) (hm : m < 2 ^ 8) : (ArgVmovs.enc m x).fits := by
  rcases x with ⟨g, mv⟩
  have := b2n_lt g.neg
  simp only [ArgVmovs.enc, Raw.fits, regH, memH, memA, brH, matH, asyH, vcode, pcode] at *
  cases mv <;> simp only <;> omega
theorem ArgVq.enc_fits (m f : Nat) (x : ArgVq) (hm : m < 2 ^ 8) (hf : f < 2 ^ 8) : (ArgVq.enc m f x).fits := by
  have : (if m = 0x5a then 1 else 0) < 2 := by split <;> omega
  have := x.b.field_lt
  have := x.b.immF_lt
  have := x.b.isel_lt
  have := x.r.code_lt
  have := x.ty.code_lt
  have := b2n_lt x.g.neg
  simp only [ArgVq.enc, Raw.fits, regH, memH, memA, brH, matH, asyH, vcode, pcode] at *
  omega
theorem ArgLea.enc_fits (m f : Nat) (x : ArgLea) (hm : m < 2 ^ 8) (hf : f < 2 ^ 8) : (ArgLea.enc m f x).fits := by
  have := x.addr.space.code_lt
  have := b2n_lt x.addr.handle
  have := b2n_lt x.g.neg
  simp only [ArgLea.enc, Raw.fits, regH, memH, memA, brH, matH, asyH, vcode, pcode] at *
  omega
theorem ArgLdtab.enc_fits (m f : Nat) (x : ArgLdtab) (hm : m < 2 ^ 8) (hf : f < 2 ^ 8) : (ArgLdtab.enc m f x).fits := by
  have := x.addr.space.code_lt
  have := b2n_lt x.addr.handle
  have := b2n_lt x.cons
  have := b2n_lt x.g.neg
  simp only [ArgLdtab.enc, Raw.fits, regH, memH, memA, brH, matH, asyH, vcode, pcode] at *
  omega
theorem ArgLd.enc_fits (m : Nat) (x : ArgLd) (hm : m < 2 ^ 8) : (ArgLd.enc m x).fits := by
  have : (if m = 0x72 then 1 else 0) < 2 := by split <;> omega
  have := x.ord.code_lt
  have := x.scope.code_lt
  have := x.ty.code_lt
  have := x.ty.sizeCode_lt
  have := x.addr.space.code_lt
  have := b2n_lt x.addr.handle
  have := b2n_lt x.g.neg
  simp only [ArgLd.enc, Raw.fits, regH, memH, memA, brH, matH, asyH, vcode, pcode] at *
  omega
theorem ArgVld.enc_fits (m f : Nat) (x : ArgVld) (hm : m < 2 ^ 8) (hf : f < 2 ^ 8) : (ArgVld.enc m f x).fits := by
  have : (if m = 0x75 then 1 else 0) < 2 := by split <;> omega
  have := x.ord.code_lt
  have := x.scope.code_lt
  have := x.addr.space.code_lt
  have := b2n_lt x.addr.handle
  have := b2n_lt x.g.neg
  simp only [ArgVld.enc, Raw.fits, regH, memH, memA, brH, matH, asyH, vcode, pcode] at *
  omega
theorem ArgVgat.enc_fits (m f : Nat) (x : ArgVgat) (hm : m < 2 ^ 8) (hf : f < 2 ^ 8) : (ArgVgat.enc m f x).fits := by
  have := x.ord.code_lt
  have := x.scope.code_lt
  have := x.space.code_lt
  have := b2n_lt x.g.neg
  simp only [ArgVgat.enc, Raw.fits, regH, memH, memA, brH, matH, asyH, vcode, pcode] at *
  omega
theorem ArgLdsc.enc_fits (m : Nat) (x : ArgLdsc) (hm : m < 2 ^ 8) : (ArgLdsc.enc m x).fits := by
  have := x.ty.code_lt
  have := x.ty.sizeCode_lt
  have := x.addr.space.code_lt
  have := b2n_lt x.addr.handle
  have := b2n_lt x.g.neg
  simp only [ArgLdsc.enc, Raw.fits, regH, memH, memA, brH, matH, asyH, vcode, pcode] at *
  omega
theorem ArgAtom.enc_fits (m : Nat) (x : ArgAtom) (hm : m < 2 ^ 8) : (ArgAtom.enc m x).fits := by
  have := x.ord.code_lt
  have := x.scope.code_lt
  have := x.space.code_lt
  have := x.ty.code_lt
  have := x.ty.sizeCode_lt
  have := b2n_lt x.acqrel
  have := b2n_lt x.failAcq
  have := b2n_lt x.g.neg
  simp only [ArgAtom.enc, Raw.fits, regH, memH, memA, brH, matH, asyH, vcode, pcode] at *
  omega
theorem ArgMma.enc_fits (m : Nat) (x : ArgMma) (hm : m < 2 ^ 8) : (ArgMma.enc m x).fits := by
  have := x.pair.code_lt
  have := x.r.code_lt
  have := x.fin.act.code_lt
  have := x.fin.scope.code_lt
  have := x.m.code_lt
  have := b2n_lt x.ca
  have := b2n_lt x.cb
  have := b2n_lt x.fin.acq
  have := b2n_lt x.fin.rel
  have := b2n_lt x.g.neg
  have := b2n_lt x.set
  simp only [ArgMma.enc, Raw.fits, regH, memH, memA, brH, matH, asyH, vcode, pcode] at *
  omega
theorem ArgAccz.enc_fits (m f : Nat) (x : ArgAccz) (hm : m < 2 ^ 8) (hf : f < 2 ^ 8) : (ArgAccz.enc m f x).fits := by
  have := x.fin.act.code_lt
  have := x.fin.scope.code_lt
  have := x.m.code_lt
  have := b2n_lt x.fin.acq
  have := b2n_lt x.fin.rel
  have := b2n_lt x.g.neg
  simp only [ArgAccz.enc, Raw.fits, regH, memH, memA, brH, matH, asyH, vcode, pcode] at *
  omega
theorem ArgAccsc.enc_fits (m : Nat) (x : ArgAccsc) (hm : m < 2 ^ 8) : (ArgAccsc.enc m x).fits := by
  have := x.r.code_lt
  have := x.fin.act.code_lt
  have := x.fin.scope.code_lt
  have := x.m.code_lt
  have := b2n_lt x.fin.acq
  have := b2n_lt x.fin.rel
  have := b2n_lt x.g.neg
  have := b2n_lt x.i32
  have := b2n_lt x.set
  simp only [ArgAccsc.enc, Raw.fits, regH, memH, memA, brH, matH, asyH, vcode, pcode] at *
  omega
theorem ArgAccmv.enc_fits (m : Nat) (x : ArgAccmv) (hm : m < 2 ^ 8) : (ArgAccmv.enc m x).fits := by
  have := x.r.code_lt
  have := x.ty.code_lt
  have := x.fin.act.code_lt
  have := x.fin.scope.code_lt
  have := x.m.code_lt
  have := b2n_lt x.fin.acq
  have := b2n_lt x.fin.rel
  have := b2n_lt x.g.neg
  have := b2n_lt x.i32
  simp only [ArgAccmv.enc, Raw.fits, regH, memH, memA, brH, matH, asyH, vcode, pcode] at *
  omega
theorem ArgAccrd.enc_fits (m f : Nat) (x : ArgAccrd) (hm : m < 2 ^ 8) (hf : f < 2 ^ 8) : (ArgAccrd.enc m f x).fits := by
  have := x.scope.code_lt
  have := b2n_lt x.acq
  have := b2n_lt x.g.neg
  simp only [ArgAccrd.enc, Raw.fits, regH, memH, memA, brH, matH, asyH, vcode, pcode] at *
  omega
theorem ArgAccwr.enc_fits (m f : Nat) (x : ArgAccwr) (hm : m < 2 ^ 8) (hf : f < 2 ^ 8) : (ArgAccwr.enc m f x).fits := by
  have := x.scope.code_lt
  have := b2n_lt x.g.neg
  have := b2n_lt x.rel
  simp only [ArgAccwr.enc, Raw.fits, regH, memH, memA, brH, matH, asyH, vcode, pcode] at *
  omega
theorem ArgSend.enc_fits (m f : Nat) (x : ArgSend) (hm : m < 2 ^ 8) (hf : f < 2 ^ 8) : (ArgSend.enc m f x).fits := by
  have := x.dspace.code_lt
  have := x.sspace.code_lt
  have := x.fin.act.code_lt
  have := x.fin.scope.code_lt
  have := b2n_lt x.cons
  have := b2n_lt x.fin.acq
  have := b2n_lt x.fin.rel
  have := b2n_lt x.g.neg
  simp only [ArgSend.enc, Raw.fits, regH, memH, memA, brH, matH, asyH, vcode, pcode] at *
  omega
theorem ArgSendt.enc_fits (m f : Nat) (x : ArgSendt) (hm : m < 2 ^ 8) (hf : f < 2 ^ 8) : (ArgSendt.enc m f x).fits := by
  have := x.fin.act.code_lt
  have := x.fin.scope.code_lt
  have := b2n_lt x.cons
  have := b2n_lt x.fin.acq
  have := b2n_lt x.fin.rel
  have := b2n_lt x.g.neg
  have := b2n_lt x.remote
  simp only [ArgSendt.enc, Raw.fits, regH, memH, memA, brH, matH, asyH, vcode, pcode] at *
  omega
theorem ArgFill.enc_fits (m f : Nat) (x : ArgFill) (hm : m < 2 ^ 8) (hf : f < 2 ^ 8) : (ArgFill.enc m f x).fits := by
  have := Space.loc.code_lt
  have := Space.vlt.code_lt
  have := x.fin.act.code_lt
  have := x.fin.scope.code_lt
  have := b2n_lt x.cons
  have := b2n_lt x.fin.acq
  have := b2n_lt x.fin.rel
  have := b2n_lt x.g.neg
  simp only [ArgFill.enc, Raw.fits, regH, memH, memA, brH, matH, asyH, vcode, pcode] at *
  omega
theorem ArgWait.enc_fits (m f : Nat) (x : ArgWait) (hm : m < 2 ^ 8) (hf : f < 2 ^ 8) : (ArgWait.enc m f x).fits := by
  have := b2n_lt x.g.neg
  simp only [ArgWait.enc, Raw.fits, regH, memH, memA, brH, matH, asyH, vcode, pcode] at *
  omega
theorem ArgSbstat.enc_fits (m f : Nat) (x : ArgSbstat) (hm : m < 2 ^ 8) (hf : f < 2 ^ 8) : (ArgSbstat.enc m f x).fits := by
  have := x.sel.code_lt
  have := b2n_lt x.g.neg
  simp only [ArgSbstat.enc, Raw.fits, regH, memH, memA, brH, matH, asyH, vcode, pcode] at *
  omega
theorem ArgSpawn.enc_fits (m f : Nat) (x : ArgSpawn) (hm : m < 2 ^ 8) (hf : f < 2 ^ 8) : (ArgSpawn.enc m f x).fits := by
  have := b2n_lt x.g.neg
  have := b2n_lt x.hReg
  have := b2n_lt x.rReg
  simp only [ArgSpawn.enc, Raw.fits, regH, memH, memA, brH, matH, asyH, vcode, pcode] at *
  omega
theorem ArgCstat.enc_fits (m f : Nat) (x : ArgCstat) (hm : m < 2 ^ 8) (hf : f < 2 ^ 8) : (ArgCstat.enc m f x).fits := by
  have := x.sel.code_lt
  have := b2n_lt x.g.neg
  simp only [ArgCstat.enc, Raw.fits, regH, memH, memA, brH, matH, asyH, vcode, pcode] at *
  omega
theorem ArgAmsg.enc_fits (m f : Nat) (x : ArgAmsg) (hm : m < 2 ^ 8) (hf : f < 2 ^ 8) : (ArgAmsg.enc m f x).fits := by
  have := b2n_lt x.g.neg
  simp only [ArgAmsg.enc, Raw.fits, regH, memH, memA, brH, matH, asyH, vcode, pcode] at *
  omega
theorem ArgBarv.enc_fits (m f : Nat) (x : ArgBarv) (hm : m < 2 ^ 8) (hf : f < 2 ^ 8) : (ArgBarv.enc m f x).fits := by
  have := b2n_lt x.clu
  have := b2n_lt x.g.neg
  simp only [ArgBarv.enc, Raw.fits, regH, memH, memA, brH, matH, asyH, vcode, pcode] at *
  omega
theorem ArgBcfg.enc_fits (m f : Nat) (x : ArgBcfg) (hm : m < 2 ^ 8) (hf : f < 2 ^ 8) : (ArgBcfg.enc m f x).fits := by
  have := b2n_lt x.g.neg
  simp only [ArgBcfg.enc, Raw.fits, regH, memH, memA, brH, matH, asyH, vcode, pcode] at *
  omega
end Sys2Proof
end

