-- ==== Sys2Proof/Laws/Issue.lean ====
section
/-! SUPPORT. The issue of an instruction, once for all instructions: what it answers in each of its cases. -/
namespace Sys2Proof.Machine

/-- A ready instruction in a context that may issue it answers a next state: that of its own effect, or the trap, the freeze
or the stall in which its effect ends. -/
theorem issue_ready {i : Instr} {g : Guard} {allowed : Nat → Bool} {body : State → Res} {s : State}
    (h : ready i g s = true) (ha : allowed s.cur.ctx = true) : issue i g allowed body s = .next (finish s (body s)) := by
  simp only [ready, issuing, beyondAllotment, waitsForOperand, Bool.and_eq_true, decide_eq_true_eq, Bool.not_eq_true',
    Option.isNone_iff_eq_none] at h
  obtain ⟨⟨⟨⟨h1, h2⟩, h3⟩, h4⟩, h5⟩ := h
  have : ¬ 10 ≤ s.cur.ctx := by omega
  simp only [issue, h2, h3, h4, h5, ha, this]
  rfl

/-- A ready instruction whose effect is the given state answers that state. -/
theorem issue_ok {i : Instr} {g : Guard} {allowed : Nat → Bool} {body : State → Res} {s t : State}
    (h : ready i g s = true) (ha : allowed s.cur.ctx = true) (hb : body s = .ok t) :
    issue i g allowed body s = .next t := by
  rw [issue_ready h ha, hb]; rfl

/-- A ready instruction whose effect is a trap answers the state in which the trap is taken. -/
theorem issue_trap {i : Instr} {g : Guard} {allowed : Nat → Bool} {body : State → Res} {s : State} {t : TrapInfo}
    (h : ready i g s = true) (ha : allowed s.cur.ctx = true) (hb : body s = .error (.trap t)) :
    issue i g allowed body s = .next (s.takeTrap s.cur.cell s.cur.ctx t) := by
  rw [issue_ready h ha, hb]; rfl

/-- A ready instruction whose effect is a stall leaves the state but for the note that its context stalls. -/
theorem issue_stall {i : Instr} {g : Guard} {allowed : Nat → Bool} {body : State → Res} {s : State}
    (h : ready i g s = true) (ha : allowed s.cur.ctx = true) (hb : body s = .error .stall) :
    issue i g allowed body s = .next (s.modMe fun x => { x with stalled := true }) := by
  rw [issue_ready h ha, hb]; rfl

/-- A context that cannot issue makes the one fault of an instruction. -/
theorem issue_notIssuable {i : Instr} {g : Guard} {allowed : Nat → Bool} {body : State → Res} {s : State}
    (h : issuing s = false) : issue i g allowed body s = .fault .notIssuable := by
  unfold issue
  have : (!s.me.canIssue || decide (10 ≤ s.cur.ctx)) = true := by
    simp only [issuing, Bool.and_eq_false_iff, decide_eq_false_iff_not] at h
    rcases h with h | h
    · simp [Nat.le_of_not_lt h]
    · simp [h]
  rw [if_pos this]

/-- An instruction of a context that can issue never stops the machine. -/
theorem issue_answers {i : Instr} {g : Guard} {allowed : Nat → Bool} {body : State → Res} {s : State}
    (h : issuing s = true) : ∃ t, issue i g allowed body s = .next t := by
  simp only [issuing, Bool.and_eq_true, decide_eq_true_eq] at h
  have h2 : ¬ 10 ≤ s.cur.ctx := by omega
  unfold issue
  simp only [h.2, h2, decide_false, Bool.not_true, Bool.or_self, Bool.false_eq_true, if_false]
  split
  · exact ⟨_, rfl⟩
  · split
    · exact ⟨_, rfl⟩
    · split
      · exact ⟨_, rfl⟩
      · split
        · exact ⟨_, rfl⟩
        · exact ⟨_, rfl⟩

end Sys2Proof.Machine
end

