-- ==== Sys2Proof/Laws/Memory.lean ====
section
/-! SUPPORT. The memory list: its canonical form under every operation, and what a byte reads as after a write. -/
namespace Sys2Proof.Machine

/-- Little-endian bytes hold the value modulo their width. -/
theorem leNat_leBytes (n v : Nat) : leNat (leBytes n v) = v % 256 ^ n := by
  induction n generalizing v with
  | zero => simp [leBytes, leNat, Nat.mod_one]
  | succ n ih =>
    simp only [leBytes, leNat, BitVec.toNat_ofNat, ih]
    exact (Nat.pow_succ' ▸ Nat.mod_mul ..).symm

theorem length_leBytes (n v : Nat) : (leBytes n v).length = n := by
  induction n generalizing v with
  | zero => rfl
  | succ n ih => simp [leBytes, ih]

theorem Memory.wfFrom_mono {lo hi : Nat} {m : List Host.Cell} (h : Memory.wfFrom hi m = true) (hl : lo ≤ hi) :
    Memory.wfFrom lo m = true := by
  cases m with
  | nil => rfl
  | cons e m =>
    obtain ⟨b, v⟩ := e
    simp only [Memory.wfFrom, Bool.and_eq_true, decide_eq_true_eq] at h ⊢
    exact ⟨⟨by omega, h.1.2⟩, h.2⟩

theorem Memory.wfFrom_write {lo : Nat} {m : List Host.Cell} (a : Nat) (v : Byte) (h : Memory.wfFrom lo m = true)
    (ha : lo ≤ a) : Memory.wfFrom lo (Memory.write a v m) = true := by
  induction m generalizing lo with
  | nil =>
    unfold Memory.write
    split
    · rfl
    · simp [Memory.wfFrom, *]
  | cons e m ih =>
    obtain ⟨b, w⟩ := e
    simp only [Memory.wfFrom, Bool.and_eq_true, decide_eq_true_eq] at h
    unfold Memory.write
    split
    · split
      · simp [Memory.wfFrom, h.1.1, h.2] <;> simpa using h.1.2
      · simp [Memory.wfFrom, h.2, *] <;> omega
    · split
      · split
        · exact Memory.wfFrom_mono h.2 (by omega)
        · subst_vars; simp [Memory.wfFrom, h.2, *]
      · simp only [Memory.wfFrom, Bool.and_eq_true, decide_eq_true_eq]
        exact ⟨h.1, ih h.2 (by omega)⟩

/-- A byte written keeps the canonical form. -/
theorem Memory.wf_write {m : List Host.Cell} (a : Nat) (v : Byte) (h : Memory.wf m = true) :
    Memory.wf (Memory.write a v m) = true := Memory.wfFrom_write a v h (Nat.zero_le a)

/-- Bytes written keep the canonical form. -/
theorem Memory.wf_writeAll {m : List Host.Cell} (a : Nat) (bs : List Byte) (h : Memory.wf m = true) :
    Memory.wf (Memory.writeAll a bs m) = true := by
  induction bs generalizing a m with
  | nil => exact h
  | cons b bs ih => exact ih (a + 1) (Memory.wf_write a b h)

theorem Memory.wfFrom_clear {lo : Nat} {m : List Host.Cell} (a b : Nat) (h : Memory.wfFrom lo m = true) :
    Memory.wfFrom lo (Memory.clear a b m) = true := by
  unfold Memory.clear
  induction m generalizing lo with
  | nil => rfl
  | cons e m ih =>
    obtain ⟨k, v⟩ := e
    simp only [Memory.wfFrom, Bool.and_eq_true, decide_eq_true_eq] at h
    simp only [List.filter_cons]
    split
    · simp only [Memory.wfFrom, Bool.and_eq_true, decide_eq_true_eq]
      exact ⟨h.1, ih h.2⟩
    · exact ih (Memory.wfFrom_mono h.2 (by omega))

/-- Bytes cleared keep the canonical form. -/
theorem Memory.wf_clear {m : List Host.Cell} (a b : Nat) (h : Memory.wf m = true) : Memory.wf (Memory.clear a b m) = true :=
  Memory.wfFrom_clear a b h

/-- A byte below every listed address reads as an unlisted one. -/
theorem Memory.read_below {lo a : Nat} {m : List Host.Cell} (h : Memory.wfFrom lo m = true) (ha : a < lo) :
    Memory.read a m = Memory.unlisted := by
  cases m with
  | nil => rfl
  | cons e m =>
    obtain ⟨b, v⟩ := e
    simp only [Memory.wfFrom, Bool.and_eq_true, decide_eq_true_eq] at h
    have h1 : b ≠ a := by omega
    have h2 : a < b := by omega
    simp [Memory.read, h1, h2]

theorem Memory.read_writeFrom {lo : Nat} {m : List Host.Cell} (a k : Nat) (v : Byte) (h : Memory.wfFrom lo m = true) :
    Memory.read k (Memory.write a v m) = if k = a then v else Memory.read k m := by
  induction m generalizing lo with
  | nil =>
    unfold Memory.write
    by_cases hk : k = a
    · split <;> simp [Memory.read, hk, *]
    · have : a ≠ k := fun e => hk e.symm
      split <;> simp [Memory.read, hk, this]
  | cons e m ih =>
    obtain ⟨b, w⟩ := e
    simp only [Memory.wfFrom, Bool.and_eq_true, decide_eq_true_eq] at h
    unfold Memory.write
    by_cases hab : a < b
    · rw [if_pos hab]
      by_cases hk : k = a
      · subst hk
        have hb : b ≠ k := by omega
        split <;> simp [Memory.read, hb, hab, *]
      · have hak : a ≠ k := fun e => hk e.symm
        split
        · simp [hk]
        · by_cases hka : k < a
          · have hb : b ≠ k := by omega
            have hkb : k < b := by omega
            simp [Memory.read, hak, hk, hka, hb, hkb]
          · simp [Memory.read, hak, hk, hka]
    · rw [if_neg hab]
      by_cases he : a = b
      · rw [if_pos he]
        subst he
        by_cases hk : k = a
        · subst hk
          split
          · simp [*, Memory.read_below h.2 (Nat.lt_succ_self k)]
          · simp [Memory.read]
        · have hak : a ≠ k := fun e => hk e.symm
          by_cases hka : k < a
          · split
            · simp [Memory.read, hk, hak, hka, Memory.read_below h.2 (show k < a + 1 by omega)]
            · simp [Memory.read, hk, hak, hka]
          · split <;> simp [Memory.read, hk, hak, hka]
      · rw [if_neg he]
        by_cases hbk : b = k
        · subst hbk
          have : ¬ b = a := fun e => he e.symm
          simp [Memory.read, this]
        · by_cases hkb : k < b
          · have hk : ¬ k = a := by omega
            simp [Memory.read, hbk, hkb, hk]
          · simp [Memory.read, hbk, hkb, ih h.2]

/-- A byte reads as what was last written to it, every other byte as before. -/
theorem Memory.read_write {m : List Host.Cell} (a k : Nat) (v : Byte) (h : Memory.wf m = true) :
    Memory.read k (Memory.write a v m) = if k = a then v else Memory.read k m := Memory.read_writeFrom a k v h

/-- After consecutive bytes are written, those read as written and every other byte as before. -/
theorem Memory.read_writeAll {m : List Host.Cell} (a k : Nat) (bs : List Byte) (h : Memory.wf m = true) :
    Memory.read k (Memory.writeAll a bs m) = if a ≤ k ∧ k < a + bs.length then bs.getD (k - a) 0 else Memory.read k m := by
  induction bs generalizing a m with
  | nil =>
    simp only [Memory.writeAll, List.length_nil, Nat.add_zero]
    rw [if_neg (by omega)]
  | cons b bs ih =>
    rw [Memory.writeAll, ih (a + 1) (Memory.wf_write a b h), Memory.read_write a k b h]
    by_cases hk : k = a
    · subst hk
      have h1 : ¬ (k + 1 ≤ k ∧ k < k + 1 + bs.length) := by omega
      have h2 : k ≤ k ∧ k < k + (b :: bs).length := by simp
      simp [h1]
    · by_cases hin : a + 1 ≤ k ∧ k < a + 1 + bs.length
      · have h2 : a ≤ k ∧ k < a + (b :: bs).length := by simp; omega
        rw [if_pos hin, if_pos h2]
        obtain ⟨n, rfl⟩ : ∃ n, k = a + 1 + n := ⟨k - (a + 1), by omega⟩
        have e1 : a + 1 + n - (a + 1) = n := by omega
        have e2 : a + 1 + n - a = n + 1 := by omega
        rw [e1, e2]; simp
      · have h2 : ¬ (a ≤ k ∧ k < a + (b :: bs).length) := by simp; omega
        rw [if_neg hin, if_neg h2, if_neg hk]

/-- Reset memory is in the canonical form. -/
theorem Memory.wf_reset : Memory.wf State.reset.mem = true := rfl

end Sys2Proof.Machine
end

