-- ==== Sys2Proof/Laws/PerInstr.lean ====
section
/-! SUPPORT. The encoding of each instruction, row by row: its fields stand in their widths, its major opcode has its format, and
the candidate that the decoder reads from its fields is the instruction. -/
set_option maxRecDepth 4000
namespace Sys2Proof.Laws.Coded
/-- What the encoding of an instruction is: fields in their widths, under a major opcode of their format, that read back as the
instruction. An event has no encoding. -/
def Statement (i : Instr) : Prop :=
  ∀ r, i.toRaw = some r → r.fits ∧ fmtOf r.major = some r.fmt ∧ r.cand = some i
theorem of_row {i : Instr} {e : Raw} (h : i.toRaw = some e) (hf : e.fits) (hm : fmtOf e.major = some e.fmt)
    (hc : e.cand = some i) : Statement i := fun r hr => by
  obtain rfl : e = r := Option.some.inj (h.symm.trans hr)
  exact ⟨hf, hm, hc⟩
theorem of_event {i : Instr} (h : i.toRaw = none) : Statement i := fun r hr => by rw [h] at hr; cases hr
theorem add (x : ArgInt) : Statement (.add x) :=
  of_row rfl (ArgInt.enc_fits 0x1 0 x (by decide) (by decide)) rfl
    (congrArg (Option.map Instr.add) (ArgInt.dec_enc 0x1 0 x _ rfl))
theorem sub (x : ArgInt) : Statement (.sub x) :=
  of_row rfl (ArgInt.enc_fits 0x2 0 x (by decide) (by decide)) rfl
    (congrArg (Option.map Instr.sub) (ArgInt.dec_enc 0x2 0 x _ rfl))
theorem mul (x : ArgInt) : Statement (.mul x) :=
  of_row rfl (ArgInt.enc_fits 0x3 0 x (by decide) (by decide)) rfl
    (congrArg (Option.map Instr.mul) (ArgInt.dec_enc 0x3 0 x _ rfl))
theorem mulh (x : ArgInt) : Statement (.mulh x) :=
  of_row rfl (ArgInt.enc_fits 0x4 0 x (by decide) (by decide)) rfl
    (congrArg (Option.map Instr.mulh) (ArgInt.dec_enc 0x4 0 x _ rfl))
theorem mulhu (x : ArgInt) : Statement (.mulhu x) :=
  of_row rfl (ArgInt.enc_fits 0x5 0 x (by decide) (by decide)) rfl
    (congrArg (Option.map Instr.mulhu) (ArgInt.dec_enc 0x5 0 x _ rfl))
theorem div (x : ArgInt) : Statement (.div x) :=
  of_row rfl (ArgInt.enc_fits 0x6 0 x (by decide) (by decide)) rfl
    (congrArg (Option.map Instr.div) (ArgInt.dec_enc 0x6 0 x _ rfl))
theorem divu (x : ArgInt) : Statement (.divu x) :=
  of_row rfl (ArgInt.enc_fits 0x7 0 x (by decide) (by decide)) rfl
    (congrArg (Option.map Instr.divu) (ArgInt.dec_enc 0x7 0 x _ rfl))
theorem rem (x : ArgInt) : Statement (.rem x) :=
  of_row rfl (ArgInt.enc_fits 0x8 0 x (by decide) (by decide)) rfl
    (congrArg (Option.map Instr.rem) (ArgInt.dec_enc 0x8 0 x _ rfl))
theorem remu (x : ArgInt) : Statement (.remu x) :=
  of_row rfl (ArgInt.enc_fits 0x9 0 x (by decide) (by decide)) rfl
    (congrArg (Option.map Instr.remu) (ArgInt.dec_enc 0x9 0 x _ rfl))
theorem and (x : ArgInt) : Statement (.and x) :=
  of_row rfl (ArgInt.enc_fits 0xa 0 x (by decide) (by decide)) rfl
    (congrArg (Option.map Instr.and) (ArgInt.dec_enc 0xa 0 x _ rfl))
theorem or (x : ArgInt) : Statement (.or x) :=
  of_row rfl (ArgInt.enc_fits 0xb 0 x (by decide) (by decide)) rfl
    (congrArg (Option.map Instr.or) (ArgInt.dec_enc 0xb 0 x _ rfl))
theorem xor (x : ArgInt) : Statement (.xor x) :=
  of_row rfl (ArgInt.enc_fits 0xc 0 x (by decide) (by decide)) rfl
    (congrArg (Option.map Instr.xor) (ArgInt.dec_enc 0xc 0 x _ rfl))
theorem andn (x : ArgInt) : Statement (.andn x) :=
  of_row rfl (ArgInt.enc_fits 0xd 0 x (by decide) (by decide)) rfl
    (congrArg (Option.map Instr.andn) (ArgInt.dec_enc 0xd 0 x _ rfl))
theorem shl (x : ArgInt) : Statement (.shl x) :=
  of_row rfl (ArgInt.enc_fits 0xe 0 x (by decide) (by decide)) rfl
    (congrArg (Option.map Instr.shl) (ArgInt.dec_enc 0xe 0 x _ rfl))
theorem shr (x : ArgInt) : Statement (.shr x) :=
  of_row rfl (ArgInt.enc_fits 0xf 0 x (by decide) (by decide)) rfl
    (congrArg (Option.map Instr.shr) (ArgInt.dec_enc 0xf 0 x _ rfl))
theorem sar (x : ArgInt) : Statement (.sar x) :=
  of_row rfl (ArgInt.enc_fits 0x10 0 x (by decide) (by decide)) rfl
    (congrArg (Option.map Instr.sar) (ArgInt.dec_enc 0x10 0 x _ rfl))
theorem rol (x : ArgInt) : Statement (.rol x) :=
  of_row rfl (ArgInt.enc_fits 0x11 0 x (by decide) (by decide)) rfl
    (congrArg (Option.map Instr.rol) (ArgInt.dec_enc 0x11 0 x _ rfl))
theorem min (x : ArgInt) : Statement (.min x) :=
  of_row rfl (ArgInt.enc_fits 0x12 0 x (by decide) (by decide)) rfl
    (congrArg (Option.map Instr.min) (ArgInt.dec_enc 0x12 0 x _ rfl))
theorem max (x : ArgInt) : Statement (.max x) :=
  of_row rfl (ArgInt.enc_fits 0x13 0 x (by decide) (by decide)) rfl
    (congrArg (Option.map Instr.max) (ArgInt.dec_enc 0x13 0 x _ rfl))
theorem minu (x : ArgInt) : Statement (.minu x) :=
  of_row rfl (ArgInt.enc_fits 0x14 0 x (by decide) (by decide)) rfl
    (congrArg (Option.map Instr.minu) (ArgInt.dec_enc 0x14 0 x _ rfl))
theorem maxu (x : ArgInt) : Statement (.maxu x) :=
  of_row rfl (ArgInt.enc_fits 0x15 0 x (by decide) (by decide)) rfl
    (congrArg (Option.map Instr.maxu) (ArgInt.dec_enc 0x15 0 x _ rfl))
theorem clz (x : ArgTDA) : Statement (.clz x) :=
  of_row rfl (ArgTDA.enc_fits 0x16 0 x (by decide) (by decide)) rfl
    (congrArg (Option.map Instr.clz) (ArgTDA.dec_enc 0x16 0 x _ rfl))
theorem ctz (x : ArgTDA) : Statement (.ctz x) :=
  of_row rfl (ArgTDA.enc_fits 0x17 0 x (by decide) (by decide)) rfl
    (congrArg (Option.map Instr.ctz) (ArgTDA.dec_enc 0x17 0 x _ rfl))
theorem popc (x : ArgTDA) : Statement (.popc x) :=
  of_row rfl (ArgTDA.enc_fits 0x18 0 x (by decide) (by decide)) rfl
    (congrArg (Option.map Instr.popc) (ArgTDA.dec_enc 0x18 0 x _ rfl))
theorem bext (x : ArgBext) : Statement (.bext x) :=
  of_row rfl (ArgBext.enc_fits 0x19 0 x (by decide) (by decide)) rfl
    (congrArg (Option.map Instr.bext) (ArgBext.dec_enc 0x19 0 x _ rfl))
theorem bins (x : ArgBins) : Statement (.bins x) :=
  of_row rfl (ArgBins.enc_fits 0x1a 0 x (by decide) (by decide)) rfl
    (congrArg (Option.map Instr.bins) (ArgBins.dec_enc 0x1a 0 x _ rfl))
theorem lea (x : ArgLea) : Statement (.lea x) :=
  of_row rfl (ArgLea.enc_fits 0x1b 0 x (by decide) (by decide)) rfl
    (congrArg (Option.map Instr.lea) (ArgLea.dec_enc 0x1b 0 x _ rfl))
theorem li (x : ArgLi) : Statement (.li x) :=
  of_row rfl (ArgLi.enc_fits 0x1c 0 x (by decide) (by decide)) rfl
    (congrArg (Option.map Instr.li) (ArgLi.dec_enc 0x1c 0 x _ rfl))
theorem mov (x : ArgMov) : Statement (.mov x) :=
  of_row rfl (ArgMov.enc_fits 0x1d 0 x (by decide) (by decide)) rfl
    (congrArg (Option.map Instr.mov) (ArgMov.dec_enc 0x1d 0 x _ rfl))
theorem sel (x : ArgSel) : Statement (.sel x) :=
  of_row rfl (ArgSel.enc_fits 0x1e 0 x (by decide) (by decide)) rfl
    (congrArg (Option.map Instr.sel) (ArgSel.dec_enc 0x1e 0 x _ rfl))
theorem cmp (x : ArgCmp) : Statement (.cmp x) :=
  of_row rfl (ArgCmp.enc_fits 0x1f x (by decide)) rfl
    (congrArg (Option.map Instr.cmp) (ArgCmp.dec_enc 0x1f x _ rfl))
theorem pand (x : ArgP3) : Statement (.pand x) :=
  of_row rfl (ArgP3.enc_fits 0x20 0 x (by decide) (by decide)) rfl
    (congrArg (Option.map Instr.pand) (ArgP3.dec_enc 0x20 0 x _ rfl))
theorem por (x : ArgP3) : Statement (.por x) :=
  of_row rfl (ArgP3.enc_fits 0x21 0 x (by decide) (by decide)) rfl
    (congrArg (Option.map Instr.por) (ArgP3.dec_enc 0x21 0 x _ rfl))
theorem pxor (x : ArgP3) : Statement (.pxor x) :=
  of_row rfl (ArgP3.enc_fits 0x22 0 x (by decide) (by decide)) rfl
    (congrArg (Option.map Instr.pxor) (ArgP3.dec_enc 0x22 0 x _ rfl))
theorem pnot (x : ArgP2) : Statement (.pnot x) :=
  of_row rfl (ArgP2.enc_fits 0x23 0 x (by decide) (by decide)) rfl
    (congrArg (Option.map Instr.pnot) (ArgP2.dec_enc 0x23 0 x _ rfl))
theorem ppack (x : ArgD) : Statement (.ppack x) :=
  of_row rfl (ArgD.enc_fits 0x24 0 x (by decide) (by decide)) rfl
    (congrArg (Option.map Instr.ppack) (ArgD.dec_enc 0x24 0 x _ rfl))
theorem punpk (x : ArgPunpk) : Statement (.punpk x) :=
  of_row rfl (ArgPunpk.enc_fits 0x25 0 x (by decide) (by decide)) rfl
    (congrArg (Option.map Instr.punpk) (ArgPunpk.dec_enc 0x25 0 x _ rfl))
theorem br (x : ArgBr) : Statement (.br x) :=
  of_row rfl (ArgBr.enc_fits 0x28 x (by decide)) rfl
    (congrArg (Option.map Instr.br) (ArgBr.dec_enc 0x28 x _ rfl))
theorem jmp (x : ArgT) : Statement (.jmp x) :=
  of_row rfl (ArgT.enc_fits 0x29 0 x (by decide) (by decide)) rfl
    (congrArg (Option.map Instr.jmp) (ArgT.dec_enc 0x29 0 x _ rfl))
theorem call (x : ArgT) : Statement (.call x) :=
  of_row rfl (ArgT.enc_fits 0x2b 0 x (by decide) (by decide)) rfl
    (congrArg (Option.map Instr.call) (ArgT.dec_enc 0x2b 0 x _ rfl))
theorem loop (x : ArgLoop) : Statement (.loop x) :=
  of_row rfl (ArgLoop.enc_fits 0x2e 0 x (by decide) (by decide)) rfl
    (congrArg (Option.map Instr.loop) (ArgLoop.dec_enc 0x2e 0 x _ rfl))
theorem jr (x : ArgA) : Statement (.jr x) :=
  of_row rfl (ArgA.enc_fits 0x2a 0 x (by decide) (by decide)) rfl
    (congrArg (Option.map Instr.jr) (ArgA.dec_enc 0x2a 0 x _ rfl))
theorem callr (x : ArgA) : Statement (.callr x) :=
  of_row rfl (ArgA.enc_fits 0x2c 0 x (by decide) (by decide)) rfl
    (congrArg (Option.map Instr.callr) (ArgA.dec_enc 0x2c 0 x _ rfl))
theorem ret (x : ArgA) : Statement (.ret x) :=
  of_row rfl (ArgA.enc_fits 0x2d 0 x (by decide) (by decide)) rfl
    (congrArg (Option.map Instr.ret) (ArgA.dec_enc 0x2d 0 x _ rfl))
theorem done (x : ArgG) : Statement (.done x) :=
  of_row rfl (ArgG.enc_fits 0x2f 0 x (by decide) (by decide)) rfl
    (congrArg (Option.map Instr.done) (ArgG.dec_enc 0x2f 0 x _ rfl))
theorem rdsr (x : ArgRdsr) : Statement (.rdsr x) :=
  of_row rfl (ArgRdsr.enc_fits 0x30 0 x (by decide) (by decide)) rfl
    (congrArg (Option.map Instr.rdsr) (ArgRdsr.dec_enc 0x30 0 x _ rfl))
theorem wrsr (x : ArgWrsr) : Statement (.wrsr x) :=
  of_row rfl (ArgWrsr.enc_fits 0x31 0 x (by decide) (by decide)) rfl
    (congrArg (Option.map Instr.wrsr) (ArgWrsr.dec_enc 0x31 0 x _ rfl))
theorem fadd (x : ArgFAr) : Statement (.fadd x) :=
  of_row rfl (ArgFAr.enc_fits 0x35 0 x (by decide) (by decide)) rfl
    (congrArg (Option.map Instr.fadd) (ArgFAr.dec_enc 0x35 0 x _ rfl))
theorem fsub (x : ArgFAr) : Statement (.fsub x) :=
  of_row rfl (ArgFAr.enc_fits 0x36 0 x (by decide) (by decide)) rfl
    (congrArg (Option.map Instr.fsub) (ArgFAr.dec_enc 0x36 0 x _ rfl))
theorem fmul (x : ArgFAr) : Statement (.fmul x) :=
  of_row rfl (ArgFAr.enc_fits 0x37 0 x (by decide) (by decide)) rfl
    (congrArg (Option.map Instr.fmul) (ArgFAr.dec_enc 0x37 0 x _ rfl))
theorem fdiv (x : ArgFAr) : Statement (.fdiv x) :=
  of_row rfl (ArgFAr.enc_fits 0x39 0 x (by decide) (by decide)) rfl
    (congrArg (Option.map Instr.fdiv) (ArgFAr.dec_enc 0x39 0 x _ rfl))
theorem fmin (x : ArgFAr) : Statement (.fmin x) :=
  of_row rfl (ArgFAr.enc_fits 0x3b 0 x (by decide) (by decide)) rfl
    (congrArg (Option.map Instr.fmin) (ArgFAr.dec_enc 0x3b 0 x _ rfl))
theorem fmax (x : ArgFAr) : Statement (.fmax x) :=
  of_row rfl (ArgFAr.enc_fits 0x3c 0 x (by decide) (by decide)) rfl
    (congrArg (Option.map Instr.fmax) (ArgFAr.dec_enc 0x3c 0 x _ rfl))
theorem fma (x : ArgFma) : Statement (.fma x) :=
  of_row rfl (ArgFma.enc_fits 0x38 0 x (by decide) (by decide)) rfl
    (congrArg (Option.map Instr.fma) (ArgFma.dec_enc 0x38 0 x _ rfl))
theorem fsqrt (x : ArgFsqrt) : Statement (.fsqrt x) :=
  of_row rfl (ArgFsqrt.enc_fits 0x3a 0 x (by decide) (by decide)) rfl
    (congrArg (Option.map Instr.fsqrt) (ArgFsqrt.dec_enc 0x3a 0 x _ rfl))
theorem fcmp (x : ArgFcmp) : Statement (.fcmp x) :=
  of_row rfl (ArgFcmp.enc_fits 0x3d x (by decide)) rfl
    (congrArg (Option.map Instr.fcmp) (ArgFcmp.dec_enc 0x3d x _ rfl))
theorem fcvt (x : ArgFcvt) : Statement (.fcvt x) :=
  of_row rfl (ArgFcvt.enc_fits 0x3e x (by decide)) rfl
    (congrArg (Option.map Instr.fcvt) (ArgFcvt.dec_enc 0x3e x _ rfl))
theorem fclass (x : ArgTDA) : Statement (.fclass x) :=
  of_row rfl (ArgTDA.enc_fits 0x3f 0 x (by decide) (by decide)) rfl
    (congrArg (Option.map Instr.fclass) (ArgTDA.dec_enc 0x3f 0 x _ rfl))
theorem vadd (x : ArgV) : Statement (.vadd x) :=
  of_row rfl (ArgV.enc_fits 0x40 0 x (by decide) (by decide)) rfl
    (congrArg (Option.map Instr.vadd) (ArgV.dec_enc 0x40 0 x _ rfl))
theorem vsub (x : ArgV) : Statement (.vsub x) :=
  of_row rfl (ArgV.enc_fits 0x41 0 x (by decide) (by decide)) rfl
    (congrArg (Option.map Instr.vsub) (ArgV.dec_enc 0x41 0 x _ rfl))
theorem vmul (x : ArgV) : Statement (.vmul x) :=
  of_row rfl (ArgV.enc_fits 0x42 0 x (by decide) (by decide)) rfl
    (congrArg (Option.map Instr.vmul) (ArgV.dec_enc 0x42 0 x _ rfl))
theorem vfma (x : ArgVfma) : Statement (.vfma x) :=
  of_row rfl (ArgVfma.enc_fits 0x43 0 x (by decide) (by decide)) rfl
    (congrArg (Option.map Instr.vfma) (ArgVfma.dec_enc 0x43 0 x _ rfl))
theorem vmin (x : ArgV) : Statement (.vmin x) :=
  of_row rfl (ArgV.enc_fits 0x44 0 x (by decide) (by decide)) rfl
    (congrArg (Option.map Instr.vmin) (ArgV.dec_enc 0x44 0 x _ rfl))
theorem vmax (x : ArgV) : Statement (.vmax x) :=
  of_row rfl (ArgV.enc_fits 0x45 0 x (by decide) (by decide)) rfl
    (congrArg (Option.map Instr.vmax) (ArgV.dec_enc 0x45 0 x _ rfl))
theorem vabs (x : ArgVun) : Statement (.vabs x) :=
  of_row rfl (ArgVun.enc_fits 0x46 0 x (by decide) (by decide)) rfl
    (congrArg (Option.map Instr.vabs) (ArgVun.dec_enc 0x46 0 x _ rfl))
theorem vneg (x : ArgVun) : Statement (.vneg x) :=
  of_row rfl (ArgVun.enc_fits 0x47 0 x (by decide) (by decide)) rfl
    (congrArg (Option.map Instr.vneg) (ArgVun.dec_enc 0x47 0 x _ rfl))
theorem vand (x : ArgV) : Statement (.vand x) :=
  of_row rfl (ArgV.enc_fits 0x4a 0 x (by decide) (by decide)) rfl
    (congrArg (Option.map Instr.vand) (ArgV.dec_enc 0x4a 0 x _ rfl))
theorem vor (x : ArgV) : Statement (.vor x) :=
  of_row rfl (ArgV.enc_fits 0x4b 0 x (by decide) (by decide)) rfl
    (congrArg (Option.map Instr.vor) (ArgV.dec_enc 0x4b 0 x _ rfl))
theorem vxor (x : ArgV) : Statement (.vxor x) :=
  of_row rfl (ArgV.enc_fits 0x4c 0 x (by decide) (by decide)) rfl
    (congrArg (Option.map Instr.vxor) (ArgV.dec_enc 0x4c 0 x _ rfl))
theorem vshl (x : ArgV) : Statement (.vshl x) :=
  of_row rfl (ArgV.enc_fits 0x4d 0 x (by decide) (by decide)) rfl
    (congrArg (Option.map Instr.vshl) (ArgV.dec_enc 0x4d 0 x _ rfl))
theorem vshr (x : ArgV) : Statement (.vshr x) :=
  of_row rfl (ArgV.enc_fits 0x4e 0 x (by decide) (by decide)) rfl
    (congrArg (Option.map Instr.vshr) (ArgV.dec_enc 0x4e 0 x _ rfl))
theorem vsra (x : ArgV) : Statement (.vsra x) :=
  of_row rfl (ArgV.enc_fits 0x4f 0 x (by decide) (by decide)) rfl
    (congrArg (Option.map Instr.vsra) (ArgV.dec_enc 0x4f 0 x _ rfl))
theorem vcmp (x : ArgVcmp) : Statement (.vcmp x) :=
  of_row rfl (ArgVcmp.enc_fits 0x48 x (by decide)) rfl
    (congrArg (Option.map Instr.vcmp) (ArgVcmp.dec_enc 0x48 x _ rfl))
theorem vsel (x : ArgVsel) : Statement (.vsel x) :=
  of_row rfl (ArgVsel.enc_fits 0x49 0 x (by decide) (by decide)) rfl
    (congrArg (Option.map Instr.vsel) (ArgVsel.dec_enc 0x49 0 x _ rfl))
theorem vcvt (x : ArgVcvt) : Statement (.vcvt x) :=
  of_row rfl (ArgVcvt.enc_fits 0x50 x (by decide)) rfl
    (congrArg (Option.map Instr.vcvt) (ArgVcvt.dec_enc 0x50 x _ rfl))
theorem vexpand (x : ArgVexp) : Statement (.vexpand x) :=
  of_row rfl (ArgVexp.enc_fits 0x5d 0 x (by decide) (by decide)) rfl
    (congrArg (Option.map Instr.vexpand) (ArgVexp.dec_enc 0x5d 0 x _ rfl))
theorem vrcp (x : ArgVV) : Statement (.vrcp x) :=
  of_row rfl (ArgVV.enc_fits 0x51 0 x (by decide) (by decide)) rfl
    (congrArg (Option.map Instr.vrcp) (ArgVV.dec_enc 0x51 0 x _ rfl))
theorem vrsqrt (x : ArgVV) : Statement (.vrsqrt x) :=
  of_row rfl (ArgVV.enc_fits 0x52 0 x (by decide) (by decide)) rfl
    (congrArg (Option.map Instr.vrsqrt) (ArgVV.dec_enc 0x52 0 x _ rfl))
theorem vexp2 (x : ArgVV) : Statement (.vexp2 x) :=
  of_row rfl (ArgVV.enc_fits 0x53 0 x (by decide) (by decide)) rfl
    (congrArg (Option.map Instr.vexp2) (ArgVV.dec_enc 0x53 0 x _ rfl))
theorem vlog2 (x : ArgVV) : Statement (.vlog2 x) :=
  of_row rfl (ArgVV.enc_fits 0x54 0 x (by decide) (by decide)) rfl
    (congrArg (Option.map Instr.vlog2) (ArgVV.dec_enc 0x54 0 x _ rfl))
theorem vredsum (x : ArgVred) : Statement (.vredsum x) :=
  of_row rfl (ArgVred.enc_fits 0x55 0 x (by decide) (by decide)) rfl
    (congrArg (Option.map Instr.vredsum) (ArgVred.dec_enc 0x55 0 x _ rfl))
theorem vredmax (x : ArgVred) : Statement (.vredmax x) :=
  of_row rfl (ArgVred.enc_fits 0x56 0 x (by decide) (by decide)) rfl
    (congrArg (Option.map Instr.vredmax) (ArgVred.dec_enc 0x56 0 x _ rfl))
theorem vdot (x : ArgVdot) : Statement (.vdot x) :=
  of_row rfl (ArgVdot.enc_fits 0x5f 0 x (by decide) (by decide)) rfl
    (congrArg (Option.map Instr.vdot) (ArgVdot.dec_enc 0x5f 0 x _ rfl))
theorem vsplat (x : ArgVsplat) : Statement (.vsplat x) :=
  of_row rfl (ArgVsplat.enc_fits 0x57 0 x (by decide) (by decide)) rfl
    (congrArg (Option.map Instr.vsplat) (ArgVsplat.dec_enc 0x57 0 x _ rfl))
theorem vperm (x : ArgVperm) : Statement (.vperm x) :=
  of_row rfl (ArgVperm.enc_fits 0x58 0 x (by decide) (by decide)) rfl
    (congrArg (Option.map Instr.vperm) (ArgVperm.dec_enc 0x58 0 x _ rfl))
theorem vidx (x : ArgVidx) : Statement (.vidx x) :=
  of_row rfl (ArgVidx.enc_fits 0x59 0 x (by decide) (by decide)) rfl
    (congrArg (Option.map Instr.vidx) (ArgVidx.dec_enc 0x59 0 x _ rfl))
theorem vmovs (x : ArgVmovs) : Statement (.vmovs x) := by
  have hf := ArgVmovs.enc_fits 0x60 x (by decide)
  rcases x with ⟨g, v⟩
  cases v with
  | toScalar d a n => exact of_row rfl hf rfl (congrArg (Option.map Instr.vmovs) (ArgVmovs.dec_enc 0x60 ⟨g, .toScalar d a n⟩ _ rfl))
  | toLane d a n => exact of_row rfl hf rfl (congrArg (Option.map Instr.vmovs) (ArgVmovs.dec_enc 0x60 ⟨g, .toLane d a n⟩ _ rfl))
  | toTbl a => exact of_row rfl hf rfl (congrArg (Option.map Instr.vmovs) (ArgVmovs.dec_enc 0x60 ⟨g, .toTbl a⟩ _ rfl))
  | fromTbl d => exact of_row rfl hf rfl (congrArg (Option.map Instr.vmovs) (ArgVmovs.dec_enc 0x60 ⟨g, .fromTbl d⟩ _ rfl))
theorem vqnt (x : ArgVq) : Statement (.vqnt x) :=
  of_row rfl (ArgVq.enc_fits 0x5a 0 x (by decide) (by decide)) rfl
    (congrArg (Option.map Instr.vqnt) (ArgVq.dec_enc 0x5a 0 x _ rfl))
theorem vdqnt (x : ArgVq) : Statement (.vdqnt x) :=
  of_row rfl (ArgVq.enc_fits 0x5b 0 x (by decide) (by decide)) rfl
    (congrArg (Option.map Instr.vdqnt) (ArgVq.dec_enc 0x5b 0 x _ rfl))
theorem vscacc (x : ArgVscacc) : Statement (.vscacc x) :=
  of_row rfl (ArgVscacc.enc_fits 0x5c 0 x (by decide) (by decide)) rfl
    (congrArg (Option.map Instr.vscacc) (ArgVscacc.dec_enc 0x5c 0 x _ rfl))
theorem ldtab (x : ArgLdtab) : Statement (.ldtab x) :=
  of_row rfl (ArgLdtab.enc_fits 0x5e 0 x (by decide) (by decide)) rfl
    (congrArg (Option.map Instr.ldtab) (ArgLdtab.dec_enc 0x5e 0 x _ rfl))
theorem mma (x : ArgMma) : Statement (.mma x) :=
  of_row rfl (ArgMma.enc_fits 0x68 x (by decide)) rfl
    (congrArg (Option.map Instr.mma) (ArgMma.dec_enc 0x68 x _ rfl))
theorem accz (x : ArgAccz) : Statement (.accz x) :=
  of_row rfl (ArgAccz.enc_fits 0x69 0 x (by decide) (by decide)) rfl
    (congrArg (Option.map Instr.accz) (ArgAccz.dec_enc 0x69 0 x _ rfl))
theorem accsc (x : ArgAccsc) : Statement (.accsc x) :=
  of_row rfl (ArgAccsc.enc_fits 0x6c x (by decide)) rfl
    (congrArg (Option.map Instr.accsc) (ArgAccsc.dec_enc 0x6c x _ rfl))
theorem accst (x : ArgAccmv) : Statement (.accst x) :=
  of_row rfl (ArgAccmv.enc_fits 0x6d x (by decide)) rfl
    (congrArg (Option.map Instr.accst) (ArgAccmv.dec_enc 0x6d x _ rfl))
theorem accld (x : ArgAccmv) : Statement (.accld x) :=
  of_row rfl (ArgAccmv.enc_fits 0x6e x (by decide)) rfl
    (congrArg (Option.map Instr.accld) (ArgAccmv.dec_enc 0x6e x _ rfl))
theorem accrd (x : ArgAccrd) : Statement (.accrd x) :=
  of_row rfl (ArgAccrd.enc_fits 0x6a 0 x (by decide) (by decide)) rfl
    (congrArg (Option.map Instr.accrd) (ArgAccrd.dec_enc 0x6a 0 x _ rfl))
theorem accwr (x : ArgAccwr) : Statement (.accwr x) :=
  of_row rfl (ArgAccwr.enc_fits 0x6b 0 x (by decide) (by decide)) rfl
    (congrArg (Option.map Instr.accwr) (ArgAccwr.dec_enc 0x6b 0 x _ rfl))
theorem ld (x : ArgLd) : Statement (.ld x) :=
  of_row rfl (ArgLd.enc_fits 0x70 x (by decide)) rfl
    (congrArg (Option.map Instr.ld) (ArgLd.dec_enc 0x70 x _ rfl))
theorem st (x : ArgLd) : Statement (.st x) :=
  of_row rfl (ArgLd.enc_fits 0x71 x (by decide)) rfl
    (congrArg (Option.map Instr.st) (ArgLd.dec_enc 0x71 x _ rfl))
theorem ldc (x : ArgLd) : Statement (.ldc x) :=
  of_row rfl (ArgLd.enc_fits 0x72 x (by decide)) rfl
    (congrArg (Option.map Instr.ldc) (ArgLd.dec_enc 0x72 x _ rfl))
theorem vld (x : ArgVld) : Statement (.vld x) :=
  of_row rfl (ArgVld.enc_fits 0x73 0 x (by decide) (by decide)) rfl
    (congrArg (Option.map Instr.vld) (ArgVld.dec_enc 0x73 0 x _ rfl))
theorem vst (x : ArgVld) : Statement (.vst x) :=
  of_row rfl (ArgVld.enc_fits 0x74 0 x (by decide) (by decide)) rfl
    (congrArg (Option.map Instr.vst) (ArgVld.dec_enc 0x74 0 x _ rfl))
theorem vldc (x : ArgVld) : Statement (.vldc x) :=
  of_row rfl (ArgVld.enc_fits 0x75 0 x (by decide) (by decide)) rfl
    (congrArg (Option.map Instr.vldc) (ArgVld.dec_enc 0x75 0 x _ rfl))
theorem vgat (x : ArgVgat) : Statement (.vgat x) :=
  of_row rfl (ArgVgat.enc_fits 0x76 0 x (by decide) (by decide)) rfl
    (congrArg (Option.map Instr.vgat) (ArgVgat.dec_enc 0x76 0 x _ rfl))
theorem vsca (x : ArgVgat) : Statement (.vsca x) :=
  of_row rfl (ArgVgat.enc_fits 0x77 0 x (by decide) (by decide)) rfl
    (congrArg (Option.map Instr.vsca) (ArgVgat.dec_enc 0x77 0 x _ rfl))
theorem talloc (x : ArgDABi) : Statement (.talloc x) :=
  of_row rfl (ArgDABi.enc_fits 0x78 0 x (by decide) (by decide)) rfl
    (congrArg (Option.map Instr.talloc) (ArgDABi.dec_enc 0x78 0 x _ rfl))
theorem tallocTry (x : ArgSel) : Statement (.tallocTry x) :=
  of_row rfl (ArgSel.enc_fits 0x78 1 x (by decide) (by decide)) rfl
    (congrArg (Option.map Instr.tallocTry) (ArgSel.dec_enc 0x78 1 x _ rfl))
theorem tseal (x : ArgABi) : Statement (.tseal x) :=
  of_row rfl (ArgABi.enc_fits 0x79 0 x (by decide) (by decide)) rfl
    (congrArg (Option.map Instr.tseal) (ArgABi.dec_enc 0x79 0 x _ rfl))
theorem tdrop (x : ArgA) : Statement (.tdrop x) :=
  of_row rfl (ArgA.enc_fits 0x7a 0 x (by decide) (by decide)) rfl
    (congrArg (Option.map Instr.tdrop) (ArgA.dec_enc 0x7a 0 x _ rfl))
theorem tcount (x : ArgDA) : Statement (.tcount x) :=
  of_row rfl (ArgDA.enc_fits 0x7b 0 x (by decide) (by decide)) rfl
    (congrArg (Option.map Instr.tcount) (ArgDA.dec_enc 0x7b 0 x _ rfl))
theorem poolcfg (x : ArgPoolcfg) : Statement (.poolcfg x) :=
  of_row rfl (ArgPoolcfg.enc_fits 0x7c 0 x (by decide) (by decide)) rfl
    (congrArg (Option.map Instr.poolcfg) (ArgPoolcfg.dec_enc 0x7c 0 x _ rfl))
theorem poolst (x : ArgPoolst) : Statement (.poolst x) :=
  of_row rfl (ArgPoolst.enc_fits 0x7d 0 x (by decide) (by decide)) rfl
    (congrArg (Option.map Instr.poolst) (ArgPoolst.dec_enc 0x7d 0 x _ rfl))
theorem send (x : ArgSend) : Statement (.send x) :=
  of_row rfl (ArgSend.enc_fits 0x80 0 x (by decide) (by decide)) rfl
    (congrArg (Option.map Instr.send) (ArgSend.dec_enc 0x80 0 x _ rfl))
theorem sendLay (x : ArgSend) : Statement (.sendLay x) :=
  of_row rfl (ArgSend.enc_fits 0x80 1 x (by decide) (by decide)) rfl
    (congrArg (Option.map Instr.sendLay) (ArgSend.dec_enc 0x80 1 x _ rfl))
theorem sendt (x : ArgSendt) : Statement (.sendt x) :=
  of_row rfl (ArgSendt.enc_fits 0x81 0 x (by decide) (by decide)) rfl
    (congrArg (Option.map Instr.sendt) (ArgSendt.dec_enc 0x81 0 x _ rfl))
theorem fill (x : ArgFill) : Statement (.fill x) :=
  of_row rfl (ArgFill.enc_fits 0x82 0 x (by decide) (by decide)) rfl
    (congrArg (Option.map Instr.fill) (ArgFill.dec_enc 0x82 0 x _ rfl))
theorem fillLay (x : ArgFill) : Statement (.fillLay x) :=
  of_row rfl (ArgFill.enc_fits 0x82 1 x (by decide) (by decide)) rfl
    (congrArg (Option.map Instr.fillLay) (ArgFill.dec_enc 0x82 1 x _ rfl))
theorem wait (x : ArgWait) : Statement (.wait x) :=
  of_row rfl (ArgWait.enc_fits 0x83 0 x (by decide) (by decide)) rfl
    (congrArg (Option.map Instr.wait) (ArgWait.dec_enc 0x83 0 x _ rfl))
theorem sbstat (x : ArgSbstat) : Statement (.sbstat x) :=
  of_row rfl (ArgSbstat.enc_fits 0x84 0 x (by decide) (by decide)) rfl
    (congrArg (Option.map Instr.sbstat) (ArgSbstat.dec_enc 0x84 0 x _ rfl))
theorem fence (x : ArgFence) : Statement (.fence x) :=
  of_row rfl (ArgFence.enc_fits 0x85 x (by decide)) rfl
    (congrArg (Option.map Instr.fence) (ArgFence.dec_enc 0x85 x _ rfl))
theorem ldsc (x : ArgLdsc) : Statement (.ldsc x) :=
  of_row rfl (ArgLdsc.enc_fits 0x86 x (by decide)) rfl
    (congrArg (Option.map Instr.ldsc) (ArgLdsc.dec_enc 0x86 x _ rfl))
theorem stsc (x : ArgLdsc) : Statement (.stsc x) :=
  of_row rfl (ArgLdsc.enc_fits 0x87 x (by decide)) rfl
    (congrArg (Option.map Instr.stsc) (ArgLdsc.dec_enc 0x87 x _ rfl))
theorem xlatR (x : ArgDA) : Statement (.xlatR x) :=
  of_row rfl (ArgDA.enc_fits 0x88 0 x (by decide) (by decide)) rfl
    (congrArg (Option.map Instr.xlatR) (ArgDA.dec_enc 0x88 0 x _ rfl))
theorem xlatW (x : ArgDA) : Statement (.xlatW x) :=
  of_row rfl (ArgDA.enc_fits 0x88 1 x (by decide) (by decide)) rfl
    (congrArg (Option.map Instr.xlatW) (ArgDA.dec_enc 0x88 1 x _ rfl))
theorem xlatSet0 (x : ArgDA) : Statement (.xlatSet0 x) :=
  of_row rfl (ArgDA.enc_fits 0x88 2 x (by decide) (by decide)) rfl
    (congrArg (Option.map Instr.xlatSet0) (ArgDA.dec_enc 0x88 2 x _ rfl))
theorem xlatSet1 (x : ArgDA) : Statement (.xlatSet1 x) :=
  of_row rfl (ArgDA.enc_fits 0x88 3 x (by decide) (by decide)) rfl
    (congrArg (Option.map Instr.xlatSet1) (ArgDA.dec_enc 0x88 3 x _ rfl))
theorem tinvAll (x : ArgG) : Statement (.tinvAll x) :=
  of_row rfl (ArgG.enc_fits 0x89 0 x (by decide) (by decide)) rfl
    (congrArg (Option.map Instr.tinvAll) (ArgG.dec_enc 0x89 0 x _ rfl))
theorem tinvAsid (x : ArgA) : Statement (.tinvAsid x) :=
  of_row rfl (ArgA.enc_fits 0x89 1 x (by decide) (by decide)) rfl
    (congrArg (Option.map Instr.tinvAsid) (ArgA.dec_enc 0x89 1 x _ rfl))
theorem tinvPage (x : ArgAB) : Statement (.tinvPage x) :=
  of_row rfl (ArgAB.enc_fits 0x89 2 x (by decide) (by decide)) rfl
    (congrArg (Option.map Instr.tinvPage) (ArgAB.dec_enc 0x89 2 x _ rfl))
theorem keysetInst (x : ArgDA) : Statement (.keysetInst x) :=
  of_row rfl (ArgDA.enc_fits 0x8a 0 x (by decide) (by decide)) rfl
    (congrArg (Option.map Instr.keysetInst) (ArgDA.dec_enc 0x8a 0 x _ rfl))
theorem keysetRet (x : ArgDA) : Statement (.keysetRet x) :=
  of_row rfl (ArgDA.enc_fits 0x8a 1 x (by decide) (by decide)) rfl
    (congrArg (Option.map Instr.keysetRet) (ArgDA.dec_enc 0x8a 1 x _ rfl))
theorem keysetSt (x : ArgDA) : Statement (.keysetSt x) :=
  of_row rfl (ArgDA.enc_fits 0x8a 2 x (by decide) (by decide)) rfl
    (congrArg (Option.map Instr.keysetSt) (ArgDA.dec_enc 0x8a 2 x _ rfl))
theorem spawn (x : ArgSpawn) : Statement (.spawn x) :=
  of_row rfl (ArgSpawn.enc_fits 0x90 0 x (by decide) (by decide)) rfl
    (congrArg (Option.map Instr.spawn) (ArgSpawn.dec_enc 0x90 0 x _ rfl))
theorem callat (x : ArgCallat) : Statement (.callat x) :=
  of_row rfl (ArgCallat.enc_fits 0x91 0 x (by decide) (by decide)) rfl
    (congrArg (Option.map Instr.callat) (ArgCallat.dec_enc 0x91 0 x _ rfl))
theorem reply (x : ArgA) : Statement (.reply x) :=
  of_row rfl (ArgA.enc_fits 0x92 0 x (by decide) (by decide)) rfl
    (congrArg (Option.map Instr.reply) (ArgA.dec_enc 0x92 0 x _ rfl))
theorem jnew (x : ArgDABi) : Statement (.jnew x) :=
  of_row rfl (ArgDABi.enc_fits 0x93 0 x (by decide) (by decide)) rfl
    (congrArg (Option.map Instr.jnew) (ArgDABi.dec_enc 0x93 0 x _ rfl))
theorem jdec (x : ArgABi) : Statement (.jdec x) :=
  of_row rfl (ArgABi.enc_fits 0x94 0 x (by decide) (by decide)) rfl
    (congrArg (Option.map Instr.jdec) (ArgABi.dec_enc 0x94 0 x _ rfl))
theorem fnew (x : ArgDA) : Statement (.fnew x) :=
  of_row rfl (ArgDA.enc_fits 0x95 0 x (by decide) (by decide)) rfl
    (congrArg (Option.map Instr.fnew) (ArgDA.dec_enc 0x95 0 x _ rfl))
theorem fres (x : ArgFres) : Statement (.fres x) :=
  of_row rfl (ArgFres.enc_fits 0x96 x (by decide)) rfl
    (congrArg (Option.map Instr.fres) (ArgFres.dec_enc 0x96 x _ rfl))
theorem freg (x : ArgDAB) : Statement (.freg x) :=
  of_row rfl (ArgDAB.enc_fits 0x97 0 x (by decide) (by decide)) rfl
    (congrArg (Option.map Instr.freg) (ArgDAB.dec_enc 0x97 0 x _ rfl))
theorem tid (x : ArgTid) : Statement (.tid x) :=
  of_row rfl (ArgTid.enc_fits 0x98 0 x (by decide) (by decide)) rfl
    (congrArg (Option.map Instr.tid) (ArgTid.dec_enc 0x98 0 x _ rfl))
theorem rgnactNew (x : ArgDAB) : Statement (.rgnactNew x) :=
  of_row rfl (ArgDAB.enc_fits 0x99 0 x (by decide) (by decide)) rfl
    (congrArg (Option.map Instr.rgnactNew) (ArgDAB.dec_enc 0x99 0 x _ rfl))
theorem rgnactPark (x : ArgDA) : Statement (.rgnactPark x) :=
  of_row rfl (ArgDA.enc_fits 0x99 1 x (by decide) (by decide)) rfl
    (congrArg (Option.map Instr.rgnactPark) (ArgDA.dec_enc 0x99 1 x _ rfl))
theorem rgnactResume (x : ArgDA) : Statement (.rgnactResume x) :=
  of_row rfl (ArgDA.enc_fits 0x99 2 x (by decide) (by decide)) rfl
    (congrArg (Option.map Instr.rgnactResume) (ArgDA.dec_enc 0x99 2 x _ rfl))
theorem rgnactQuiet (x : ArgDA) : Statement (.rgnactQuiet x) :=
  of_row rfl (ArgDA.enc_fits 0x99 3 x (by decide) (by decide)) rfl
    (congrArg (Option.map Instr.rgnactQuiet) (ArgDA.dec_enc 0x99 3 x _ rfl))
theorem rgnkillKill (x : ArgDA) : Statement (.rgnkillKill x) :=
  of_row rfl (ArgDA.enc_fits 0x9a 0 x (by decide) (by decide)) rfl
    (congrArg (Option.map Instr.rgnkillKill) (ArgDA.dec_enc 0x9a 0 x _ rfl))
theorem rgnkillExit (x : ArgDA) : Statement (.rgnkillExit x) :=
  of_row rfl (ArgDA.enc_fits 0x9a 1 x (by decide) (by decide)) rfl
    (congrArg (Option.map Instr.rgnkillExit) (ArgDA.dec_enc 0x9a 1 x _ rfl))
theorem budgetRd (x : ArgD) : Statement (.budgetRd x) :=
  of_row rfl (ArgD.enc_fits 0x9b 0 x (by decide) (by decide)) rfl
    (congrArg (Option.map Instr.budgetRd) (ArgD.dec_enc 0x9b 0 x _ rfl))
theorem budgetExt (x : ArgD) : Statement (.budgetExt x) :=
  of_row rfl (ArgD.enc_fits 0x9b 1 x (by decide) (by decide)) rfl
    (congrArg (Option.map Instr.budgetExt) (ArgD.dec_enc 0x9b 1 x _ rfl))
theorem put (x : ArgPut) : Statement (.put x) :=
  of_row rfl (ArgPut.enc_fits 0xa0 0 x (by decide) (by decide)) rfl
    (congrArg (Option.map Instr.put) (ArgPut.dec_enc 0xa0 0 x _ rfl))
theorem get (x : ArgGet) : Statement (.get x) :=
  of_row rfl (ArgGet.enc_fits 0xa1 0 x (by decide) (by decide)) rfl
    (congrArg (Option.map Instr.get) (ArgGet.dec_enc 0xa1 0 x _ rfl))
theorem alt (x : ArgAlt) : Statement (.alt x) :=
  of_row rfl (ArgAlt.enc_fits 0xa2 0 x (by decide) (by decide)) rfl
    (congrArg (Option.map Instr.alt) (ArgAlt.dec_enc 0xa2 0 x _ rfl))
theorem pbind (x : ArgPbind) : Statement (.pbind x) :=
  of_row rfl (ArgPbind.enc_fits 0xa3 0 x (by decide) (by decide)) rfl
    (congrArg (Option.map Instr.pbind) (ArgPbind.dec_enc 0xa3 0 x _ rfl))
theorem portst (x : ArgPortst) : Statement (.portst x) :=
  of_row rfl (ArgPortst.enc_fits 0xa4 0 x (by decide) (by decide)) rfl
    (congrArg (Option.map Instr.portst) (ArgPortst.dec_enc 0xa4 0 x _ rfl))
theorem cload (x : ArgDAB) : Statement (.cload x) :=
  of_row rfl (ArgDAB.enc_fits 0xa5 0 x (by decide) (by decide)) rfl
    (congrArg (Option.map Instr.cload) (ArgDAB.dec_enc 0xa5 0 x _ rfl))
theorem cdrop (x : ArgDA) : Statement (.cdrop x) :=
  of_row rfl (ArgDA.enc_fits 0xa6 0 x (by decide) (by decide)) rfl
    (congrArg (Option.map Instr.cdrop) (ArgDA.dec_enc 0xa6 0 x _ rfl))
theorem cstat (x : ArgCstat) : Statement (.cstat x) :=
  of_row rfl (ArgCstat.enc_fits 0xa7 0 x (by decide) (by decide)) rfl
    (congrArg (Option.map Instr.cstat) (ArgCstat.dec_enc 0xa7 0 x _ rfl))
theorem amsg (x : ArgAmsg) : Statement (.amsg x) :=
  of_row rfl (ArgAmsg.enc_fits 0xb0 0 x (by decide) (by decide)) rfl
    (congrArg (Option.map Instr.amsg) (ArgAmsg.dec_enc 0xb0 0 x _ rfl))
theorem htabSet (x : ArgHtab) : Statement (.htabSet x) :=
  of_row rfl (ArgHtab.enc_fits 0xb1 0 x (by decide) (by decide)) rfl
    (congrArg (Option.map Instr.htabSet) (ArgHtab.dec_enc 0xb1 0 x _ rfl))
theorem htabClr (x : ArgHtab) : Statement (.htabClr x) :=
  of_row rfl (ArgHtab.enc_fits 0xb1 1 x (by decide) (by decide)) rfl
    (congrArg (Option.map Instr.htabClr) (ArgHtab.dec_enc 0xb1 1 x _ rfl))
theorem htabEpnew (x : ArgD) : Statement (.htabEpnew x) :=
  of_row rfl (ArgD.enc_fits 0xb1 2 x (by decide) (by decide)) rfl
    (congrArg (Option.map Instr.htabEpnew) (ArgD.dec_enc 0xb1 2 x _ rfl))
theorem htabEpdel (x : ArgDA) : Statement (.htabEpdel x) :=
  of_row rfl (ArgDA.enc_fits 0xb1 3 x (by decide) (by decide)) rfl
    (congrArg (Option.map Instr.htabEpdel) (ArgDA.dec_enc 0xb1 3 x _ rfl))
theorem htabRd (x : ArgHtab) : Statement (.htabRd x) :=
  of_row rfl (ArgHtab.enc_fits 0xb1 4 x (by decide) (by decide)) rfl
    (congrArg (Option.map Instr.htabRd) (ArgHtab.dec_enc 0xb1 4 x _ rfl))
theorem aadd (x : ArgAtom) : Statement (.aadd x) :=
  of_row rfl (ArgAtom.enc_fits 0xb2 x (by decide)) rfl
    (congrArg (Option.map Instr.aadd) (ArgAtom.dec_enc 0xb2 x _ rfl))
theorem aand (x : ArgAtom) : Statement (.aand x) :=
  of_row rfl (ArgAtom.enc_fits 0xb3 x (by decide)) rfl
    (congrArg (Option.map Instr.aand) (ArgAtom.dec_enc 0xb3 x _ rfl))
theorem aor (x : ArgAtom) : Statement (.aor x) :=
  of_row rfl (ArgAtom.enc_fits 0xb4 x (by decide)) rfl
    (congrArg (Option.map Instr.aor) (ArgAtom.dec_enc 0xb4 x _ rfl))
theorem axor (x : ArgAtom) : Statement (.axor x) :=
  of_row rfl (ArgAtom.enc_fits 0xb5 x (by decide)) rfl
    (congrArg (Option.map Instr.axor) (ArgAtom.dec_enc 0xb5 x _ rfl))
theorem amax (x : ArgAtom) : Statement (.amax x) :=
  of_row rfl (ArgAtom.enc_fits 0xb6 x (by decide)) rfl
    (congrArg (Option.map Instr.amax) (ArgAtom.dec_enc 0xb6 x _ rfl))
theorem amin (x : ArgAtom) : Statement (.amin x) :=
  of_row rfl (ArgAtom.enc_fits 0xb7 x (by decide)) rfl
    (congrArg (Option.map Instr.amin) (ArgAtom.dec_enc 0xb7 x _ rfl))
theorem aswp (x : ArgAtom) : Statement (.aswp x) :=
  of_row rfl (ArgAtom.enc_fits 0xb8 x (by decide)) rfl
    (congrArg (Option.map Instr.aswp) (ArgAtom.dec_enc 0xb8 x _ rfl))
theorem acas (x : ArgAtom) : Statement (.acas x) :=
  of_row rfl (ArgAtom.enc_fits 0xb9 x (by decide)) rfl
    (congrArg (Option.map Instr.acas) (ArgAtom.dec_enc 0xb9 x _ rfl))
theorem epmov (x : ArgDAB) : Statement (.epmov x) :=
  of_row rfl (ArgDAB.enc_fits 0xba 0 x (by decide) (by decide)) rfl
    (congrArg (Option.map Instr.epmov) (ArgDAB.dec_enc 0xba 0 x _ rfl))
theorem epparkPark (x : ArgDA) : Statement (.epparkPark x) :=
  of_row rfl (ArgDA.enc_fits 0xbb 0 x (by decide) (by decide)) rfl
    (congrArg (Option.map Instr.epparkPark) (ArgDA.dec_enc 0xbb 0 x _ rfl))
theorem epparkResume (x : ArgDA) : Statement (.epparkResume x) :=
  of_row rfl (ArgDA.enc_fits 0xbb 1 x (by decide) (by decide)) rfl
    (congrArg (Option.map Instr.epparkResume) (ArgDA.dec_enc 0xbb 1 x _ rfl))
theorem barv (x : ArgBarv) : Statement (.barv x) :=
  of_row rfl (ArgBarv.enc_fits 0xc0 0 x (by decide) (by decide)) rfl
    (congrArg (Option.map Instr.barv) (ArgBarv.dec_enc 0xc0 0 x _ rfl))
theorem barw (x : ArgDA) : Statement (.barw x) :=
  of_row rfl (ArgDA.enc_fits 0xc1 0 x (by decide) (by decide)) rfl
    (congrArg (Option.map Instr.barw) (ArgDA.dec_enc 0xc1 0 x _ rfl))
theorem redp (x : ArgRedp) : Statement (.redp x) :=
  of_row rfl (ArgRedp.enc_fits 0xc3 0 x (by decide) (by decide)) rfl
    (congrArg (Option.map Instr.redp) (ArgRedp.dec_enc 0xc3 0 x _ rfl))
theorem redg (x : ArgRedg) : Statement (.redg x) :=
  of_row rfl (ArgRedg.enc_fits 0xc4 0 x (by decide) (by decide)) rfl
    (congrArg (Option.map Instr.redg) (ArgRedg.dec_enc 0xc4 0 x _ rfl))
theorem bcfgSet (x : ArgBcfg) : Statement (.bcfgSet x) :=
  of_row rfl (ArgBcfg.enc_fits 0xc2 0 x (by decide) (by decide)) rfl
    (congrArg (Option.map Instr.bcfgSet) (ArgBcfg.dec_enc 0xc2 0 x _ rfl))
theorem bcfgFree (x : ArgBcfg) : Statement (.bcfgFree x) :=
  of_row rfl (ArgBcfg.enc_fits 0xc2 1 x (by decide) (by decide)) rfl
    (congrArg (Option.map Instr.bcfgFree) (ArgBcfg.dec_enc 0xc2 1 x _ rfl))
theorem bcfgBrk (x : ArgBcfg) : Statement (.bcfgBrk x) :=
  of_row rfl (ArgBcfg.enc_fits 0xc2 2 x (by decide) (by decide)) rfl
    (congrArg (Option.map Instr.bcfgBrk) (ArgBcfg.dec_enc 0xc2 2 x _ rfl))
theorem bcfgRd (x : ArgBcfg) : Statement (.bcfgRd x) :=
  of_row rfl (ArgBcfg.enc_fits 0xc2 3 x (by decide) (by decide)) rfl
    (congrArg (Option.map Instr.bcfgRd) (ArgBcfg.dec_enc 0xc2 3 x _ rfl))
theorem rcfgSet (x : ArgRcfg) : Statement (.rcfgSet x) :=
  of_row rfl (ArgRcfg.enc_fits 0xc5 0 x (by decide) (by decide)) rfl
    (congrArg (Option.map Instr.rcfgSet) (ArgRcfg.dec_enc 0xc5 0 x _ rfl))
theorem rcfgFree (x : ArgRcfg) : Statement (.rcfgFree x) :=
  of_row rfl (ArgRcfg.enc_fits 0xc5 1 x (by decide) (by decide)) rfl
    (congrArg (Option.map Instr.rcfgFree) (ArgRcfg.dec_enc 0xc5 1 x _ rfl))
theorem rcfgBrk (x : ArgRcfg) : Statement (.rcfgBrk x) :=
  of_row rfl (ArgRcfg.enc_fits 0xc5 2 x (by decide) (by decide)) rfl
    (congrArg (Option.map Instr.rcfgBrk) (ArgRcfg.dec_enc 0xc5 2 x _ rfl))
theorem rcfgRd (x : ArgRcfg) : Statement (.rcfgRd x) :=
  of_row rfl (ArgRcfg.enc_fits 0xc5 3 x (by decide) (by decide)) rfl
    (congrArg (Option.map Instr.rcfgRd) (ArgRcfg.dec_enc 0xc5 3 x _ rfl))
theorem trapCall (x : ArgCode) : Statement (.trapCall x) :=
  of_row rfl (ArgCode.enc_fits 0xc8 0 x (by decide) (by decide)) rfl
    (congrArg (Option.map Instr.trapCall) (ArgCode.dec_enc 0xc8 0 x _ rfl))
theorem trapRing (x : ArgTrapRing) : Statement (.trapRing x) :=
  of_row rfl (ArgTrapRing.enc_fits 0xc8 1 x (by decide) (by decide)) rfl
    (congrArg (Option.map Instr.trapRing) (ArgTrapRing.dec_enc 0xc8 1 x _ rfl))
theorem eret (x : ArgG) : Statement (.eret x) :=
  of_row rfl (ArgG.enc_fits 0xc9 0 x (by decide) (by decide)) rfl
    (congrArg (Option.map Instr.eret) (ArgG.dec_enc 0xc9 0 x _ rfl))
theorem brk (x : ArgCode) : Statement (.brk x) :=
  of_row rfl (ArgCode.enc_fits 0xca 0 x (by decide) (by decide)) rfl
    (congrArg (Option.map Instr.brk) (ArgCode.dec_enc 0xca 0 x _ rfl))
theorem rfill (x : ArgRfill) : Statement (.rfill x) :=
  of_row rfl (ArgRfill.enc_fits 0xcb 0 x (by decide) (by decide)) rfl
    (congrArg (Option.map Instr.rfill) (ArgRfill.dec_enc 0xcb 0 x _ rfl))
theorem rretry (x : ArgDA) : Statement (.rretry x) :=
  of_row rfl (ArgDA.enc_fits 0xcc 0 x (by decide) (by decide)) rfl
    (congrArg (Option.map Instr.rretry) (ArgDA.dec_enc 0xcc 0 x _ rfl))
theorem rretryCtx (x : ArgD) : Statement (.rretryCtx x) :=
  of_row rfl (ArgD.enc_fits 0xcc 1 x (by decide) (by decide)) rfl
    (congrArg (Option.map Instr.rretryCtx) (ArgD.dec_enc 0xcc 1 x _ rfl))
theorem rskip (x : ArgDA) : Statement (.rskip x) :=
  of_row rfl (ArgDA.enc_fits 0xcd 0 x (by decide) (by decide)) rfl
    (congrArg (Option.map Instr.rskip) (ArgDA.dec_enc 0xcd 0 x _ rfl))
theorem rkillEnt (x : ArgDA) : Statement (.rkillEnt x) :=
  of_row rfl (ArgDA.enc_fits 0xce 0 x (by decide) (by decide)) rfl
    (congrArg (Option.map Instr.rkillEnt) (ArgDA.dec_enc 0xce 0 x _ rfl))
theorem rkillCtx (x : ArgD) : Statement (.rkillCtx x) :=
  of_row rfl (ArgD.enc_fits 0xce 1 x (by decide) (by decide)) rfl
    (congrArg (Option.map Instr.rkillCtx) (ArgD.dec_enc 0xce 1 x _ rfl))
theorem frzRgn (x : ArgDA) : Statement (.frzRgn x) :=
  of_row rfl (ArgDA.enc_fits 0xcf 0 x (by decide) (by decide)) rfl
    (congrArg (Option.map Instr.frzRgn) (ArgDA.dec_enc 0xcf 0 x _ rfl))
theorem frzRd (x : ArgDA) : Statement (.frzRd x) :=
  of_row rfl (ArgDA.enc_fits 0xcf 1 x (by decide) (by decide)) rfl
    (congrArg (Option.map Instr.frzRd) (ArgDA.dec_enc 0xcf 1 x _ rfl))
theorem hpostHead (x : ArgDAB) : Statement (.hpostHead x) :=
  of_row rfl (ArgDAB.enc_fits 0xd0 0 x (by decide) (by decide)) rfl
    (congrArg (Option.map Instr.hpostHead) (ArgDAB.dec_enc 0xd0 0 x _ rfl))
theorem hpostDone (x : ArgDAB) : Statement (.hpostDone x) :=
  of_row rfl (ArgDAB.enc_fits 0xd0 1 x (by decide) (by decide)) rfl
    (congrArg (Option.map Instr.hpostDone) (ArgDAB.dec_enc 0xd0 1 x _ rfl))
theorem hpollTail (x : ArgDA) : Statement (.hpollTail x) :=
  of_row rfl (ArgDA.enc_fits 0xd1 0 x (by decide) (by decide)) rfl
    (congrArg (Option.map Instr.hpollTail) (ArgDA.dec_enc 0xd1 0 x _ rfl))
theorem hpollHead (x : ArgDA) : Statement (.hpollHead x) :=
  of_row rfl (ArgDA.enc_fits 0xd1 1 x (by decide) (by decide)) rfl
    (congrArg (Option.map Instr.hpollHead) (ArgDA.dec_enc 0xd1 1 x _ rfl))
theorem hpollDone (x : ArgDA) : Statement (.hpollDone x) :=
  of_row rfl (ArgDA.enc_fits 0xd1 2 x (by decide) (by decide)) rfl
    (congrArg (Option.map Instr.hpollDone) (ArgDA.dec_enc 0xd1 2 x _ rfl))
theorem hpollWait (x : ArgDAB) : Statement (.hpollWait x) :=
  of_row rfl (ArgDAB.enc_fits 0xd1 3 x (by decide) (by decide)) rfl
    (congrArg (Option.map Instr.hpollWait) (ArgDAB.dec_enc 0xd1 3 x _ rfl))
theorem lkrotRot (x : ArgDA) : Statement (.lkrotRot x) :=
  of_row rfl (ArgDA.enc_fits 0xd2 0 x (by decide) (by decide)) rfl
    (congrArg (Option.map Instr.lkrotRot) (ArgDA.dec_enc 0xd2 0 x _ rfl))
theorem lkrotSt (x : ArgDA) : Statement (.lkrotSt x) :=
  of_row rfl (ArgDA.enc_fits 0xd2 1 x (by decide) (by decide)) rfl
    (congrArg (Option.map Instr.lkrotSt) (ArgDA.dec_enc 0xd2 1 x _ rfl))
theorem ngloadLoad (req : LoadReq) : Statement (.ngloadLoad req) := of_event rfl
theorem tenantCreate (req : TenantReq) : Statement (.tenantCreate req) := of_event rfl
theorem placerDecision (die : Nat) : Statement (.placerDecision die) := of_event rfl
theorem placerAging (die : Nat) : Statement (.placerAging die) := of_event rfl
theorem preemptionRequest (req : PreemptReq) : Statement (.preemptionRequest req) := of_event rfl
theorem abandonedTile (cell : Nat) (pool : Nat) (tile : Nat) : Statement (.abandonedTile cell pool tile) := of_event rfl
theorem stallWatchdog (region : Nat) : Statement (.stallWatchdog region) := of_event rfl
theorem stageGovernor (cell : Nat) (slot : Nat) : Statement (.stageGovernor cell slot) := of_event rfl
theorem barrierRelease (inst : Nat) : Statement (.barrierRelease inst) := of_event rfl
theorem reductionResult (red : Nat) : Statement (.reductionResult red) := of_event rfl
theorem walkComplete (die : Nat) (column : Nat) (walk : Nat) : Statement (.walkComplete die column walk) := of_event rfl
theorem keySlotEmpty (slot : Nat) : Statement (.keySlotEmpty slot) := of_event rfl
theorem thaw (region : Nat) : Statement (.thaw region) := of_event rfl
theorem scrub (region : Nat) : Statement (.scrub region) := of_event rfl
theorem copyTokenRefill (region : Nat) (cell : Nat) : Statement (.copyTokenRefill region cell) := of_event rfl
theorem waleGroupReceive (grp : WaleGroup) : Statement (.waleGroupReceive grp) := of_event rfl
theorem waleResendTimeout (link : Nat) : Statement (.waleResendTimeout link) := of_event rfl
theorem waleRetrainComplete (link : Nat) : Statement (.waleRetrainComplete link) := of_event rfl
theorem waleDownTimeout (link : Nat) : Statement (.waleDownTimeout link) := of_event rfl
theorem rotationKeyInstall (link : Nat) : Statement (.rotationKeyInstall link) := of_event rfl
theorem rotationSwitch (link : Nat) : Statement (.rotationSwitch link) := of_event rfl
theorem rotationRetire (link : Nat) : Statement (.rotationRetire link) := of_event rfl
theorem notifyWrite (vf addr : Nat) (req : NotifyReq) : Statement (.notifyWrite vf addr req) := of_event rfl
theorem channelUnmap (vf : Nat) (chan : Nat) : Statement (.channelUnmap vf chan) := of_event rfl
theorem channelMap (req : ChanReq) : Statement (.channelMap req) := of_event rfl
theorem hostRequest (req : HostReq) : Statement (.hostRequest req) := of_event rfl
theorem spdmRequest (req : SpdmReq) : Statement (.spdmRequest req) := of_event rfl
theorem moduleReset (boot : BootInput) : Statement (.moduleReset boot) := of_event rfl
theorem imageCommit (req : CommitReq) : Statement (.imageCommit req) := of_event rfl
theorem powerSample (milliwatts : Nat) (milliamps : Nat) : Statement (.powerSample milliwatts milliamps) := of_event rfl
theorem routerPowerGate (die : Nat) (pos : Nat) : Statement (.routerPowerGate die pos) := of_event rfl
theorem routerWake (die : Nat) (pos : Nat) : Statement (.routerWake die pos) := of_event rfl
theorem vaultTemperature (vault : Nat) (celsius : Nat) : Statement (.vaultTemperature vault celsius) := of_event rfl
theorem tenantTeardown (region : Nat) : Statement (.tenantTeardown region) := of_event rfl
theorem isolationPartitionConfigure (req : PartReq) : Statement (.isolationPartitionConfigure req) := of_event rfl
theorem fetchQueueFill : Statement (.fetchQueueFill) := of_event rfl
theorem dispatch : Statement (.dispatch) := of_event rfl
theorem readyRecordArrival : Statement (.readyRecordArrival) := of_event rfl
theorem budget : Statement (.budget) := of_event rfl
theorem budgetHardLimit : Statement (.budgetHardLimit) := of_event rfl
theorem trapEntry : Statement (.trapEntry) := of_event rfl
theorem asynchronousTrap : Statement (.asynchronousTrap) := of_event rfl
theorem supervisorRunCap : Statement (.supervisorRunCap) := of_event rfl
theorem handlerRun : Statement (.handlerRun) := of_event rfl
theorem handlerCap : Statement (.handlerCap) := of_event rfl
theorem tileOpStart : Statement (.tileOpStart) := of_event rfl
theorem tileOpRetire : Statement (.tileOpRetire) := of_event rfl
theorem copyStart : Statement (.copyStart) := of_event rfl
theorem copyChunkArrival : Statement (.copyChunkArrival) := of_event rfl
theorem copyAcknowledgement : Statement (.copyAcknowledgement) := of_event rfl
theorem copyRetire : Statement (.copyRetire) := of_event rfl
theorem tallocRequestArrival : Statement (.tallocRequestArrival) := of_event rfl
theorem tallocCancel : Statement (.tallocCancel) := of_event rfl
theorem grantReplyArrival : Statement (.grantReplyArrival) := of_event rfl
theorem handleOperationArrival : Statement (.handleOperationArrival) := of_event rfl
theorem jdecArrival : Statement (.jdecArrival) := of_event rfl
theorem fresArrival : Statement (.fresArrival) := of_event rfl
theorem fregArrival : Statement (.fregArrival) := of_event rfl
theorem ownerReplyArrival : Statement (.ownerReplyArrival) := of_event rfl
theorem messageArrival : Statement (.messageArrival) := of_event rfl
theorem returnedMessageArrival : Statement (.returnedMessageArrival) := of_event rfl
theorem messageInjection : Statement (.messageInjection) := of_event rfl
theorem atomicResultArrival : Statement (.atomicResultArrival) := of_event rfl
theorem peerAccessArrival : Statement (.peerAccessArrival) := of_event rfl
theorem peerAbsentReturn : Statement (.peerAbsentReturn) := of_event rfl
theorem offerArrival : Statement (.offerArrival) := of_event rfl
theorem decide : Statement (.decide) := of_event rfl
theorem fifoItemArrival : Statement (.fifoItemArrival) := of_event rfl
theorem hubCancelArrival : Statement (.hubCancelArrival) := of_event rfl
theorem portCompletionArrival : Statement (.portCompletionArrival) := of_event rfl
theorem reductionCombine : Statement (.reductionCombine) := of_event rfl
theorem reductionPartialArrival : Statement (.reductionPartialArrival) := of_event rfl
theorem scAnnouncementArrival : Statement (.scAnnouncementArrival) := of_event rfl
theorem windowClose : Statement (.windowClose) := of_event rfl
theorem stationRequest : Statement (.stationRequest) := of_event rfl
theorem ringEntryFreed : Statement (.ringEntryFreed) := of_event rfl
theorem writePerformedAtHome : Statement (.writePerformedAtHome) := of_event rfl
theorem loadValueReturned : Statement (.loadValueReturned) := of_event rfl
theorem pbindRequestArrival : Statement (.pbindRequestArrival) := of_event rfl
theorem epmovTargetArrival : Statement (.epmovTargetArrival) := of_event rfl
end Sys2Proof.Laws.Coded
end

