-- ==== Sys2Proof/Laws/Under.lean ====
section
/-! SUPPORT. Memory under its keys (R232): what re-encrypting vault units does to bytes and tags, and which units a range touches. -/
namespace Sys2Proof.Machine

/-- What re-encrypting one vault unit does (R232): the unit takes the tag, the others keep theirs, no byte outside it changes. -/
theorem State.retag_spec (s : State) (tag : Nat × Nat) (u : Nat) (h : Memory.wf s.mem = true) :
    Memory.wf (s.retag tag u).mem = true ∧ (s.retag tag u).fresh = s.fresh
    ∧ (∀ v, (s.retag tag u).tagOf v = if v = u then tag else s.tagOf v)
    ∧ (∀ k, k / 64 ≠ u → (s.retag tag u).readByte k = s.readByte k) := by
  unfold State.retag
  split
  · rename_i ht
    refine ⟨h, rfl, fun v => ?_, fun _ _ => rfl⟩
    split
    · subst v; exact ht
    · rfl
  · have hl : ((List.range 64).map fun k => s.vaultByte tag (u * 64 + k)).length = 64 := by
      rw [List.length_map, List.length_range]
    generalize ((List.range 64).map fun k => s.vaultByte tag (u * 64 + k)) = bs at hl ⊢
    refine ⟨Memory.wf_writeAll _ _ h, rfl, fun v => ?_, fun k hk => ?_⟩
    · unfold State.tagOf Assoc.getD
      simp only
      split
      · rename_i h0
        rw [Assoc.get?_erase]
        split
        · exact h0.symm
        · rfl
      · by_cases hv : v = u
        · subst hv; simp [State.writeBytes]
        · simp [hv, State.writeBytes]
    · show Memory.read k (Memory.writeAll _ _ _) = _
      rw [Memory.read_writeAll _ _ _ h, if_neg (by omega)]
      rfl

/-- What re-encrypting several units does. -/
theorem State.retags_spec (tag : Nat × Nat) (us : List Nat) : ∀ (s : State), Memory.wf s.mem = true →
    let t := us.foldl (fun s u => s.retag tag u) s
    Memory.wf t.mem = true ∧ t.fresh = s.fresh
    ∧ (∀ v, t.tagOf v = if v ∈ us then tag else s.tagOf v)
    ∧ (∀ k, k / 64 ∉ us → t.readByte k = s.readByte k) := by
  induction us with
  | nil => intro s h; exact ⟨h, rfl, fun v => by simp, fun _ _ => rfl⟩
  | cons u us ih =>
    intro s h
    obtain ⟨h1, h2, h3, h4⟩ := State.retag_spec s tag u h
    obtain ⟨k1, k2, k3, k4⟩ := ih _ h1
    refine ⟨k1, k2.trans h2, fun v => ?_, fun k hk => ?_⟩
    · rw [List.foldl_cons, k3, h3]
      by_cases hv : v ∈ us <;> by_cases hu : v = u <;> simp [hv, hu]
    · rw [List.mem_cons] at hk
      rw [List.foldl_cons, k4 k (fun e => hk (.inr e)), h4 k (fun e => hk (.inl e))]

/-- The units of n bytes at an address are those that hold one of the bytes. -/
theorem mem_unitsOf (a n v : Nat) : v ∈ unitsOf a n ↔ ∃ k, a ≤ k ∧ k < a + n ∧ k / 64 = v := by
  unfold unitsOf
  split
  · subst n; simp; omega
  · simp only [List.mem_map, List.mem_range]
    constructor
    · rintro ⟨j, hj, rfl⟩
      by_cases h0 : j = 0
      · exact ⟨a, by omega, by omega, by omega⟩
      · exact ⟨(a / 64 + j) * 64, by omega, by omega, by omega⟩
    · rintro ⟨k, h1, h2, rfl⟩
      exact ⟨k / 64 - a / 64, by omega, by omega⟩

end Sys2Proof.Machine
end

