-- ==== Sys2Proof/Machine/Info.lean ====
section
/-! DEFINITION. The device information block: the latency table of stepping A1 (R49, with the figures of each chapter's latency
rule), the throttle (R401) and the absent cells (R398). Reading it changes nothing. -/
namespace Sys2Proof.Machine

/-- One entry of the latency table before it is packed (R49), in cycles. -/
structure Latency where
  issue : Nat
  result : Nat
  unbounded : Bool := false
  shaped : Bool := false
  variable_ : Bool := false
deriving DecidableEq, Repr

/-- The scale of a figure: the least k for which the figure, in steps of 16^k rounded up, is at most 255 (R49); 3 beyond. -/
def latencyScale (n : Nat) : Nat :=
  if n ≤ 255 then 0 else if (n + 15) / 16 ≤ 255 then 1 else if (n + 255) / 256 ≤ 255 then 2 else 3

/-- The mantissa of a figure under its scale, rounded up, at most 255 (R49). -/
def latencyMantissa (n : Nat) : Nat :=
  min 255 ((n + 16 ^ latencyScale n - 1) / 16 ^ latencyScale n)

/-- The 4-byte entry (R49). -/
def Latency.word (l : Latency) : Nat :=
  latencyMantissa l.issue * 2 ^ 16 + latencyMantissa l.result * 2 ^ 8 + latencyScale l.result * 2 ^ 6
    + latencyScale l.issue * 2 ^ 4 + l.unbounded.toNat * 8 + l.shaped.toNat * 2 + l.variable_.toNat

/-- An entry of fixed latencies. -/
def fixedLatency (issue result : Nat) : Latency := { issue := issue, result := result }

/-- An entry whose result varies up to a bound. -/
def boundedLatency (issue bound : Nat) : Latency := { issue := issue, result := bound, variable_ := true }

/-- An entry of a latency that includes a wait on another agent, with the typical figures that its entry states. -/
def waitingLatency (issue result : Nat) : Latency :=
  { issue := issue, result := result, unbounded := true, variable_ := true }

/-- An entry of the matrix unit or the copy engine: a formula, of which the constant part stands in the table. -/
def shapedLatency (issue result : Nat) : Latency :=
  { issue := issue, result := result, shaped := true, variable_ := true }

/-- The latencies of a major opcode (R93, R130, R149, R176, R199, R219, R239, R268, R284, R307, R323, R340, R355, R381, R397);
none for an unassigned one (R43). Log entry 48 says where a figure is free and how the flags are read: among them is the issue of
`stsc`, "variable, as ldsc" (R219), which may be 0 or 180. -/
def latencyOf (m : Nat) : Option Latency :=
  if (fmtOf m).isNone then none
  else if m = 0x03 then some (fixedLatency 1 3)
  else if m = 0x04 ∨ m = 0x05 then some (fixedLatency 1 4)
  else if 0x06 ≤ m ∧ m ≤ 0x09 then some (boundedLatency 1 38)
  else if m = 0x28 ∨ m = 0x29 ∨ m = 0x2a ∨ m = 0x2d then some (fixedLatency 4 0)
  else if m = 0x2b ∨ m = 0x2c ∨ m = 0x2e then some (fixedLatency 4 1)
  else if m = 0x2f then some (fixedLatency 1 0)
  else if m = 0x31 then some (fixedLatency 2 0)
  else if m ≤ 0x30 then some (fixedLatency 1 1)
  else if m = 0x35 ∨ m = 0x36 ∨ m = 0x37 ∨ m = 0x3e then some (fixedLatency 1 4)
  else if m = 0x38 then some (fixedLatency 1 5)
  else if m = 0x39 then some (boundedLatency 1 14)
  else if m = 0x3a then some (boundedLatency 1 16)
  else if m ≤ 0x3f then some (fixedLatency 1 2)
  else if m = 0x43 ∨ m = 0x5c then some (fixedLatency 1 5)
  else if m = 0x40 ∨ m = 0x41 ∨ m = 0x42 ∨ m = 0x44 ∨ m = 0x45 ∨ m = 0x48 ∨ m = 0x50 ∨ m = 0x5d ∨ m = 0x5b then
    some (fixedLatency 1 4)
  else if m = 0x51 ∨ m = 0x52 then some (boundedLatency 1 12)
  else if m = 0x53 ∨ m = 0x54 then some (boundedLatency 1 20)
  else if m = 0x5a then some (boundedLatency 1 24)
  else if m = 0x55 ∨ m = 0x56 then some (fixedLatency 2 8)
  else if m = 0x5f then some (fixedLatency 2 10)
  else if m = 0x5e then some (waitingLatency 1 (Config.latency 0x70 1))
  else if m ≤ 0x60 then some (fixedLatency 1 2)
  else if m = 0x68 then some (shapedLatency 1 20)
  else if m = 0x69 then some (shapedLatency 1 4)
  else if m = 0x6a then some (fixedLatency 1 3)
  else if m = 0x6b then some (fixedLatency 1 0)
  else if m ≤ 0x6e then some (shapedLatency 1 8)
  else if m = 0x71 ∨ m = 0x74 ∨ m = 0x77 then some (fixedLatency 1 0)
  else if m = 0x70 ∨ m = 0x73 ∨ m = 0x76 then some (waitingLatency 1 (Config.latency m 1))
  else if m = 0x72 ∨ m = 0x75 then some (waitingLatency (Config.latency m 1) (Config.latency m 1))
  else if m = 0x78 then some (waitingLatency (Config.latency m 0) (Config.latency m 1))
  else if 0x79 ≤ m ∧ m ≤ 0x7b then some (fixedLatency 4 4)
  else if m = 0x7c then some (shapedLatency 0 16)
  else if m = 0x7d then some (fixedLatency 1 4)
  else if m ≤ 0x82 then some (shapedLatency 1 1)
  else if m = 0x84 then some (fixedLatency 1 2)
  else if m = 0x86 then some (waitingLatency 0 180)
  else if m = 0x87 then some (waitingLatency (Config.latency m 0) 0)
  else if m = 0x83 ∨ m = 0x85 then some (waitingLatency 0 0)
  else if m = 0x88 then some (waitingLatency 1 (Config.latency m 1))
  else if m = 0x89 then some (waitingLatency 400 0)
  else if m = 0x8a then some (waitingLatency 2000 0)
  else if m = 0x90 ∨ m = 0x91 then some (waitingLatency 2 (Config.latency m 1))
  else if m = 0x94 then some (waitingLatency 1 0)
  else if m = 0x92 ∨ m = 0x96 ∨ m = 0x97 then some (waitingLatency 0 (Config.latency m 1))
  else if m = 0x93 ∨ m = 0x95 then some (fixedLatency 1 4)
  else if m = 0x98 then some (fixedLatency 1 1)
  else if m = 0x99 then some (waitingLatency 3000 3000)
  else if m = 0x9a then some (waitingLatency 0 0)
  else if m = 0x9b then some (fixedLatency 1 2)
  else if m = 0xa4 then some (fixedLatency 1 2)
  else if m = 0xa7 then some (waitingLatency 1 6)
  else if m ≤ 0xa2 ∨ m = 0xb0 then some (waitingLatency 1 (Config.latency m 1))
  else if m = 0xa3 then some (waitingLatency 0 (Config.latency m 1))
  else if m = 0xa5 then some (waitingLatency 4000 4000)
  else if m = 0xa6 then some (waitingLatency 2000 2000)
  else if m = 0xb1 then some (waitingLatency 20 20)
  else if m ≤ 0xb9 then some (waitingLatency 1 (Config.latency m 1))
  else if m ≤ 0xbb then some (waitingLatency 200 200)
  else if m = 0xc0 ∨ m = 0xc3 then some (waitingLatency 1 2)
  else if m = 0xc2 ∨ m = 0xc5 then some (waitingLatency 300 300)
  else if m ≤ 0xc5 then some (waitingLatency 0 (Config.latency m 1))
  else if m = 0xc8 then some (fixedLatency 1 (Config.latency m 1))
  else if m = 0xca then some (fixedLatency 1 20)
  else if m = 0xc9 then some (fixedLatency 4 0)
  else if m = 0xcb ∨ m = 0xcd then some (fixedLatency 2 2)
  else if m = 0xcc then some (waitingLatency (Config.latency m 0) 2)
  else if m = 0xce then some (waitingLatency 100 100)
  else if m = 0xcf then some (waitingLatency 500 500)
  else if m = 0xd0 then some (waitingLatency 1 300)
  else if m = 0xd1 then some (waitingLatency 1 40)
  else some (waitingLatency (Config.latency m 0) (Config.latency m 1))

/-- The entry of a major opcode in the table: bit 2 alone for an unassigned one (R49). -/
def latencyEntry (m : Nat) : Nat := ((latencyOf m).map Latency.word).getD 4

/-- The bytes of the latency table (R49): the stepping code, version 1, 256 entries, and the entries. -/
def latencyTable : List Byte :=
  leBytes 2 0xa1 ++ leBytes 2 1 ++ leBytes 4 256 ++ leBytes 8 0
    ++ (List.range 256).flatMap fun m => leBytes 4 (latencyEntry m)

/-- What the device information block shows (R49, R398, R401). -/
structure DeviceInfo where
  latencies : List Byte
  throttle : Nat
  throttleSteps : Nat
  absent : List Nat
deriving DecidableEq, Repr

/-- The device information block as the host and ngload read it. -/
def State.deviceInfo (s : State) : DeviceInfo :=
  { latencies := latencyTable, throttle := s.throttle, throttleSteps := s.throttleSteps, absent := s.absent }

end Sys2Proof.Machine
end

