-- ==== Sys2Proof/Tests/Slice0.lean ====
section
/-! SUPPORT. The model's own tests: words that the spec prints and their instructions, ill-formed terms that the checks refuse, single
steps against the spec's worked values, and for every statement a state and operands that meet its hypotheses. -/
set_option maxRecDepth 10000
set_option Elab.async false
namespace Sys2Proof.Tests
open Sys2Proof Machine

/-! ### Small states -/

/-- The guard that is always true. -/
def always : Guard := { neg := false, p := 0 }
/-- Context 0 of cell 0 runs a task, with a few addresses in its registers. -/
def at0 : State := (State.reset.placed 0).modMe fun y => { ((y.ws 5 0x1000).ws 6 0x3002).ws 7 5 with xsl := 0x1000 }
/-- Context 9 of cell 0 runs its supervisor after a trap of context 0. -/
def at9 : State :=
  let trap : Trap := { ctx := 0, async := false, ring := false, held := true, entry := 64, epc := 0x200000,
                       info := { cause := 3, val := 7, info := 0 }, region := 1, task := word (2 ^ 14), upto := 0 }
  let s := { at0.modCell 0 fun c => { c with run9 := some { trap, start := 0, tenant := 1, stopped := 0, frozenAt := none } } with cur := { cell := 0, ctx := 9, k := 0 } }
  s.modMe fun y => { y with st := .running, pc := 0x200000 }
/-- A message of class 8 to an endpoint of cell 0. -/
def aMsg : Msg where
  name := word (2 ^ 14)
  target := word (2 ^ 14)
  cls := 8
  n := 0
  words := []
  hops := 0
  cell := 0
  ctx := 0
  task := word (2 ^ 14)
  region := 1
  tenant := 1
  link := none
/-- Context 8 of cell 0 runs a handler for region 1. -/
def at8 : State :=
  let s := { at0.modCell 0 fun c => { c with run8 := some { msg := aMsg, region := 1, start := 0, cap := 4096, stopped := 0, frozenAt := none } } with cur := { cell := 0, ctx := 8, k := 0 } }
  s.modMe fun y => { y with st := .running, pc := 0x200000 }

/-! ### Witnesses: the register and vector chapters -/

/-- An integer instruction ready, with a result that is kept and one below the stack limit. -/
theorem witness_IntegerInstructionsWriteTheirResult :
    let x : ArgInt := { g := always, ty := .i32, sat := true, d := 2, a := 5, b := .reg 7 }
    ready (.sub x) x.g at0 = true ∧ belowLimit at0 2 0x1000 = false ∧ belowLimit at0 2 0xfff = true := by decide +kernel
theorem witness_ScalarWritersWriteTheirResult :
    let x : ArgBins := { g := always, d := 4, a := 5, c := 7, pos := .imm 60, len := 64 }
    ready (.bins x) x.g at0 = true ∧ belowLimit at0 4 0 = false
      ∧ ready (.mov { g := always, dst := .fcsr, src := .special .pc }) always at0 = true
      ∧ ready (.rdsr { g := always, d := 4, n := .xcause }) always at9 = true ∧ SysReg.sup .xcause = true ∧ at9.cur.ctx = 9 := by
  decide +kernel
theorem witness_PredicateWritersWriteTheirResult :
    ready (.cmp { g := always, cond := .lt, ty := .i64, pd := 0, a := 5, b := .reg 7 }) always at0 = true
      ∧ ready (.pand { g := always, d := 1, a := 2, b := 3 }) always at0 = true
      ∧ ready (.punpk { g := always, a := 5, mask := 0xff }) always at0 = true := by decide +kernel
/-- A branch taken to a target slot and one not taken, a loop that goes on and one that ends, a jump through a register. -/
theorem witness_BranchesGoToTheirTarget :
    let t : Target := { loff := 0, slot := 4 }
    let ok (pc : Word) : Bool := (at0.checkTarget 1 0 pc).isNone
    ready (.br { g := always, z := false, a := 5, t := t }) always at0 = true ∧ (at0.me.rs 5 == 0) = false
      ∧ ready (.loop { g := always, a := 7, t := t }) always at0 = true ∧ at0.me.rs 7 - 1 ≠ 0 ∧ belowLimit at0 7 4 = false
      ∧ ok (targetPc at0.me.pc t) = true ∧ at0.ctxRegion 0 0 = 1
      ∧ (at0.modMe (·.ws 7 1)).me.rs 7 - 1 = 0
      ∧ ready (.jr { g := always, a := 8 }) always (at0.modMe (·.ws 8 0x20000c)) = true ∧ ok 0x20000c = true := by decide +kernel
/-- Targets that fail each check of R30: no slot offset, no execute unit, no target bit. -/
theorem witness_BadTargetTrapsAndWritesNothing :
    at0.checkTarget 1 0 0x200001 = some { cause := 0, val := 0x200001, info := 0 }
      ∧ at0.checkTarget 1 0 0x400000 = some { cause := 1, val := 0x400000, info := 0 }
      ∧ at0.checkTarget 1 0 0x200040 = some { cause := 25, val := 0x200040, info := 0 }
      ∧ targetPc at0.me.pc { loff := 1, slot := 0 } = 0x200040 ∧ slotAligned (at0.me.pc + 1) = false
      ∧ ready (.jmp { g := always, t := { loff := 1, slot := 0 } }) always at0 = true := by decide +kernel
theorem witness_WrsrWritesItsFieldMap :
    ready (.wrsr { g := always, n := .xsl, a := 5 }) always at0 = true ∧ at0.me.task.isSome = true
      ∧ ready (.wrsr { g := always, n := .xcause, a := 5 }) always at9 = true ∧ at9.cur.ctx = 9
      ∧ ready (.wrsr { g := always, n := .xsl, a := 5 }) always at9 = true ∧ 8 ≤ at9.cur.ctx := by decide +kernel
/-- A load under way in the context. -/
def loading (s : State) : State := s.send (.cell 0) (stationPlace 0) (.stationReq (s.newAcc
  { wr := false, sp := .glb, rank := 0, tile := none, eas := [0x10000], len := 8, align := 8, data := [], dest := 7, ty := .i64,
    vec := false, acq := false, rel := false, scope := .ctx, cons := false, spBase := false, tagOk := true }))
theorem witness_DoneEndsTheTask :
    ready (.done { g := always }) always at0 = true ∧ (at0.accs 0 0).any (·.isLoad) = false ∧ at0.cur.ctx < 8
      ∧ at0.me.task = some placedTask ∧ (at0.modMe fun y => { y with task := none }).me.task = none
      ∧ 8 ≤ at8.cur.ctx ∧ ready (.done { g := always }) always at8 = true
      ∧ (at0.ctxAt 0 7).st = .idle ∧ issuing at0 = true ∧ at0.me.guard { neg := true, p := 0 } = false
      ∧ ready (.done { g := always }) always (loading at0) = true ∧ ((loading at0).accs 0 0).any (·.isLoad) = true := by decide +kernel
theorem witness_FloatInstructionsWriteTheirResult :
    let x : ArgFAr := { g := always, r := .rup, d := 4, a := 5, b := .imm 0x3f800000 }
    ready (.fdiv x) x.g at0 = true
      ∧ ready (.fcvt { g := always, fromTy := false, ty := .n64, r := .rne, d := 4, a := 5 }) always at0 = true := by decide +kernel
theorem witness_VectorLanesAreIndependent :
    let x : ArgV := { g := always, ty := .i32, r := .rne, sat := true, d := 4, a := 5, b := .sca 7 }
    ready (.vshl x) x.g at0 = true ∧ ready (.vexp2 { g := always, d := 31, a := 0 }) always at0 = true := by decide +kernel
theorem witness_VectorMovesAndReductionsWriteTheirResult :
    ready (.vredsum { g := always, ty := .i32, r := .rne, sat := true, d := 4, a := 5, c := 6 }) always at0 = true
      ∧ ready (.vredsum { g := always, ty := .f32, r := .rtz, sat := false, d := 4, a := 5, c := 6 }) always at0 = true
      ∧ ready (.vdot { g := always, ty := .i8, r := .rne, sat := false, d := 4, a := 5, b := 6, c := 7 }) always at0 = true
      ∧ ready (.vcvt { g := always, fromTy := false, ty := .bf16, r := .rne, d := 4, a := 5 }) always at0 = true
      ∧ ready (.vmovs { g := always, mv := .toTbl 31 }) always at0 = true := by decide +kernel

/-! ### Witnesses: loads, stores and what orders them -/

/-- An address register with the index s0. -/
def addr (sp : Space) (b : SReg) : MAddr := { handle := false, space := sp, base := b, index := 0, scale := 0, disp := 0 }
/-- A double-word access through s5. -/
def aLd (sp : Space) (b : SReg) : ArgLd := { g := always, ty := .i64, data := 7, addr := addr sp b, ord := .plain, scope := .ctx }
/-- A vector access through s5. -/
def aVld (sp : Space) (b : SReg) : ArgVld := { g := always, data := 3, addr := addr sp b, ord := .plain, scope := .ctx }
/-- A gather or scatter through s5. -/
def aVgat (sp : Space) (b : SReg) : ArgVgat :=
  { g := always, data := 3, space := sp, base := b, index := 4, scale := 2, disp := 0, ord := .plain, scope := .ctx }
/-- The bytes of the lane check and the conditions that a local access is performed at once. -/
def goes (s : State) (q : MemReq) : Bool := admitted s q && isLocal q && performs s q
/-- A test on the request of a resolved address. -/
def onAddr (s : State) (m : MAddr) (f : Option (Nat × Nat) × Space × Word × Word × Bool → Bool) : Bool :=
  match s.resolve m with
  | .ok r => f r
  | .error _ => false

theorem witness_LocalLoadsReadMemory :
    (onAddr at0 (aLd .loc 5).addr fun r => goes at0 (ldReq (aLd .loc 5) false r)) = true
      ∧ (onAddr at0 (aVld .vlt 5).addr fun r => goes at0 (vldReq (aVld .vlt 5) false r)) = true
      ∧ (onAddr at0 (addr .loc 5) fun r => goes at0 (ldtabReq { g := always, cons := false, addr := addr .loc 5 } r)) = true
      ∧ goes at0 (accrdReq { g := always, d := 3, a := 5, acq := false, scope := .ctx } at0.me) = true
      ∧ goes at0 (gatherReq (aVgat .loc 5) false at0.me) = true
      ∧ ready (.ld (aLd .loc 5)) always at0 = true ∧ ready (.vgat (aVgat .loc 5)) always at0 = true := by decide +kernel
theorem witness_LocalStoresWriteMemory :
    (onAddr at0 (aLd .loc 5).addr fun r => goes at0 (stReq (aLd .loc 5) at0.me r)) = true
      ∧ (onAddr at0 (aVld .vlt 5).addr fun r => goes at0 (vstReq (aVld .vlt 5) at0.me r)) = true
      ∧ goes at0 (accwrReq { g := always, a := 5, b := 3, rel := false, scope := .ctx } at0.me) = true
      ∧ goes at0 (gatherReq (aVgat .vlt 5) true at0.me) = true
      ∧ ready (.st (aLd .loc 5)) always at0 = true ∧ ready (.vsca (aVgat .vlt 5)) always at0 = true := by decide +kernel

/-- A tile of 4 KiB at `.loc` 0x1000, held with two reads to come, and its handle in s9. -/
def aTile : Tile where
  st := .held
  count := 2
  tag := 1
  region := 1
  cell := 0
  ctx := 0
  born := 0
  published := false
  raised := false
  ext := none
/-- The pool of one tile at 0x1000. -/
def aPool : Pool where
  vlt := false
  base := 0x1000
  k := 12
  deadline := 1000
  owner := 1
  tiles := [aTile]
  free := []
  queue := []
  grants := 1
  abandoned := 0
  closing := false
/-- Context 0 with the pool. -/
def withPool (s : State) : State := s.modCell 0 fun c => { c with pools := [(0, aPool)] }
/-- A count step that goes on without a trap. -/
def counted (s : State) (q : MemReq) : Bool :=
  (s.consumeAt s.cur.cell q.sp (q.eas.getD 0 0).toNat q.len (q.eas.getD 0 0) s.cur.cell s.cur.ctx).2.isNone
theorem witness_ConsumingLoadsCountDown :
    (onAddr (withPool at0) (aLd .loc 5).addr fun r => goes (withPool at0) (ldReq (aLd .loc 5) true r)
      && counted (withPool at0) (ldReq (aLd .loc 5) true r)) = true
      ∧ (onAddr (withPool at0) (aVld .loc 5).addr fun r => goes (withPool at0) (vldReq (aVld .loc 5) true r)
        && counted (withPool at0) (vldReq (aVld .loc 5) true r)) = true
      ∧ (onAddr (withPool at0) (addr .loc 5) fun r => goes (withPool at0) (ldtabReq { g := always, cons := true, addr := addr .loc 5 } r)
        && counted (withPool at0) (ldtabReq { g := always, cons := true, addr := addr .loc 5 } r)) = true
      ∧ ready (.ldc (aLd .loc 5)) always (withPool at0) = true := by decide +kernel
/-- Conditions of a global access that goes to its station. -/
def toStation (s : State) (q : MemReq) : Bool :=
  q.sp == .glb && admitted s q && (s.issueTrap (s.newAcc q)).isNone && !s.glbHeld s.cur.cell s.cur.ctx && s.stationLoad s.cur.cell < 16
/-- A cluster of cells 0 and 1, both granted to region 1; rank 1 is in s8. -/
def withPeer (s : State) : State :=
  let g := placedRegion.grants
  { s with
    clusters := [(1, { cells := [0, 1], w := 2, h := 1, inst := 200, region := 1, ctxs := [0, 0], tasks := [word (2 ^ 14), word (2 ^ 14 + 1)],
                       departed := [] })]
    regions := [(1, { placedRegion with grants := g ++ (g.map fun (x : Grant) => { x with cell := 1 }) })] }.modMe
      fun y => { y.ws 8 1 with task := y.task.map fun (t : Task) => { t with cluster := some 1, cw := 2 } }
/-- A peer address through s5, of the rank in s8. -/
def peerAddr : MAddr := { addr .peer 5 with index := 8 }
/-- Conditions of a peer access that goes to cell 1. -/
def toCell1 (s : State) (q : MemReq) : Bool :=
  q.sp == .peer && admitted s q && s.peerCell q.rank == some 1 && s.granted (s.ctxRegion 0 0) 1 .loc (q.eas.getD 0 0).toNat q.len
    && (q.cons || (s.tileCheck 1 .loc (q.eas.getD 0 0).toNat q.len q.wr (q.eas.getD 0 0)).isNone)
theorem witness_RemoteAccessesAreSent :
    (onAddr at0 (aLd .glb 5).addr fun r => toStation at0 (ldReq (aLd .glb 5) false r) && toStation at0 (stReq (aLd .glb 5) at0.me r)) = true
      ∧ (onAddr at0 (aVld .glb 5).addr fun r => toStation at0 (vldReq (aVld .glb 5) false r) && toStation at0 (vstReq (aVld .glb 5) at0.me r)) = true
      ∧ toStation at0 (gatherReq (aVgat .glb 5) false at0.me) = true ∧ toStation at0 (gatherReq (aVgat .glb 5) true at0.me) = true
      ∧ (let s := withPeer at0
         onAddr s peerAddr fun r => toCell1 s (ldReq { aLd .peer 5 with addr := peerAddr } false r)
           && toCell1 s (stReq { aLd .peer 5 with addr := peerAddr } s.me r)
           && toCell1 s (ldReq { aLd .peer 5 with addr := peerAddr } true r)) = true
      ∧ ready (.ld { aLd .peer 5 with addr := peerAddr }) always (withPeer at0) = true := by decide +kernel
/-- Whether a stop is this trap. -/
def traps (o : Option Stop) (t : TrapInfo) : Bool :=
  match o with
  | some (.trap u) => u == t
  | _ => false
/-- Each check fails in turn: alignment at an odd address, the grant at its end, the stack limit one below it, the tile of a drained pool; then
the key, of another tenant, freezes. -/
theorem witness_AccessChecksComeInOrder :
    (onAddr at0 (aLd .loc 6).addr fun r => traps (laneFault at0 (stReq (aLd .loc 6) at0.me r)) { cause := 6, val := 0x3002, info := 0 }) = true
      ∧ (let s := at0.modMe (·.ws 5 0x180000)
         onAddr s (aLd .loc 5).addr fun r => traps (laneFault s (ldReq (aLd .loc 5) false r)) { cause := 5, val := 0x180000, info := 0 }) = true
      ∧ (let s := at0.modMe (·.ws 2 0xff8)
         onAddr s (aLd .loc 2).addr fun r => (ldReq (aLd .loc 2) false r).spBase
           && traps (laneFault s (ldReq (aLd .loc 2) false r)) { cause := 27, val := 0xff8, info := 0 }) = true
      ∧ (let s := at0.modCell 0 fun c => { c with pools := [(0, { aPool with tiles := [Tile.fresh] })] }
         onAddr s (aLd .loc 5).addr fun r => (laneFault s (stReq (aLd .loc 5) s.me r)).isSome) = true
      ∧ (let s := { at0 with regions := [(1, { placedRegion with keySlot := 9 })], keys := [(9, { st := .installed, owner := 2, gen := 1 })] }
         onAddr s (aLd .vlt 5).addr fun r => match laneFault s (ldReq (aLd .vlt 5) false r) with
           | some (.freeze .key t) => t.cause == 58
           | _ => false) = true
      ∧ ready (.st (aLd .loc 6)) always at0 = true := by decide +kernel
theorem witness_FenceAndWaitHoldTheirContext :
    ready (.fence { g := always, kind := .full, scope := .mod }) always at0 = true ∧ at0.fullReady 0 0 = true
      ∧ (loading at0).fullReady 0 0 = false
      ∧ ready (.wait { g := always, l := 0, s := 0, c := 0, t := 0 }) always at0 = true
      ∧ at0.loadCount 0 0 = 0 ∧ at0.storeCount 0 0 = 0 ∧ at0.copyCount 0 0 = 0 ∧ at0.tileCount 0 0 = 0
      ∧ (loading at0).loadCount 0 0 = 1 := by decide +kernel

/-! ### Witnesses: matrix operations, copies, status reads, translation -/

/-- No completion action. -/
def noAct : Compl := { act := .none, c := 0, acq := false, rel := false, scope := .ctx }
/-- Operands of a tile operation: C at row 0, A at 0x1000, B at 0x3040, 16 rows and 16 columns. -/
def anMma : ArgMma :=
  { g := always, set := true, pair := .bf16, r := .rne, d := 0, a := 5, b := 8, m := .m16, n6 := 1, ca := false, cb := false, fin := noAct }
/-- The operands of `anMma`. -/
def mmaOps (s : State) : List Opnd := [accTile (s.me.rs 0) 16 16 true, locOpnd (s.me.rs 5) 1024 false, locOpnd (s.me.rs 8) 1024 false]
/-- A copy engine and a tile queue without room for context 0. -/
def fullQueue (s : State) : State := s.modCell 0 fun c => { c with tileq := List.replicate 8 (tileOpOf s (.mma true .bf16) .rne 16 16 false false 0 0 0 noAct) }
theorem witness_MatrixOperationsAreQueued :
    let s := at0.modMe (·.ws 8 0x3040)
    tileFault s (mmaOps s) [] = none ∧ tileRoom s 3 = true ∧ tileRoom (fullQueue s) 3 = false
      ∧ (tileFault at0 (mmaOps (at0.modMe (·.ws 8 0x3041))) []).map (·.cause) = some 4
      ∧ ready (.mma anMma) always s = true ∧ ready (.mma anMma) always (fullQueue s) = true := by decide +kernel
/-- A `send` of 64 bytes from `.loc` 0x1000 to this cell's `.vlt` at 0. -/
def aSend : ArgSend :=
  { g := always, sspace := .loc, dspace := .vlt, d := 4, a := 5, b := 8, n := 64, cons := false, fin := noAct }
/-- The request of a send of the layout given. -/
def aSendReq (s : State) (cons : Bool) (lay : Layout) : CopyReq :=
  { src := .loc, base := (s.me.rs 5).toNat, dst := destOf .vlt (s.me.rs 8), lay, layAddr := 0, cons, fill := false, handle := none, d := 4,
    item := none, fin := noAct }
/-- Whether the copy's source tile is found or not needed. -/
def hasSource (s : State) (q : CopyReq) : Bool :=
  match s.sourceTile q q.from_.1 q.from_.2 with
  | .ok _ => true
  | .error _ => false
theorem witness_CopiesAreQueued :
    at0.destFault 1 false (at0.me.rs 8) = none ∧ copyAdmitted at0 (aSendReq at0 false (Layout.flat 64)) = true
      ∧ hasSource at0 (aSendReq at0 false (Layout.flat 64)) = true
      ∧ copyAdmitted (withPool at0) (aSendReq at0 true (Layout.flat 64)) = true
      ∧ hasSource (withPool at0) (aSendReq at0 true (Layout.flat 64)) = true
      ∧ ready (.send aSend) always at0 = true
      ∧ (let h := mkHandle 0 0 0 1
         let s := (withPool at0).modMe fun y => (y.ws 9 h).ws 10 h
         hFormed h = true ∧ hCell h = 0 ∧ Assoc.get? (hPool h) (s.cell 0).pools = some aPool ∧ hIdx h < aPool.tiles.length
           ∧ ready (.sendt { g := always, d := 4, a := 9, b := 10, remote := false, link := 0, cons := false, fin := noAct }) always s = true) := by
  decide +kernel
/-- A layout record of one run of 64 bytes at `.loc` 0x1000. -/
def withLayout (s : State) : State := s.writeBytes (locA 0 0x1000) (leBytes 4 64 ++ leBytes 4 1 ++ leBytes 4 1)
theorem witness_layout_records_are_read :
    (match (withLayout at0).readLayout 0x1000 with
      | .ok l => decide (l = Layout.flat 64)
      | .error _ => false) = true := by decide +kernel
theorem witness_StatusReadsWriteTheirWord :
    ready (.sbstat { g := always, d := 4, sel := .entry 127 }) always at0 = true
      ∧ ready (.cstat { g := always, d := 4, a := 5, sel := .slot }) always at0 = true
      ∧ (at0.me.rs 5).toNat < 2 ^ 14 ∧ (at0.me.rs 5).toNat % 2 ^ 10 ≤ 959 ∧ 959 < (at0.modMe (·.ws 5 960)).me.rs 5 % 2 ^ 10
      ∧ ready (.poolst { g := always, d := 4, a := 0, sel := 6 }) always (withPool at0) = true
      ∧ Assoc.get? 0 ((withPool at0).cell 0).pools = some aPool ∧ Assoc.get? 0 (at0.cell 0).pools = none
      ∧ ready (.htabRd { g := always, d := 4, a := 0, cls := 31 }) always at0 = true ∧ at0.cur.ctx < 8
      ∧ ready (.frzRd { g := always, d := 4, a := 8 }) always (at9.modMe (·.ws 8 9)) = true ∧ at9.cur.ctx = 9
      ∧ ready (.keysetSt { g := always, d := 4, a := 8 }) always (at9.modMe (·.ws 8 1023)) = true
      ∧ ready (.hpollTail { g := always, d := 4, a := 0 }) always at0 = true := by decide +kernel
/-- A 64 KiB leaf of region 1's first page. -/
def aLeaf : Leaf := { asid := 1, page := 0, size := 0, kind := .R, key := 0, w := true, r := true, frame := 0x10000 }
/-- The state whose station of cell 0 holds the leaf. -/
def withLeaf (s : State) : State := { s with stations := [(stationOf 0, { leaves := [aLeaf], walks := [] })] }
theorem witness_ProbesWriteTheTranslation :
    ready (.xlatR { g := always, d := 4, a := 5 }) always (withLeaf at0) = true
      ∧ ((withLeaf at0).station (stationOf 0)).leaves.find? (fun l => l.serves ((withLeaf at0).asidOf 0 0) 0x1000) = some aLeaf
      ∧ ready (.xlatSet0 { g := always, d := 4, a := 8 }) always (at9.modMe (·.ws 8 63)) = true
      ∧ ready (.xlatSet1 { g := always, d := 4, a := 8 }) always (at9.modMe (·.ws 8 64)) = true := by decide +kernel
theorem witness_InvalidationDropsLeaves :
    at9.cur.ctx = 9 ∧ at9.releaseReady 0 9 .mod = true ∧ usesLeaf at9 (fun _ => true) = false
      ∧ ready (.tinvAll { g := always }) always at9 = true
      ∧ usesLeaf ((withLeaf at9).send (.cell 0) (.cell 0) (.glb { at0.newAcc (ldReq (aLd .glb 5) false (none, .glb, 0, 0x1000, true)) with
          pieces := [{ lane := 0, off := 0, len := 8, home := 0x11000, leaf := some aLeaf }], done := true })) (fun _ => true) = true := by decide +kernel
/-- A key blob for slot 1 of session 7 at `.loc` 0x1000. -/
def withBlob (s : State) : State := { s.writeBytes (locA 0 0x1000) (leBytes 4 7 ++ leBytes 4 1) with sessions := [7] }
theorem witness_KeySlotsInstallAndRetire :
    let x : ArgDA := { g := always, d := 4, a := 8 }
    let s := at9.modMe (·.ws 8 0x1000)
    ready (.keysetInst x) always s = true ∧ s.grantCheck 0 9 .loc 0x1000 112 false = true
      ∧ s.tileCheck 0 .loc 0x1000 112 false 0x1000 = none ∧ (s.cell 0).conflicts .loc 0x1000 112 false = false ∧ s.localHeld 0 9 [] = false
      ∧ s.installStatus (s.readLocal 0 .loc 0x1000 112) = 2
      ∧ ready (.keysetInst x) always (at9.modMe (·.ws 8 0x1008)) = true
      ∧ ready (.keysetRet x) always (at9.modMe (·.ws 8 1023)) = true ∧ at9.slotForeign 1023 1 = false ∧ (at9.keySlot 1023).st = .empty
      ∧ (let t := { at9 with keys := [(1023, { st := .installed, owner := 1, gen := 1 })] }
         t.slotForeign 1023 t.myTenant = false ∧ (t.keySlot 1023).st ≠ .empty) := by decide +kernel

/-! ### Witnesses: tiles, pools, sequentially consistent accesses, tasks and their objects -/

theorem witness_TileRequestsReachTheirController :
    at0.designatorBad 1 0 = false ∧ at0.designatorBad 1 (at0.me.rs 6) = true
      ∧ ready (.talloc { g := always, d := 4, a := 0, b := .imm 255 }) always at0 = true ∧ at0.cur.ctx ≠ 8
      ∧ (at0.me.srcB (.imm 255)).toNat = 255 ∧ (at0.me.srcB (.imm 256)).toNat = 256
      ∧ ready (.tallocTry { g := always, d := 4, p := 7, a := 0, b := .imm 0 }) always at0 = true := by decide +kernel
/-- The handle of the pool's tile in s9. -/
def withHandle (s : State) : State := (withPool s).modMe (·.ws 9 (mkHandle 0 0 0 1))
theorem witness_HandleOperationsActOnTheirTile :
    let s := withHandle at0
    let h := s.me.rs 9
    hFormed h = true ∧ hCell h = 0 ∧ (s.handleAt 0 1 h 0 0 0).2.2 = none
      ∧ ((s.handleAt 0 0 h 1 0 0).2.2).map (·.cause) = some 52
      ∧ ready (.tdrop { g := always, a := 9 }) always s = true
      ∧ hFormed (mkHandle 1 0 0 1) = true ∧ hCell (mkHandle 1 0 0 1) ≠ 0 ∧ hFormed (mkHandle 960 0 0 1) = false
      ∧ hFormed (mkHandle 959 7 4095 4095) = true
      ∧ ready (.tseal { g := always, a := 9, b := .imm 255 }) always s = true := by decide +kernel
/-- A tile in each state. -/
theorem witness_TileEventsFollowTheirTable :
    Tile.fresh.st = .free ∧ ({ aTile with st := .unsealed } : Tile).st = .unsealed ∧ aTile.st = .held ∧ aTile.published = false
      ∧ ({ aTile with st := .consuming, count := 1 } : Tile).st = .consuming ∧ ({ aTile with st := .draining, count := 0 } : Tile).st = .draining := by
  decide +kernel
/-- A configuration word for one tile of 4 KiB owned by region 1, at a free address and at one outside the grant. -/
theorem witness_PoolsAreConfigured :
    let w : Nat := 12 * 2 ^ 8 + 1 * 2 ^ 16 + 1 * 2 ^ 48
    let r := { placedRegion with poolQuota := 0x1000 }
    let s := { at9 with regions := [(1, r)] }
    s.cur.ctx = 9 ∧ s.poolStatus 0 7 w 0x1000 = 0 ∧ s.poolStatus 0 7 w 0x180000 = 3 ∧ s.poolStatus 0 8 w 0x1000 = 2
      ∧ ready (.poolcfg { g := always, d := 4, a := 5, b := 6, c := 7, deadline := 100 }) always s = true := by decide +kernel
theorem witness_SequentiallyConsistentAccessesAnnounce :
    let x : ArgLdsc := { g := always, ty := .i64, data := 7, addr := addr .loc 5 }
    at0.laneCheck 0 0 (scReq x true at0.me) (at0.me.eaOf x.addr) = none
      ∧ at0.keyCheck 0 .loc 0x1000 8 1 0x1000 = none ∧ at0.fullReady 0 0 = true ∧ (loading at0).fullReady 0 0 = false
      ∧ ready (.stsc x) always at0 = true ∧ ready (.ldsc { x with data := 4 }) always (loading at0) = true
      ∧ (at0.laneCheck 0 0 (scReq { x with addr := addr .loc 6 } false at0.me) (at0.me.rs 6)).isSome = true := by decide +kernel

/-- A task type of tenant 1: it starts at the placed line, with 16 scalars, 4 vectors and a frame of 256 bytes. -/
def aType : TaskType where
  entry := placedPc
  sregs := 16
  vregs := 4
  ports := 2
  valid := true
  actor := false
  cluster := false
  frame := 256
  budget := 1000
  cw := 1
  ch := 1
  rates := []
  high := 0
  low := 0
  ncells := 1
  binds := []
  launch := [0]
/-- The state with the type as type 0 of tenant 1. -/
def withType (s : State) : State := { s with types := [(1, [aType])] }
theorem witness_SpawnAndCallatSendOneRecord :
    let s := (withType at0).modMe fun y => y.ws 8 (mkHead 0 0 2 0)
    let x : ArgSpawn := { g := always, a := 0, hReg := true, h := 8, rReg := true, r := 0, mask := 3 }
    ready (.spawn x) always s = true ∧ s.headFault 1 (s.me.rs 8) = none ∧ headArgc (s.me.rs 8) = 2 ∧ s.targetFault 1 0 = none
      ∧ s.releaseReady 0 0 .mod = true ∧ (loading s).releaseReady 0 0 .mod = false
      ∧ (at0.headFault 1 0).isSome = true ∧ (s.targetFault 1 0x800).isSome = true
      ∧ (∀ k, k < 2 → bit 3 k = true)
      ∧ ready (.callat { g := always, a := 0, t := .imm 0, c := 0 }) always s = true ∧ s.headFault 1 (word (4 * 2 ^ 16)) = none
      ∧ s.refFault 1 27 0 = none ∧ (s.refFault 1 27 0x8000000).isSome = true
      ∧ 2 ^ 16 ≤ (s.me.srcB (.imm 0x10000)).toNat := by decide +kernel
theorem witness_SignalsToOwnersAreSent :
    ready (.reply { g := always, a := 7 }) always at0 = true ∧ at0.cur.ctx ≠ 8
      ∧ (at0.me.task.map (·.record.reply)).getD 0 = 0
      ∧ ready (.fres { g := always, fault := false, a := 0, b := 7 }) always at0 = true ∧ at0.refFault 1 27 0 = none
      ∧ at0.replyLoad 0 < 64 ∧ at0.releaseReady 0 0 .mod = true ∧ (loading at0).releaseReady 0 0 .mod = false
      ∧ ready (.freg { g := always, d := 4, a := 0, b := 0 }) always at0 = true ∧ at0.contFault 1 0 = none
      ∧ (at0.contFault 1 (1 <<< 62)).isSome = true
      ∧ ready (.jdec { g := always, a := 0, b := .imm 1 }) always at0 = true ∧ at0.refFault 1 25 0 = none := by decide +kernel
theorem witness_NewObjectsAreWritten :
    ready (.jnew { g := always, d := 4, a := 5, b := .imm 1 }) always at0 = true ∧ (at0.me.rs 5).toNat % 64 = 0
      ∧ writable at0 0x1000 8 = true ∧ writable at0 0x1000 16 = true
      ∧ ready (.fnew { g := always, d := 4, a := 6 }) always at0 = true ∧ (at0.me.rs 6).toNat % 16 ≠ 0 := by decide +kernel

/-! ### Witnesses: regions, ports and hubs -/

/-- An image that sets nothing at `.loc` 0x1000, and the parent, region 1, in s8. -/
def imageAt (bs : List Byte) : State := (at9.writeBytes (locA 0 0x1000) bs).modMe fun y => (y.ws 5 0x1000).ws 8 1
/-- A region image with the set mask. -/
def regionImage (set : Nat) : List Byte := leBytes 8 set ++ List.replicate 120 0
/-- Whether a result is the failure e. -/
def failsWith (r : Except Nat Region) (e : Nat) : Bool :=
  match r with
  | .ok _ => false
  | .error k => k == e
/-- Whether a read gives these bytes. -/
def reads (r : Except Stop (List Byte)) (bs : List Byte) : Bool :=
  match r with
  | .ok x => x == bs
  | .error _ => false
theorem witness_RegionsAreCreated :
    let s := imageAt (regionImage 0)
    ready (.rgnactNew { g := always, d := 4, a := 5, b := 8 }) always s = true ∧ s.cur.ctx = 9
      ∧ reads (s.syncRead (s.me.rs 5) 128 64) (regionImage 0) = true ∧ (s.me.rs 8).toNat = 1
      ∧ (match s.newRegion (regionImage 0) [] 1 with
          | .ok r => r.parent == 1 && r.depth == 1
          | .error _ => false) = true
      ∧ failsWith (s.newRegion (regionImage 1) [] 1) 1 = false ∧ failsWith (s.newRegion (regionImage (2 ^ 15)) [] 1) 1 = true
      ∧ failsWith (s.newRegion (regionImage 2) [] 1) 1 = true ∧ failsWith (s.newRegion (regionImage 0) [none] 1) 1 = true
      ∧ failsWith (s.newRegion (regionImage 0) [] 2) 3 = true ∧ s.mine 1 = true
      ∧ failsWith ({ s with regions := [(1, { placedRegion with depth := 8 })] }.newRegion (regionImage 0) [] 1) 2 = true
      ∧ failsWith ({ s with regions := [(1, { placedRegion with depth := 7 })] }.newRegion (regionImage 0) [] 1) 2 = false := by
  decide +kernel
/-- Region 2, a child of region 1. -/
def child : Region := { placedRegion with parent := 1, depth := 1 }
/-- Context 9 with region 2, its number in s8. -/
def withChild (r : Region) : State := { at9 with regions := [(1, placedRegion), (2, r)] }.modMe (·.ws 8 2)
theorem witness_RegionsParkResumeAndCount :
    let x : ArgDA := { g := always, d := 4, a := 8 }
    let s := withChild child
    ready (.rgnactPark x) always s = true ∧ ready (.rgnactResume x) always s = true ∧ ready (.rgnactQuiet x) always s = true
      ∧ s.mine 2 = true ∧ s.mine 3 = false ∧ (∀ c ∈ s.cells, s.busyOn c.1 2 = false) ∧ (∃ c ∈ s.cells, s.busyOn c.1 1 = true)
      ∧ ((withChild { child with parked := true }).region 2).map (·.parked) = some true
      ∧ (s.region 2).bind (·.wave) = none
      ∧ ((withChild { child with wave := some (0, 0) }).region 2).bind (·.wave) = some (0, 0) ∧ s.waveOf [2] = (0, 0) := by decide +kernel
theorem witness_RegionsEndAndBudgetsExtend :
    let x : ArgDA := { g := always, d := 4, a := 8 }
    let s := withChild child
    ready (.rgnkillKill x) always s = true ∧ ready (.rgnkillExit x) always s = true
      ∧ s.killable 2 = true ∧ s.killable 1 = false ∧ s.killable 3 = false
      ∧ s.subtree 2 = [2] ∧ s.waveOf (s.subtree 2) = (0, 0) ∧ (s.region 2).bind (·.wave) ≠ some (s.waveOf [2])
      ∧ ((withChild { child with wave := some (0, 0) }).region 2).bind (·.wave) = some (s.waveOf [2])
      ∧ (s.endSubtree 2).subtreeBusy 2 = false ∧ (((s.endSubtree 2).region 2).map (·.dying)) = some true
      ∧ ((s.modCell 0 fun c => { c with tileq := [{ (tileOpOf s (.mma true .bf16) .rne 16 16 false false 0 0 0
          { act := .none, c := 0, acq := false, rel := false, scope := .ctx }) with region := 2, started := true }] }).endSubtree 2).subtreeBusy 2 = true
      ∧ ready (.budgetExt { g := always, d := 4 }) always s = true
      ∧ ((s.cell 0).run9).map s.extStatus = some 2
      ∧ (let r := { at9 with regions := [(1, { placedRegion with ext := 50 })] }
         ((r.cell 0).run9).map (fun q => r.extStatus { q with trap := { q.trap with info := { cause := 31, val := 0, info := 0 } } }) = some 0) := by
  decide +kernel
theorem witness_TearDownEndsTheSubtree :
    let s := withChild child
    (2 ∈ s.subtree 2) ∧ (s.region 2).isSome = true ∧ ((s.finishTearDown 2).region 2).isSome = false ∧ ((s.finishTearDown 2).region 1).isSome = true := by
  decide +kernel

/-- A hub image with an `out` port 0, an `in` port 1 and one transition that joins them. -/
def anImage : HubImage where
  ports := [{ index := 0, isIn := false, actor := false, aslot := 0 }, { index := 1, isIn := true, actor := false, aslot := 0 }]
  fifos := []
  terms := []
  trans := [{ ports := 3, gTrue := 0, gFalse := 0, gives := 2, fallback := false, pushes := false, takes := [], routeP := [0, 0], routeF := [] }]
  actor := none
  creg := 0
/-- The hub of cell 0 with the image in slot 0, of connector 0. -/
def withHub (s : State) : State :=
  let t := s.modCell 0 fun c => { c with hub := [(0, s.freshSlot anImage 0 1 1)] }
  { t with directory := [(1, mkPort 0 0, 0, 0), (1, mkPort 0 1, 0, 0)] }
/-- A port in a slot of the context. -/
def slotOf (name : Word) (isIn : Bool) : Option PortSlot := some { name, isStatic := false, conflict := false, isIn, hub := 0, slot := 0 }
/-- Slot 0 holds the `out` port, slot 15 the `in` port, slot 3 an `out` port of link 2. -/
def withSlots (s : State) : State :=
  (withHub s).modMe fun y => { y with
    slots := (((y.slots.set 0 (slotOf (mkPort 0 0) false)).set 15 (slotOf (mkPort 0 1) true)).set 3 (slotOf (word (2 ^ 40 + 2 * 2 ^ 41)) false)) }
theorem witness_PutAndGetOfferOnce :
    let s := withSlots at0
    ready (.put { g := always, k := 0, d := 4, a := 5 }) always s = true ∧ ready (.get { g := always, k := 15, d := 4 }) always s = true
      ∧ s.cur.ctx < 8 ∧ s.slotReason 0 (some false) = none ∧ s.slotReason 15 (some true) = none
      ∧ s.slotReason 15 (some false) = some 3 ∧ s.slotReason 14 (some false) = some 1 ∧ s.slotReason 0 (some true) = some 3
      ∧ ((s.me.slots.getD 0 none).bind fun p => s.linkFault s.taskTenant p.name) = none
      ∧ s.slotReason 3 (some false) = none ∧ ((s.me.slots.getD 3 none).bind fun p => s.linkFault s.taskTenant p.name).isSome = true
      ∧ s.releaseReady 0 0 (s.offerScope 0) = true ∧ (loading s).releaseReady 0 0 ((loading s).offerScope 0) = false := by decide +kernel
theorem witness_AltOffersAtEverySlot :
    let s := withSlots at0
    ready (.alt { g := always, d := 4, a := 5, mask := 0x8001 }) always s = true ∧ s.cur.ctx < 8
      ∧ altFault s (maskSlots 0x8001) = none ∧ maskSlots 0x8001 = [0, 15]
      ∧ (altFault s (maskSlots 0x8)).isSome = true ∧ (altFault s (maskSlots 0x4000)).isSome = true
      ∧ ((maskSlots 0x8001).filterMap fun k => (s.me.slots.getD k none).map (·.hub)).eraseDups = [0]
      ∧ s.releaseReady 0 0 .mod = true ∧ (loading s).releaseReady 0 0 .mod = false := by decide +kernel
theorem witness_PbindUnbindsThenAsks :
    let s := withSlots at0
    ready (.pbind { g := always, k := 15, a := 5 }) always s = true ∧ (s.me.task.map (·.ports)).getD 0 = 16
      ∧ ready (.pbind { g := always, k := 15, a := 5 }) always (s.modMe fun y => { y with task := y.task.map fun t => { t with ports := 15 } }) = true
      ∧ portFormed (mkPort 0 1) = true ∧ portRemote (mkPort 0 1) = false ∧ portFormed 0x100 = false
      ∧ ((s.unbindSlot 0 0 15).lookup s.taskTenant (mkPort 0 1)).isSome = true
      ∧ ((s.unbindSlot 0 0 15).lookup s.taskTenant (mkPort 7 1)).isSome = false
      ∧ portFormed (word (2 ^ 40)) = true ∧ portRemote (word (2 ^ 40)) = true ∧ (s.unbindSlot 0 0 15).linkFault s.taskTenant (word (2 ^ 40)) ≠ none := by
  decide +kernel
/-- A hub image as bytes: one `out` port and one transition. -/
def imageBytes : List Byte :=
  leBytes 4 0x0142484e ++ leBytes 2 1 ++ [1, 0, 1, 0] ++ leBytes 2 7 ++ leBytes 2 0xffff ++ [0, 0] ++ List.replicate 112 0
    ++ leBytes 2 1 ++ List.replicate 14 0 ++ List.replicate 24 255 ++ List.replicate 24 0
theorem witness_HubsLoadAndDrop :
    let s := (imageAt imageBytes).modMe (·.ws 8 0x100000000)
    ready (.cload { g := always, d := 4, a := 5, b := 8 }) always s = true ∧ s.cur.ctx = 9
      ∧ reads (s.syncRead (s.me.rs 5) 128 64) (imageBytes.take 128) = true ∧ hubImageSize (imageBytes.take 128) = 192
      ∧ reads (s.syncRead (s.me.rs 5) 192 64) imageBytes = true
      ∧ (match s.loadHub 0 imageBytes 7 1 s.myTenant with
          | .ok (j, _) => j == 0
          | .error _ => false) = true
      ∧ (match s.loadHub 0 (imageBytes.drop 1) 7 1 s.myTenant with
          | .ok _ => false
          | .error e => e == 1) = true
      ∧ (let t := withHub at9
         ready (.cdrop { g := always, d := 4, a := 0 }) always t = true
           ∧ (((t.cell 0).hub.find? fun h => h.2.conn == 0 && h.2.image.creg == 0 && h.2.tenant == t.myTenant)).isSome = true
           ∧ ((at9.cell 0).hub.find? fun h => h.2.conn == 0).isSome = false) := by decide +kernel

/-! ### Witnesses: atomics, messages, barriers and reductions -/

/-- An add of s7 at an address through s5, into s4. -/
def anAtom (sp : Space) (ord : MOrd) : ArgAtom :=
  { g := always, ty := .i64, data := 4, space := sp, base := 5, index := 7, disp := 0, ord, acqrel := false, failAcq := false, scope := .ctx }
/-- Interleave set 0 of one vault, 128 KiB, with tables of ASID 1: the root's entry 0 leads to the table at 65536, whose entry 0 is a leaf of
1 GiB at physical address 0. -/
def withTables (s : State) : State :=
  let t := { s with sets := [(0, { w0 := 1, w1 := 2 <<< 48 })], roots := [(1, (0, 0))] }
  let entry (a v : Nat) (u : State) : State := u.writeUnder (u.slotTag 0) ((u.home a).getD 0) (leBytes 8 v)
  entry 65536 (2 ^ 63 + 2 ^ 62 + 2 ^ 60 + 2 ^ 49 + 2 ^ 48) (entry 0 (2 ^ 63 + 65536) t)
/-- Whether a translation ends in an access. -/
def translates (r : Except Stop (State × Acc)) : Bool :=
  match r with
  | .ok _ => true
  | .error _ => false
/-- Every space and order: a local atomic that runs, one that queues for context 8, one that is held; a peer's, a global one, a
handler's of a home in its own cell, and one announced in each space. -/
theorem witness_AtomicsArePerformedAtTheirHome :
    let x := anAtom .loc .plain
    let ea := at0.me.atomicEa x
    let a := (at0.newAtomic x 0 ea).atLocal 0 .loc
    ready (atomicOf x 0) always at0 = true ∧ ready (atomicOf x 7) always at0 = true ∧ atomicCtx x 0 = true
      ∧ at0.atomicCheck x ea = none ∧ at0.loadCount 0 0 < 16 ∧ (at0.keyCheck 0 .loc ea.toNat 8 1 ea).isNone = true
      ∧ at0.localHeld 0 0 [(localHome 0 .loc ea.toNat, 8)] = false ∧ a.ordRel = false ∧ handlerFree at0 = true
      ∧ at0.atomicHeld a = false ∧ at0.badUnit a = none
      ∧ ((at0.send (.cell 0) (stationPlace 0) (.stationReq { at0.newAtomic (anAtom .glb .plain) 0 ea with kind := .S })).fullReady 0 0 = false)
      ∧ (let t := at0.modCell 0 fun c => { c with in8 := [.handler aMsg 1] }
         handlerFree t = false ∧ t.replyLoad 0 < 64)
      ∧ (let y := anAtom .glb .plain
         at0.atomicCheck y ea = none ∧ at0.issueTrap (at0.newAtomic y 0 ea) = none ∧ at0.glbHeld 0 0 = false ∧ at0.stationLoad 0 < 16)
      ∧ (let y := anAtom .loc .sc
         atomicCtx y 0 = true ∧ at0.fullReady 0 0 = true ∧ (loading at0).fullReady 0 0 = false)
      ∧ at8.cur.ctx = 8 ∧ ready (atomicOf (anAtom .loc .plain) 0) always at8 = true ∧ handlerFree at8 = true
      ∧ ((at0.modMe (·.ws 5 0x17fffc)).atomicCheck { x with disp := 0 } 0x17fffc).isSome = true := by decide +kernel
theorem witness_RemoteAndAnnouncedAtomics :
    (let y := { anAtom .peer .plain with base := 9 }
     let s := (withPeer at0).modMe (·.ws 9 0x0100000000001000)
     let ea := s.me.atomicEa y
     ready (atomicOf y 0) always s = true ∧ s.atomicCheck y ea = none ∧ word (slice (s.me.rs 9).toNat 56 8) = 1 ∧ s.peerCell 1 = some 1
       ∧ s.peerCell 2 = none ∧ s.granted (s.ctxRegion 0 0) 1 .loc ea.toNat 8 = true ∧ s.replyLoad 0 < 64 ∧ s.outHeld 0 (.cell 1) = false)
      ∧ (let y := anAtom .glb .plain
         let s := withTables at8
         let a := s.newAtomic y 0 0x10000
         (match s.translateNow a 2 with
           | (u, .ok ps) => (u.pageTrap { a with pieces := ps } ps).isNone && homeCell (((ps.head?).map (·.home)).getD 0) == 0
           | _ => false) = true)
      ∧ translates ((withTables at0).translateSc (at0.newAtomic (anAtom .glb .sc) 0 0x10000)) = true
      ∧ translates (at0.translateSc (at0.newAtomic (anAtom .glb .sc) 0 0x10000)) = false := by decide +kernel
theorem witness_AtomicsComputeTheirFunction :
    atomicNew 4 8 true 0x80 0x7f 0 = 0x7f ∧ atomicNew 4 8 false 0x80 0x7f 0 = 0x80 ∧ atomicNew 0 8 true 0xff 1 0 % 256 = 0 := by
  decide +kernel
/-- A message of class 31 with seven words from s5, to an endpoint of this cell. -/
def aSendMsg : ArgAmsg := { g := always, a := 8, cls := 31, b := 5, n := 7 }
theorem witness_MessagesTakeTheOutputBuffer :
    let s := at0.modMe (·.ws 8 (mkEp 1 3 0))
    ready (.amsg aSendMsg) always s = true ∧ epRemote (s.me.rs 8) = false ∧ (s.me.rs 8).toNat < 2 ^ 44 ∧ epLink (s.me.rs 8) = 0
      ∧ s.regions.any (fun r => r.2.asid == epAsid (s.me.rs 8) && r.2.tenant == s.myTenant) = true
      ∧ s.releaseReady 0 0 .mod = true ∧ (loading s).releaseReady 0 0 .mod = false ∧ (s.cell 0).outbuf = []
      ∧ s.regions.any (fun r => r.2.asid == epAsid (mkEp 2 3 0) && r.2.tenant == s.myTenant) = false
      ∧ epRemote (word (2 ^ 40)) = false ∧ 2 ^ 44 ≤ (word (2 ^ 44)).toNat
      ∧ epRemote (word (2 ^ 39)) = true ∧ s.linkUp (epLink (word (2 ^ 39))) = false := by decide +kernel
/-- Endpoint 3 of region 1, in a state, with its name in s8; class 9 is handled by region 1 and class 10 by region 2. -/
def withEp (st : EpSt) : State :=
  ({ at0 with types := [(1, [aHandlerType])] }.modCell 0 fun c => { c with
    eps := [(3, { region := 1, st })]
    htab := [(9, { region := 1, ty := 0, frameLo := 0x17fe00, frameHi := 0x17ff00 }), (10, { region := 2, ty := 0, frameLo := 0, frameHi := 0 })] }).modMe
    (·.ws 8 (mkEp 1 3 0))
where
  /-- A task type that a handler may have. -/
  aHandlerType : TaskType :=
    { entry := placedPc, sregs := 32, vregs := 8, ports := 0, valid := true, actor := false, cluster := false, frame := 256, budget := 0, cw := 1,
      ch := 1, rates := [], high := 0, low := 0, ncells := 1, binds := [], launch := [] }
/-- Whether a set succeeds. -/
def sets (r : Except Nat State) : Bool :=
  match r with
  | .ok _ => true
  | .error _ => false
theorem witness_HandlerTableEntriesChange :
    let s := withEp .resident
    ready (.htabSet { g := always, d := 4, a := 0, cls := 31 }) always s = true ∧ sets (s.htabSet 0 1 31 0) = true
      ∧ sets (s.htabSet 0 1 7 0) = false ∧ sets (s.htabSet 0 1 8 0) = true ∧ sets (s.htabSet 0 1 10 0) = false ∧ sets (s.htabSet 0 1 31 1) = false
      ∧ Assoc.get? 7 (s.cell 0).htab = none ∧ (Assoc.get? 9 (s.cell 0).htab).map (·.region) = some 1
      ∧ (Assoc.get? 10 (s.cell 0).htab).map (·.region) = some 2
      ∧ ready (.htabEpnew { g := always, d := 4 }) always s = true ∧ (s.cell 0).freeEp = some 0
      ∧ ({ Cell.reset with eps := (List.range 64).map fun k => (k, { region := 1, st := .resident }) } : Cell).freeEp = none
      ∧ ready (.htabEpdel { g := always, d := 4, a := 8 }) always s = true
      ∧ s.ownEndpoint 0 1 (s.me.rs 8) = some { region := 1, st := .resident } ∧ s.ownEndpoint 0 1 (mkEp 1 4 0) = none := by decide +kernel
theorem witness_EndpointsMoveAndPark :
    let s := withEp .resident
    let t := withEp (.parked [(1, aMsg)] true)
    ready (.epmov { g := always, d := 4, a := 8, b := 0 }) always s = true ∧ (s.me.rs 0).toNat ≤ 959 ∧ (s.grant 1 0).isSome = true ∧ s.grant 1 959 = none
      ∧ ((s.ownEndpoint 0 1 (s.me.rs 8)).filter fun e => e.st == .resident).isSome = true
      ∧ ((t.ownEndpoint 0 1 (t.me.rs 8)).filter fun e => e.st == .resident).isSome = false
      ∧ ready (.epparkPark { g := always, d := 4, a := 8 }) always s = true ∧ ready (.epparkResume { g := always, d := 4, a := 8 }) always t = true
      ∧ t.ownEndpoint 0 1 (t.me.rs 8) = some { region := 1, st := .parked [(1, aMsg)] true } := by decide +kernel

/-- A barrier instance of cell 0 for three arrivals, of region 1, at generation 65535. -/
def aBar (cur next : Nat) : BarInst :=
  { cluster := false, owner := 1, k := 3, gen := 65535, lb := some 65534, cells := [(0, { cur, next, departed := false })] }
/-- The state with the instance as number 31 of every die. -/
def withBar (s : State) (cur next : Nat) : State := { s with bars := [(31, aBar cur next)] }
theorem witness_BarriersCountArrivals :
    let x : ArgBarv := { g := always, d := 4, clu := false, n := 31 }
    let s := withBar at0 1 0
    ready (.barv x) always s = true ∧ s.barKeyOf false 31 = some 31 ∧ s.barReason (some (aBar 1 0)) false none = none
      ∧ s.releaseReady 0 0 .mod = true ∧ (loading s).releaseReady 0 0 .mod = false
      ∧ ((aBar 2 0).arrive 0).map (·.2) = some 65535 ∧ ((aBar 3 2).arrive 0).map (·.2) = some 0 ∧ ((aBar 3 3).arrive 0).map (·.2) = none
      ∧ s.barReason none false none = some 1 ∧ s.barReason (some (aBar 1 0)) true none = some 1
      ∧ s.barReason (some { aBar 1 0 with cells := [] }) false none = some 3
      ∧ ready (.barw { g := always, d := 4, a := 8 }) always (s.modMe (·.ws 8 (barToken false 31 65535))) = true
      ∧ s.barReason (some (aBar 1 0)) false (some (65535, true)) = none ∧ (aBar 1 0).ended 65535 = false
      ∧ (aBar 1 0).ended 65534 = true ∧ (aBar 1 0).ended 32767 = true ∧ (aBar 1 0).ended 32766 = false
      ∧ s.barReason (some (aBar 1 0)) false (some (32766, true)) = some 4 ∧ s.barReason (some (aBar 1 0)) false (some (0, true)) = none
      ∧ s.barReason (some (aBar 1 0)) false (some (1, true)) = some 4 := by decide +kernel
theorem witness_GenerationsTurn :
    let s := withBar at0 3 3
    Assoc.get? 0 (aBar 2 0).cells = some { cur := 2, next := 0, departed := false } ∧ (aBar 3 3).arrive 0 = none
      ∧ s.cur.ctx < 8 ∧ s.barKeyOf false 31 = some 31 ∧ Assoc.get? 31 s.bars = some (aBar 3 3) ∧ s.barReason (some (aBar 3 3)) false none = none
      ∧ (aBar 3 3).allHigh = true ∧ (aBar 2 0).allHigh = false
      ∧ (withBar at9 1 0).cur.ctx = 9 ∧ barKey 31 3 = 31 ∧ (withBar at9 1 0).ownsBar (aBar 1 0) = true
      ∧ (aBar 0 0).release.gen = 0 ∧ (aBar 0 0).break_.lb = some 65535
      ∧ Assoc.get? 0 (blockBar ([1] ++ List.replicate 119 0 ++ [8] ++ List.replicate 7 0)).cells = some { cur := 0, next := 0, departed := false } := by
  decide +kernel
/-- A reduction of cell 0 on the instance. -/
def aRed (cur next : Nat) : RedInst :=
  { bar := aBar cur next, op := 0, rm := .rne, root := 0, links := [], partials := [], sentGen := none, results := [] }
theorem witness_ReductionsSendAndGet :
    let s := { at0 with reds := [(7, aRed 1 0)] }
    ready (.redp { g := always, d := 4, a := 3, n := 7 }) always s = true ∧ Assoc.get? 7 s.reds = some (aRed 1 0)
      ∧ s.barReason (some (aRed 1 0).bar) false none = none ∧ s.releaseReady 0 0 .mod = true ∧ (loading s).releaseReady 0 0 .mod = false
      ∧ s.releaseReady 0 0 .sys = true ∧ ((aRed 1 0).bar.arrive 0).map (·.2) = some 65535 ∧ ((aRed 3 3).bar.arrive 0).map (·.2) = none
      ∧ s.barReason none false none = some 1
      ∧ (let t := s.modMe (·.ws 8 (word (7 * 2 ^ 16 + 65535)))
         ready (.redg { g := always, d := 3, c := 4, a := 8 }) always t = true ∧ slice (t.me.rs 8).toNat 16 3 = 7
           ∧ t.barReason (some (aRed 1 0).bar) false (some (65535, true)) = none ∧ (aRed 1 0).bar.ended 65535 = false
           ∧ (aRed 1 0).bar.ended 65534 = true ∧ t.barReason (some (aRed 1 0).bar) false (some (65534, true)) = none
           ∧ t.barReason (some (aRed 1 0).bar) false (some (65535, false)) = some 4) := by decide +kernel
/-- A block of cell 0 for k arrivals, owned by region 1. -/
def aBlock (k : Nat) : List Byte := [1] ++ List.replicate 119 0 ++ leBytes 1 k ++ [0, 1, 0] ++ List.replicate 4 0
theorem witness_InstancesAreConfigured :
    let s := imageAt (aBlock 8)
    s.cur.ctx = 9 ∧ reads (s.syncRead (s.me.rs 5) 128 64) (aBlock 8) = true
      ∧ s.blockStatus (aBlock 8) none = 0 ∧ s.blockStatus (aBlock 9) none = 2 ∧ s.blockStatus (aBlock 8) (some 0) = 0 ∧ s.blockStatus (aBlock 8) (some 3) = 2
      ∧ ready (.bcfgSet { g := always, d := 4, a := 5, n := 63, die := 0 }) always s = true
      ∧ ready (.bcfgFree { g := always, d := 4, a := 0, n := 31, die := 0 }) always (withBar at9 1 0) = true
      ∧ (Assoc.get? 31 (withBar at9 1 0).bars).isSome = true ∧ (withBar at9 1 0).ownsBar (aBar 1 0) = true
      ∧ (withBar at9 1 0).ownsBar { aBar 1 0 with owner := 2 } = false
      ∧ ready (.rcfgSet { g := always, d := 4, a := 5, n := 7 }) always s = true ∧ (bitmapCells (aBlock 8)).contains (blockRed (aBlock 8)).root = true
      ∧ ({ at9 with reds := [(7, aRed 1 0)] }).ownsBar (aRed 1 0).bar = true
      ∧ ready (.rcfgBrk { g := always, d := 4, a := 0, n := 7 }) always at9 = true := by decide +kernel

/-! ### Witnesses: traps, the retry ring, the host and the links -/

/-- Context 0 with a trap queued for context 9. -/
def aTrap : Trap :=
  { ctx := 0, async := false, ring := false, held := true, entry := 64, epc := 0x200000, info := { cause := 3, val := 7, info := 0 }, region := 1,
    task := word (2 ^ 14), upto := 0 }
/-- Context 0 held with its trap queued, and a supervisor type for the tenant. -/
def trapped : State :=
  let s := { withType at0 with regions := [(1, { placedRegion with sup := 0 })], types := [(1, [{ aType with launch := [], entry := placedPc }])] }
  (s.modCtx 0 0 fun y => { y with st := .held }).modCell 0 fun c => { c with trapq := [aTrap] }
/-- Context 9 after the trap: context 0 is still held, and xepc names its slot. -/
def at9held : State := (at9.modCtx 0 0 fun y => { y with st := .held }).modCell 0 fun c => { c with xepc := 0x200000 }
theorem witness_TrapInstructionsTakeTheirTrap :
    ready (.trapCall { g := always, code := 0xffffffff }) always at0 = true ∧ at0.cur.ctx < 9
      ∧ ready (.brk { g := always, code := 0 }) always at9 = true := by decide +kernel
theorem witness_TrapsHoldTheContextAndEnterTheHandler :
    ((trapped.cell 0).run9).isNone = true ∧ (trapped.cell 0).trapq = [aTrap]
      ∧ (trapped.taskType (trapped.tenantOf 1) 0).map (·.entry) = some placedPc ∧ (trapped.grant 1 0).isSome = true
      ∧ (trapped.region (trapped.tenantOf 1)).map (·.sup) = some 0
      ∧ trapped.checkTarget 1 0 (word placedPc) = none
      ∧ ((trapped.enterTrap 0).ctxAt 0 9).pc = word placedPc := by decide +kernel
theorem witness_EretReturns :
    ready (.eret { g := always }) always at8 = true ∧ at8.cur.ctx = 8 ∧ ready (.eret { g := always }) always at9held = true
      ∧ ready (.rretryCtx { g := always, d := 4 }) always at9held = true ∧ at9held.cur.ctx = 9
      ∧ ((at9held.cell 0).run9).map (·.trap.held) = some true ∧ (at9held.ctxAt 0 0).st = .held
      ∧ some (at9held.ctxTask 0 0) = ((at9held.cell 0).run9).map (·.trap.task)
      ∧ (at9held.endRun9 0).checkResume 1 0 (word ((at9held.cell 0).xepc.toNat % 2 ^ 30)) = none
      ∧ ((at9held.returnFrom9 0).ctxAt 0 0).pc = 0x200000 := by decide +kernel
/-- A load of context 0 from `.glb` 0x10000. -/
def aGlb (s : State) : Acc := s.newAcc
  { wr := false, sp := .glb, rank := 0, tile := none, eas := [0x10000], len := 8, align := 8, data := [], dest := 7, ty := .i64,
    vec := false, acq := false, rel := false, scope := .ctx, cons := false, spBase := false, tagOk := true }
/-- A ring entry of a task of region 1. -/
def anEntry (kind dest : Nat) : REntry where
  kind := kind
  ctx := 0
  cause := 34
  dest := dest
  size := 8
  vec := false
  acls := 0
  pc := 0x200000
  addr := 0x10000
  data := 0
  info := 0
  tenant := 1
  region := 1
  task := word (2 ^ 14)
  acc := none
  out := false
/-- Entry 63 of the ring, its number in s8. -/
def withEntry (e : REntry) : State := (at9.modCell 0 fun c => { c with retry := [(63, e)] }).modMe (·.ws 8 63)
/-- The error of a completion. -/
def completion (r : Except Nat REntry) : Nat :=
  match r with
  | .ok _ => 0
  | .error n => n
theorem witness_RingEntriesComplete :
    let s := withEntry (anEntry 0 7)
    ready (.rfill { g := always, d := 4, a := 8, b := .sca 5 }) always s = true ∧ ready (.rretry { g := always, d := 4, a := 8 }) always s = true
      ∧ completion (s.completes 63 fun e => e.takes (.sca 5)) = 0 ∧ completion (s.completes 63 fun e => e.takes (.vec 5)) = 2
      ∧ completion (s.completes 64 fun _ => true) = 1 ∧ completion (s.completes 62 fun _ => true) = 1
      ∧ completion ((withEntry { anEntry 0 7 with tenant := 2 }).completes 63 fun _ => true) = 3
      ∧ completion (s.completes 63 fun e => e.kind = 1 || e.kind = 2) = 2
      ∧ completion ((withEntry (anEntry 1 7)).completes 63 fun e => e.kind = 1 || e.kind = 2) = 0
      ∧ completion ((withEntry (anEntry 2 7)).completes 63 fun e => e.kind = 1 || e.kind = 2) = 0
      ∧ completion ((withEntry (anEntry 3 64)).completes 63 fun e => e.takes (.vec 5)) = 0
      ∧ (anEntry 2 7).acc = none
      ∧ (match (s.outEntry 63).reissue { aGlb s with retry := some 63 } with
          | .ok _ => true
          | .error _ => false) = true
      ∧ (let f : Flight := { src := .cell 0, dst := .station 0 0, pay := .stationReq (aGlb s) }
         match ({ s with net := List.replicate 16 f }.outEntry 63).reissue { aGlb s with retry := some 63 } with
           | .ok _ => false
           | .error _ => true) = true := by decide +kernel
theorem witness_KillAndFreeze :
    ready (.rkillCtx { g := always, d := 4 }) always at9held = true ∧ (((at9held.cell 0).run9).map (at9held.stillHeld 0)) = some true
      ∧ (((at9.cell 0).run9).map (at9.stillHeld 0)) = some false
      ∧ (let s := withChild child
         ready (.frzRgn { g := always, d := 4, a := 8 }) always s = true ∧ s.killable 2 = true ∧ s.killable 1 = false
           ∧ ((s.region 2).map (·.frozen)) = some false
           ∧ (((withChild { child with frozen := true }).region 2).map (·.frozen)) = some true) := by decide +kernel
/-- A mapped channel of 2^4 entries with its latch at 9, its head at 5 and done at 3. -/
def aChannel : Channel :=
  { sub := 0x1000, comp := 0x2000, status := 0x3000, e := 4, z := 6, vector := 2, st := .mapped, tailsnap := 0, late := 0, rejected := 0, latch := 9,
    head := 5, done := 3 }
/-- A virtual function on host link 0, its doorbell page at 0x100000, its window the first 128 KiB. -/
def aVf : Vf := { st := .run, link := 0, doorbell := 0x100000, base := 0, size := 0x20000, tableVa := 0x20000, table := 0x20000 }
/-- The state with virtual function 0 in a TDISP state and its channel 255 mapped; s8 holds the number and s7 is 5. -/
def withChannel (st : VfSt) (s : State) : State :=
  { s with chans := [(255, aChannel)], vfs := [(0, { aVf with st := st })], hostUp := [0] }.modMe (·.ws 8 255)
theorem witness_ChannelsPostAndPoll :
    let s := withChannel .run at0
    ready (.hpostHead { g := always, d := 4, a := 8, b := 7 }) always s = true ∧ s.releaseReady 0 0 .sys = true
      ∧ (loading s).releaseReady 0 0 .sys = false ∧ s.usable 255 = some (255, aChannel) ∧ s.usable 256 = none ∧ s.usable 0 = none
      ∧ (aChannel.post false 5).isSome = true ∧ (aChannel.post true 5).isSome = true ∧ (aChannel.post false 10) = none
      ∧ s.vfState s.myVf = some .run ∧ (withChannel .locked at0).vfState 0 ≠ some .run
      ∧ ready (.hpollWait { g := always, d := 4, a := 8, b := 7 }) always s = true ∧ word aChannel.latch ≠ s.me.rs 7
      ∧ word aChannel.latch = (s.modMe (·.ws 7 9)).me.rs 7 := by decide +kernel
theorem witness_CountsMoveForward :
    aChannel.post false 9 = some { aChannel with head := 9 } ∧ aChannel.post false 4 = none ∧ aChannel.post true 5 = some { aChannel with done := 5 }
      ∧ aChannel.post true 6 = none ∧ aChannel.post true 2 = none := by decide +kernel
/-- Two groups of share 0 without an acknowledgement. -/
def twoGroups : List Group :=
  [2, 3].map fun k => { seq := k, slot := 0, share := 0, nflits := 2, ack := 0, key := { key := 0, salt := 0 }, pays := [] }
/-- Link 15 in a state, with share 0 of tenant 1 and a stage of the rotation in both directions. -/
def aLink (st : LinkSt) (rot : Option Nat) : LinkState :=
  { bootLink 0 true with
    st := st, shares := [{ share := 0, partition := 0, tenant := 1, far := 1 }], txSeq := 3, unacked := twoGroups, rotTx := rot, rotRx := rot }
/-- A state with link 15, its number in s8. -/
def withLink (st : LinkSt) (rot : Option Nat) (s : State) : State := { s with links := [(15, aLink st rot)] }.modMe (·.ws 8 15)
theorem witness_RotationsBegin :
    let s := withLink .up none at9
    ready (.lkrotRot { g := always, d := 4, a := 8 }) always s = true ∧ s.holdsLink 15 = true ∧ s.holdsLink 14 = false ∧ s.holdsLink 16 = false
      ∧ (s.link 15).isUp = true ∧ ((withLink .down none at9).link 15).isUp = false
      ∧ (s.link 15).rotates = false ∧ ((withLink .up (some 0) at9).link 15).rotates = true := by decide +kernel

/-! ### Witnesses: the events of the scheduler, of traps, of owners and of messages -/

/-- A state with one flight, at which the next event takes place. -/
def bring (s : State) (src dst : Place) (p : Pay) : State := { s with net := [{ src, dst, pay := p }], cur := { s.cur with k := 0 } }
/-- A ready record of type 0 of region 1. -/
def aRec : Rec := { head := mkHead 1 0 0 0, reply := 0, args := List.replicate 8 0 }
/-- The ring of tenant 1 with the record, no context running. -/
def withRing (ty : TaskType) : State :=
  let s := { at0 with types := [(1, [ty])] }.modCtx 0 0 fun y => { y with st := .idle, task := none, allot := { sbase := 0, scount := 0, vbase := 0, vcount := 0 } }
  s.modCell 0 fun c => { c with rings := [(1, { recs := [aRec], image := none, charges := [] })] }
theorem witness_FetchQueuesFillAhead :
    at0.me.canIssue = true ∧ at0.cur.ctx < 10 ∧ at0.me.fetchq.length = 0 ∧ (at0.fetchLine 1 0 0x200000).isSome = true
      ∧ (at0.fetchLine 1 0 0x210000).isNone = true := by decide +kernel
/-- Whether the judgement of a record starts it. -/
def starts (v : Head) : Bool :=
  match v with
  | .start _ _ => true
  | _ => false
theorem witness_RingsDispatchTheirHeads :
    let s := withRing { aType with launch := [0] }
    (s.removable 0).isNone = true ∧ (s.chooseTenant 0 .dispatch (s.startable 0)).isSome = true
      ∧ ((s.chooseTenant 0 .dispatch (s.startable 0)).map fun q => starts (q.2.judge 0 q.1 aRec)) = some true
      ∧ ((withRing { aType with cluster := true, cw := 2 }).removable 0).isSome = true
      ∧ ((withRing { aType with valid := false }).removable 0).isSome = true
      ∧ (let u := { s with clock := 3 }.modCell 0 fun c => { c with dispCount := 1, lastDispatch := 0 }
         (u.cell 0).dispCount ≠ 0 ∧ u.clock < (u.cell 0).lastDispatch + 4) := by decide +kernel
theorem witness_PlacersServeTheirQueue :
    let s := bring at0 (.cell 1) (.cell 0) (.ready aRec 1)
    s.arriving s.cur.k = some { src := .cell 1, dst := .cell 0, pay := .ready aRec 1 } ∧ (s.region (headRegion aRec.head)).isSome = true
      ∧ (bring at0 (.cell 1) (.placer 0) (.place aRec)).arriving 0 = some { src := .cell 1, dst := .placer 0, pay := .place aRec }
      ∧ (let q : PlaceReq := { record := aRec, since := 0, reserved := none }
         let ty := { aType with cluster := true, cw := 1, ch := 1 }
         let t := { withRing ty with placers := [(3, []), (0, [q])], clock := 1000000 }
         (t.servePlaces 0 [] (t.placers.getD 0 [])).isSome = true ∧ (t.servePlaces 3 [] (t.placers.getD 3 [])).isNone = true
           ∧ t.aged q = true ∧ (t.taskType 1 0).isSome = true ∧ (t.candidate 0 1 ty).isSome = true)
      ∧ (at0.region 1).isSome = true := by decide +kernel
theorem witness_DispatchGivesTheTaskItsRegisters :
    let t : Task := { placedTask with record := { aRec with head := mkHead 1 0 8 0, args := [1, 2, 3, 4, 5, 6, 7, 8] } }
    let y := taskCtxOf Ctx.reset t { aType with sregs := 8 } { ctx := 0, sbase := 8, vbase := 0, frame := 0x1000 }
    headArgc t.record.head = 8 ∧ y.rs 4 = 1 ∧ y.rs 7 = 4 ∧ y.rs 8 = 0 ∧ y.rs 2 = 0x180000 ∧ y.rs 1 = 0 ∧ y.rs 63 = 0 := by decide +kernel
theorem witness_TrapEventsHappen :
    (trapped.cell 0).trapq = [aTrap] ∧ trapped.settled 0 aTrap = true ∧ (loading trapped).settled 0 { aTrap with upto := 1 } = false
      ∧ (((at9.cell 0).run9).map (·.start)) = some 0 ∧ 0 + 16384 ≤ ({ at9 with clock := 16384 } : State).clock
      ∧ at9.clock < 0 + 16384
      ∧ ((at9held.endRun9 0).stillHeld 0 { trap := aTrap, start := 0, tenant := 1, stopped := 0, frozenAt := none }) = true
      ∧ ((at9.endRun9 0).stillHeld 0 { trap := aTrap, start := 0, tenant := 1, stopped := 0, frozenAt := none }) = false
      ∧ (let s := at0.modMe fun y => { y with asyncs := [{ info := aTrap.info, entry := none, at_ := none }] }
         (s.ctxAt 0 0).asyncs = [{ info := aTrap.info, entry := none, at_ := none }] ∧ (s.ctxAt 0 0).frozen = none ∧ (s.ctxAt 0 0).st = .running) := by decide +kernel
theorem witness_BudgetsEndTasks :
    at0.me.task = some placedTask ∧ at0.cur.ctx < 8 ∧ at0.me.frozen = none ∧ at0.me.st = .running ∧ at0.me.asyncs = []
      ∧ at0.watchdog placedTask < placedTask.budget
      ∧ (let s := { at0 with clock := 2 ^ 40 }
         placedTask.budget + placedTask.ext ≤ s.watchdog placedTask ∧ s.watchdog placedTask < placedTask.budget + placedTask.ext + 4096)
      ∧ placedTask.budget + placedTask.ext + 4096 ≤ ({ at0 with clock := 2 ^ 40 + 4096 } : State).watchdog placedTask := by decide +kernel
theorem witness_ThawAndScrubEndAFreeze :
    let s := { at0 with regions := [(1, { placedRegion with frozen := true })] }.modMe fun y => { y with frozen := some (.frz, 1) }
    (s.cell 0).frozenFor 1 = [0] := by decide +kernel
/-- A request of context 0 of cell 0 to count down a join counter. -/
def anOwn : OwnReq := { kind := .jdec 1, ref := 0x8000000, cell := 0, ctx := 0, task := word (2 ^ 14), region := 1, tenant := 1, action := none }
/-- Context 0 waits. -/
def waiting (w : Wait) : State := at0.modMe fun y => { y with st := .waiting w }
theorem witness_OwnersServeAndReply :
    (bring at0 (.cell 1) (.cell 0) (.owner anOwn)).arriving 0 = some { src := .cell 1, dst := .cell 0, pay := .owner anOwn }
      ∧ (at0.cell 0).run8 = none ∧ (at0.cell 0).in8 = [] ∧ (at0.cell 0).over8 = [] ∧ at0.ownerHeld 0 anOwn = false
      ∧ (at0.cell 0).outbuf = [] ∧ (at8.cell 0).run8.isSome = true
      ∧ (let q := { anOwn with action := some 7 }
         let s := bring at0 (.cell 1) (.cell 0) (.ownerReply q 60 5)
         s.arriving 0 = some { src := .cell 1, dst := .cell 0, pay := .ownerReply q 60 5 } ∧ (s.land 0).ctxTask 0 0 = q.task
           ∧ ((s.land 0).ctxAt 0 0).st ≠ .idle ∧ (s.land 0).ctxTask 0 0 ≠ { q with task := 0 }.task)
      ∧ (let s := bring (waiting (.owner (some 4))) (.cell 1) (.cell 0) (.ownerReply anOwn 0 5)
         s.arriving 0 = some { src := .cell 1, dst := .cell 0, pay := .ownerReply anOwn 0 5 } ∧ anOwn.action = none
           ∧ (s.land 0).ctxTask 0 0 = anOwn.task ∧ ((s.land 0).ctxAt 0 0).st = .waiting (.owner (some 4))) := by decide +kernel
theorem witness_MessagesTravel :
    let f : Flight := { src := .cell 0, dst := .cell 1, pay := .message aMsg }
    ((at0.modCell 0 fun c => { c with outbuf := [f] }).cell 0).outbuf = [f]
      ∧ (bring at0 (.cell 1) (.cell 0) (.message aMsg)).arriving 0 = some { src := .cell 1, dst := .cell 0, pay := .message aMsg }
      ∧ aMsg.link = none ∧ aMsg.hops = 0 ∧ (withLink .up none at0).pairedAsid 14 1 1 = false
      ∧ (let a := at0.newAtomic (anAtom .loc .plain) 0 0x1000
         let s := bring at0 (.cell 1) (.cell 0) (.atomicReq a)
         s.passes 0 s.homeWaits = some { src := .cell 1, dst := .cell 0, pay := .atomicReq a } ∧ s.inOrder a = true ∧ a.peer = none ∧ a.sc = false
           ∧ s.waitsFor 0 (.cell 1) a = false ∧ s.seenWait 0 a = false
           ∧ (let b := { a with sc := true }
              let o : ScOp := { window := 0, cell := b.cell, ctx := b.ctx, seq := b.seq, acc := b, ready := true }
              let t := { bring at0 (.cell 1) (.cell 0) (.atomicReq b) with scOps := [o], clock := 128 }
              t.scWaits b = false ∧ { t with clock := 127 }.homeWaits 0 { src := .cell 1, dst := .cell 0, pay := .atomicReq b } = true)
           ∧ at0.peerPresent { a with peer := some 3 } 0 = false)
      ∧ at0.ctxTask 0 0 = aMsg.task ∧ (at0.ctxAt 0 0).st ≠ .idle ∧ at0.ctxTask 0 1 ≠ aMsg.task
      ∧ (bring at0 (.cell 1) (.cell 0) (.returned aMsg 5)).arriving 0 = some { src := .cell 1, dst := .cell 0, pay := .returned aMsg 5 } := by
  decide +kernel
theorem witness_HandlersRun :
    let s := at0.modCell 0 fun c => { c with in8 := [.owner anOwn] }
    (s.cell 0).run8 = none ∧ s.canServe 0 (.owner anOwn) = true ∧ (s.chooseTenant 0 .handler [1]).isSome = true
      ∧ (((at8.cell 0).run8).map fun r => r.start + r.cap) = some 4096 ∧ (at8.ctxAt 0 8).frozen = none := by decide +kernel
theorem witness_EndpointsArrive :
    let n := mkEp 1 3 0
    let p : Pay := .epmov n 3 1 1 0 0 (word (2 ^ 14))
    let s := bring (withEp .moving) (.cell 0) (.cell 1) p
    s.arriving 0 = some { src := .cell 0, dst := .cell 1, pay := p } ∧ Assoc.get? 3 (s.cell 0).eps = some { region := 1, st := .moving }
      ∧ (s.cell 1).freeEp = some 0
      ∧ ((s.modCell 1 fun c => { c with eps := (List.range 64).map fun k => (k, { region := 1, st := .resident }) }).cell 1).freeEp = none := by
  decide +kernel

/-! ### Witnesses: the events of pools, engines, ports and barriers -/

/-- A request of context 0 for a tile of pool 0. -/
def aPoolReq : PoolReq := { cell := 0, ctx := 0, task := word (2 ^ 14), region := 1, reads := 2, link := none }
/-- Pool 0 with the tile free, and with nothing free and a request waiting. -/
def freePool : Pool := { aPool with tiles := [Tile.fresh], free := [0] }
/-- A state whose cell 0 has the pool as number 0. -/
def pooled (p : Pool) (s : State) : State := s.modCell 0 fun c => { c with pools := [(0, p)] }
theorem witness_ControllersServeInTurn :
    let s := bring (pooled freePool at0) (.cell 0) (.cell 0) (.talloc 0 0 aPoolReq true)
    s.arriving 0 = some { src := .cell 0, dst := .cell 0, pay := .talloc 0 0 aPoolReq true }
      ∧ Assoc.get? 0 ((s.land 0).cell 0).pools = some freePool ∧ (s.land 0).poolServes freePool aPoolReq = true ∧ freePool.queue = [] ∧ freePool.free ≠ []
      ∧ Assoc.get? 1 (at0.cell 0).pools = none ∧ aPool.free = []
      ∧ (s.land 0).poolServes { freePool with owner := 2 } aPoolReq = false
      ∧ ({ aPool with queue := [aPoolReq] } : Pool).queue.find? (fun r => r.cell == 0 && r.ctx == 0 && r.task == word (2 ^ 14) && r.link == none)
          = some aPoolReq
      ∧ (let t := bring (waiting (.talloc none 4 0 0 false)) (.cell 0) (.cell 0) (.grant 0 aPoolReq (some (mkHandle 0 0 0 1)) false)
         t.arriving 0 = some { src := .cell 0, dst := .cell 0, pay := .grant 0 aPoolReq (some (mkHandle 0 0 0 1)) false }
           ∧ (t.land 0).ctxTask 0 0 = aPoolReq.task ∧ ((t.land 0).ctxAt 0 0).st = .waiting (.talloc none 4 0 0 false)) := by
  decide +kernel
theorem witness_HandleOperationsAnswer :
    let h := mkHandle 0 0 0 1
    let s := bring (withPool (waiting (.handle (some 4)))) (.cell 1) (.cell 0) (.handleOp 0 h 0 0 0 (word (2 ^ 14)) 1)
    s.arriving 0 = some { src := .cell 1, dst := .cell 0, pay := .handleOp 0 h 0 0 0 (word (2 ^ 14)) 1 }
      ∧ (s.land 0).ctxTask 0 0 = word (2 ^ 14) ∧ ((s.land 0).ctxAt 0 0).st = .waiting (.handle (some 4))
      ∧ ((s.land 0).handleAt 0 0 h 0 0 0).2.2.isSome = true ∧ ((s.land 0).handleAt 0 1 h 0 0 0).2.2 = none
      ∧ (s.land 0).ctxTask 0 1 ≠ word (2 ^ 14) := by decide +kernel
theorem witness_DeadlinesAndStallsAreSeen :
    let s := { withPool at0 with clock := 1000 }
    Assoc.get? 0 (s.cell 0).pools = some aPool ∧ (s.cell 0).tile (0, 0) = some aTile ∧ aPool.deadline ≤ s.clock - aTile.born ∧ aTile.raised = false
      ∧ ({ s with clock := 999 }).clock - aTile.born < aPool.deadline
      ∧ s.clock / 1024 ≤ placedRegion.sampledAt
      ∧ (let t := { s with clock := 1024 }
         t.region 1 = some placedRegion ∧ placedRegion.sampledAt < t.clock / 1024 ∧ placedRegion.h ≤ 0 + 1024
           ∧ (smallestPool ((pooled { aPool with queue := [aPoolReq] } t).exhaustedPools 1)).isSome = true
           ∧ (smallestPool (t.exhaustedPools 1)).isSome = false) := by decide +kernel
/-- A tile operation queued, started or not. -/
def aTileOp (started : Bool) (rel : Bool) : TileOp :=
  { tileOpOf at0 (.mma true .bf16) .rne 16 16 false false 0 0x1000 0x3040 { act := .none, c := 0, acq := false, rel, scope := .ctx } with started := started }
/-- The state with the operation queued. -/
def withTileOp (s : State) (o : TileOp) : State := s.modCell 0 fun c => { c with tileq := [o] }
theorem witness_TileOperationsExecute :
    let s := withTileOp at0 (aTileOp false false)
    s.tileReady 0 (aTileOp false false) = true ∧ (s.chooseTenant 0 .tile [1]).isSome = true
      ∧ (((withTileOp at0 (aTileOp true false)).cell 0).tileq.find? (·.started)).isSome = true
      ∧ at0.opReady 0 0 (aTileOp true true).task (aTileOp true true).seq .ctx = true
      ∧ (loading at0).opReady 0 0 (aTileOp true true).task ((aTileOp true true).seq + 1) .mod = false := by decide +kernel
/-- A copy of 64 bytes within cell 0, in a phase. -/
def aCopy (phase : CopyPhase) : CopyOp where
  key := 5
  id := 0
  ctx := 0
  task := word (2 ^ 14)
  region := 1
  tenant := 1
  seq := 0
  pc := 0x200000
  src := .loc
  base := 0x1000
  dst := .mem none 0 .vlt 0
  lay := Layout.flat 64
  layAddr := 0
  cons := false
  fill := false
  tile := none
  act := .none
  word := 0
  item := 0
  acq := false
  rel := false
  scope := .ctx
  phase := phase
  begun := false
  pos := 0
  attempt := 0
  acked := false
  counted := true
  suppressed := false
/-- The state with the copy queued and tokens for the region at cell 0. -/
def withCopy (o : CopyOp) : State :=
  { at0 with regions := [(1, { placedRegion with tokens := [(0, 4096)] })] }.modCell 0 fun c => { c with copyq := [o] }
/-- A chunk of the copy. -/
def aChunk : Chunk where
  cell := 1
  key := 5
  ctx := 0
  task := word (2 ^ 14)
  region := 1
  tenant := 1
  link := none
  dst := .mem none 0 .vlt 0
  lo := 0
  hi := 64
  segs := [(0, List.replicate 64 0)]
  last := true
  pos := 0
  attempt := 0
  size := 64
  arrival := 0
  entry := 0
  spill := none
/-- A scoreboard entry of the copy for a region. -/
def anSb (r : Nat) : SbEntry := { idx := 0, space := .vlt, lo := 0, hi := 64, write := true, ctx := 0, op := 0, key := 0, region := r }
theorem witness_CopiesMove :
    let s := withCopy (aCopy .queued)
    s.copyReady 0 (aCopy .queued) = true ∧ (s.chooseTenant 0 .copy [1]).isSome = true
      ∧ ((withCopy (aCopy .active)).draw 1 0 (aCopy .active).nextSize).isSome = true
      ∧ (bring at0 (.cell 1) (.cell 0) (.chunk aChunk)).arriving 0 = some { src := .cell 1, dst := .cell 0, pay := .chunk aChunk }
      ∧ (at0.cell 0).refused = []
      ∧ ((withCopy (aCopy .active)).cell 0).copyq.filter (·.phase == .active) = [aCopy .active]
      ∧ (withCopy (aCopy .active)).chunkReady 0 (aCopy .active) = true ∧ ((withCopy (aCopy .active)).cell 0).copyTurn = 0
      ∧ ((withCopy (aCopy .active)).chooseTenant 0 .copy []).isNone = true
      ∧ ((at0.cell 0).header aChunk).filter (at0.headerGone 0) = none
      ∧ (let h := { aChunk with last := false, region := 9 }
         let t := at0.modCell 0 fun c => { c with accepted := [h], sb := [anSb 9] }
         ((t.cell 0).header { h with pos := 256 }).filter (t.headerGone 0) = some h
           ∧ (match t.accept 0 { h with pos := 256 } with | .fault _ => true | _ => false) = true)
      ∧ (let t := at0.modCell 0 fun c => { c with refused := [(aChunk, false)] }
         (t.cell 0).refused.any (fun b => b.1.same { aChunk with pos := 256 } && (b.2 || (0 : Nat) ≤ b.1.attempt)) = true
           ∧ (t.cell 0).refused.any (fun b => b.1.same { aChunk with attempt := 1 } && (b.2 || (1 : Nat) ≤ b.1.attempt)) = false)
      ∧ (({ cause := 56, val := 0, info := 0 } : TrapInfo).cause = 56)
      ∧ ((withCopy (aCopy .sent)).cell 0).copyq.find? (·.key == 5) = some (aCopy .sent)
      ∧ ((withCopy { aCopy .sent with acked := true, pos := 64 }).cell 0).copyq.find? ((withCopy { aCopy .sent with acked := true, pos := 64 }).copyDone 0)
          = some { aCopy .sent with acked := true, pos := 64 }
      ∧ placedRegion.refilled.getD 0 0 < ({ at0 with clock := 1024 } : State).clock / 1024 ∧ placedRegion.grants.any (·.cell == 0) = true := by
  decide +kernel

/-- An offer of context 0's slot 0 at the `out` port. -/
def anOffer : Offer :=
  { port := 0, name := mkPort 0 0, item := some 5, by_ := .ctx 0 0 (word (2 ^ 14)) 0, alt := none, link := none, age := 0, arrival := 0, spilled := false }
theorem witness_OffersAreStored :
    let p : Pay := .offer anOffer 0 1 0 1
    let s := bring (withHub at0) (.cell 0) (.cell 0) p
    (let t := bring (withHub at0) (.link 2) (.cell 0) p
     t.arriving 0 = some { src := .link 2, dst := .cell 0, pay := p } ∧ (t.land 0).linkedReason 1 (mkPort 0 0) = none
       ∧ (t.land 0).linkedReason 1 (mkPort 0 1) = some 3 ∧ (t.land 0).linkedReason 1 (mkPort 0 5) = some 2
       ∧ (t.land 0).lookup 1 (mkPort 0 0) = some (0, 0)) ∧
    s.arriving 0 = some { src := .cell 0, dst := .cell 0, pay := p } ∧ ((s.land 0).hubSlot 0 0).isSome = true ∧ (at0.hubSlot 0 0).isNone = true
      ∧ (s.hubSlot 0 0).map (fun h => (h.conn, h.tenant, (h.image.entry 0).isSome, (h.image.entry 2).isSome)) = some (0, 1, true, false)
      ∧ ((s.land 0).cell 0).storedOffers < 512
      ∧ (let t := (withHub at0).modCell 0 fun c => { c with hub := Assoc.modify 0 (fun h => { h with offers := List.replicate 512 anOffer }) c.hub }
         512 ≤ (t.cell 0).storedOffers ∧ (t.charge 1 32).isNone = true
           ∧ ({ t with regions := [(1, { placedRegion with spillBudget := 32 })] }.charge 1 32).isSome = true) := by decide +kernel
/-- A hub slot of connector 0 with a FIFO of one item, which holds k items. -/
def fifoHub (k : Nat) : State :=
  let m := { anImage with fifos := [{ number := 3, cap := 1, here := true, outRegion := 0, home := 0 }] }
  at0.modCell 0 fun c => { c with hub := [(0, { at0.freshSlot m 0 1 1 with fifo := [List.replicate k 0] })] }
theorem witness_ItemsReachTheirFifo :
    let f : FiringAt := { hub := 1, slot := 0, trans := 0, cycle := 0 }
    let p : Pay := .fifoItem 1 0 1 3 5 (mkPort 0 0) [anOffer] false f
    let slot (s : State) := (s.cell 0).hub.find? fun h => h.2.tenant == 1 && h.2.conn == 0 && h.2.image.fifos.any fun q => q.here && q.number == 3
    let s := bring (fifoHub 0) (.cell 1) (.cell 0) p
    let rich (s : State) : State :=
      { s with regions := [(1, { placedRegion with spillBudget := 8, grants := placedRegion.grants.map fun g => { g with vsp := g.vhi - 2 } })] }
    s.arriving 0 = some { src := .cell 1, dst := .cell 0, pay := p } ∧ (slot s).isSome = true ∧ (slot at0).isSome = false
      ∧ (slot (fifoHub 1)).map (fun h => (h.2.fifo[0]?).map (·.length)) = some (some 1)
      ∧ ((fifoHub 1).charge 1 8).isNone = true
      ∧ ((rich (fifoHub 1)).charge 1 8).isSome = true ∧ ((rich (fifoHub 1)).spillPlace 1 0 8 8).isSome = true
      ∧ ({ fifoHub 1 with regions := [(1, { placedRegion with spillBudget := 8, grants := [] })] }.spillPlace 1 0 8 8).isNone = true
      ∧ (let left (g : Flight) : Bool := match g.pay with
          | .fifoItem _ _ _ _ _ _ os _ e => e == f && os.contains anOffer
          | _ => false
         (s.land 7).net.any left = true ∧ (s.land 0).net.any left = false) := by decide +kernel
theorem witness_CancelsWithdrawOffers :
    let p : Pay := .hubCancel 0 0 (word (2 ^ 14)) 0 1
    let s := bring (withHub at0) (.cell 0) (.cell 0) p
    let his (o : Offer) : Bool := o.link == none && (match o.by_ with
      | .ctx a j t _ => a == 0 && j == 0 && t == word (2 ^ 14)
      | .action _ _ => false)
    s.arriving 0 = some { src := .cell 0, dst := .cell 0, pay := p } ∧ (s.land 0).net = [] ∧ his anOffer = true := by decide +kernel
theorem witness_HubsDecideInTurn :
    let s := withHub at0
    let dirty := s.modCell 0 fun c => { c with hub := Assoc.modify 0 (fun h => { h with dirty := true }) c.hub }
    (match Assoc.get? 0 (dirty.cell 0).hub with
      | some h => h.dirty && h.busyUntil ≤ dirty.clock && !dirty.isParked h.region
      | none => false) = true
      ∧ (Assoc.get? 0 (s.cell 0).hub).map (·.dirty) = some false
      ∧ (let g := { fifoHub 1 with clock := 256, types := [(1, [{ aType with actor := true, high := 0, low := 0 }])] }.modCell 0 fun c =>
           { c with hub := Assoc.modify 0 (fun h => { h with image := { h.image with actor := some 0 }, eligible := [0], sampled := 0 }) c.hub }
         (g.hubSlot 0 0).map (fun h => ((h.image.actor.bind (g.taskType h.tenant)).isSome, decide (h.sampled + 256 ≤ g.clock)))
             = some (true, true)) := by decide +kernel
theorem witness_HubsAnswer :
    let f : FiringAt := { hub := 0, slot := 0, trans := 0, cycle := 0 }
    let p : Pay := .portDone anOffer 0 (.fired none 1) f
    let s := bring (waiting (.port 4 [0] none false false)) (.cell 0) (.cell 0) p
    s.arriving 0 = some { src := .cell 0, dst := .cell 0, pay := p } ∧ (s.land 0).ctxTask 0 0 = word (2 ^ 14)
      ∧ ((s.land 0).ctxAt 0 0).st = .waiting (.port 4 [0] none false false) ∧ (s.land 0).ctxTask 0 1 ≠ word (2 ^ 14)
      ∧ (let o := { anOffer with by_ := .action 0 { ctx := 0, task := word (2 ^ 14), region := 1, act := .port, word := mkPort 0 0, id := 7, item := 5 } }
         let p : Pay := .portDone o 0 (.withdrawn (some 2)) f
         (bring at0 (.link 2) (.cell 0) p).arriving 0 = some { src := .link 2, dst := .cell 0, pay := p })
      ∧ (withHub at0).bindReason 1 1 0 (mkPort 0 0) false = none ∧ (withHub at0).bindReason 1 1 0 (mkPort 0 2) false = some 2
      ∧ ((waiting (.pbind (mkPort 0 0) none)).ctxAt 0 0).bindWaits = true := by decide +kernel
theorem witness_BarrierEventsActAsStated :
    let r := aRed 3 0
    let s := { at0 with reds := [(7, r)], bars := [(31, aBar 3 0)] }
    (aBar 3 0).allHigh = true ∧ (aBar 2 0).allHigh = false ∧ Assoc.get? 31 s.bars = some (aBar 3 0) ∧ Assoc.get? 7 s.reds = some r
      ∧ (bring s (.cell 0) (.router 16) (.contribution 7 65535 [])).arriving 0 = some { src := .cell 0, dst := .router 16, pay := .contribution 7 65535 [] }
      ∧ routerOf 0 = 16 ∧ routerOf 239 = 255 ∧ nextRouter 255 16 = 239 ∧ nextRouter 31 16 = 30
      ∧ r.bar.ended 65535 = false ∧ r.bar.ended 65534 = true ∧ s.contributing 7 65535 16 = false
      ∧ (bring s (.cell 0) (.router 16) (.contribution 7 65535 [])).contributing 7 65535 16 = true
      ∧ (let q : RouterReg := { router := 255, number := 7, gen := 65535, lanes := [] }
         let t := { s with routers := [q], cur := { cell := 255, ctx := 7, k := 0 } }
         t.arriving 0 = none ∧ (t.routers.find? fun x => x.router == 255 && x.number == 7) = some q ∧ t.contributing 7 65535 16 = true
           ∧ { s with routers := [{ q with router := 16 }] }.contributing 7 65535 16 = false)
      ∧ s.linkLost 2 = true ∧ { s with links := [(2, aLink .up none)] }.linkLost 2 = false
      ∧ (let p : RPartial := { link := 2, number := 7, gen := 65535, op := 0, rm := .rne, lanes := [], broken := false }
         let q := { r with links := [2] }
         (bring s (.link 2) (.cell 0) (.partialSum p)).arriving 0 = some { src := .link 2, dst := .cell 0, pay := .partialSum p }
           ∧ q.links.contains p.link = true ∧ q.bar.ended 0 = false ∧ (0 : Nat) ≠ q.bar.gen ∧ q.sentGen ≠ some 65535 ∧ p.op = q.op ∧ { p with op := 1 }.op ≠ q.op) := by decide +kernel

/-! ### Witnesses: the events of memory, links, the host and the Slath processor -/

/-- The load translated to bytes of its home. -/
def translated (s : State) : Acc :=
  { aGlb s with pieces := [{ lane := 0, off := 0, len := 8, home := vltA 0 (2 ^ 30 - 2 ^ 17) }], kind := .U, done := true }
theorem witness_StationsTranslate :
    let s := bring (withTables at0) (.cell 0) (.station 0 0) (.stationReq (aGlb at0))
    s.net[0]? = some { src := .cell 0, dst := .station 0 0, pay := .stationReq (aGlb at0) } ∧ s.glbHeld 0 0 = false
      ∧ (match s.walk 1 0x10000 (true, true) with
          | .ok l => l.size == 2 && l.frame == 0 && l.kind == .R
          | .error _ => false) = true
      ∧ (match (withTables at0).walk 1 0x40000000 (false, false) with
          | .ok _ => 0
          | .error f => f.code) = 1
      ∧ (({ at0 with stations := [(0, { leaves := [], walks := [{ asid := 1, page := 0x10000, waiting := [aGlb at0] }] })] }.station 0).walks[0]?)
          = some { asid := 1, page := 0x10000, waiting := [aGlb at0] }
      ∧ (s.passes 0 (s.stationWaits 0)).isSome = true
      ∧ (let e := { anEntry 1 0 with acc := some { aGlb at0 with op := .store } }
         let t := at0.modCell 0 fun c => { c with retry := [(0, e)] }
         ((t.ringHeld 0 0).any fun b => b.op != .load && b.seq < 1 && b.task == (aGlb at0).task) = true)
      ∧ (let q := { aGlb at0 with seq := 1 }
         let f (a : Acc) : Flight := { src := .cell 0, dst := .station 0 0, pay := .stationReq a }
         let t := { at0 with net := [f (aGlb at0), f q], cur := { cell := 0, ctx := 0, k := 1 } }
         t.net[1]? = some (f q) ∧ (t.passes 1 (t.stationWaits 0)).isNone = true) := by decide +kernel
theorem witness_AccessesArePerformedInOrder :
    let a := translated at0
    let s := bring at0 (.station 0 0) (.cell 0) (.glb a)
    s.passes 0 s.homeWaits = some { src := .station 0 0, dst := .cell 0, pay := .glb a } ∧ s.earlierChunk a = false ∧ a.op = .load ∧ a.isLoad = true ∧ s.inOrder a = true ∧ a.kind ≠ .S
      ∧ s.badUnit a = none ∧ ({ s with poison := [(vltA 0 (2 ^ 30 - 2 ^ 17)) / 64] }.badUnit a).isSome = true
      ∧ (let b := { a with op := .store }
         b.isLoad = false ∧ (bring at0 (.station 0 0) (.cell 0) (.glb b)).inOrder b = true
           ∧ (bring at0 (.station 0 0) (.cell 0) (.glb b)).earlierChunk b = false ∧ (bring at0 (.station 0 0) (.cell 0) (.glb b)).waitsFor 0 (.station 0 0) b = false)
      ∧ (loading at0).inOrder { a with seq := a.seq + 1 } = false
      ∧ (let f : Flight := { src := .station 0 0, dst := .cell 0, pay := .glb { a with seq := 1 } }
         let t := { loading at0 with net := (loading at0).net ++ [f], cur := { cell := 0, ctx := 0, k := 1 } }
         t.passes 1 t.homeWaits = some f ∧ t.homeWaits 1 f = true)
      ∧ (let t := bring at0 (.cell 0) (.cell 0) (.value a [])
         t.passes 0 t.homeWaits) = some { src := .cell 0, dst := .cell 0, pay := .value a [] }
      ∧ (let t := at0.modCell 0 fun c => { c with retryWait := [(anEntry 0 7, { cause := 57, val := 0, info := 0 }, false)] }
         indexWhere (fun e => t.ringRoom 0 e.1.tenant && ((t.cell 0).ctx e.1.ctx).frozen.isNone) (t.cell 0).retryWait = some 0) := by
  decide +kernel
theorem witness_PeersAreAccessed :
    let p : Piece := { lane := 0, off := 0, len := 8, home := locA 1 0x3000 }
    let a := { aGlb (withPeer at0) with sp := .peer, peer := some 1, pieces := [p] }
    let s := bring (withPeer at0) (.cell 0) (.cell 1) (.peer a)
    s.arriving 0 = some { src := .cell 0, dst := .cell 1, pay := .peer a } ∧ a.pieces = [p] ∧ s.peerPresent a 1 = true ∧ at0.peerPresent a 1 = false
      ∧ s.inOrder a = true ∧ (s.cell 1).conflicts .loc (p.home - locA 1 0) p.len (a.op == .store) = false ∧ a.cons = false
      ∧ (s.land 0).tileCheck 1 .loc (p.home - locA 1 0) p.len (a.op == .store) 0x10000 = none
      ∧ (let p : Piece := { lane := 0, off := 0, len := 8, home := locA 1 0x1000 }
         let b := { a with cons := true, pieces := [p] }
         let t := s.modCell 1 fun c => { c with pools := [(0, { aPool with tiles := [{ aTile with cell := 1 }] })] }
         ((bring t (.cell 0) (.cell 1) (.peer b)).land 0 |>.consumeAt 1 .loc 0x1000 8 b.firstAddr b.cell b.ctx).2 = none
           ∧ ((bring s (.cell 0) (.cell 1) (.peer b)).land 0 |>.consumeAt 1 .loc 0x1000 8 b.firstAddr b.cell b.ctx).2.isSome = true
           ∧ ((s.modCell 1 fun c => { c with pools := [(0, { aPool with tiles := [Tile.fresh] })] }).tileCheck 1 .loc 0x1000 8 true 0x1000).isSome
                = true)
      ∧ (bring at0 (.cell 1) (.cell 0) (.peerAbsent a)).arriving 0 = some { src := .cell 1, dst := .cell 0, pay := .peerAbsent a } := by
  decide +kernel
/-- A load announced in window 0. -/
def aScOp (ready : Bool) (op : AccOp) : ScOp :=
  { window := 0, cell := 0, ctx := 0, seq := 0, acc := { translated at0 with op := op }, ready := ready }
theorem witness_WindowsCloseInOrder :
    let o := aScOp true .load
    let s := { at0 with scOps := [o], clock := 128 }
    firstSc s.scOps = some o ∧ 32 * (0 + 1) + 96 ≤ s.clock ∧ o.cell = o.acc.cell ∧ o.ctx = o.acc.ctx ∧ o.seq = o.acc.seq ∧ o.acc.isAtomic = false
      ∧ s.scWaits o.acc = false ∧ s.homeConflict o.acc false = false ∧ ({ s with clock := 127 }).clock < 32 * (0 + 1) + 96
      ∧ { s with scOps := [{ o with seq := 1 }] }.scWaits o.acc = true ∧ (aScOp true (.atomic 0)).acc.isAtomic = true
      ∧ (s.modCell 0 fun c => { c with sb := [{ anSb 1 with lo := 0, hi := 2 ^ 30 }] }).homeConflict o.acc false = true
      ∧ ({ s with poison := [(vltA 0 (2 ^ 30 - 2 ^ 17)) / 64] }.badUnit o.acc).isSome = true
      ∧ s.badUnit o.acc = none
      ∧ firstSc [o, { aScOp true .store with cell := 1 }] = some o
      ∧ (bring s (.cell 0) (.cell 5) (.announce 0 0 0 0)).arriving 0 = some { src := .cell 0, dst := .cell 5, pay := .announce 0 0 0 0 } := by
  decide +kernel
theorem witness_KeySlotsEmpty :
    let s := { at9 with keys := [(1023, { st := .retiring, owner := 1, gen := 1 })] }
    (s.keySlot 1023).st = .retiring ∧ s.slotIdle 1023 = true ∧ (at9.keySlot 1023).st ≠ .retiring
      ∧ { s with stations := [(0, { leaves := [{ aLeaf with key := 1023 }], walks := [] })] }.slotIdle 1023 = false := by decide +kernel
theorem witness_LinkEventsActAsStated :
    let s := withLink .up none at0
    let g : WaleGroup := { link := 15, slot := 0, share := 0, nflits := 2, seq := 1, ack := 2, verifies := true, nak := false, pays := [] }
    let u := (s.sealAll 15).acknowledge 15 2
    (s.link 15).isUp = true ∧ ((withLink .down none at0).link 15).isUp = false ∧ g.nflits ≠ 0 ∧ (u.link 15).isUp = true
      ∧ ((u.link 15).shares.find? (·.share == 0)).isSome = true ∧ (u.link 15).accepts g = true
      ∧ (u.link 15).accepts { g with seq := 2 } = false ∧ (u.link 15).accepts { g with share := 5 } = false ∧ (u.link 15).unacked.length = 1
      ∧ s.clock < (s.link 15).lastAck + 3600 ∧ (s.link 15).lastAck + 3600 ≤ ({ s with clock := 3600 } : State).clock
      ∧ (Assoc.get? 15 (withLink .training none at0).links).map (·.isUp) = some false
      ∧ ((withLink .training none at0).link 15).st = .training
      ∧ ((withLink .training none at0).link 15).downSince + 18000000 ≤ ({ at0 with clock := 18000000 } : State).clock
      ∧ ((withLink .up (some 0) at0).link 15).rotTx = some 0 ∧ ((withLink .up (some 1) at0).link 15).rotTx = some 1
      ∧ (s.link 15).rotTx = none ∧ (s.link 15).rotRx = none
      ∧ ((withLink .up (some 2) at0).link 15).unacked.any (·.slot == 1 - 0) = false ∧ ((withLink .up (some 3) at0).link 15).rotRx = some 3
      ∧ { aLink .up (some 1) with rotTx := some 2 }.rotTx ≠ some 1
      ∧ ((u.link 15).shares.find? (·.share == 5)).isNone = true ∧ ((s.sealAll 15).link 15).unacked ≠ [] ∧ Assoc.get? 14 s.links = none := by decide +kernel
theorem witness_HostsAreServed :
    let s := withTables (withChannel .run at0)
    s.vfState 0 = some .run ∧ (s.chan 0 255).st = .mapped ∧ (s.chan 0 255).latch < 21 ∧ 21 ≤ (s.chan 0 255).head + 2 ^ (s.chan 0 255).e
      ∧ (s.chan 0 255).head + 2 ^ (s.chan 0 255).e < 22 ∧ (s.chan 0 254).st = .unmapped ∧ (withChannel .error at0).vfState 0 = some .error
      ∧ Assoc.get? 0 s.vfs = some aVf ∧ aVf.st ≠ .error ∧ s.hostUp.contains aVf.link = true ∧ (s.vfTenant 0).map (·.1) = some 1
      ∧ ({ s with hostUp := [1] } : State).hostUp.contains aVf.link = false
      ∧ aVf.doorbell ≤ 0x100ff8 ∧ 0x100ff8 < aVf.doorbell + 4096 ∧ (0x1007f8 - aVf.doorbell) / 8 = 255 ∧ (0x1007f8 - aVf.doorbell) % 8 = 0
      ∧ 255 < (0x100ff8 - aVf.doorbell) / 8 ∧ ¬ (0x101000 < aVf.doorbell + 4096)
      ∧ aVf.base ≤ 0x1fff0 ∧ 0x1fff0 + 16 ≤ aVf.base + aVf.size ∧ (s.glbWrite 1 0x1fff0 (List.replicate 16 7)).isSome = true
      ∧ (s.glbRead 1 0x1fff0 16).isSome = true
      ∧ s.recovery = false ∧ (s.meas[3]?).isSome = true ∧ s.vfState 9 = none ∧ s.vfTenant 9 = none ∧ Assoc.get? 9 s.vfs = none
      ∧ ¬ (4 : Nat) ≤ 3 ∧ s.glbRead 1 0x40000000 16 = none ∧ (s.glbWrite 1 0x40000000 [7]).isNone = true
      ∧ { s with poison := [(vltA 0 (2 ^ 30 - 2 ^ 17) + 0x10000) / 64] }.glbRead 1 0x10000 16 = none
      ∧ { s with identity := some 0 }.identity = some 0 ∧ s.streamFree 0 = true ∧ s.streamFree 9 = false
      ∧ ({ s with vfs := (List.range 64).map fun v => (v, aVf) } : State).streamFree 63 = false := by decide +kernel
/-- A time at which the module has run for a while. -/
def later (s : State) : State := { s with clock := 5000 }
theorem witness_ModuleUnitsAct :
    at0.recovery = false ∧ at0.hot = [] ∧ ({ at0 with hot := [959] } : State).hot ≠ [] ∧ at0.imageGood [] = false
      ∧ ({ at0 with hot := [959] } : State).hot.contains 959 = true ∧ at0.hot.contains 959 = false ∧ (2 : Nat) < 3 ∧ ¬ (4 : Nat) ≤ 3
      ∧ at0.clock < 4096 ∧ 4096 ≤ (later at0).clock ∧ (later at0).routed (routerNo 3 255) = false
      ∧ (bring at0 (.cell 0) (.router (routerNo 3 255)) (.announce 0 0 0 0)).routed (routerNo 3 255) = true
      ∧ { later at0 with passed := [(.cell 0, .router (routerNo 3 255), 1000)] }.routed (routerNo 3 255) = true
      ∧ { later at0 with passed := [(.cell 0, .router (routerNo 3 255), 900)] }.routed (routerNo 3 255) = false
      ∧ (({ at0 with gated := [routerNo 0 0] } : State).wakeRouter (routerNo 0 0)).gated = [] := by
  decide +kernel
/-- A tenant to be created, of no grants; its ASID's root is at 0x10000. -/
def aTenant (link : Nat) : TenantReq :=
  { no := 65535, control := { placedRegion with asid := 16383, grants := [], vf := 7 }, roots := [(16383, 0x10000, 0)], link,
    doorbell := 0x101000, window := (0, 0), table := (0, 0) }
theorem witness_TenantsAreCreated :
    let s := at0
    let q := aTenant 0
    let x := q.control
    (q.no ≠ 0 ∧ q.no ≤ 65535 ∧ s.region q.no = none ∧ (∀ g ∈ x.grants, s.grantOk g = true ∧ s.leavesArea g = true)
      ∧ x.asid ≠ 0 ∧ x.asid ≤ 16383 ∧ s.asidFree q.no x.asid = true ∧ (∀ t ∈ q.roots, s.rootOk q.no t = true)
      ∧ (∃ t ∈ q.roots, t.1 = x.asid) ∧ hostLinks.contains q.link = true ∧ Assoc.get? x.vf s.vfs = none ∧ s.recovery = false
      ∧ s.partitionOk q.no x.partition (x.grants.map (·.cell)) = true ∧ (∀ k ∈ s.keys, k.2.owner = q.no → k.2.st = .empty))
      ∧ s.asidFree 65535 1 = false ∧ hostLinks.contains 16 = false ∧ s.rootOk 65535 (16383, 0x8000, 0) = false
      ∧ ¬ (∃ t ∈ q.roots, t.1 = 16382) ∧ Assoc.get? 0 (withChannel .run at0).vfs ≠ none
      ∧ (∀ g ∈ placedRegion.grants, s.grantOk g = true ∧ s.leavesArea g = true) := by decide +kernel
theorem witness_TenantsAreTornDown :
    let s := at0
    s.region 2 = none ∧ s.region 1 = some placedRegion ∧ placedRegion.parent = 0 ∧ placedRegion.dying = false ∧ (s.endSubtree 1).subtreeBusy 1 = false
      ∧ (withTileOp s (aTileOp true false)).region 1 = some placedRegion
      ∧ ((withTileOp s (aTileOp true false)).endSubtree 1).subtreeBusy 1 = true
      ∧ ((withChild child).region 2).map (·.parent) = some 1 := by decide +kernel
theorem witness_PartitionsAreConfigured :
    let s := withLink .up none at0
    let q : PartReq :=
      { partition := 255, cells := [1, 959], disjoint := true, stations := [(63, 4, 1)], sets := [(63, { w0 := 1, w1 := 2 <<< 48 })],
        shares := [(15, { share := 7, partition := 255, tenant := 1, far := 1 })] }
    let his := s.regions.filter fun r => r.2.partition == q.partition
    let there := s.regions.filter fun r => r.2.grants.any fun g => q.cells.contains g.cell
    let slots (s : State) := (s.cells.filter fun x => q.cells.contains x.1).flatMap fun x => x.2.hub.map (·.2.tenant)
    let shares (k : Nat) : List (Nat × Nat × Nat) :=
      (q.stations.filter fun x => x.1 == k) ++ (s.stationShares.getD k []).filter (·.1 ≠ q.partition)
    (q.partition ≤ 255 ∧ (∀ c ∈ q.cells, c ≤ 959 ∧ s.absent.contains c = false)
      ∧ (∀ x ∈ q.stations, x.1 < 64 ∧ (q.stations.filter fun y => y.1 == x.1).length = 1
        ∧ ((shares x.1).map (·.2.1)).sum ≤ 16 ∧ ((shares x.1).map (·.2.2)).sum ≤ 16)
      ∧ (∀ p ∈ s.partitions, p.1 = q.partition ∨ ∀ c ∈ q.cells, c ∉ p.2)
      ∧ (q.disjoint = true → (((his ++ there).map (·.2.tenant)) ++ slots s).eraseDups.length ≤ 1
        ∧ ∀ r ∈ his, ∀ g ∈ r.2.grants, g.cell ∈ q.cells))
      ∧ slots (s.modCell 1 fun c => { c with hub := [(0, s.freshSlot anImage 0 2 2)] }) = [2]
      ∧ s.setOk 63 { w0 := 1, w1 := 2 <<< 48 } = false ∧ s.setOk 63 { w0 := 1, w1 := (2 <<< 48) + 0x20000 } = true
      ∧ s.setOk 64 { w0 := 1, w1 := (2 <<< 48) + 0x20000 } = false
      ∧ (Assoc.get? 15 s.links).isSome = true ∧ s.meas[3]? = some 0
      ∧ ¬ (256 : Nat) ≤ 255 ∧ ({ s with absent := [959] }).absent.contains 959 = true := by decide +kernel

/-- The section table and sections of an image: one line of code at an offset, one task type, the built-in parameters, a pool of one tile of
256 bytes and, if asked for, 16 `.glb` bytes. -/
def imageRest (at_ : Nat) (glb : Bool) : List Byte :=
  let entry (kind space align off len at_ : Nat) : List Byte :=
    leBytes 2 kind ++ leBytes 1 space ++ leBytes 1 align ++ leBytes 4 0 ++ leBytes 8 off ++ leBytes 8 len ++ leBytes 8 at_
  let any := 2 ^ 64 - 1
  entry 1 2 6 288 64 at_ ++ entry 3 255 6 352 64 any ++ entry 7 255 3 416 120 any ++ entry 4 255 3 536 16 any
    ++ entry (if glb then 2 else 11) (if glb then 4 else 255) 4 552 16 any
    ++ leBytes 64 0 ++ leBytes 8 0 ++ [8, 0, 0, 1] ++ leBytes 4 256 ++ leBytes 8 1 ++ [1, 1] ++ leBytes 38 0
    ++ (List.range 3).flatMap (fun _ => leBytes 32 0 ++ leBytes 8 (2 ^ 63 - 1)) ++ [0, 8, 2, 0, 1, 0, 0, 0] ++ leBytes 8 0 ++ leBytes 16 7
/-- The header's bytes before the digest. -/
def imageHead : List Byte := leBytes 4 0x0449474e ++ leBytes 2 1 ++ leBytes 2 0xa1 ++ leBytes 4 5 ++ leBytes 4 0 ++ leBytes 8 568 ++ leBytes 8 0
/-- The image with a digest. -/
def imageWith (d : BitVec 512) (rest : List Byte) : List Byte := imageHead ++ leBytes 64 d.toNat ++ (List.replicate 32 0 ++ rest)
/-- The image. -/
def anImage2 (at_ : Nat) (glb : Bool) : List Byte := imageWith (Config.sha512 (imageHead ++ imageRest at_ glb)) (imageRest at_ glb)
/-- Its sections. -/
def itsSections (at_ : Nat) (glb : Bool) : List Section_ := sectionsOf (imageWith 0 (imageRest at_ glb))
/-- The checks of an image but for its digest. -/
def shapeOk (bs : List Byte) : Bool :=
  let ss := sectionsOf bs
  headerOk bs && kindsOk bs ss
    && (wholeRecords ss 1 64 && wholeRecords ss 3 64 && wholeRecords ss 4 16 && wholeRecords ss 6 64 && wholeRecords ss 7 40
      && wholeRecords ss 8 16 && wholeRecords ss 9 16 && wholeRecords ss 10 32)
    && 3 ≤ (recordsOf ss 7 40).length && fieldLe bs 6 2 ≤ 0xa1
/-- An image whose header holds its digest passes every check when it passes the others. -/
theorem checkImage_anImage2 (at_ : Nat) (glb : Bool) (h : shapeOk (anImage2 at_ glb) = true)
    (hs : sectionsOf (anImage2 at_ glb) = itsSections at_ glb) : checkImage (anImage2 at_ glb) = .ok (itsSections at_ glb) := by
  have hl : imageHead.length = 32 := by decide
  have x : (anImage2 at_ glb).take 32 ++ (anImage2 at_ glb).drop 128 = imageHead ++ imageRest at_ glb := by
    have hn : List.drop 128 imageHead = [] := List.drop_eq_nil_of_le (by omega)
    have hm (v : Nat) : List.drop 96 (leBytes 64 v) = [] := List.drop_eq_nil_of_le (by rw [length_leBytes]; omega)
    simp [anImage2, imageWith, List.drop_append, hl, hn, hm, length_leBytes]
  have e : fieldLe (anImage2 at_ glb) 32 64 = leNat (leBytes 64 (Config.sha512 (imageHead ++ imageRest at_ glb)).toNat) := by
    simp [Machine.fieldLe, anImage2, imageWith, hl, length_leBytes]
  have hd : Config.sha512 ((anImage2 at_ glb).take 32 ++ (anImage2 at_ glb).drop 128) = BitVec.ofNat 512 (fieldLe (anImage2 at_ glb) 32 64) := by
    rw [e, x, leNat_leBytes, Nat.mod_eq_of_lt (by have := (Config.sha512 (imageHead ++ imageRest at_ glb)).isLt; omega)]
    simp
  simp only [shapeOk, Bool.and_eq_true, decide_eq_true_eq, hs] at h
  simp [checkImage, hd, h, hs, Nat.not_lt.mpr h.1.2, Nat.not_lt.mpr h.2]
/-- A load of the image on cell 0, into region 1. -/
def aLoad (at_ : Nat) (glb : Bool) : LoadReq :=
  { image := anImage2 at_ glb, region := 1, cells := [0], params := [], window := if glb then some (0, 65536) else none, typeBase := 1,
    connBase := 0 }
/-- Region 1 with room for the pool. -/
def roomy (s : State) : State := { s with regions := [(1, { placedRegion with poolQuota := 0x1000 })] }
/-- The status of a load whose sections stand, 0 for none, and whether its `.glb` bytes could be written. -/
def loadsAs (s : State) (q : LoadReq) (ss : List Section_) : Nat × Bool × Bool :=
  match s.prepare q ss [0] with
  | .error n => (n, false, false)
  | .ok (ts, places) =>
    match s.region 1 with
    | none => (100, false, false)
    | some x =>
      match s.load q x [0] ts places with
      | .error n => (n, !(s.replacing [0] ts places).isEmpty, false)
      | .ok t =>
        let glb := ts.zipIdx.filterMap fun y =>
          if y.1.kind = 2 && y.1.space = 4 then (places.offs.getD y.2 none).map fun o => (o, y.1.bytes) else none
        (0, !(s.replacing [0] ts places).isEmpty, (t.putGlb x.asid glb).2)
/-- The images pass their checks; a load of one goes through, with its `.glb` bytes and without tables for them; one fails for a parameter and
one for the quota; one waits for the code that it replaces. -/
theorem witness_LoadsEndWithTheirStatus :
    let any := loaderChooses
    let s := roomy at0
    let t := withTables (roomy at0)
    checkImage (anImage2 any false) = .ok (itsSections any false) ∧ checkImage (anImage2 any true) = .ok (itsSections any true)
      ∧ checkImage (anImage2 0x200000 false) = .ok (itsSections 0x200000 false)
      ∧ (match checkImage [] with
          | .ok _ => 0
          | .error n => n) = 1
      ∧ s.region 2 = none ∧ (s.region 1).map (·.tenant) = some 1
      ∧ s.basesFree 1 1 (recordsOf (itsSections any false) 3 64).length 0 0 = true ∧ s.basesFree 1 65536 1 0 0 = false
      ∧ s.isDying 1 = false ∧ { s with regions := [(1, { placedRegion with dying := true })] }.isDying 1 = true
      ∧ (s.withBases 1 1 0 (aLoad any false)).isSome = true ∧ (s.withBases 1 65537 0 (aLoad any false)).isNone = true
      ∧ loadsAs s (aLoad any false) (itsSections any false) = (0, false, true)
      ∧ loadsAs t (aLoad any true) (itsSections any true) = (0, false, true)
      ∧ loadsAs s (aLoad any true) (itsSections any true) = (0, false, false)
      ∧ loadsAs s { aLoad any false with params := [([7], 1)] } (itsSections any false) = (5, false, false)
      ∧ loadsAs at0 (aLoad any false) (itsSections any false) = (9, false, false)
      ∧ (loadsAs (withType s) (aLoad 0x200000 false) (itsSections 0x200000 false)).2.1 = true := by
  refine ⟨checkImage_anImage2 _ _ ?_ ?_, checkImage_anImage2 _ _ ?_ ?_, checkImage_anImage2 _ _ ?_ ?_, ?_⟩ <;> decide +kernel
theorem witness_LoadsTakeTheirTurn :
    let q := { aLoad loaderChooses false with image := [] }
    let w (q : LoadReq) : LoadWait := { req := q, code := [] }
    let s := { at0 with loads := [w { q with region := 2 }, w q], cur := { cell := 0, ctx := 0, k := 2 } }
    at0.recovery = false ∧ ({ at0 with recovery := true } : State).recovery = true
      ∧ ¬(at0.cur.k ≠ 0 ∧ (at0.loads[at0.cur.k - 1]?).map (·.req) = some q)
      ∧ at0.loads = [] ∧ s.cur.k ≠ 0 ∧ (s.loads[s.cur.k - 1]?).map (·.req) = some q ∧ (∀ p ∈ s.loads.take (s.cur.k - 1), p.req.region ≠ q.region)
      ∧ (∃ p ∈ { s with loads := [w q, w q] }.loads.take 1, p.req.region = q.region)
      ∧ (match at0.tryLoad { q with region := 7 } with
          | .ok _ => true
          | .error _ => false) = true := by decide +kernel

/-! ### Witnesses: decoding, issuing, frames and memory -/

/-- The placed word of `add s4, s4, s5`. -/
def addWord : Nat := 0x010000810280000000000000
/-- The state that fetches a word at reset. -/
def fetching (w : Nat) : State := State.reset.withFetchWord 96 w
theorem witness_DecodingInvertsEncoding :
    let i : Instr := .add { g := { neg := true, p := 7 }, ty := .i64, sat := false, d := 63, a := 63, b := .imm 0xffffffff }
    i.wf = true ∧ i.toRaw.isSome = true := by decide +kernel
theorem witness_EncodingInvertsDecoding :
    (addWord : Nat) < 2 ^ 96 ∧ (match decode addWord with
      | .ok _ => true
      | .error _ => false) = true := by decide +kernel
/-- A line of words. -/
def placedLine : Line := Line.ofNat (leNat ((fetching addWord).readBytes (vltA 0 placedPc) 64))
theorem witness_LineParityIsEven : placedLine.slots = [addWord, fillerWord, fillerWord, fillerWord, fillerWord] ∧ fillerWord < 2 ^ 96 ∧ addWord < 2 ^ 96 ∧ placedLine.sealed.toNat < 2 ^ 512 := by
  decide +kernel
theorem witness_StepExecutesTheDecodedInstruction :
    let s := fetching addWord
    let u := { s with agenda := [] }
    s.agenda = [.issue 0 0] ∧ u.me.canIssue = true ∧ u.me.asyncs = [] ∧ u.budgetDue 0 0 = false ∧ u.steppedWord = none
      ∧ { u with
          breaks := [{ cell := 0, pc := placedPc, code := addWord, lineWord := 0 }]
          stepping := [(0, 0, word (2 ^ 14), placedPc)] }.steppedWord = some addWord
      ∧ (match u.lineFor 0 0 with
          | none => false
          | some v => (lineTrap u.me.pc v).isNone && !(Line.ofNat v).pair 0 && ((Line.ofNat v).slot 0 == addWord)) = true := by decide +kernel
theorem witness_IssueChecksComeInOrder :
    at0.cur = { cell := 0, ctx := 0, k := 0 } ∧ at0.me.canIssue = true ∧ at0.me.asyncs = [] ∧ at0.budgetDue 0 0 = false
      ∧ at0.steppedWord = none ∧ (at0.lineFor 0 0).isSome = true ∧ (at0.modMe fun y => { y with pc := 0x400000 }).lineFor 0 0 = none
      ∧ ({ at0 with clock := 2 ^ 40 }).budgetDue 0 0 = true
      ∧ (match at0.lineFor 0 0 with
          | none => false
          | some v => syndrome v == 0 && (Line.ofNat v).legal && syndrome (v + 1) != 0) = true := by decide +kernel
theorem witness_FalseGuardsChangeNothing :
    let g : Guard := { neg := true, p := 0 }
    let i : Instr := .brk { g, code := 0 }
    rowGuard i = some g ∧ issuing at0 = true ∧ at0.me.guard g = false ∧ beyondAllotment i at0 = none := by decide +kernel
theorem witness_IllegalAndPendingOperandsComeFirst :
    let i : Instr := .budgetExt { g := always, d := 4 }
    let j : Instr := .add { g := always, ty := .i64, sat := false, d := 4, a := 7, b := .reg 7 }
    rowGuard i = some always ∧ issuing at0 = true ∧ at0.me.guard always = true ∧ allowedIn i 0 = false ∧ allowedIn i 9 = true
      ∧ rowGuard j = some always ∧ allowedIn j 0 = true ∧ beyondAllotment j at0 = none ∧ waitsForOperand j (loading at0) = true
      ∧ beyondAllotment j (at0.modMe fun y => { y with allot := { y.allot with scount := 4 } }) = some 4 := by decide +kernel
theorem witness_RegisterInstructionsChangeOnlyTheirDestination :
    let i : Instr := .vmovs { g := always, mv := .toTbl 31 }
    registerOnly i = true ∧ i.toRaw.isSome = true ∧ rowGuard i = some always ∧ ready i always at0 = true := by decide +kernel
theorem witness_LocalAccessesChangeOnlyTheirBytes :
    Memory.wf at0.mem = true
      ∧ (onAddr at0 (aLd .loc 5).addr fun r => goes at0 (stReq (aLd .loc 5) at0.me r)) = true
      ∧ ready (.st (aLd .loc 5)) always at0 = true
      ∧ (0x1008 + locA 0 0 < locA 0 0x1000 ∨ locA 0 0x1000 + 8 ≤ locA 0 0x1008) := by decide +kernel
theorem witness_StepsFromSoundStatesStaySound : Sound (fetching addWord) := by
  refine ⟨by decide +kernel, ?_⟩
  intro t h i a e
  rw [show (fetching addWord).agenda = [.issue 0 0] by decide +kernel, List.mem_singleton] at h
  subst h
  exact nomatch e
theorem witness_BytesReadAsWrittenUnderTheirKey :
    Memory.wf at0.mem = true ∧ 0x1000 + (List.replicate 3 (255 : Byte)).length ≤ 2 ^ 40 := by decide +kernel
theorem witness_RepresentableValuesRoundToThemselves :
    (f32Val 0xff7fffff).isNan = false ∧ (f32Val 0x80000000).isNan = false ∧ (f32Val 0x7f800000).isNan = false ∧ (f32Val 0x7f800001).isNan = true := by
  decide +kernel

/-! ### Decoding: the words that the spec prints

Each word is one that an entry of the spec prints, with the operands of the text beside it. Five printed words show 3 in opd where their text has s6
(log entry 30): they decode to register 3, as R36 places the field. -/

/-- `add s4, s4, s5`; `add.np3 s6, s6, -8`; `li s4, 5`; `sub.sat.i32 s6, s6, s7`; `cmp lt, p4, s5, s6`; `ppack s12`; `loop s20, top`. -/
theorem test_words_scalar :
    decodeTableWord 96 0x010000810280000000000000 = some (.add { g := always, ty := .i64, sat := false, d := 4, a := 4, b := .reg 5 })
      ∧ decodeTableWord 96 0x0100b06180000100fffffff8 =
        some (.add { g := { neg := true, p := 3 }, ty := .i64, sat := false, d := 3, a := 6, b := .imm 0xfffffff8 })
      ∧ decodeTableWord 96 0x1c0000800000000000000005 = some (.li { g := always, ty := .i64, d := 4, imm := 0x5 })
      ∧ decodeTableWord 96 0x020000618380120000000000 = some (.sub { g := always, ty := .i32, sat := true, d := 3, a := 6, b := .reg 7 })
      ∧ decodeTableWord 96 0x1f020c814300000000000000 = some (.cmp { g := always, cond := .lt, ty := .i64, pd := 4, a := 5, b := .reg 6 })
      ∧ decodeTableWord 96 0x240001800000000000000000 = some (.ppack { g := always, d := 12 })
      ∧ decodeTableWord 96 0x2e0002800000000ffffffff1 = some (.loop { g := always, a := 20, t := { loff := 0x1fffffffe, slot := 1 } }) := by decide +kernel
/-- `fadd.rtz s4, s5, s6`; `vfma v4, v5, v6, v7`; `ldtab .loc[s5]`. -/
theorem test_words_float_and_vector :
    decodeTableWord 96 0x350000814300840000000000 = some (.fadd { g := always, r := .rtz, d := 4, a := 5, b := .reg 6 })
      ∧ decodeTableWord 96 0x430008916347800000000000 = some (.vfma { g := always, r := .rne, d := 4, a := 5, b := .vec 6, c := 7 })
      ∧ decodeTableWord 96 0x5e000dc14008000000000000 =
        some (.ldtab { g := always, cons := false, addr := { handle := false, space := .loc, base := 5, index := 0, scale := 0, disp := 0 } }) := by decide +kernel
/-- `mma add, s8, s9, s10, 32, 32, future s12`. -/
theorem test_words_matrix :
    decodeTableWord 96 0x68000102450c042100000000 =
        some (.mma { g := always, set := false, pair := .bf16, r := .rne, d := 8, a := 9, b := 10, m := .m32, n6 := 0x2, ca := false, cb := false, fin := { act := .future, c := 12, acq := false, rel := false, scope := .ctx } }) := by decide +kernel
/-- `ldc.i32 s7, .loc[s8 + s9<<2]`; `ldc.i32 s7, tile[s8 + s9<<2]`; `talloc s8, s9, 2`. -/
theorem test_words_scratchpad_and_tiles :
    decodeTableWord 96 0x720100e204840a0000000000 =
        some (.ldc { g := always, ty := .i32, data := 7, addr := { handle := false, space := .loc, base := 8, index := 9, scale := 2, disp := 0 }, ord := .plain, scope := .ctx })
      ∧ decodeTableWord 96 0x720100e204840a2000000000 =
        some (.ldc { g := always, ty := .i32, data := 7, addr := { handle := true, space := .loc, base := 8, index := 9, scale := 2, disp := 0 }, ord := .plain, scope := .ctx })
      ∧ decodeTableWord 96 0x780001024000010000000002 = some (.talloc { g := always, d := 8, a := 9, b := .imm 0x2 }) := by decide +kernel
/-- `send s4, .loc[s9], .vlt[s10], 4096, join s12`; `wait 63, 63, 0, 63`; `fence.mod full`; `ldsc s5, .glb[s9]`; `stsc s6, .glb[s9]`. -/
theorem test_words_copies_and_ordering :
    decodeTableWord 96 0x80000082450c408000001000 =
        some (.send { g := always, sspace := .loc, dspace := .vlt, d := 4, a := 9, b := 10, n := 0x1000, cons := false, fin := { act := .join, c := 12, acq := false, rel := false, scope := .ctx } })
      ∧ decodeTableWord 96 0x830000000000000000fc0fff = some (.wait { g := always, l := 63, s := 63, c := 0, t := 63 })
      ∧ decodeTableWord 96 0x850300000000000400000000 = some (.fence { g := always, kind := .full, scope := .mod })
      ∧ decodeTableWord 96 0x860000a24047c00000000000 =
        some (.ldsc { g := always, ty := .i64, data := 5, addr := { handle := false, space := .glb, base := 9, index := 0, scale := 0, disp := 0 } })
      ∧ decodeTableWord 96 0x870000624047c00000000000 =
        some (.stsc { g := always, ty := .i64, data := 3, addr := { handle := false, space := .glb, base := 9, index := 0, scale := 0, disp := 0 } }) := by decide +kernel
/-- `xlat r, s5, s9`; `tinv page, s9, s10`. -/
theorem test_words_translation :
    decodeTableWord 96 0x880000a24000000000000000 = some (.xlatR { g := always, d := 5, a := 9 })
      ∧ decodeTableWord 96 0x890200024500000000000000 = some (.tinvPage { g := always, a := 9, b := 10 }) := by decide +kernel
/-- `spawn s9, tmpl, tmpl, 0x03`; `callat s9, 7, s12`; `freg s5, s9, s10`; `rgnact new, s5, s9, s10`; `budget ext, s5`. -/
theorem test_words_tasks_and_regions :
    decodeTableWord 96 0x900000024000000000000003 = some (.spawn { g := always, a := 9, hReg := false, h := 0, rReg := false, r := 0, mask := 0x3 })
      ∧ decodeTableWord 96 0x91000002400c010000000007 = some (.callat { g := always, a := 9, t := .imm 0x7, c := 12 })
      ∧ decodeTableWord 96 0x970000a24500000000000000 = some (.freg { g := always, d := 5, a := 9, b := 10 })
      ∧ decodeTableWord 96 0x990000a24500000000000000 = some (.rgnactNew { g := always, d := 5, a := 9, b := 10 })
      ∧ decodeTableWord 96 0x9b0100a00000000000000000 = some (.budgetExt { g := always, d := 5 }) := by decide +kernel
/-- `put 2, s9`; `get s7, 3`; `alt s6, 0x5, s20`; `pbind 3, s9`; `portst s5, 2`; `cload s5, s9, s10`; `cdrop s5, s9`; `cstat s5, s9, 0x20`. -/
theorem test_words_ports_and_hubs :
    decodeTableWord 96 0xa00000024000000000000002 = some (.put { g := always, d := 0, a := 9, k := 2 })
      ∧ decodeTableWord 96 0xa10000e00000000000000003 = some (.get { g := always, d := 7, k := 3 })
      ∧ decodeTableWord 96 0xa20000650000000000000005 = some (.alt { g := always, d := 3, mask := 0x5, a := 20 })
      ∧ decodeTableWord 96 0xa30000024000000000000003 = some (.pbind { g := always, k := 3, a := 9 })
      ∧ decodeTableWord 96 0xa40000a00000000000000002 = some (.portst { g := always, d := 5, sel := 2 })
      ∧ decodeTableWord 96 0xa50000a24500000000000000 = some (.cload { g := always, d := 5, a := 9, b := 10 })
      ∧ decodeTableWord 96 0xa60000a24000000000000000 = some (.cdrop { g := always, d := 5, a := 9 })
      ∧ decodeTableWord 96 0xa70000a24000000000000020 = some (.cstat { g := always, d := 5, a := 9, sel := .offer 0 }) := by decide +kernel
/-- `aadd s5, s6, .glb[s9]`; `acas.acq.mod s5, s6, .glb[s9], fail=acq`; `amsg s9, 12, s4, 2`; `htab set, s5, s10, 12`. -/
theorem test_words_messages_and_atomics :
    decodeTableWord 96 0xb20000a24346000000000000 =
        some (.aadd { g := always, ty := .i64, data := 5, space := .glb, base := 9, index := 6, disp := 0, ord := .plain, acqrel := false, failAcq := false, scope := .ctx })
      ∧ decodeTableWord 96 0xb90000a24346c04000000000 =
        some (.acas { g := always, ty := .i64, data := 5, space := .glb, base := 9, index := 6, disp := 0, ord := .acq, acqrel := false, failAcq := true, scope := .mod })
      ∧ decodeTableWord 96 0xb0000002420000000000004c = some (.amsg { g := always, a := 9, cls := 12, b := 4, n := 2 })
      ∧ decodeTableWord 96 0xb10000a2800000000000000c = some (.htabSet { g := always, d := 5, a := 10, cls := 12 }) := by decide +kernel
/-- `barv s5, 3`; `barw s6, s5`; `redp s5, v3, 2`; `redg v4, s6, s5`; `bcfg set, s5, s9, 3`. -/
theorem test_words_barriers_and_reductions :
    decodeTableWord 96 0xc00000a00000000000000003 = some (.barv { g := always, d := 5, clu := false, n := 3 })
      ∧ decodeTableWord 96 0xc10000614000000000000000 = some (.barw { g := always, d := 3, a := 5 })
      ∧ decodeTableWord 96 0xc30000b0c000000000000002 = some (.redp { g := always, d := 5, a := 3, n := 2 })
      ∧ decodeTableWord 96 0xc40008814006000000000000 = some (.redg { g := always, d := 4, c := 6, a := 5 })
      ∧ decodeTableWord 96 0xc20000a24000000000000003 = some (.bcfgSet { g := always, d := 5, a := 9, n := 3, die := 0 }) := by decide +kernel
/-- `trap call, 5`; `trap ring, s5, s9, 2`; `brk 7`; `rfill s5, s9, s10`; `rretry s5, s9`; `rskip s5, s9`; `rkill ctx, s5`; `frz rgn, s5, s9`. -/
theorem test_words_traps :
    decodeTableWord 96 0xc80000000000000000000005 = some (.trapCall { g := always, code := 0x5 })
      ∧ decodeTableWord 96 0xc80100a24000000000000002 = some (.trapRing { g := always, d := 5, a := 9, k := 2 })
      ∧ decodeTableWord 96 0xca0000000000000000000007 = some (.brk { g := always, code := 0x7 })
      ∧ decodeTableWord 96 0xcb0000a24500000000000000 = some (.rfill { g := always, d := 5, a := 9, b := .sca 10 })
      ∧ decodeTableWord 96 0xcc0000a24000000000000000 = some (.rretry { g := always, d := 5, a := 9 })
      ∧ decodeTableWord 96 0xcd0000a24000000000000000 = some (.rskip { g := always, d := 5, a := 9 })
      ∧ decodeTableWord 96 0xce0100a00000000000000000 = some (.rkillCtx { g := always, d := 5 })
      ∧ decodeTableWord 96 0xcf0000a24000000000000000 = some (.frzRgn { g := always, d := 5, a := 9 }) := by decide +kernel
/-- `hpost done, s5, s9, s10`; `hpoll wait, s5, s9, s10`; `lkrot rot, s5, s9`; `lkrot st, s5, s9`. -/
theorem test_words_host_and_links :
    decodeTableWord 96 0xd00100a24500000000000000 = some (.hpostDone { g := always, d := 5, a := 9, b := 10 })
      ∧ decodeTableWord 96 0xd10300a24500000000000000 = some (.hpollWait { g := always, d := 5, a := 9, b := 10 })
      ∧ decodeTableWord 96 0xd20000a24000000000000000 = some (.lkrotRot { g := always, d := 5, a := 9 })
      ∧ decodeTableWord 96 0xd20100a24000000000000000 = some (.lkrotSt { g := always, d := 5, a := 9 }) := by decide +kernel

/-! ### Decoding: words written out by the fields of R36 to R42 -/

/-- `fcvt.from.i32.rup s4, s5` (R115): function 1, type 1, round 3; `vcvt.to.bf16.rtz v4, v5` (R120): type 9, round 1; `callr.np7 s1` (R90); `rdsr s4,
xval` (R92): number 0x102. -/
theorem test_fields_register :
    decodeTableWord 96 (0x3e * 2 ^ 88 + 1 * 2 ^ 80 + 4 * 2 ^ 69 + 5 * 2 ^ 62 + 1 * 2 ^ 44 + 3 * 2 ^ 42) =
        some (.fcvt { g := always, fromTy := true, ty := .i32, r := .rup, d := 4, a := 5 })
      ∧ decodeTableWord 96 (0x50 * 2 ^ 88 + 68 * 2 ^ 69 + 69 * 2 ^ 62 + 9 * 2 ^ 44 + 1 * 2 ^ 42) =
        some (.vcvt { g := always, fromTy := false, ty := .bf16, r := .rtz, d := 4, a := 5 })
      ∧ decodeTableWord 96 (0x2c * 2 ^ 88 + 1 * 2 ^ 79 + 7 * 2 ^ 76 + 1 * 2 ^ 62) = some (.callr { g := { neg := true, p := 7 }, a := 1 })
      ∧ decodeTableWord 96 (0x30 * 2 ^ 88 + 4 * 2 ^ 69 + 0x102) = some (.rdsr { g := always, d := 4, n := .xval }) := by decide +kernel
/-- `st.i8.rel.sys s7, .peer[s8 - 1]` (R167): function and type 3, size 0, order 2, scope 5; `vldc v31, tile[s8 + s9<<6]` (R168): size 6, cons, the
handle bit aux[37]; `vgat v4, .glb[s5 + v6<<2 + 8]` (R169): size 2. -/
theorem test_fields_memory :
    decodeTableWord 96 (0x71 * 2 ^ 88 + 3 * 2 ^ 80 + 7 * 2 ^ 69 + 8 * 2 ^ 62 + 3 * 2 ^ 52 + 2 * 2 ^ 47 + 5 * 2 ^ 44 + (2 ^ 37 - 1)) =
        some (.st { g := always, ty := .i8, data := 7, ord := .rel, scope := .sys,
                    addr := { handle := false, space := .peer, base := 8, index := 0, scale := 0, disp := 0x1fffffffff } })
      ∧ decodeTableWord 96 (0x75 * 2 ^ 88 + 95 * 2 ^ 69 + 8 * 2 ^ 62 + 9 * 2 ^ 55 + 6 * 2 ^ 49 + 1 * 2 ^ 43 + 6 * 2 ^ 40 + 1 * 2 ^ 37) =
        some (.vldc { g := always, data := 31, ord := .plain, scope := .ctx,
                      addr := { handle := true, space := .loc, base := 8, index := 9, scale := 6, disp := 0 } })
      ∧ decodeTableWord 96 (0x76 * 2 ^ 88 + 68 * 2 ^ 69 + 5 * 2 ^ 62 + 70 * 2 ^ 55 + 4 * 2 ^ 52 + 2 * 2 ^ 49 + 2 * 2 ^ 40 + 8) =
        some (.vgat { g := always, data := 4, space := .glb, base := 5, index := 6, scale := 2, disp := 8, ord := .plain, scope := .ctx }) := by
  decide +kernel
/-- `accrd.acq v3, s9` (R146): n6 is 1, acq set; `tseal s9, 255` (R172); `poolst s5, s9, 6` (R174). -/
theorem test_fields_tiles :
    decodeTableWord 96 (0x6a * 2 ^ 88 + 67 * 2 ^ 69 + 9 * 2 ^ 62 + 1 * 2 ^ 36 + 1 * 2 ^ 30) =
        some (.accrd { g := always, d := 3, a := 9, acq := true, scope := .ctx })
      ∧ decodeTableWord 96 (0x79 * 2 ^ 88 + 9 * 2 ^ 62 + 1 * 2 ^ 40 + 255) = some (.tseal { g := always, a := 9, b := .imm 255 })
      ∧ decodeTableWord 96 (0x7d * 2 ^ 88 + 5 * 2 ^ 69 + 9 * 2 ^ 62 + 6) = some (.poolst { g := always, d := 5, a := 9, sel := 6 }) := by
  decide +kernel
/-- Words that R45 makes illegal: major 0x00, a reserved type, a branch slot of 5, n6 of 0, an `alt` without slots, a reserved operand. -/
theorem test_reserved_words :
    decodeTableWord 96 0 = none ∧ decodeTableWord 96 (0x01 * 2 ^ 88 + 4 * 2 ^ 69 + 0xc * 2 ^ 44) = none ∧ decodeTableWord 96 (0x29 * 2 ^ 88 + 5) = none
      ∧ decodeTableWord 96 (0x6a * 2 ^ 88 + 67 * 2 ^ 69 + 9 * 2 ^ 62) = none ∧ decodeTableWord 96 (0xa2 * 2 ^ 88 + 4 * 2 ^ 69 + 20 * 2 ^ 62) = none
      ∧ decodeTableWord 96 (0x01 * 2 ^ 88 + 111 * 2 ^ 69) = none := by decide +kernel

/-! ### Ill-formed terms, which the checks refuse -/

/-- The register and vector chapters: a type outside the entry's list, saturation where none is, a length of 0 or 65, an immediate of `li` beyond
32 bits, a read-only register, s2 as a destination outside the register chapter, a rounding mode where nothing rounds, a group of 4. -/
theorem test_wf_registers :
    Instr.wf (.add { g := always, ty := .f32, sat := false, d := 4, a := 4, b := .reg 5 }) = false
      ∧ Instr.wf (.mulhu { g := always, ty := .i64, sat := false, d := 4, a := 4, b := .reg 5 }) = false
      ∧ Instr.wf (.div { g := always, ty := .n64, sat := false, d := 4, a := 4, b := .reg 5 }) = false
      ∧ Instr.wf (.xor { g := always, ty := .i64, sat := true, d := 4, a := 4, b := .reg 5 }) = false
      ∧ Instr.wf (.bins { g := always, d := 4, a := 5, c := 6, pos := .imm 0, len := 0 }) = false
      ∧ Instr.wf (.bins { g := always, d := 4, a := 5, c := 6, pos := .imm 0, len := 65 }) = false
      ∧ Instr.wf (.li { g := always, ty := .f32, d := 4, imm := 0x100000000 }) = false
      ∧ Instr.wf (.wrsr { g := always, n := .cycles, a := 4 }) = false
      ∧ Instr.wf (.fadd { g := always, r := .rne, d := 2, a := 5, b := .reg 6 }) = false
      ∧ Instr.wf (.fmin { g := always, r := .rtz, d := 4, a := 5, b := .reg 6 }) = false
      ∧ Instr.wf (.fcvt { g := always, fromTy := false, ty := .ts8, r := .rne, d := 4, a := 5 }) = false
      ∧ Instr.wf (.vadd { g := always, ty := .f32, r := .rne, sat := true, d := 4, a := 5, b := .vec 6 }) = false
      ∧ Instr.wf (.vadd { g := always, ty := .i32, r := .rup, sat := false, d := 4, a := 5, b := .vec 6 }) = false
      ∧ Instr.wf (.vmin { g := always, ty := .i8, r := .rne, sat := false, d := 4, a := 5, b := .vec 6 }) = false
      ∧ Instr.wf (.vexpand { g := always, ty := .ts8, d := 4, a := 5, grp := 4 }) = false
      ∧ Instr.wf (.vredsum { g := always, ty := .bf16, r := .rne, sat := false, d := 4, a := 5, c := 6 }) = false
      ∧ Instr.wf (.vsplat { g := always, ty := .i64, d := 4, a := 5 }) = false
      ∧ Instr.wf (.vmovs { g := always, mv := .toScalar 2 5 0 }) = false
      ∧ Instr.wf (.lea { g := always, d := 4, addr := { addr .loc 5 with handle := true } }) = false := by decide +kernel
/-- Memory, matrix and copies: handle mode in a space, a scale with `.peer`, an acquire on a store, a consuming `.glb` load, no columns, a rounding mode
with an integer pair, an action's operand without an action, a view and type that do not go together, a `.peer` destination, no bytes. -/
theorem test_wf_memory :
    Instr.wf (.ld { aLd .vlt 5 with addr := { addr .vlt 5 with handle := true } }) = false
      ∧ Instr.wf (.ld { aLd .peer 5 with addr := { addr .peer 5 with scale := 1 } }) = false
      ∧ Instr.wf (.st { aLd .loc 5 with ord := .acq }) = false ∧ Instr.wf (.ld { aLd .loc 5 with ord := .rel }) = false
      ∧ Instr.wf (.ldc (aLd .glb 5)) = false ∧ Instr.wf (.ld { aLd .loc 5 with ty := .ts8 }) = false
      ∧ Instr.wf (.vgat (aVgat .acc 5)) = false ∧ Instr.wf (.ldtab { g := always, cons := true, addr := addr .glb 5 }) = false
      ∧ Instr.wf (.mma { anMma with n6 := 0 }) = false ∧ Instr.wf (.mma { anMma with pair := .i8, r := .rup }) = false
      ∧ Instr.wf (.mma { anMma with fin := { noAct with c := 5 } }) = false
      ∧ accstTy false .i8 .rne = false ∧ accldTy true .f32 .rne = false ∧ accstTy true .i32 .rup = false
      ∧ Instr.wf (.send { aSend with dspace := .peer }) = false ∧ Instr.wf (.send { aSend with n := 0 }) = false
      ∧ Instr.wf (.send { aSend with n := 0x1000001 }) = false := by decide +kernel
/-- Tasks, ports, messages and barriers: an operand word that the template replaces, an argument count beyond 16 bits, an `alt` of no slots, of nine
and past s63, a class below 8, five words, a die without one, an instance with `clu`, an `acas` at s63. -/
theorem test_wf_system :
    Instr.wf (.spawn { g := always, a := 9, hReg := false, h := 8, rReg := true, r := 0, mask := 3 }) = false
      ∧ Instr.wf (.callat { g := always, a := 9, t := .imm 0x10000, c := 12 }) = false
      ∧ Instr.wf (.alt { g := always, d := 4, a := 20, mask := 0 }) = false ∧ Instr.wf (.alt { g := always, d := 4, a := 20, mask := 0x1ff }) = false
      ∧ Instr.wf (.alt { g := always, d := 4, a := 62, mask := 7 }) = false
      ∧ Instr.wf (.amsg { g := always, a := 8, cls := 7, b := 4, n := 1 }) = false
      ∧ Instr.wf (.amsg { g := always, a := 8, cls := 8, b := 4, n := 5 }) = false
      ∧ Instr.wf (.amsg { g := always, a := 8, cls := 8, b := 4, n := 0 }) = false
      ∧ Instr.wf (.bcfgFree { g := always, d := 4, a := 0, n := 31, die := 1 }) = false
      ∧ Instr.wf (.bcfgFree { g := always, d := 4, a := 5, n := 32, die := 1 }) = false
      ∧ Instr.wf (.barv { g := always, d := 4, clu := true, n := 1 }) = false
      ∧ Instr.wf (.acas { anAtom .glb .plain with index := 63 }) = false ∧ Instr.wf (.aadd { anAtom .acc .plain with disp := 0 }) = false
      ∧ Instr.wf (.aadd { anAtom .glb .sc with scope := .sys }) = false ∧ Instr.wf (.aadd { anAtom .glb .plain with failAcq := true }) = false := by
  decide +kernel

/-! ### Single steps against the spec's worked values -/

/-- A test on the next state. -/
def next (o : Host.Outcome State Fault Refusal) (f : State → Bool) : Bool :=
  match o with
  | .next t => f t
  | _ => false
/-- R81's worked subtraction: the difference clamps and sets the saturation flag. -/
theorem test_sub_saturates :
    let s := at0.modMe fun y => (y.ws 6 0xffffffff80000005).ws 7 0x10
    next (exec (.sub { g := always, ty := .i32, sat := true, d := 6, a := 6, b := .reg 7 }) s) (fun t => t.me.rs 6 == 0xffffffff80000000
      && t.me.fcsr == 0x20 && t.me.pc == 0x20000c) = true := by decide +kernel
/-- R81's corners of division: by 0, and the most negative number by -1. -/
theorem test_div_corners :
    let f (a b : Word) (q r : Word) : Bool :=
      let s := at0.modMe fun y => (y.ws 6 a).ws 7 b
      let x : ArgInt := { g := always, ty := .i32, sat := false, d := 4, a := 6, b := .reg 7 }
      next (exec (.div x) s) (fun t => t.me.rs 4 == q) && next (exec (.rem x) s) (fun t => t.me.rs 4 == r)
    f 5 0 0xffffffffffffffff 5 = true ∧ f 0x80000000 0xffffffff 0xffffffff80000000 0 = true := by decide +kernel
/-- R95's worked conversions to BF16. -/
theorem test_bf16_conversions :
    let f (a r fl : Word) : Bool :=
      next (exec (.fcvt { g := always, fromTy := false, ty := .bf16, r := .rne, d := 4, a := 6 }) (at0.modMe (·.ws 6 a))) fun t =>
        t.me.rs 4 == r && t.me.fcsr == fl
    f 0x3f808000 0x3f80 1 = true ∧ f 0x3f818000 0x3f82 1 = true ∧ f 0x7f7fffff 0x7f80 5 = true ∧ f 0x3f800000 0x3f80 0 = true := by
  decide +kernel
/-- A vector of 64 bytes. -/
def vec (bs : List Byte) : VWord := BitVec.ofNat 512 (leNat bs)
/-- R97's worked TS8 bytes, expanded to binary32. -/
theorem test_ts8_values :
    next (exec (.vexpand { g := always, ty := .ts8, d := 4, a := 5, grp := 0 }) (at0.modMe (·.wv 5 (vec [0x13, 0xa9, 0x11, 0x99, 0x80])))) (fun t =>
      (lanesOf (t.me.rv 4)).take 5 == [0x3fa00000, 0xbfc00000, 0x40000000, 0xc0000000, 0]) = true := by decide +kernel
/-- R98's worked NT4 byte 0x95: 6 and -2. -/
theorem test_nt4_values :
    let tbl : BitVec 128 := BitVec.ofNat 128 (leNat [0, 1, 2, 3, 4, 6, 8, 12, 255, 254, 253, 252, 250, 248, 244, 240])
    next (exec (.vexpand { g := always, ty := .nt4, d := 4, a := 5, grp := 0 }) (at0.modMe fun y => { y.wv 5 (vec [0x95]) with tbl := tbl })) (fun t =>
      (lanesOf (t.me.rv 4)).take 2 == [0x40c00000, 0xc0000000]) = true := by decide +kernel
/-- R105's worked sum: 2^24 + 1.0 - 2^24 is 1.0 exactly, and three `fadd` lose it. -/
theorem test_sum_is_exact :
    let s := at0.modMe fun y => ((y.wv 5 (vec (leBytes 4 0x4b800000 ++ leBytes 4 0x3f800000 ++ leBytes 4 0xcb800000))).ws 6 0x4b800000).ws 7 0x3f800000
    next (exec (.vredsum { g := always, ty := .f32, r := .rne, sat := false, d := 4, a := 5, c := 0 }) s) (fun t =>
      t.me.rs 4 == 0x3f800000 && t.me.fcsr == 0) = true
      ∧ next (exec (.fadd { g := always, r := .rne, d := 4, a := 6, b := .reg 7 }) s) (fun t => t.me.rs 4 == 0x4b800000 && t.me.fcsr == 1) = true := by
  decide +kernel
/-- R107's worked quantisations: 1.5 ÷ 3.0 is a tie that goes to 0 with nx, and 400.0 ÷ 2.0 clamps to 127 with sat. -/
theorem test_quantisation :
    let f (lane scale : Nat) (r : Nat) (fl : Word) : Bool :=
      let s := at0.modMe fun y => (y.wv 5 (vec (leBytes 4 lane))).ws 6 (word scale)
      next (exec (.vqnt { g := always, ty := .i8, r := .rne, d := 4, a := 5, b := .reg 6, grp := 0 }) s) fun t =>
        (t.me.rv 4).toNat % 256 == r && t.me.fcsr == fl
    f 0x3fc00000 0x40400000 0 1 = true ∧ f 0x43c80000 0x40000000 127 0x20 = true := by decide +kernel
/-- R106's special inputs: 1/−0 is −∞ with dz, log₂ of −∞ is the canonical NaN with nv. -/
theorem test_special_functions :
    let s := at0.modMe (·.wv 5 (vec ((List.replicate 16 (leBytes 4 0x80000000)).flatten)))
    let u := at0.modMe (·.wv 5 (vec ((List.replicate 16 (leBytes 4 0xff800000)).flatten)))
    next (exec (.vrcp { g := always, d := 4, a := 5 }) s) (fun t => (lanesOf (t.me.rv 4)).head? == some 0xff800000 && t.me.fcsr == 8) = true
      ∧ next (exec (.vlog2 { g := always, d := 4, a := 5 }) u) (fun t => (lanesOf (t.me.rv 4)).head? == some 0x7fc00000 && t.me.fcsr == 0x10) = true := by
  decide +kernel
/-- R222's worked set: N = 3, Z = 256 MiB, c0 = 240. -/
theorem test_vault_decode :
    let base : Nat := 0x4000000000
    let s := { at0 with sets := [(0, { w0 := word (3 + (base / 65536) * 2 ^ 16 + 240 * 2 ^ 48), w1 := word (4096 * 2 ^ 48) })] }
    s.home (base + 0x7003) = some (vltA 241 0x30002003) ∧ s.home (base + 0x2fffffff) = some (vltA 242 0x3fffffff)
      ∧ s.home (base + 0x30000000) = none := by decide +kernel
/-- R342's trace: an arrival that runs ahead counts for the next generation. -/
theorem test_barrier_trace :
    let b : BarInst := { cluster := false, owner := 1, k := 1, gen := 0, lb := none,
                         cells := [(7, { cur := 0, next := 0, departed := false }), (8, { cur := 0, next := 0, departed := false })] }
    (match b.arrive 7 with
      | none => false
      | some (b1, g1) => g1 == 0 && (match b1.arrive 7 with
        | none => false
        | some (b2, g2) => g2 == 1 && !b2.allHigh && (match b2.arrive 8 with
          | none => false
          | some (b3, g3) => g3 == 0 && b3.allHigh && b3.release.gen == 1 && b3.release.ended 0 && !b3.release.ended 1 && !b3.release.allHigh
              && (Assoc.get? 7 b3.release.cells == some { cur := 1, next := 0, departed := false })))) = true := by decide +kernel
/-- The line worked to the bit at the end of the encoding chapter: its line word, with the parity byte, is 0xcc0a8000, and its templates are legal. -/
theorem test_worked_line :
    let l : Line := { slots := [0x1c0000800000000000000005, 0x1c0000a00000000000000007, 0x010000810280000000000000, 0x2d0000004000000000000000,
                                fillerWord], lineWord := 0x0a8000 }
    l.sealed.lineWord = 0xcc0a8000 ∧ fillerWord = 0x0b0000000000000000000000 ∧ l.sealed.legal = true ∧ syndrome l.sealed.toNat = 0
      ∧ l.sealed.pair 0 = true ∧ l.sealed.pair 1 = false ∧ l.sealed.pair 2 = true ∧ { l with lineWord := 0x090000 }.sealed.legal = false := by
  decide +kernel

/-! ### Whole steps: fetched, decoded, executed -/

/-- `add.np3 s6, s6, -8` and `li s4, 5`, the words of R36 and R37, run as the first instruction: the guard of the first is true. -/
theorem test_step_add_and_li :
    next (step (fetching 0x0100b06180000100fffffff8)) (fun t => t.me.rs 3 == 0xfffffffffffffff8 && t.me.pc == 0x20000c) = true
      ∧ next (step (fetching 0x1c0000800000000000000005)) (fun t => t.me.rs 4 == 5) = true := by decide +kernel
/-- A word that does not decode takes an illegal instruction with the word's upper part as its value (R45). -/
theorem test_step_illegal :
    next (step (fetching 0x010000810280c00000000000)) (fun t => ((t.cell 0).trapq.map fun q => (q.info.cause, q.info.val, q.epc))
      == [(2, 0x010000810280c000, 0x200000)]) = true := by decide +kernel
/-- `brk 7` takes a breakpoint whose return is the next slot (R359, R376). -/
theorem test_step_brk :
    next (step (fetching 0xca0000000000000000000007)) (fun t => ((t.cell 0).trapq.map fun q => (q.info.cause, q.info.val, q.epc))
      == [(3, 7, 0x20000c)]) = true := by decide +kernel
/-- `st.i64 s5, .loc[s5]` then `ld.i16`: little-endian bytes and sign extension (R167), and the byte beyond is as before. -/
theorem test_store_then_load :
    let s := at0.modMe (·.ws 7 0x0123456789ab8def)
    next (exec (.st (aLd .loc 5)) s) (fun t => t.readBytes (locA 0 0x0ffe) 12 == [0, 0, 0xef, 0x8d, 0xab, 0x89, 0x67, 0x45, 0x23, 0x01, 0, 0]
      && next (exec (.ld { aLd .loc 5 with ty := .i16 }) t) (fun u => u.me.rs 7 == 0xffffffffffff8def)) = true := by decide +kernel
/-- The second of a pair issues in the same step: `li s4, 5` and `li s5, 7` of the worked line. -/
theorem test_step_pair :
    let v := (Line.sealed { slots := [0x1c0000800000000000000005, 0x1c0000a00000000000000007, 0x010000810280000000000000, 0x2d0000004000000000000000,
                                      fillerWord], lineWord := 0x0a8000 }).toNat
    let s := { State.reset.placed 0 with mem := Memory.writeAll (vltA 0 placedPc) (leBytes 64 v) [] }
    next (step s) (fun t => t.me.rs 4 == 5 && t.me.rs 5 == 7 && t.me.pc == 0x200018) = true := by decide +kernel
/-- R49: the table's header, the entry of `add` (R93: issue 1, result 1), of an unassigned opcode, of `div` (bound 38), and of
`cload` (R323: typical 4,000, stored in steps of 16, 250 of them). -/
theorem test_latency_table :
    (latencyTable.take 12 = [0xa1, 0, 1, 0, 0, 1, 0, 0, 0, 0, 0, 0] ∧ latencyEntry 0x01 = 0x00010100)
      ∧ latencyEntry 0x00 = 4 ∧ latencyEntry 0x06 = 0x00012601 ∧ latencyEntry 0xa5 = 0x00fafa59 := by decide +kernel

end Sys2Proof.Tests
end

section
/-! PROOFS. What an instruction meets at its issue, for every row of the opcode table (R9, R34, R35, R45, R46, R73). -/
namespace Sys2Proof.Machine

/-! ### Every instruction row is issued -/

/-- The instruction is issued under the guard of its encoding, in the contexts that its entry allows. -/
def IssuedByEntry (i : Instr) (g : Guard) : Prop :=
  ∃ body : State → Res, ∀ s, exec i s = issue i g (allowedIn i) body s

/-- The guard that a row's encoding carries is the one that its operands give. -/
theorem IssuedByEntry.of_row {i : Instr} {g g' : Guard} {body : State → Res} (hr : rowGuard i = some g')
    (he : ∀ s, exec i s = issue i g (allowedIn i) body s) (hg : rowGuard i = some g) : IssuedByEntry i g' := by
  obtain rfl : g = g' := Option.some.inj (hg.symm.trans hr)
  exact ⟨body, he⟩

/-- The four moves of `vmovs` have one head (R33, R125). -/
theorem rowGuard_vmovs (x : ArgVmovs) : rowGuard (.vmovs x) = some x.g := by
  obtain ⟨g, mv⟩ := x
  cases mv <;> exact congrArg some (guardOf_fields g)

/-- R9, R34: every instruction row of the opcode table is issued under its guard in the contexts that its entry allows; an event
has no guard. -/
theorem issuedByEntry_of_rowGuard {i : Instr} {g : Guard} (hr : rowGuard i = some g) : IssuedByEntry i g := by
  cases i
  case
    ngloadLoad | tenantCreate | placerDecision | placerAging | preemptionRequest | abandonedTile | stallWatchdog |
    stageGovernor | barrierRelease | reductionResult | walkComplete | keySlotEmpty | thaw | scrub | copyTokenRefill |
    waleGroupReceive | waleResendTimeout | waleRetrainComplete | waleDownTimeout | rotationKeyInstall | rotationSwitch |
    rotationRetire | notifyWrite | channelUnmap | channelMap | hostRequest | spdmRequest | moduleReset | imageCommit |
    powerSample | routerPowerGate | routerWake | vaultTemperature | tenantTeardown | isolationPartitionConfigure |
    fetchQueueFill | dispatch | readyRecordArrival | budget | budgetHardLimit | trapEntry | asynchronousTrap |
    supervisorRunCap | handlerRun | handlerCap | tileOpStart | tileOpRetire | copyStart | copyChunkArrival |
    copyAcknowledgement | copyRetire | tallocRequestArrival | tallocCancel | grantReplyArrival | handleOperationArrival |
    jdecArrival | fresArrival | fregArrival | ownerReplyArrival | messageArrival | returnedMessageArrival |
    messageInjection | atomicResultArrival | peerAccessArrival | peerAbsentReturn | offerArrival | decide |
    fifoItemArrival | hubCancelArrival | portCompletionArrival | reductionCombine | reductionPartialArrival |
    scAnnouncementArrival | windowClose | stationRequest | ringEntryFreed | writePerformedAtHome | loadValueReturned |
    pbindRequestArrival | epmovTargetArrival =>
    exact nomatch hr
  case vmovs x => exact .of_row hr (fun _ => rfl) (rowGuard_vmovs x)
  all_goals exact .of_row hr (fun _ => rfl) (congrArg some (guardOf_fields _))

/-! ### The checks of an issue, in their order -/

section
variable {i : Instr} {g : Guard} {allowed : Nat → Bool} {body : State → Res} {s : State}

/-- A context that can issue makes no fault of its own: the checks of its instruction follow. -/
theorem not_faults_of_issuing (h : issuing s = true) : (!s.me.canIssue || decide (10 ≤ s.cur.ctx)) = false := by
  simp only [issuing, Bool.and_eq_true, decide_eq_true_eq] at h
  obtain ⟨hctx, hcan⟩ := h
  simp [hcan, hctx]

/-- Under a true guard, an instruction whose entry does not allow the context is illegal (R9, R45). -/
theorem issue_illegal (h : issuing s = true) (hg : s.me.guard g = true) (ha : allowed s.cur.ctx = false) :
    issue i g allowed body s = .next (s.takeTrap s.cur.cell s.cur.ctx (encTrap 2 i)) := by
  simp [issue, not_faults_of_issuing h, hg, ha]

/-- A register beyond the allotment is cause 26, whatever the guard, where the context check does not come first (R35). -/
theorem issue_beyond {k : Nat} (h : issuing s = true) (hga : s.me.guard g = false ∨ allowed s.cur.ctx = true)
    (hk : beyondAllotment i s = some k) :
    issue i g allowed body s =
      .next (s.takeTrap s.cur.cell s.cur.ctx { cause := 26, val := (encTrap 26 i).val, info := word k }) := by
  have hpass : (s.me.guard g && !allowed s.cur.ctx) = false := by
    rcases hga with hg | ha
    · simp [hg]
    · simp [ha]
  rw [beyondAllotment] at hk
  simp only [issue, not_faults_of_issuing h, hpass, hk, Bool.false_eq_true, if_false]

/-- A pending operand stalls an instruction that passes the other checks (R73). -/
theorem issue_pending (h : issuing s = true) (hg : s.me.guard g = true) (ha : allowed s.cur.ctx = true)
    (hb : beyondAllotment i s = none) (hw : waitsForOperand i s = true) :
    issue i g allowed body s = .next (s.modMe fun x => { x with stalled := true }) := by
  rw [beyondAllotment] at hb
  rw [waitsForOperand] at hw
  simp only [issue, not_faults_of_issuing h, hg, ha, hb, hw]
  rfl

end

/-- Settles O54: every row is issued by its entry, and an issue makes its checks in the order of the three clauses. -/
theorem illegalAndPendingOperandsComeFirst : Obligations.IllegalAndPendingOperandsComeFirst := by
  intro i g s hr hs
  obtain ⟨body, he⟩ := issuedByEntry_of_rowGuard hr
  rw [he s]
  exact ⟨issue_illegal hs, fun _ => issue_beyond hs, issue_pending hs⟩

end Sys2Proof.Machine
end

section
/-! PROOFS. Accesses that leave their cell: to the station of a column for global memory, and to a peer's cell (R19, R161, R201, R230,
R231). -/
namespace Sys2Proof.Machine

/-! ### The request that an instruction makes -/

/-- The own effect of an instruction, in the state given, is the access of a request. -/
def Accesses (i : Instr) (g : Guard) (s : State) (q : MemReq) : Prop :=
  ∃ body : State → Res, (∀ t, exec i t = issue i g anyCtx body t) ∧ body s = s.access q

/-- An instruction ends, when ready, as the access of its request does. -/
theorem Accesses.becomes {i : Instr} {g : Guard} {s t : State} {q : MemReq} (hi : Accesses i g s q)
    (hq : s.access q = .ok t) : Becomes i g s t := by
  obtain ⟨body, hexec, hbody⟩ := hi
  intro hready
  rw [hexec s]
  exact issue_ok hready rfl (hbody.trans hq)

section
variable {s : State} {r : Option (Nat × Nat) × Space × Word × Word × Bool}

/-- A contiguous access whose address resolves is that of the request at the resolved address. -/
theorem memOp_of_resolve {m : MAddr} (hr : s.resolve m = .ok r) (wr cons : Bool) (len align : Nat) (data : List Byte)
    (dest : Nat) (ty : Ty) (acq rel : Bool) (scope : Scope) :
    s.memOp m wr cons len align data dest ty acq rel scope
      = s.access (accessOf m r wr cons len align data dest ty acq rel scope) := by
  rw [State.memOp, hr]; rfl

theorem accesses_ld {x : ArgLd} (hr : s.resolve x.addr = .ok r) : Accesses (.ld x) x.g s (ldReq x false r) :=
  ⟨_, exec_ld x, memOp_of_resolve hr ..⟩

theorem accesses_ldc {x : ArgLd} (hr : s.resolve x.addr = .ok r) : Accesses (.ldc x) x.g s (ldReq x true r) :=
  ⟨_, exec_ldc x, memOp_of_resolve hr ..⟩

theorem accesses_st {x : ArgLd} (hr : s.resolve x.addr = .ok r) : Accesses (.st x) x.g s (stReq x s.me r) :=
  ⟨_, exec_st x, memOp_of_resolve hr ..⟩

theorem accesses_vld {x : ArgVld} (hr : s.resolve x.addr = .ok r) : Accesses (.vld x) x.g s (vldReq x false r) :=
  ⟨_, exec_vld x, memOp_of_resolve hr ..⟩

theorem accesses_vldc {x : ArgVld} (hr : s.resolve x.addr = .ok r) : Accesses (.vldc x) x.g s (vldReq x true r) :=
  ⟨_, exec_vldc x, memOp_of_resolve hr ..⟩

theorem accesses_vst {x : ArgVld} (hr : s.resolve x.addr = .ok r) : Accesses (.vst x) x.g s (vstReq x s.me r) :=
  ⟨_, exec_vst x, memOp_of_resolve hr ..⟩

theorem accesses_vgat (x : ArgVgat) : Accesses (.vgat x) x.g s (gatherReq x false s.me) := ⟨_, exec_vgat x, rfl⟩

theorem accesses_vsca (x : ArgVgat) : Accesses (.vsca x) x.g s (gatherReq x true s.me) := ⟨_, exec_vsca x, rfl⟩

end

/-! ### An admitted request goes to its space -/

@[simp] theorem stallIf_false : stallIf false = .ok () := rfl

section
variable {s : State} {q : MemReq}

/-- An admitted request meets no fault of its lanes, and no stall of its class (R166, R196). -/
theorem passes_of_admitted (h : admitted s q = true) :
    (List.range q.eas.length).findSome? (s.reqCheck q) = none
      ∧ stallIf (if q.wr then 32 ≤ s.storeCount s.cur.cell s.cur.ctx else 16 ≤ s.loadCount s.cur.cell s.cur.ctx) = .ok () := by
  rw [admitted, Bool.and_eq_true, Option.isNone_iff_eq_none] at h
  obtain ⟨hfault, hroom⟩ := h
  refine ⟨hfault, ?_⟩
  cases hwr : q.wr
  · have : ¬ 16 ≤ s.loadCount s.cur.cell s.cur.ctx := by simpa [hwr] using hroom
    simp [this]
  · have : ¬ 32 ≤ s.storeCount s.cur.cell s.cur.ctx := by simpa [hwr] using hroom
    simp [this]

theorem access_glb (hsp : q.sp = .glb) (h : admitted s q = true) : s.access q = s.issueGlb (s.newAcc q) := by
  obtain ⟨hfault, hroom⟩ := passes_of_admitted h
  simp only [State.access, hfault, hroom, hsp]
  rfl

theorem access_peer (hsp : q.sp = .peer) (h : admitted s q = true) : s.access q = s.issuePeer q (s.newAcc q) := by
  obtain ⟨hfault, hroom⟩ := passes_of_admitted h
  simp only [State.access, hfault, hroom, hsp]
  rfl

/-! ### To the station of the column -/

/-- A load or store is no atomic: it does not go by the outbound buffer (R326, R334). -/
@[simp] theorem newAcc_isAtomic (s : State) (q : MemReq) : (s.newAcc q).isAtomic = false := by
  cases hwr : q.wr <;> simp [Acc.isAtomic, State.newAcc, hwr]

theorem toStation_newAcc (s : State) (q : MemReq) :
    s.toStation (s.newAcc q) = s.send (.cell s.cur.cell) (stationPlace s.cur.cell) (.stationReq (s.newAcc q)) := by
  rw [State.toStation, newAcc_isAtomic]; rfl

/-- A `.glb` access that meets no trap of its pages and is not held goes to its station (R201, R230, R231). -/
theorem issueGlb_sends {a : Acc} (htrap : s.issueTrap a = none) (hring : s.glbHeld s.cur.cell s.cur.ctx = false)
    (hload : s.stationLoad s.cur.cell < 16) (hleave : s.leaveHeld a = false) :
    s.issueGlb a = .ok ((s.toStation a).modMe accessDone) := by
  have hcredit : decide (16 ≤ s.stationLoad s.cur.cell) = false := by simpa using hload
  simp only [State.issueGlb, htrap, hring, hcredit, hleave]
  rfl

/-- An admitted `.glb` request that meets no trap of its pages and that nothing holds. -/
def LeavesForStation (s : State) (q : MemReq) : Prop :=
  q.sp = .glb ∧ admitted s q = true ∧ s.issueTrap (s.newAcc q) = none ∧ s.glbHeld s.cur.cell s.cur.ctx = false
    ∧ s.stationLoad s.cur.cell < 16 ∧ s.leaveHeld (s.newAcc q) = false

/-- Such a request's access goes to the station, and its context goes on. -/
theorem access_of_leavesForStation (h : LeavesForStation s q) :
    s.access q = .ok ((s.send (.cell s.cur.cell) (stationPlace s.cur.cell) (.stationReq (s.newAcc q))).modMe accessDone) := by
  obtain ⟨hsp, hadm, htrap, hring, hload, hleave⟩ := h
  rw [access_glb hsp hadm, issueGlb_sends htrap hring hload hleave, toStation_newAcc]

/-! ### To a peer's cell -/

/-- The access of a request as it goes to a peer: it needs no translation, and its bytes are at the peer (R19). -/
def State.peerAcc (s : State) (q : MemReq) (k : Nat) : Acc :=
  { s.newAcc q with
    peer := some k, pieces := [{ lane := 0, off := 0, len := q.len, home := locA k (q.eas.getD 0 0).toNat }], done := true,
    rank := q.rank.toNat }

/-- The state with a request's access on its way to a peer. -/
def State.sentToPeer (s : State) (q : MemReq) (k : Nat) : State := s.send (.cell s.cur.cell) (.cell k) (.peer (s.peerAcc q k))

/-- An admitted `.peer` request whose rank names the cell, with the peer's grant and, unless it consumes, its tiles open. -/
def LeavesForPeer (s : State) (q : MemReq) (k : Nat) : Prop :=
  q.sp = .peer ∧ admitted s q = true ∧ s.peerCell q.rank = some k
    ∧ s.granted (s.ctxRegion s.cur.cell s.cur.ctx) k .loc (q.eas.getD 0 0).toNat q.len = true
    ∧ (q.cons = true ∨ s.tileCheck k .loc (q.eas.getD 0 0).toNat q.len q.wr (q.eas.getD 0 0) = none)

/-- The tiles of a peer stop no access that consumes, and no other whose check they pass (R157, R161). -/
theorem peerTiles_open {k : Nat} {a : Word} (h : q.cons = true ∨ s.tileCheck k .loc a.toNat q.len q.wr a = none) :
    (if q.cons then none else s.tileCheck k .loc a.toNat q.len q.wr a) = none := by
  rcases h with hcons | hopen
  · rw [if_pos hcons]
  · rw [hopen, ite_self]

theorem access_of_leavesForPeer {k : Nat} (h : LeavesForPeer s q k) :
    s.access q = .ok ((s.sentToPeer q k).issuedAcc (s.peerAcc q k)) := by
  obtain ⟨hsp, hadm, hcell, hgrant, htile⟩ := h
  have hregion : s.granted (s.newAcc q).region k .loc (q.eas.getD 0 0).toNat q.len = true := hgrant
  rw [access_peer hsp hadm]
  simp only [State.issuePeer, hcell, hregion, peerTiles_open htile]
  rfl

/-- One that does not consume lets its context go on. -/
theorem access_peer_goes_on {k : Nat} (hcons : q.cons = false) (h : LeavesForPeer s q k) :
    s.access q = .ok ((s.sentToPeer q k).modMe accessDone) := by
  have hno : (s.peerAcc q k).cons = false := hcons
  rw [access_of_leavesForPeer h, State.issuedAcc, hno]
  rfl

/-- One that consumes holds its context until the peer answers (R161). -/
theorem access_peer_holds {k : Nat} (hcons : q.cons = true) (h : LeavesForPeer s q k) :
    s.access q
      = .ok ((s.sentToPeer q k).modMe fun y => { y with seq := y.seq + 1, st := .waiting .access, stalled := false }) := by
  rw [access_of_leavesForPeer h, State.issuedAcc, if_pos (show (s.peerAcc q k).cons = true from hcons)]

end

/-- Settles O11: each instruction makes its request, and a request for global memory or for a peer leaves its cell. -/
theorem remoteAccessesAreSent : Obligations.RemoteAccessesAreSent := by
  intro s
  refine ⟨fun x r hr => ?scalar, fun x r hr => ?vector, fun x => ?lanes⟩
  case scalar =>
    exact ⟨fun h => (accesses_ld hr).becomes (access_of_leavesForStation h),
      fun h => (accesses_st hr).becomes (access_of_leavesForStation h),
      fun k h => (accesses_ld hr).becomes (access_peer_goes_on rfl h),
      fun k h => (accesses_st hr).becomes (access_peer_goes_on rfl h),
      fun k h => (accesses_ldc hr).becomes (access_peer_holds rfl h)⟩
  case vector =>
    exact ⟨fun h => (accesses_vld hr).becomes (access_of_leavesForStation h),
      fun h => (accesses_vst hr).becomes (access_of_leavesForStation h),
      fun k h => (accesses_vld hr).becomes (access_peer_goes_on rfl h),
      fun k h => (accesses_vst hr).becomes (access_peer_goes_on rfl h),
      fun k h => (accesses_vldc hr).becomes (access_peer_holds rfl h)⟩
  case lanes =>
    exact ⟨fun h => (accesses_vgat x).becomes (access_of_leavesForStation h),
      fun h => (accesses_vsca x).becomes (access_of_leavesForStation h)⟩

end Sys2Proof.Machine
end

section
/-! PROOFS. Barriers and reductions at their events (R21, R342, R346 to R349, R402): the release, the routers' registers, the partials
of other modules, and the result at the root. -/
namespace Sys2Proof.Machine

/-! ### The release (R342) -/

section
variable {s : State} {n : Nat} {b : BarInst}

theorem barrierRelease_high (hb : Assoc.get? n s.bars = some b) (h : b.allHigh = true) :
    exec (.barrierRelease n) s = .next (s.setBar n b.release) := by
  simp only [exec_barrierRelease, execBarrierRelease, hb, h, if_true, event]

theorem barrierRelease_waits (hb : Assoc.get? n s.bars = some b) (h : b.allHigh = false) :
    exec (.barrierRelease n) s = .next s := by
  simp only [exec_barrierRelease, execBarrierRelease, hb, h, Bool.false_eq_true, if_false, event]

end

/-! ### The registers of the routers (R21, R347, R402) -/

/-- A router that wakes is not gated. -/
theorem wakeRouter_gated (s : State) (p : Nat) : (s.wakeRouter p).gated.contains p = false := by
  simp [State.wakeRouter]

/-- A register reads back what was added into it, each lane combined with what it held. -/
theorem routerLanes_addLanes (s : State) (p n g op : Nat) (ls : List RLane) :
    (s.addLanes p n g op ls).routerLanes p n g = ((s.routerLanes p n g).zip ls).map fun x => RLane.combine op x.1 x.2 := by
  have hcleared : (s.clearRouter p n g).routers.find? (fun r => r.router == p && r.number == n && r.gen == g) = none := by
    simp only [State.clearRouter, List.find?_eq_none, List.mem_filter]
    exact fun x hx hall => by simp [hall] at hx
  rw [State.routerLanes, State.addLanes, List.find?_append, hcleared]
  simp

section
variable {s : State} {src : Place} {p n g : Nat} {ls : List RLane} {r : RedInst}

/-- What a contribution does at a router, by whether its generation goes on. -/
theorem reductionCombine_contribution (hs : s.brings src (.router p) (.contribution n g ls)) (hr : Assoc.get? n s.reds = some r) :
    exec .reductionCombine s = .next (if r.bar.ended g then s.land s.cur.k
      else ((s.land s.cur.k).wakeRouter p).addLanes p n g r.op ls) := by
  have hland : Assoc.get? n (s.land s.cur.k).reds = some r := hr
  rw [State.brings] at hs
  simp only [exec_reductionCombine, execReductionCombine, hs, hland, event]
  split <;> rfl

/-- With no message the router forwards a register, unless it is the root's. -/
theorem reductionCombine_forwards {q : RouterReg} (hs : s.arriving s.cur.k = none) (hr : Assoc.get? s.cur.ctx s.reds = some r)
    (hq : (s.routers.find? fun x => x.router == s.cur.cell && x.number == s.cur.ctx) = some q)
    (hroot : s.cur.cell ≠ routerOf r.root) :
    exec .reductionCombine s = .next ((s.clearRouter s.cur.cell s.cur.ctx q.gen).send (.router s.cur.cell)
        (.router (nextRouter s.cur.cell (routerOf r.root))) (.contribution s.cur.ctx q.gen q.lanes)) := by
  simp only [exec_reductionCombine, execReductionCombine, hs, hr, event, State.forwardLanes, hq, hroot, if_false]

end

/-! ### The partial of another module (R348) -/

/-- Whether a partial has another operation or rounding mode than the reduction. -/
def RPartial.disagrees (p : RPartial) (r : RedInst) : Bool := p.op ≠ r.op || p.rm ≠ r.rm

theorem disagrees_iff {p : RPartial} {r : RedInst} : p.disagrees r = true ↔ p.op ≠ r.op ∨ p.rm ≠ r.rm := by
  simp [RPartial.disagrees]

/-- The state with a partial kept for its generation, as broken or not. -/
def State.keepPartial (s : State) (r : RedInst) (p : RPartial) (broken : Bool) : State :=
  { s with reds := Assoc.put p.number { r with partials := r.partials ++ [{ p with broken := broken }] } s.reds }

/-- The state with event 10 where a partial that is no break disagrees. -/
def State.tellMismatch (s : State) (c : Nat) (r : RedInst) (p : RPartial) : State :=
  if p.disagrees r && !p.broken then s.pushEvent r.bar.owner c 10 0 (word p.number) (word p.gen) (word p.link) 0 else s

section
variable {s : State} {src : Place} {c : Nat} {p : RPartial} {r : RedInst}

/-- What the partial of a link does while its generation has not ended: a bad one breaks the current generation, or is kept as broken
until its generation is the current one. -/
theorem partialArrival_cases (hs : s.brings src (.cell c) (.partialSum p)) (hr : Assoc.get? p.number s.reds = some r)
    (hend : r.bar.ended p.gen = false) (hlink : r.links.contains p.link = true) :
    exec .reductionPartialArrival s =
      if (p.disagrees r || p.broken) && p.gen = r.bar.gen then
        .next (((s.land s.cur.k).tellMismatch c r p).breakRed p.number r false)
      else .next (((s.land s.cur.k).tellMismatch c r p).keepPartial r p (p.disagrees r || p.broken)) := by
  have hland : Assoc.get? p.number (s.land s.cur.k).reds = some r := hr
  rw [State.brings] at hs
  simp only [exec_reductionPartialArrival, execReductionPartialArrival, hs, hland, hend, hlink]
  rfl

end

/-! ### The result at the root (R347 to R349) -/

/-- The partials of a reduction's current generation. -/
def RedInst.current (r : RedInst) : List RPartial := r.partials.filter (·.gen == r.bar.gen)

/-- Whether the root waits for an input or a contribution of the current generation. -/
def State.redWaits (s : State) (n : Nat) (r : RedInst) : Bool :=
  !r.bar.allHigh || s.contributing n r.bar.gen (routerOf r.root)

/-- Whether a reduction over links has not sent its current partial yet. -/
def RedInst.untold (r : RedInst) : Bool := !r.links.isEmpty && r.sentGen ≠ some r.bar.gen

/-- The lanes of the current generation at the root: its router's register, each partial of the links combined into it. -/
def State.rootLanes (s : State) (n : Nat) (r : RedInst) : List RLane :=
  r.current.foldl (fun ls p => (ls.zip p.lanes).map fun q => RLane.combine r.op q.1 q.2)
    (s.routerLanes (routerOf r.root) n r.bar.gen)

/-- The state with the root's partial on its way over each link. -/
def State.sendPartials (s : State) (n : Nat) (r : RedInst) : State :=
  let t := s.tellLinks n r (s.routerLanes (routerOf r.root) n r.bar.gen) false
  { t with reds := Assoc.put n { r with sentGen := some r.bar.gen } t.reds }

/-- The state with the current generation released, its lanes rounded once. -/
def State.releaseRed (s : State) (n : Nat) (r : RedInst) : State :=
  s.setRed n { r.ended r.bar.release with results := (r.result (s.rootLanes n r) :: r.results).take 2 } false

section
variable {s : State} {n : Nat} {r : RedInst}

theorem redWaits_eq_false_iff :
    s.redWaits n r = false ↔ r.bar.allHigh = true ∧ s.contributing n r.bar.gen (routerOf r.root) = false := by
  simp [State.redWaits]

theorem untold_eq_false_iff : r.untold = false ↔ r.links = [] ∨ r.sentGen = some r.bar.gen := by
  rw [RedInst.untold, Bool.and_eq_false_iff, Bool.not_eq_false', List.isEmpty_iff, decide_eq_false_iff_not, Decidable.not_not]

/-- What the completion of a reduction does, in the order of its tests. -/
theorem reductionResult_cases (hr : Assoc.get? n s.reds = some r) :
    exec (.reductionResult n) s =
      if r.current.any (·.broken) then .next (s.breakRed n r false)
      else if s.redWaits n r then .next s
      else if r.links.any s.linkLost then .next (s.breakRed n r false)
      else if r.untold then .next (s.sendPartials n r)
      else if !r.links.all fun l => r.current.any (·.link == l) then .next s
      else .next (s.releaseRed n r) := by
  rw [exec_reductionResult, execReductionResult, hr]
  rfl

theorem reductionResult_broken (hr : Assoc.get? n s.reds = some r) (h : r.current.any (·.broken) = true) :
    exec (.reductionResult n) s = .next (s.breakRed n r false) := by
  rw [reductionResult_cases hr, if_pos h]

section
variable (hr : Assoc.get? n s.reds = some r) (hok : r.current.any (·.broken) = false)
include hr hok

theorem reductionResult_waits (h : s.redWaits n r = true) : exec (.reductionResult n) s = .next s := by
  rw [reductionResult_cases hr, hok, h]; rfl

variable (hcome : s.redWaits n r = false)
include hcome

theorem reductionResult_linkLost (h : r.links.any s.linkLost = true) :
    exec (.reductionResult n) s = .next (s.breakRed n r false) := by
  rw [reductionResult_cases hr, hok, hcome, h]; rfl

variable (hup : r.links.any s.linkLost = false)
include hup

theorem reductionResult_tells (h : r.untold = true) : exec (.reductionResult n) s = .next (s.sendPartials n r) := by
  rw [reductionResult_cases hr, hok, hcome, hup, h]; rfl

theorem reductionResult_waitsForPartials (htold : r.untold = false)
    (h : (r.links.all fun l => r.current.any (·.link == l)) = false) : exec (.reductionResult n) s = .next s := by
  rw [reductionResult_cases hr, hok, hcome, hup, htold, h]; rfl

theorem reductionResult_releases (htold : r.untold = false)
    (h : (r.links.all fun l => r.current.any (·.link == l)) = true) :
    exec (.reductionResult n) s = .next (s.releaseRed n r) := by
  rw [reductionResult_cases hr, hok, hcome, hup, htold, h]; rfl

end

end

/-- Settles O42: the release, the routers' registers, the partials of other modules and the root's result, each by its lemma. -/
theorem barrierEventsActAsStated : Obligations.BarrierEventsActAsStated := by
  intro s
  refine ⟨fun n b hb => ⟨barrierRelease_high hb, barrierRelease_waits hb⟩, fun src dst n g ls r hs hr => ⟨?ended, ?goesOn⟩,
    fun r q hs hr hq hroot => reductionCombine_forwards hs hr hq hroot, fun src c p r hs hr hend hlink => ?partials,
    fun n r hr => ?result⟩
  case ended =>
    rintro p rfl hend
    rw [reductionCombine_contribution hs hr, if_pos hend]
  case goesOn =>
    rintro p rfl hend
    refine ⟨?_, wakeRouter_gated _ p, routerLanes_addLanes ..⟩
    rw [reductionCombine_contribution hs hr, hend]; rfl
  case partials =>
    rw [partialArrival_cases hs hr hend hlink, State.tellMismatch]
    refine ⟨fun hb hbad => ?_, fun hb hbad hgen => ?_, fun hb hbad hgen => ?_, fun hb hgen => ?_, fun hb hgen => ?_⟩
    · rw [hb, Bool.eq_false_iff.mpr (mt disagrees_iff.mp hbad)]; rfl
    · rw [hb, disagrees_iff.mpr hbad, decide_eq_true hgen]; rfl
    · rw [hb, disagrees_iff.mpr hbad, decide_eq_false hgen]; rfl
    · rw [hb, Bool.or_true, Bool.not_true, Bool.and_false, decide_eq_true hgen]; rfl
    · rw [hb, Bool.or_true, Bool.not_true, Bool.and_false, decide_eq_false hgen]; rfl
  case result =>
    refine ⟨reductionResult_broken hr,
      fun hok hcome => reductionResult_waits hr hok (Bool.of_not_eq_false (mt redWaits_eq_false_iff.mp hcome)),
      fun hok hcome => reductionResult_linkLost hr hok (redWaits_eq_false_iff.mpr hcome), fun hok hcome hup => ⟨?_, ?_, ?_⟩⟩
    · exact fun hlinks hsent => reductionResult_tells hr hok (redWaits_eq_false_iff.mpr hcome) hup
        (Bool.of_not_eq_false fun h => (untold_eq_false_iff.mp h).elim hlinks hsent)
    · exact fun htold => reductionResult_waitsForPartials hr hok (redWaits_eq_false_iff.mpr hcome) hup (untold_eq_false_iff.mpr htold)
    · exact fun htold => reductionResult_releases hr hok (redWaits_eq_false_iff.mpr hcome) hup (untold_eq_false_iff.mpr htold)

end Sys2Proof.Machine
end

section
/-! PROOFS. The register chapter (R76, R81 to R92): what its instructions write, when they come to their effect. -/
namespace Sys2Proof.Machine

/-! ### From an instruction's effect to what it writes -/

section
variable {i : Instr} {g : Guard} {s : State}

/-- A ready instruction is one of a context that can issue. -/
theorem issuing_of_ready (h : ready i g s = true) : issuing s = true := by
  simp only [ready, Bool.and_eq_true] at h
  obtain ⟨⟨⟨hissuing, -⟩, -⟩, -⟩ := h
  exact hissuing

theorem ctx_lt_of_ready (h : ready i g s = true) : s.cur.ctx < 10 := by
  have hissuing := issuing_of_ready h
  rw [issuing, Bool.and_eq_true, decide_eq_true_eq] at hissuing
  obtain ⟨hctx, -⟩ := hissuing
  exact hctx

/-- The instruction, when ready, ends as the effect given. -/
def Effect (i : Instr) (g : Guard) (s : State) (r : Res) : Prop := ready i g s = true → exec i s = .next (finish s r)

/-- An instruction's effect is its own where its entry allows the context. -/
theorem Effect.of_issue {allowed : Nat → Bool} {body : State → Res} (h : exec i s = issue i g allowed body s)
    (ha : allowed s.cur.ctx = true) : Effect i g s (body s) :=
  fun hready => h.trans (issue_ready hready ha)

variable {d : SReg} {v : Word}

theorem Effect.becomes {t : State} (h : Effect i g s (.ok t)) : Becomes i g s t := h

theorem Effect.computes {f : Ctx → Ctx} (h : Effect i g s (s.update f)) : Computes i g s (f s.me) := h

/-- A checked write of a scalar either writes it or is the stack-limit trap (R76). -/
theorem wsChecked_cases (s : State) (d : SReg) (v : Word) :
    (belowLimit s d v = false → s.wsChecked d v = .ok (s.goesOn (s.me.ws d v)))
      ∧ (belowLimit s d v = true → s.wsChecked d v = .error (.trap { cause := 27, val := v, info := 0 })) := by
  rw [belowLimit, State.wsChecked]
  exact ⟨fun h => by rw [h]; rfl, fun h => by rw [h]; rfl⟩

/-- The same of one that sets sticky flags. -/
theorem wsFlags_cases (s : State) (d : SReg) (v : Word) (f : Nat) :
    (belowLimit s d v = false → s.wsFlags d v f = .ok (s.goesOn ((s.me.ws d v).addFlags f)))
      ∧ (belowLimit s d v = true → s.wsFlags d v f = .error (.trap { cause := 27, val := v, info := 0 })) := by
  rw [belowLimit, State.wsFlags]
  exact ⟨fun h => by rw [h]; rfl, fun h => by rw [h]; rfl⟩

theorem Effect.writesScalar (h : Effect i g s (s.wsChecked d v)) : WritesScalar i g s d v := by
  obtain ⟨hwrite, htrap⟩ := wsChecked_cases s d v
  exact fun hready => ⟨fun hb => (h hready).trans (by rw [hwrite hb]; rfl), fun hb => (h hready).trans (by rw [htrap hb]; rfl)⟩

theorem Effect.writesFlagged {f : Nat} (h : Effect i g s (s.wsFlags d v f)) : WritesFlagged i g s d v f := by
  obtain ⟨hwrite, htrap⟩ := wsFlags_cases s d v f
  exact fun hready => ⟨fun hb => (h hready).trans (by rw [hwrite hb]; rfl), fun hb => (h hready).trans (by rw [htrap hb]; rfl)⟩

end

/-! ### The two-operand integer instructions (R81) -/

/-- An instruction of the family writes the value of its operation, clamped where it saturates. -/
theorem intArith_writes {i : Instr} {x : ArgInt} {op : Nat → Int → Int → Nat → Int} {s : State} {v : Int}
    (he : exec i s = issue i x.g anyCtx (intArith x op) s)
    (hv : op (tyBits x.ty) (valOf (tyBits x.ty) (tySigned x.ty) (s.me.rs x.a))
      (valOf (tyBits x.ty) (tySigned x.ty) (s.me.srcB x.b)) ((s.me.srcB x.b).toNat % tyBits x.ty) = v) :
    (x.sat = false → WritesScalar i x.g s x.d (ext64 (tyBits x.ty) (tySigned x.ty) v))
      ∧ (x.sat = true → WritesFlagged i x.g s x.d
          (ext64 (tyBits x.ty) (tySigned x.ty) (clampTo (tyBits x.ty) (tySigned x.ty) v).1)
          (if (clampTo (tyBits x.ty) (tySigned x.ty) v).2 then flSat else 0)) := by
  have heffect := Effect.of_issue he rfl
  simp only [intArith, hv] at heffect
  constructor
  · intro hsat
    rw [hsat] at heffect
    exact heffect.writesScalar
  · intro hsat
    rw [hsat] at heffect
    exact heffect.writesFlagged

/-- The remainder is what the truncated quotient leaves (R81). -/
theorem remI_eq (w : Nat) (a b : Int) (k : Nat) : remI w a b k = if b = 0 then a else a - b * a.tdiv b := by
  rw [remI, Int.tmod_def]

/-- Settles O1: each row of the table is the family's effect with the row's operation. -/
theorem integerInstructionsWriteTheirResult : Obligations.IntegerInstructionsWriteTheirResult := by
  intro x s
  simp only [integerRows, List.forall_mem_cons, List.not_mem_nil, false_implies, implies_true, and_true]
  exact ⟨intArith_writes (exec_add x s) rfl, intArith_writes (exec_sub x s) rfl, intArith_writes (exec_mul x s) rfl,
    intArith_writes (exec_mulh x s) rfl, intArith_writes (exec_mulhu x s) rfl, intArith_writes (exec_div x s) rfl,
    intArith_writes (exec_divu x s) rfl, intArith_writes (exec_rem x s) (remI_eq ..), intArith_writes (exec_remu x s) (remI_eq ..),
    intArith_writes (exec_and x s) rfl, intArith_writes (exec_or x s) rfl, intArith_writes (exec_xor x s) rfl,
    intArith_writes (exec_andn x s) rfl, intArith_writes (exec_shl x s) rfl, intArith_writes (exec_shr x s) rfl,
    intArith_writes (exec_sar x s) rfl, intArith_writes (exec_rol x s) rfl, intArith_writes (exec_min x s) rfl,
    intArith_writes (exec_max x s) rfl, intArith_writes (exec_minu x s) rfl, intArith_writes (exec_maxu x s) rfl⟩

/-! ### The other writers of a scalar (R82 to R86, R88, R92) -/

theorem scalarWritersWriteTheirResult : ScalarWritersWriteTheirResult := by
  refine ⟨fun x s => ⟨?clz, ?ctz, ?popc⟩, fun x s => ?bext, fun x s => ?bins, fun x s => ?lea, fun x s => ?li, fun x d s hd => ?mov,
    fun x s hd => ?movFcsr, fun x s => ?sel, fun x s => ?ppack, fun x s hsup => ?rdsr⟩
  case clz => exact (Effect.of_issue (exec_clz x s) rfl).writesScalar
  case ctz => exact (Effect.of_issue (exec_ctz x s) rfl).writesScalar
  case popc => exact (Effect.of_issue (exec_popc x s) rfl).writesScalar
  case bext => exact (Effect.of_issue (exec_bext x s) rfl).writesScalar
  case bins => exact (Effect.of_issue (exec_bins x s) rfl).writesScalar
  case lea => exact (Effect.of_issue (exec_lea x s) rfl).writesScalar
  case li => exact (Effect.of_issue (exec_li x s) rfl).writesScalar
  case mov =>
    have heffect := Effect.of_issue (exec_mov x s) rfl
    simp only [hd] at heffect
    exact heffect.writesScalar
  case movFcsr =>
    have heffect := Effect.of_issue (exec_mov x s) rfl
    simp only [hd] at heffect
    intro hready
    rw [heffect.becomes hready, State.wrSys, State.retire_modMe s _ (ctx_lt_of_ready hready)]
    rfl
  case sel => exact (Effect.of_issue (exec_sel x s) rfl).writesScalar
  case ppack => exact (Effect.of_issue (exec_ppack x s) rfl).writesScalar
  case rdsr =>
    refine (Effect.of_issue (exec_rdsr x s) ?_).writesScalar
    cases h : x.n.sup
    · rfl
    · exact decide_eq_true (hsup h)

/-! ### The writers of predicates (R87, R88) -/

/-- The predicates of a mask taken from the bits of a word, those of the list given (R88). -/
def Ctx.unpack (y : Ctx) (mask v : Nat) (ks : List Nat) : Ctx :=
  ks.foldl (fun z k => if bit mask k then z.wp (Fin.ofNat 8 k) (bit v k) else z) y

/-- Unpacking changes predicates only. -/
theorem Ctx.unpack_frame (mask v : Nat) (ks : List Nat) (y : Ctx) : y.unpack mask v ks = { y with p := (y.unpack mask v ks).p } := by
  induction ks generalizing y with
  | nil => rfl
  | cons k ks ih =>
    rw [Ctx.unpack, List.foldl_cons]
    split
    · exact (ih _).trans (by rw [Ctx.wp]; split <;> rfl)
    · exact ih y

/-- A predicate after unpacking: its bit where the mask and the list name it. -/
theorem Ctx.rp_unpack (mask v : Nat) (r : PReg) (hr : r.val ≠ 0) (ks : List Nat) (hks : ∀ k ∈ ks, k < 8) (y : Ctx) :
    (y.unpack mask v ks).rp r = if r.val ∈ ks ∧ bit mask r.val = true then bit v r.val else y.rp r := by
  induction ks generalizing y with
  | nil => simp [Ctx.unpack]
  | cons k ks ih =>
    obtain ⟨hk, hks⟩ := List.forall_mem_cons.mp hks
    have hval : (Fin.ofNat 8 k).val = k := Nat.mod_eq_of_lt hk
    rw [Ctx.unpack, List.foldl_cons, ← Ctx.unpack, ih hks]
    by_cases hrk : r.val = k
    · subst hrk
      cases bit mask r.val <;> simp [Ctx.rp_wp, hr]
    · have hne : r ≠ Fin.ofNat 8 k := fun e => hrk ((congrArg Fin.val e).trans hval)
      have hkeep : (if bit mask k then y.wp (Fin.ofNat 8 k) (bit v k) else y).rp r = y.rp r := by
        split
        · rw [Ctx.rp_wp, if_neg hr, if_neg hne]
        · rfl
      simp only [hkeep, List.mem_cons, hrk, false_or]

theorem predicateWritersWriteTheirResult : PredicateWritersWriteTheirResult := by
  refine ⟨fun x s => ?cmp, fun x s => ⟨?pand, ?por, ?pxor⟩, fun x s => ?pnot, fun x s hready => ?punpk, fun x v => ⟨rfl, rfl⟩⟩
  case cmp =>
    have heffect := (Effect.of_issue (exec_cmp x s) rfl).computes
    cases hc : x.cond <;> simpa only [condHolds, hc] using heffect
  case pand => exact (Effect.of_issue (exec_pand x s) rfl).computes
  case por => exact (Effect.of_issue (exec_por x s) rfl).computes
  case pxor => exact (Effect.of_issue (exec_pxor x s) rfl).computes
  case pnot => exact (Effect.of_issue (exec_pnot x s) rfl).computes
  case punpk =>
    refine ⟨s.me.unpack x.mask.toNat (s.me.rs x.a).toNat (List.range 8), (Effect.of_issue (exec_punpk x s) rfl).computes hready,
      Ctx.unpack_frame .., fun r => ?_⟩
    split
    next h0 => simp [Ctx.rp, h0]
    next h0 => simp [Ctx.rp_unpack _ _ r h0 (List.range 8) (fun _ => List.mem_range.mp), r.isLt]

/-- Settles O2: the writers of scalars and those of predicates. -/
theorem scalarAndPredicateWritersWriteTheirResult : Obligations.ScalarAndPredicateWritersWriteTheirResult :=
  ⟨scalarWritersWriteTheirResult, predicateWritersWriteTheirResult⟩

/-! ### Writes of system registers (R92) -/

/-- A `wrsr` that its context allows leaves the state of its field map, one slot on. -/
theorem wrsr_becomes {x : ArgWrsr} {s : State} (ha : x.n.sup = true → s.cur.ctx = 9) :
    Becomes (.wrsr x) x.g s (s.wrSys x.n (s.me.rs x.a)).retire := by
  refine (Effect.of_issue (exec_wrsr x s) ?_).becomes
  cases h : x.n.sup
  · rfl
  · exact decide_eq_true (ha h)

/-- One whose field map changes its own context only goes on with that. -/
theorem wrsr_computes {x : ArgWrsr} {s : State} {f : Ctx → Ctx} (hsup : x.n.sup = false)
    (hmap : s.wrSys x.n (s.me.rs x.a) = s.modMe f) : Computes (.wrsr x) x.g s (f s.me) := by
  intro hready
  rw [wrsr_becomes (fun h => absurd (hsup.symm.trans h) Bool.false_ne_true) hready, hmap,
    State.retire_modMe s f (ctx_lt_of_ready hready)]
  rfl

/-- The stack limit that a write leaves (R76). -/
theorem xslWrite_cases (y : Ctx) (i : Nat) (v : Word) : ∃ k : Nat, y.xslWrite i v = word k
    ∧ (8 ≤ i → k = v.toNat % 2 ^ 21)
    ∧ (∀ t, i < 8 → y.task = some t →
        k = if v.toNat % 2 ^ 21 < t.frameLo then t.frameLo else if t.frameHi < v.toNat % 2 ^ 21 then t.frameHi else v.toNat % 2 ^ 21) := by
  rw [Ctx.xslWrite]
  split
  next t ht =>
    obtain ⟨hi, htask⟩ : i < 8 ∧ y.task = some t := by simpa using ht
    refine ⟨_, rfl, fun h => by omega, fun u _ hu => ?_⟩
    obtain rfl : t = u := Option.some.inj (htask.symm.trans hu)
    rfl
  next hnone =>
    refine ⟨_, rfl, fun _ => rfl, fun t hi ht => ?_⟩
    rw [if_pos hi, ht] at hnone
    exact nomatch hnone

/-- Settles O4: each register by its line of the field map. -/
theorem wrsrWritesItsFieldMap : Obligations.WrsrWritesItsFieldMap := by
  intro x s
  refine ⟨fun hn => wrsr_computes (by rw [hn]; rfl) (by rw [hn]; rfl), fun hn => wrsr_computes (by rw [hn]; rfl) (by rw [hn]; rfl),
    fun hn hready => ?xsl, fun h9 => ⟨fun hn => ?_, fun hn => ?_, fun hn => ?_, fun hn => ?_⟩⟩
  case xsl =>
    obtain ⟨k, hk, hrun, htask⟩ := xslWrite_cases s.me s.cur.ctx (s.me.rs x.a)
    refine ⟨k, ?_, hrun, htask⟩
    rw [← hk]
    exact wrsr_computes (f := fun y => { y with xsl := y.xslWrite s.cur.ctx (s.me.rs x.a) }) (by rw [hn]; rfl) (by rw [hn]; rfl) hready
  all_goals
    have hbecomes : Becomes (.wrsr x) x.g s (s.wrSys x.n (s.me.rs x.a)).retire := wrsr_becomes fun _ => h9
    rw [hn] at hbecomes
    exact hbecomes

/-! ### The end of a task (R72, R91) -/

/-- A module in which context 0 of cell 0 runs with no scalar allotted to it. -/
def unallotted : State := State.reset.modCtx 0 0 fun y => { y with st := .running }

/-- A `done` under a guard that is false. -/
def skippedDone : ArgG := { g := { neg := true, p := 0 } }

/-- The unused operand fields of `done` name s0, and s0 is beyond an allotment of no scalars (R35). -/
theorem skippedDone_traps : exec (.done skippedDone) unallotted
    = .next (unallotted.takeTrap 0 0 { cause := 26, val := (encTrap 26 (.done skippedDone)).val, info := word 0 }) :=
  (exec_done skippedDone unallotted).trans (issue_beyond (by decide) (.inl (by decide)) (by decide))

/-- Refutes O5: in its last clause nothing says that s0 is allotted. In `unallotted` the context that runs has no scalar, so a `done`
whose guard is false takes the trap of cause 26, which holds its context. -/
theorem not_doneEndsTheTask : ¬ Obligations.DoneEndsTheTask := by
  intro h
  obtain ⟨-, -, -, hskip⟩ := h skippedDone unallotted
  have hgoes := Host.Outcome.next.inj (skippedDone_traps.symm.trans (hskip (by decide) (by decide)))
  have hst : CtxSt.held = .running := congrArg (fun t : State => (t.ctxAt 0 0).st) hgoes
  exact nomatch hst

end Sys2Proof.Machine
end

section
/-! PROOFS. Dispatch, traps, budgets and freezes (R71, R74, R272, R356 to R361, R372): what a dispatched context holds, and what each
event does. -/
namespace Sys2Proof.Machine

/-! ### The registers that dispatch gives (R71) -/

section
variable (x : Ctx) (t : Task) (ty : TaskType) (p : TaskPlace)

/-- A scalar of a dispatched context is the entry scalar of its number. -/
theorem rs_taskCtxOf (k : SReg) :
    (taskCtxOf x t ty p).rs k = if k.val = 0 then 0 else entryScalar t.frameHi t.ptr t.record ty.sregs k.val :=
  congrArg (fun w : Word => if k.val = 0 then 0 else w) (Vector.getElem_ofFn k.isLt)

theorem rv_taskCtxOf (v : VReg) : (taskCtxOf x t ty p).rv v = 0 := by
  simp [Ctx.rv, taskCtxOf, Ctx.reset, Vector.get]

theorem rp_taskCtxOf (q : PReg) : (taskCtxOf x t ty p).rp q = true ↔ q.val = 0 := by
  simp [Ctx.rp, taskCtxOf, Ctx.reset, Vector.get]

end

section
variable {top count k : Nat} {ptr : Word} {r : Rec}

/-- An argument below argc, where its register is allotted. -/
theorem entryScalar_argument (h4 : 4 ≤ k) (h12 : k < 12) (hargc : k < 4 + headArgc r.head) (hcount : k < count) :
    entryScalar top ptr r count k = r.args.getD (k - 4) 0 := by
  have hbelow : k - 4 < headArgc r.head := by omega
  have hfield : k ≠ 2 ∧ k ≠ 3 := by omega
  simp [entryScalar, hfield, h4, h12, hbelow, hcount]

/-- A register that takes neither the frame's top, nor the task pointer, nor an argument. -/
theorem entryScalar_zero (h : k < 2 ∨ 12 ≤ k ∨ 4 ≤ k ∧ (4 + headArgc r.head ≤ k ∨ count ≤ k)) :
    entryScalar top ptr r count k = 0 := by
  have hfield : k ≠ 2 ∧ k ≠ 3 := by omega
  have hno : ¬(((4 ≤ k ∧ k < 12) ∧ k - 4 < headArgc r.head) ∧ k < count) := by omega
  simp [entryScalar, hfield, hno]

end

/-- The task that a start makes of a record (R246, R247, R272). -/
def State.newTask (s : State) (c tenant : Nat) (r : Rec) (ty : TaskType) (p : TaskPlace) (rank : Nat) (cluster : Option Nat) : Task :=
  { ptr := word ((s.cell c).dispCount % 2 ^ 32 * 2 ^ 30 + headRegion r.head * 2 ^ 14 + p.ctx * 2 ^ 10 + c)
    ty := headType r.head, region := headRegion r.head, tenant, record := r, rank, cluster, cw := ty.cw, ch := ty.ch, ports := ty.ports,
    ncells := ty.ncells, frameLo := p.frame, frameHi := p.frame + ty.frame, start := s.clock,
    budget := min ty.budget (((s.region (headRegion r.head)).map (·.budgetCap)).getD 0), ext := 0, extended := false, stopped := 0,
    frozenAt := none, signals := 0, lastSig := 0 }

/-- Settles O36: the scalars by `entryScalar`, the vectors and predicates by the reset context, and a start by its new task. -/
theorem dispatchGivesTheTaskItsRegisters : Obligations.DispatchGivesTheTaskItsRegisters := by
  intro x t ty p k v q
  refine ⟨rfl, rfl, rfl, rfl, fun h2 => ?top, fun h3 => ?pointer, fun h4 h12 hargc hcount => ?argument, fun h => ?zero,
    rv_taskCtxOf .., rp_taskCtxOf .., rfl, rfl, rfl, rfl, rfl, fun s c tenant rank r cl => ?start⟩
  case top => rw [rs_taskCtxOf, if_neg (by omega), h2]; rfl
  case pointer => rw [rs_taskCtxOf, if_neg (by omega), h3]; rfl
  case argument => rw [rs_taskCtxOf, if_neg (by omega), entryScalar_argument h4 h12 hargc hcount]
  case zero => rw [rs_taskCtxOf, entryScalar_zero h, ite_self]
  case start => exact ⟨s.newTask c tenant r ty p rank cl, rfl, rfl, rfl, rfl, rfl, rfl, rfl, rfl⟩

/-! ### Trap entry, the run cap and asynchronous traps (R216, R357, R361) -/

section
variable {s : State}

theorem trapEntry_of_queued {t : Trap} {q : List Trap} (hq : (s.cell s.cur.cell).trapq = t :: q) :
    exec .trapEntry s = if s.settled s.cur.cell t then .next (s.enterTrap s.cur.cell) else .next s := by
  rw [exec_trapEntry, execTrapEntry, hq]; rfl

theorem supervisorRunCap_of_run {r : Run9} (hr : (s.cell s.cur.cell).run9 = some r) :
    exec .supervisorRunCap s =
      if s.clock < r.start + r.stopped + 16384 || (s.ctxAt s.cur.cell 9).frozen.isSome then .next s
      else if (s.endRun9 s.cur.cell).stillHeld s.cur.cell r then
        .next ((s.endRun9 s.cur.cell).kill s.cur.cell r.trap.ctx 4 r.trap.async r.trap.epc r.trap.info)
      else .next (s.endRun9 s.cur.cell) := by
  rw [exec_supervisorRunCap, execSupervisorRunCap, hr]
  simp only [event, apply_ite Host.Outcome.next]

/-- A context that runs stands between instructions (R361). -/
theorem interrupt_of_running {c i : Nat} (h : (s.ctxAt c i).st = .running) : s.interrupt c i = (s, true) := by
  rw [State.interrupt, h]

/-- A pending trap of a running context 0..8 is taken at once. -/
theorem asynchronousTrap_taken {t : AsyncTrap} {rest : List AsyncTrap} (hp : (s.ctxAt s.cur.cell s.cur.ctx).asyncs = t :: rest)
    (hfrozen : (s.ctxAt s.cur.cell s.cur.ctx).frozen = none) (hctx : s.cur.ctx < 9)
    (hrun : (s.ctxAt s.cur.cell s.cur.ctx).st = .running) :
    exec .asynchronousTrap s =
      .next ((s.modCtx s.cur.cell s.cur.ctx fun x => { x with asyncs := rest }).takeAsync s.cur.cell s.cur.ctx t) := by
  have hgo : ((s.ctxAt s.cur.cell s.cur.ctx).frozen.isSome || decide (10 ≤ s.cur.ctx)) = false := by
    simp [hfrozen]; omega
  have h9 : s.cur.ctx ≠ 9 := by omega
  simp only [exec_asynchronousTrap, execAsynchronousTrap, hp, hgo, interrupt_of_running hrun, h9, if_false, event]
  rfl

end

theorem trapEventsHappen : TrapEventsHappen := by
  intro s
  refine ⟨fun t q hq hset => ?enter, fun t q hq hset => ?wait, fun r hr hcap hfrozen => ⟨fun hheld => ?ends, fun hheld => ?kills⟩,
    fun r hr hgo => ?runs, fun t rest hp hfrozen hctx hrun => asynchronousTrap_taken hp hfrozen hctx hrun⟩
  case enter => rw [trapEntry_of_queued hq, if_pos hset]
  case wait => rw [trapEntry_of_queued hq, hset]; rfl
  case ends =>
    rw [supervisorRunCap_of_run hr, hfrozen, decide_eq_false (Nat.not_lt.mpr hcap), hheld]; rfl
  case kills =>
    rw [supervisorRunCap_of_run hr, hfrozen, decide_eq_false (Nat.not_lt.mpr hcap), hheld]; rfl
  case runs =>
    rw [supervisorRunCap_of_run hr, if_pos]
    simpa only [Bool.or_eq_true, decide_eq_true_eq] using hgo

/-! ### Budgets (R272) -/

section
variable {s : State} {t : Task} {c i : Nat}

/-- A task of a context 0..7 that is not frozen and not held is due at its budget. -/
theorem budgetDue_of_task (ht : (s.ctxAt c i).task = some t) (hi : i < 8) (hfrozen : (s.ctxAt c i).frozen = none) :
    s.budgetDue c i = ((s.ctxAt c i).st != .held && decide (t.budget + t.ext ≤ s.watchdog t)) := by
  simp [State.budgetDue, ht, hi, hfrozen]

end

section
variable {s : State} {t : Task} (ht : (s.ctxAt s.cur.cell s.cur.ctx).task = some t)
include ht

theorem budget_trap (hdue : s.budgetDue s.cur.cell s.cur.ctx = true) (hrun : (s.ctxAt s.cur.cell s.cur.ctx).st = .running)
    (hno : (s.ctxAt s.cur.cell s.cur.ctx).asyncs = []) :
    exec .budget s = .next (s.takeTrap s.cur.cell s.cur.ctx (s.budgetTrap t)) := by
  simp only [exec_budget, execBudget, hdue, hno, interrupt_of_running hrun, ht, event]
  rfl

theorem budgetHardLimit_of_task :
    exec .budgetHardLimit s =
      if 8 ≤ s.cur.ctx || (s.ctxAt s.cur.cell s.cur.ctx).frozen.isSome || s.watchdog t < t.budget + t.ext + 4096 then .next s
      else .next (s.kill s.cur.cell s.cur.ctx 1 false (s.ctxAt s.cur.cell s.cur.ctx).pc (s.budgetTrap t)) := by
  rw [exec_budgetHardLimit, execBudgetHardLimit, ht]; rfl

end

theorem budget_not_due {s : State} (h : s.budgetDue s.cur.cell s.cur.ctx = false) : exec .budget s = .next s := by
  rw [exec_budget, execBudget, h]; rfl

theorem budgetsEndTasks : BudgetsEndTasks := by
  intro s t c i x trap ht hi hfrozen
  refine ⟨fun hrun hno hdue => ?trap, fun hearly => ?early, fun hover => ?kill, fun hunder => ?under⟩
  case trap =>
    refine budget_trap ht ?_ hrun hno
    rw [budgetDue_of_task ht hi hfrozen, hrun, decide_eq_true hdue]; rfl
  case early =>
    refine budget_not_due ?_
    rw [budgetDue_of_task ht hi hfrozen, decide_eq_false (Nat.not_le.mpr hearly), Bool.and_false]
  case kill =>
    rw [budgetHardLimit_of_task ht, hfrozen, decide_eq_false (Nat.not_le.mpr hi), decide_eq_false (Nat.not_lt.mpr hover)]; rfl
  case under =>
    rw [budgetHardLimit_of_task ht, decide_eq_true hunder, Bool.or_true, if_pos rfl]

/-! ### The end of a freeze (R175, R372) -/

/-- A thaw and a scrub are the folds over the cells that the spec's order gives. -/
theorem thawAndScrubEndAFreeze : ThawAndScrubEndAFreeze := fun s q =>
  ⟨exec_thaw q s, exec_scrub q s⟩

/-- Settles O37: trap events, budgets, and the end of a freeze. -/
theorem trapEventsActAsStated : Obligations.TrapEventsActAsStated := ⟨trapEventsHappen, budgetsEndTasks, thawAndScrubEndAFreeze⟩

end Sys2Proof.Machine
end

section
/-! PROOFS. The sticky flags of every float and saturating result are among the six of fcsr (R103, R104). -/
namespace Sys2Proof.Machine

/-! ### The six flags (R103) -/

theorem flNx_lt : flNx < 64 := by decide
theorem flDz_lt : flDz < 64 := by decide
theorem flNv_lt : flNv < 64 := by decide
theorem flSat_lt : flSat < 64 := by decide
theorem flOf_add_flNx_lt : flOf + flNx < 64 := by decide

/-- Of two results, the one that a condition takes. -/
theorem ite_flags {c : Prop} [Decidable c] {a b : Nat × Nat} (ha : a.2 < 64) (hb : b.2 < 64) : (if c then a else b).2 < 64 := by
  split
  · exact ha
  · exact hb

/-! ### Flags of rounded results (R101, R104) -/

theorem flagIf_le (b : Bool) (f : Nat) : flagIf b f ≤ f := by
  cases b
  · exact Nat.zero_le f
  · exact Nat.le_refl f

theorem flagIf_lt {f : Nat} (b : Bool) (h : f < 64) : flagIf b f < 64 := Nat.lt_of_le_of_lt (flagIf_le b f) h

theorem roundRat_flags (p : Nat) (md : Rnd) (neg : Bool) (n d : Nat) (e : Int) : (roundRat p md neg n d e).2 < 64 := by
  have hsum (a b : Bool) : flagIf a flNx + flagIf b flUf < 64 :=
    Nat.lt_of_le_of_lt (Nat.add_le_add (flagIf_le a flNx) (flagIf_le b flUf)) (by decide)
  exact ite_flags flOf_add_flNx_lt (hsum ..)

theorem round_flags (p : Nat) (md : Rnd) (v : FVal) : (v.round p md).2 < 64 := by
  cases v with
  | nan b => exact flagIf_lt b flNv_lt
  | inf s => exact Nat.zero_lt_succ _
  | zero s => exact Nat.zero_lt_succ _
  | fin s m e => exact roundRat_flags ..

theorem sum32_flags (md : Rnd) (ts : List FVal) : (sum32 md ts).2 < 64 := round_flags ..

theorem div32_flags (md : Rnd) (a b : FVal) : (div32 md a b).2 < 64 := by
  unfold div32
  split
  case h_8 => exact flDz_lt
  case h_9 => exact roundRat_flags ..
  all_goals exact round_flags ..

theorem stickyRound_flags (md : Rnd) (neg : Bool) (r : Nat) (exact_ : Bool) (e : Int) : (stickyRound md neg r exact_ e).2 < 64 :=
  roundRat_flags ..

theorem sqrt32_flags (md : Rnd) (v : FVal) : (sqrt32 md v).2 < 64 := by
  unfold sqrt32
  split
  case h_6 => exact stickyRound_flags ..
  all_goals exact round_flags ..

theorem minmax32_flags (least : Bool) (a b : Nat) : (minmax32 least a b).2 < 64 := by
  simp only [minmax32, apply_ite Prod.snd, ite_self]
  exact flagIf_lt _ flNv_lt

theorem fcond_flags (c : FCond) (a b : Nat) : (fcond c a b).2 < 64 := by
  cases c <;> exact flagIf_lt _ flNv_lt

theorem cvtToInt_flags (w : Nat) (sg : Bool) (md : Rnd) (v : FVal) : (cvtToInt w sg md v).2 < 64 := by
  unfold cvtToInt
  split
  · exact flNv_lt
  · exact flNv_lt
  · dsimp only
    split
    · exact flNv_lt
    · exact flagIf_lt _ flNx_lt

theorem quantize_flags (w : Nat) (sg : Bool) (md : Rnd) (v sc : FVal) : (quantize w sg md v sc).2 < 64 := by
  have hsum (a b : Bool) : flagIf a flNx + flagIf b flSat < 64 :=
    Nat.lt_of_le_of_lt (Nat.add_le_add (flagIf_le a flNx) (flagIf_le b flSat)) (by decide)
  unfold quantize
  dsimp only
  split
  · exact hsum ..
  · exact Nat.zero_lt_succ _
  · exact flNv_lt
  · exact flSat_lt
  · exact flNv_lt

theorem intLane_flags (sg sat : Bool) (v : Int) : (intLane sg sat v).2 < 64 := by
  unfold intLane
  exact ite_flags (flagIf_lt _ flSat_lt) (Nat.zero_lt_succ _)

/-! ### Flags of the special functions (R106) -/

theorem unsettled_flags (fn a : Nat) : (unsettled fn a).2 < 64 := flNx_lt

theorem between_flags {neg : Bool} {lo hi : Nat} {e : Int} {r : Nat × Nat} (h : between neg lo hi e = some r) : r.2 < 64 := by
  unfold between at h
  dsimp only at h
  split at h
  · obtain rfl := Option.some.inj h
    exact roundRat_flags ..
  · exact nomatch h

theorem getD_flags {o : Option (Nat × Nat)} {u : Nat × Nat} (h : ∀ r, o = some r → r.2 < 64) (hu : u.2 < 64) : (o.getD u).2 < 64 := by
  cases o with
  | none => exact hu
  | some r => exact h r rfl

theorem rcp32_flags (v : FVal) : (rcp32 v).2 < 64 := div32_flags ..

theorem rsqrt32_flags (v : FVal) : (rsqrt32 v).2 < 64 := by
  unfold rsqrt32
  split
  case h_2 => exact flDz_lt
  case h_6 => exact stickyRound_flags ..
  all_goals exact round_flags ..

theorem exp2Fin_flags (a : Nat) (s : Bool) (m : Nat) (e : Int) : (exp2Fin a s m e).2 < 64 := by
  unfold exp2Fin
  extract_lets
  split
  · exact ite_flags (round_flags ..) (round_flags ..)
  · exact ite_flags (round_flags ..) (getD_flags (fun _ => between_flags) (unsettled_flags ..))

theorem exp2F32_flags (a : Nat) : (exp2F32 a).2 < 64 := by
  unfold exp2F32
  split
  case h_4 => exact exp2Fin_flags ..
  all_goals exact round_flags ..

theorem log2Fin_flags (a m : Nat) (e : Int) : (log2Fin a m e).2 < 64 := by
  unfold log2Fin
  dsimp only
  split
  · exact round_flags ..
  · refine getD_flags (fun r hr => ?_) (unsettled_flags ..)
    split at hr
    · exact between_flags hr
    · split at hr
      · exact between_flags hr
      · exact nomatch hr

theorem log2F32_flags (a : Nat) : (log2F32 a).2 < 64 := by
  unfold log2F32
  split
  case h_2 => exact flDz_lt
  case h_6 => exact log2Fin_flags ..
  all_goals exact round_flags ..

/-! ### Flags of several results together -/

theorem foldl_flags {α : Type} (rs : List (α × Nat)) (f : Nat) (hf : f < 64) (h : ∀ r ∈ rs, r.2 < 64) :
    rs.foldl (fun f r => f ||| r.2) f < 64 := by
  induction rs generalizing f with
  | nil => exact hf
  | cons r rs ih =>
    obtain ⟨hr, hrs⟩ := List.forall_mem_cons.mp h
    exact ih _ (Nat.or_lt_two_pow (n := 6) hf hr) hrs

theorem orFlags_lt {rs : List (Nat × Nat)} (h : ∀ r ∈ rs, r.2 < 64) : orFlags rs < 64 := foldl_flags rs 0 (Nat.zero_lt_succ _) h

/-- The flags of a running maximum (R123). -/
theorem foldl_minmax32_flags (ps : List Nat) (r : Nat × Nat) (hr : r.2 < 64) :
    (ps.foldl (fun r p => let q := minmax32 false r.1 p; (q.1, r.2 ||| q.2)) r).2 < 64 := by
  induction ps generalizing r with
  | nil => exact hr
  | cons p ps ih => exact ih _ (Nat.or_lt_two_pow (n := 6) hr (minmax32_flags ..))

theorem mem_zipWith_flags {α β γ : Type} {f : α → β → γ × Nat} (h : ∀ a b, (f a b).2 < 64) (as : List α) (bs : List β) :
    ∀ r ∈ List.zipWith f as bs, r.2 < 64 := by
  intro r hr
  rw [← List.map_uncurry_zip_eq_zipWith] at hr
  obtain ⟨q, -, rfl⟩ := List.mem_map.mp hr
  exact h ..

theorem mem_map_flags {α γ : Type} {f : α → γ × Nat} (h : ∀ a, (f a).2 < 64) (as : List α) : ∀ r ∈ as.map f, r.2 < 64 :=
  List.forall_mem_map.mpr fun a _ => h a

end Sys2Proof.Machine
end

section
/-! PROOFS. What the instructions of the register and vector chapters leave alone (R69, R73, R104). -/
namespace Sys2Proof.Machine

/-! ### A context changed in the operands of a list only -/

/-- The second context is the first but for the operands named, and but for sticky flags set. -/
structure Confined (W : List Nat) (x y : Ctx) : Prop where
  scalars : ∀ k : SReg, k.val ∉ W → y.rs k = x.rs k
  vectors : ∀ k : VReg, 64 + k.val ∉ W → y.rv k = x.rv k
  predicates : ∀ k : PReg, 96 + k.val ∉ W → y.rp k = x.rp k
  table : 110 ∉ W → y.tbl = x.tbl
  flags : 109 ∉ W → ∃ f : Nat, f < 64 ∧ y.fcsr = x.fcsr ||| word f
  rest : y = { x with s := y.s, v := y.v, p := y.p, tbl := y.tbl, fcsr := y.fcsr }

/-- No flag set is the flags 0 set. -/
theorem exists_flags_of_eq {a b : Word} (h : a = b) : ∃ f : Nat, f < 64 ∧ a = b ||| word f :=
  ⟨0, by decide, by simp [word, h]⟩

section
variable {W : List Nat} {x y z : Ctx}

theorem Confined.refl (W : List Nat) (x : Ctx) : Confined W x x :=
  ⟨fun _ _ => rfl, fun _ _ => rfl, fun _ _ => rfl, fun _ => rfl, fun _ => exists_flags_of_eq rfl, rfl⟩

theorem Confined.trans (h : Confined W x y) (k : Confined W y z) : Confined W x z where
  scalars r hr := (k.scalars r hr).trans (h.scalars r hr)
  vectors r hr := (k.vectors r hr).trans (h.vectors r hr)
  predicates r hr := (k.predicates r hr).trans (h.predicates r hr)
  table hW := (k.table hW).trans (h.table hW)
  flags hW := by
    obtain ⟨f, hf, hy⟩ := h.flags hW
    obtain ⟨g, hg, hz⟩ := k.flags hW
    refine ⟨f ||| g, Nat.or_lt_two_pow (n := 6) hf hg, ?_⟩
    rw [hz, hy, word, word, word, BitVec.ofNat_or, BitVec.or_assoc]
  rest := k.rest.trans (congrArg (fun u : Ctx => { u with s := z.s, v := z.v, p := z.p, tbl := z.tbl, fcsr := z.fcsr }) h.rest)

theorem confined_ws {d : SReg} (hd : d.val ∈ W) (v : Word) : Confined W x (x.ws d v) where
  scalars k hk := by
    have hne : k ≠ d := fun e => hk (e ▸ hd)
    rw [Ctx.rs_ws, if_neg hne]
    split
    next h0 => rw [Ctx.rs, if_pos h0]
    next => rfl
  vectors _ _ := by rw [Ctx.rv, Ctx.ws_v]; rfl
  predicates _ _ := by rw [Ctx.rp, Ctx.ws_p]; rfl
  table _ := Ctx.ws_tbl ..
  flags _ := exists_flags_of_eq (Ctx.ws_fcsr ..)
  rest := by
    rw [Ctx.ws]
    split <;> rfl

theorem confined_wv {d : VReg} (hd : 64 + d.val ∈ W) (v : VWord) : Confined W x (x.wv d v) where
  scalars _ _ := rfl
  vectors k hk := by
    have hne : k ≠ d := fun e => hk (e ▸ hd)
    rw [Ctx.rv_wv, if_neg hne]
  predicates _ _ := rfl
  table _ := rfl
  flags _ := exists_flags_of_eq rfl
  rest := rfl

theorem confined_wp {d : PReg} (hd : 96 + d.val ∈ W) (v : Bool) : Confined W x (x.wp d v) where
  scalars _ _ := by rw [Ctx.rs, Ctx.wp_s]; rfl
  vectors _ _ := by rw [Ctx.rv, Ctx.wp_v]; rfl
  predicates k hk := by
    have hne : k ≠ d := fun e => hk (e ▸ hd)
    rw [Ctx.rp_wp, if_neg hne]
    split
    next h0 => rw [Ctx.rp, decide_eq_true h0, Bool.true_or]
    next => rfl
  table _ := Ctx.wp_tbl ..
  flags _ := exists_flags_of_eq (Ctx.wp_fcsr ..)
  rest := by
    rw [Ctx.wp]
    split <;> rfl

theorem confined_addFlags {f : Nat} (hf : f < 64) : Confined W x (x.addFlags f) :=
  ⟨fun _ _ => rfl, fun _ _ => rfl, fun _ _ => rfl, fun _ => rfl, fun _ => ⟨f, hf, rfl⟩, rfl⟩

theorem confined_setTbl (h : 110 ∈ W) (v : BitVec 128) : Confined W x { x with tbl := v } :=
  ⟨fun _ _ => rfl, fun _ _ => rfl, fun _ _ => rfl, fun hW => absurd h hW, fun _ => exists_flags_of_eq rfl, rfl⟩

theorem confined_setFcsr (h : 109 ∈ W) (v : Word) : Confined W x { x with fcsr := v } :=
  ⟨fun _ _ => rfl, fun _ _ => rfl, fun _ _ => rfl, fun _ => rfl, fun hW => absurd h hW, rfl⟩

/-- Predicates unpacked from a word: those that the mask and the list name (R88). -/
theorem confined_unpack (mask v : Nat) (ks : List Nat) (h : ∀ k ∈ ks, bit mask k = true → 96 + (Fin.ofNat 8 k).val ∈ W) :
    Confined W x (x.unpack mask v ks) := by
  induction ks generalizing x with
  | nil => exact .refl W x
  | cons k ks ih =>
    obtain ⟨hk, hks⟩ := List.forall_mem_cons.mp h
    rw [Ctx.unpack, List.foldl_cons]
    split
    next hbit => exact (confined_wp (hk hbit) _).trans (ih hks)
    next => exact ih hks

end

/-! ### An effect within the operands of a list -/

/-- The effect is the stack-limit trap, or goes on with its own context confined to the operands named. -/
def Within (W : List Nat) (s : State) (r : Res) : Prop :=
  (∃ v, r = .error (.trap { cause := 27, val := v, info := 0 })) ∨ ∃ y, r = .ok (s.goesOn y) ∧ Confined W s.me y

section
variable {W : List Nat} {s : State}

theorem within_update {f : Ctx → Ctx} (h : Confined W s.me (f s.me)) : Within W s (s.update f) := .inr ⟨f s.me, rfl, h⟩

theorem within_wsChecked {d : SReg} (hd : d.val ∈ W) (v : Word) : Within W s (s.wsChecked d v) := by
  obtain ⟨hwrite, htrap⟩ := wsChecked_cases s d v
  cases hb : belowLimit s d v
  · exact .inr ⟨_, hwrite hb, confined_ws hd v⟩
  · exact .inl ⟨v, htrap hb⟩

theorem within_wsFlags {d : SReg} (hd : d.val ∈ W) (v : Word) {f : Nat} (hf : f < 64) : Within W s (s.wsFlags d v f) := by
  obtain ⟨hwrite, htrap⟩ := wsFlags_cases s d v f
  cases hb : belowLimit s d v
  · exact .inr ⟨_, hwrite hb, (confined_ws hd v).trans (confined_addFlags hf)⟩
  · exact .inl ⟨v, htrap hb⟩

theorem within_wsFloat {d : SReg} (hd : d.val ∈ W) {r : Nat × Nat} (hf : r.2 < 64) : Within W s (s.wsFloat d r) :=
  within_update ((confined_ws hd _).trans (confined_addFlags hf))

theorem within_wvLanes {d : VReg} (hd : 64 + d.val ∈ W) {rs : List (Nat × Nat)} (hf : ∀ r ∈ rs, r.2 < 64) :
    Within W s (s.wvLanes d rs) :=
  within_update ((confined_wv hd _).trans (confined_addFlags (orFlags_lt hf)))

/-- Of two effects, the one that a condition takes. -/
theorem within_ite {c : Prop} [Decidable c] {a b : Res} (ha : Within W s a) (hb : Within W s b) : Within W s (if c then a else b) := by
  split
  · exact ha
  · exact hb

/-- Of two contexts, the one that a condition takes. -/
theorem confined_ite {c : Prop} [Decidable c] {x a b : Ctx} (ha : Confined W x a) (hb : Confined W x b) :
    Confined W x (if c then a else b) := by
  split
  · exact ha
  · exact hb

/-! ### The families -/

theorem within_intArith {x : ArgInt} (op : Nat → Int → Int → Nat → Int) (hd : x.d.val ∈ W) : Within W s (intArith x op s) :=
  within_ite (within_wsFlags hd _ (flagIf_lt _ flSat_lt)) (within_wsChecked hd _)

theorem within_floatArith {x : ArgFAr} {op : Rnd → FVal → FVal → Nat × Nat} (hd : x.d.val ∈ W) (hop : ∀ md a b, (op md a b).2 < 64) :
    Within W s (floatArith x op s) :=
  within_wsFloat hd (hop ..)

theorem within_vecArith {x : ArgV} {ff : Rnd → Nat → Nat → Nat × Nat} (fi : Int → Int → Int) (hd : 64 + x.d.val ∈ W)
    (hff : ∀ md a b, (ff md a b).2 < 64) : Within W s (vecArith x ff fi s) :=
  within_wvLanes hd (mem_zipWith_flags (fun _ _ => ite_flags (hff ..) (intLane_flags ..)) _ _)

theorem within_vecBits {x : ArgV} (f : Nat → Nat → Int) (hd : 64 + x.d.val ∈ W) : Within W s (vecBits x f s) :=
  within_wvLanes hd (mem_zipWith_flags (fun _ _ => intLane_flags ..) _ _)

theorem within_vecSpecial {x : ArgVV} {f : Nat → Nat × Nat} (hd : 64 + x.d.val ∈ W) (hf : ∀ p, (f p).2 < 64) :
    Within W s (vecSpecial x f s) :=
  within_wvLanes hd (mem_map_flags hf _)

end

/-! ### Every row of the chapters -/

/-- The operand values that an instruction's encoding names as destinations (R31). -/
def destinations (i : Instr) : List Nat := (i.toRaw.map Raw.writes).getD []

/-- The instruction is issued under the guard of its encoding, in any context, and its effect is within its destinations. -/
def Contained (i : Instr) : Prop :=
  ∃ (g : Guard) (body : State → Res), rowGuard i = some g ∧ (∀ s, exec i s = issue i g anyCtx body s)
    ∧ ∀ s, s.cur.ctx < 10 → Within (destinations i) s (body s)

/-- A row is contained when the effect of its meaning is. -/
theorem Contained.of_row {i : Instr} {g : Guard} {body : State → Res} (he : ∀ s, exec i s = issue i g anyCtx body s)
    (hg : rowGuard i = some g) (hb : ∀ s, s.cur.ctx < 10 → Within (destinations i) s (body s)) : Contained i := ⟨g, body, hg, he, hb⟩

/-- The guard of a head reads back as the guard that it was written from. -/
theorem headGuard (g : Guard) : some (guardOf (b2n g.neg) g.p.val) = some g := congrArg some (guardOf_fields g)

theorem contained_mov (x : ArgMov) : Contained (.mov x) := by
  refine .of_row (exec_mov x) (headGuard x.g) fun s hctx => ?_
  obtain ⟨g, dst, src⟩ := x
  cases dst with
  | reg d => exact within_wsChecked (.head _) _
  | fcsr => exact .inr ⟨_, congrArg Except.ok (State.retire_modMe s _ hctx), confined_setFcsr (.head _) _⟩

theorem contained_punpk (x : ArgPunpk) : Contained (.punpk x) := by
  refine .of_row (exec_punpk x) (headGuard x.g) fun s _ => ?_
  refine within_update (f := fun y => y.unpack x.mask.toNat (y.rs x.a).toNat (List.range 8)) (confined_unpack _ _ _ fun k hk hbit => ?_)
  rw [show (Fin.ofNat 8 k).val = k from Nat.mod_eq_of_lt (List.mem_range.mp hk)]
  exact List.mem_map.mpr ⟨k, List.mem_filter.mpr ⟨hk, hbit⟩, rfl⟩

theorem contained_fcvt (x : ArgFcvt) : Contained (.fcvt x) :=
  .of_row (exec_fcvt x) (headGuard x.g) fun _ _ => within_ite (within_wsFloat (.head _) (round_flags ..))
    (within_ite (within_wsFloat (.head _) (round_flags ..))
      (within_update ((confined_ws (.head _) _).trans (confined_addFlags (cvtToInt_flags ..)))))

theorem contained_vcmp (x : ArgVcmp) : Contained (.vcmp x) := by
  refine .of_row (exec_vcmp x) (headGuard x.g) fun s _ => within_wsFloat (.head _)
    (foldl_flags _ 0 (Nat.zero_lt_succ _) (mem_zipWith_flags (fun p q => ?_) _ _))
  cases x.cond with
  | signed c => exact Nat.zero_lt_succ _
  | unsigned c => exact Nat.zero_lt_succ _
  | float c => exact fcond_flags ..

theorem contained_vcvt (x : ArgVcvt) : Contained (.vcvt x) :=
  .of_row (exec_vcvt x) (headGuard x.g) fun _ _ => within_ite (within_wvLanes (.head _) (mem_map_flags (fun _ => round_flags ..) _))
    (within_ite
      (within_update ((confined_wv (.head _) _).trans (confined_addFlags (orFlags_lt (mem_map_flags (fun _ => round_flags ..) _)))))
      (within_wvLanes (.head _) (List.forall_mem_map.mpr fun _ _ => cvtToInt_flags ..)))

theorem contained_vredsum (x : ArgVred) : Contained (.vredsum x) :=
  .of_row (exec_vredsum x) (headGuard x.g) fun _ _ => within_ite (within_wsFloat (.head _) (sum32_flags ..))
    (within_update (confined_ite ((confined_ws (.head _) _).trans (confined_addFlags (flagIf_lt _ flSat_lt))) (confined_ws (.head _) _)))

theorem contained_vredmax (x : ArgVred) : Contained (.vredmax x) :=
  .of_row (exec_vredmax x) (headGuard x.g) fun _ _ =>
    within_ite (within_wsFloat (.head _) (foldl_minmax32_flags _ _ (minmax32_flags ..))) (within_update (confined_ws (.head _) _))

theorem contained_vdot (x : ArgVdot) : Contained (.vdot x) :=
  .of_row (exec_vdot x) (headGuard x.g) fun _ _ => within_ite
    (within_update (confined_ite ((confined_ws (.head _) _).trans (confined_addFlags (flagIf_lt _ flSat_lt))) (confined_ws (.head _) _)))
    (within_wsFloat (.head _) (sum32_flags ..))

theorem contained_vmovs (x : ArgVmovs) : Contained (.vmovs x) := by
  refine .of_row (exec_vmovs x) (rowGuard_vmovs x) fun s _ => within_update ?_
  obtain ⟨g, mv⟩ := x
  cases mv with
  | toScalar d a n => exact confined_ws (.head _) _
  | toLane d a n => exact confined_wv (.head _) _
  | toTbl a => exact confined_setTbl (.head _) _
  | fromTbl d => exact confined_wv (.head _) _

theorem contained_vqnt (x : ArgVq) : Contained (.vqnt x) :=
  .of_row (exec_vqnt x) (headGuard x.g) fun _ _ => within_update
    ((confined_wv (.head _) _).trans (confined_addFlags (orFlags_lt (mem_map_flags (fun _ => quantize_flags ..) _))))

/-- R69, R104: every instruction of the register and vector chapters is contained. -/
theorem contained_of_registerOnly {i : Instr} (h : registerOnly i = true) : Contained i := by
  cases i with
  | add x => exact .of_row (exec_add x) (headGuard x.g) fun _ _ => within_intArith _ (.head _)
  | sub x => exact .of_row (exec_sub x) (headGuard x.g) fun _ _ => within_intArith _ (.head _)
  | mul x => exact .of_row (exec_mul x) (headGuard x.g) fun _ _ => within_intArith _ (.head _)
  | mulh x => exact .of_row (exec_mulh x) (headGuard x.g) fun _ _ => within_intArith _ (.head _)
  | mulhu x => exact .of_row (exec_mulhu x) (headGuard x.g) fun _ _ => within_intArith _ (.head _)
  | div x => exact .of_row (exec_div x) (headGuard x.g) fun _ _ => within_intArith _ (.head _)
  | divu x => exact .of_row (exec_divu x) (headGuard x.g) fun _ _ => within_intArith _ (.head _)
  | rem x => exact .of_row (exec_rem x) (headGuard x.g) fun _ _ => within_intArith _ (.head _)
  | remu x => exact .of_row (exec_remu x) (headGuard x.g) fun _ _ => within_intArith _ (.head _)
  | and x => exact .of_row (exec_and x) (headGuard x.g) fun _ _ => within_intArith _ (.head _)
  | or x => exact .of_row (exec_or x) (headGuard x.g) fun _ _ => within_intArith _ (.head _)
  | xor x => exact .of_row (exec_xor x) (headGuard x.g) fun _ _ => within_intArith _ (.head _)
  | andn x => exact .of_row (exec_andn x) (headGuard x.g) fun _ _ => within_intArith _ (.head _)
  | shl x => exact .of_row (exec_shl x) (headGuard x.g) fun _ _ => within_intArith _ (.head _)
  | shr x => exact .of_row (exec_shr x) (headGuard x.g) fun _ _ => within_intArith _ (.head _)
  | sar x => exact .of_row (exec_sar x) (headGuard x.g) fun _ _ => within_intArith _ (.head _)
  | rol x => exact .of_row (exec_rol x) (headGuard x.g) fun _ _ => within_intArith _ (.head _)
  | min x => exact .of_row (exec_min x) (headGuard x.g) fun _ _ => within_intArith _ (.head _)
  | max x => exact .of_row (exec_max x) (headGuard x.g) fun _ _ => within_intArith _ (.head _)
  | minu x => exact .of_row (exec_minu x) (headGuard x.g) fun _ _ => within_intArith _ (.head _)
  | maxu x => exact .of_row (exec_maxu x) (headGuard x.g) fun _ _ => within_intArith _ (.head _)
  | clz x => exact .of_row (exec_clz x) (headGuard x.g) fun _ _ => within_wsChecked (.head _) _
  | ctz x => exact .of_row (exec_ctz x) (headGuard x.g) fun _ _ => within_wsChecked (.head _) _
  | popc x => exact .of_row (exec_popc x) (headGuard x.g) fun _ _ => within_wsChecked (.head _) _
  | bext x => exact .of_row (exec_bext x) (headGuard x.g) fun _ _ => within_wsChecked (.head _) _
  | bins x => exact .of_row (exec_bins x) (headGuard x.g) fun _ _ => within_wsChecked (.head _) _
  | lea x => exact .of_row (exec_lea x) (headGuard x.g) fun _ _ => within_wsChecked (.head _) _
  | li x => exact .of_row (exec_li x) (headGuard x.g) fun _ _ => within_wsChecked (.head _) _
  | mov x => exact contained_mov x
  | sel x => exact .of_row (exec_sel x) (headGuard x.g) fun _ _ => within_wsChecked (.head _) _
  | ppack x => exact .of_row (exec_ppack x) (headGuard x.g) fun _ _ => within_wsChecked (.head _) _
  | cmp x => exact .of_row (exec_cmp x) (headGuard x.g) fun _ _ => within_update (confined_wp (.head _) _)
  | pand x => exact .of_row (exec_pand x) (headGuard x.g) fun _ _ => within_update (confined_wp (.head _) _)
  | por x => exact .of_row (exec_por x) (headGuard x.g) fun _ _ => within_update (confined_wp (.head _) _)
  | pxor x => exact .of_row (exec_pxor x) (headGuard x.g) fun _ _ => within_update (confined_wp (.head _) _)
  | pnot x => exact .of_row (exec_pnot x) (headGuard x.g) fun _ _ => within_update (confined_wp (.head _) _)
  | punpk x => exact contained_punpk x
  | fadd x => exact .of_row (exec_fadd x) (headGuard x.g) fun _ _ => within_floatArith (.head _) fun _ _ _ => sum32_flags ..
  | fsub x => exact .of_row (exec_fsub x) (headGuard x.g) fun _ _ => within_floatArith (.head _) fun _ _ _ => sum32_flags ..
  | fmul x => exact .of_row (exec_fmul x) (headGuard x.g) fun _ _ => within_floatArith (.head _) fun _ _ _ => round_flags ..
  | fdiv x => exact .of_row (exec_fdiv x) (headGuard x.g) fun _ _ => within_floatArith (.head _) div32_flags
  | fmin x => exact .of_row (exec_fmin x) (headGuard x.g) fun _ _ => within_wsFloat (.head _) (minmax32_flags ..)
  | fmax x => exact .of_row (exec_fmax x) (headGuard x.g) fun _ _ => within_wsFloat (.head _) (minmax32_flags ..)
  | fma x => exact .of_row (exec_fma x) (headGuard x.g) fun _ _ => within_wsFloat (.head _) (sum32_flags ..)
  | fsqrt x => exact .of_row (exec_fsqrt x) (headGuard x.g) fun _ _ => within_wsFloat (.head _) (sqrt32_flags ..)
  | fcmp x =>
    exact .of_row (exec_fcmp x) (headGuard x.g) fun _ _ =>
      within_update ((confined_wp (.head _) _).trans (confined_addFlags (fcond_flags ..)))
  | fcvt x => exact contained_fcvt x
  | fclass x => exact .of_row (exec_fclass x) (headGuard x.g) fun _ _ => within_wsFloat (.head _) (Nat.zero_lt_succ _)
  | vadd x => exact .of_row (exec_vadd x) (headGuard x.g) fun _ _ => within_vecArith _ (.head _) fun _ _ _ => sum32_flags ..
  | vsub x => exact .of_row (exec_vsub x) (headGuard x.g) fun _ _ => within_vecArith _ (.head _) fun _ _ _ => sum32_flags ..
  | vmul x => exact .of_row (exec_vmul x) (headGuard x.g) fun _ _ => within_vecArith _ (.head _) fun _ _ _ => round_flags ..
  | vmin x => exact .of_row (exec_vmin x) (headGuard x.g) fun _ _ => within_vecArith _ (.head _) fun _ => minmax32_flags true
  | vmax x => exact .of_row (exec_vmax x) (headGuard x.g) fun _ _ => within_vecArith _ (.head _) fun _ => minmax32_flags false
  | vand x => exact .of_row (exec_vand x) (headGuard x.g) fun _ _ => within_vecBits _ (.head _)
  | vor x => exact .of_row (exec_vor x) (headGuard x.g) fun _ _ => within_vecBits _ (.head _)
  | vxor x => exact .of_row (exec_vxor x) (headGuard x.g) fun _ _ => within_vecBits _ (.head _)
  | vshl x => exact .of_row (exec_vshl x) (headGuard x.g) fun _ _ => within_vecBits _ (.head _)
  | vshr x => exact .of_row (exec_vshr x) (headGuard x.g) fun _ _ => within_vecBits _ (.head _)
  | vsra x => exact .of_row (exec_vsra x) (headGuard x.g) fun _ _ => within_vecBits _ (.head _)
  | vabs x =>
    exact .of_row (exec_vabs x) (headGuard x.g) fun _ _ =>
      within_wvLanes (.head _) (mem_map_flags (fun _ => ite_flags (Nat.zero_lt_succ _) (intLane_flags ..)) _)
  | vneg x =>
    exact .of_row (exec_vneg x) (headGuard x.g) fun _ _ =>
      within_wvLanes (.head _) (mem_map_flags (fun _ => ite_flags (Nat.zero_lt_succ _) (intLane_flags ..)) _)
  | vfma x =>
    exact .of_row (exec_vfma x) (headGuard x.g) fun _ _ => within_wvLanes (.head _) (mem_zipWith_flags (fun _ _ => sum32_flags ..) _ _)
  | vsel x =>
    exact .of_row (exec_vsel x) (headGuard x.g) fun _ _ => within_wvLanes (.head _) (mem_map_flags (fun _ => Nat.zero_lt_succ _) _)
  | vrcp x => exact .of_row (exec_vrcp x) (headGuard x.g) fun _ _ => within_vecSpecial (.head _) fun _ => rcp32_flags ..
  | vrsqrt x => exact .of_row (exec_vrsqrt x) (headGuard x.g) fun _ _ => within_vecSpecial (.head _) fun _ => rsqrt32_flags ..
  | vexp2 x => exact .of_row (exec_vexp2 x) (headGuard x.g) fun _ _ => within_vecSpecial (.head _) exp2F32_flags
  | vlog2 x => exact .of_row (exec_vlog2 x) (headGuard x.g) fun _ _ => within_vecSpecial (.head _) log2F32_flags
  | vcmp x => exact contained_vcmp x
  | vcvt x => exact contained_vcvt x
  | vexpand x =>
    exact .of_row (exec_vexpand x) (headGuard x.g) fun _ _ => within_wvLanes (.head _) (mem_map_flags (fun _ => Nat.zero_lt_succ _) _)
  | vredsum x => exact contained_vredsum x
  | vredmax x => exact contained_vredmax x
  | vdot x => exact contained_vdot x
  | vsplat x => exact .of_row (exec_vsplat x) (headGuard x.g) fun _ _ => within_update (confined_wv (.head _) _)
  | vperm x =>
    exact .of_row (exec_vperm x) (headGuard x.g) fun _ _ => within_wvLanes (.head _) (mem_map_flags (fun _ => Nat.zero_lt_succ _) _)
  | vidx x =>
    exact .of_row (exec_vidx x) (headGuard x.g) fun _ _ => within_wvLanes (.head _) (mem_map_flags (fun _ => Nat.zero_lt_succ _) _)
  | vmovs x => exact contained_vmovs x
  | vqnt x => exact contained_vqnt x
  | vdqnt x =>
    exact .of_row (exec_vdqnt x) (headGuard x.g) fun _ _ => within_wvLanes (.head _) (mem_map_flags (fun _ => round_flags ..) _)
  | vscacc x =>
    exact .of_row (exec_vscacc x) (headGuard x.g) fun _ _ => within_wvLanes (.head _) (mem_map_flags (fun _ => sum32_flags ..) _)
  | _ => exact absurd h Bool.false_ne_true

/-- Settles O55: every row of the chapters is contained in the destinations that its encoding names, and what goes on with its own
context leaves every other as it was. -/
theorem registerInstructionsChangeOnlyTheirDestination : Obligations.RegisterInstructionsChangeOnlyTheirDestination := by
  intro i g r s hrow hraw hguard hready
  obtain ⟨g', body, hg', hexec, hbody⟩ := contained_of_registerOnly hrow
  obtain rfl : g = g' := Option.some.inj (hguard.symm.trans hg')
  have hW : destinations i = r.writes := by rw [destinations, hraw]; rfl
  have hwithin := hbody s (ctx_lt_of_ready hready)
  rw [hW] at hwithin
  obtain ⟨v, htrap⟩ | ⟨y, hok, hconf⟩ := hwithin
  · exact .inl ⟨v, (hexec s).trans (issue_trap hready rfl htrap)⟩
  · exact .inr ⟨y, (hexec s).trans (issue_ok hready rfl hok), hconf.scalars, hconf.vectors, hconf.predicates, hconf.table, hconf.flags,
      hconf.rest, rfl, fun c j hne => State.ctxAt_modCtx_other s _ _ c j _ hne⟩

end Sys2Proof.Machine
end

section
/-! PROOFS. Loads from the spaces of the cell, and those that count a read of a tile (R128, R146, R155, R161, R167 to R169). -/
namespace Sys2Proof.Machine

/-! ### The requests of the table and accumulator loads -/

section
variable {s : State}

theorem accesses_ldtab {x : ArgLdtab} {r : Option (Nat × Nat) × Space × Word × Word × Bool} (hr : s.resolve x.addr = .ok r) :
    Accesses (.ldtab x) x.g s (ldtabReq x r) := ⟨_, exec_ldtab x, memOp_of_resolve hr ..⟩

/-- A lane for which a request gives no data has the empty run of data (R146, R167). -/
theorem access_noData (s : State) (q : MemReq) : s.access { q with data := [] } = s.access { q with data := [[]] } := by
  have hlane (k : Nat) : ([] : List (List Byte)).getD k [] = [[]].getD k [] := by cases k <;> rfl
  have hacc : s.newAcc { q with data := [] } = s.newAcc { q with data := [[]] } := by simp only [State.newAcc, hlane]
  have hcheck : s.reqCheck { q with data := [] } = s.reqCheck { q with data := [[]] } := by
    funext k
    rw [State.reqCheck, State.reqCheck, hacc]
    rfl
  have hlocal (a : Acc) : s.issueLocal { q with data := [] } a = s.issueLocal { q with data := [[]] } a := by
    simp only [State.issueLocal, hlane]
    rfl
  rw [State.access, State.access, hcheck, hacc, hlocal]
  rfl

theorem accesses_accrd (x : ArgAccrd) : Accesses (.accrd x) x.g s (accrdReq x s.me) :=
  ⟨_, exec_accrd x, access_noData s (accrdReq x s.me)⟩

end

/-! ### What a load leaves in its destination -/

/-- The bytes that a request reads, lane by lane. -/
def State.laneBytes (s : State) (q : MemReq) : List (List Byte) := q.eas.map fun e => s.readLocal s.cur.cell q.sp e.toNat q.len

/-- A contiguous access reads one run of bytes (R167, R168). -/
theorem laneBytes_accessOf (s : State) (m : MAddr) (r : Option (Nat × Nat) × Space × Word × Word × Bool) (wr cons : Bool)
    (len align : Nat) (data : List Byte) (dest : Nat) (ty : Ty) (acq rel : Bool) (scope : Scope) :
    (s.laneBytes (accessOf m r wr cons len align data dest ty acq rel scope)).flatten
      = s.readLocal s.cur.cell r.2.1 r.2.2.2.1.toNat len := List.flatten_singleton ..

section
variable (a : Acc) (bs : List (List Byte)) (y : Ctx)

/-- Filling a destination leaves the count of the context's accesses. -/
theorem fill_seq : (a.fill bs y).seq = y.seq := by
  rw [Acc.fill]
  split
  next hlt => rw [Ctx.wsN, dif_pos hlt, Ctx.ws_seq]
  next =>
    split
    · rfl
    · split <;> rfl

variable {a}

theorem fill_scalar {d : SReg} (hd : a.dest = d.val) : a.fill bs y = y.ws d (loadWord a.ty bs.flatten) := by
  have hlt : a.dest < 64 := hd ▸ d.isLt
  rw [Acc.fill, if_pos hlt, Ctx.wsN, dif_pos hlt]
  congr

theorem fill_vector {d : VReg} (hd : a.dest = 64 + d.val) : a.fill bs y = y.wv d (BitVec.ofNat 512 (leNat bs.flatten)) := by
  have hge : ¬ a.dest < 64 := by omega
  have hlt : a.dest < 96 := by omega
  rw [Acc.fill, if_neg hge, dif_pos hlt]
  congr
  omega

theorem fill_table (hd : a.dest = 110) : a.fill bs y = { y with tbl := BitVec.ofNat 128 (leNat bs.flatten) } := by
  simp [Acc.fill, hd]

end

/-! ### A load that nothing holds -/

/-- The context after a load of it was performed (R128, R167 to R169). -/
def loadDone (s : State) (q : MemReq) (y : Ctx) : Ctx := accessDone ((s.newAcc q).fill (s.laneBytes q) y)

/-- A request to a space of the cell that passes its checks and that nothing holds. -/
def PerformedAtOnce (s : State) (q : MemReq) : Prop := admitted s q = true ∧ isLocal q = true ∧ performs s q = true

/-- The state after the count step of a request: as it was for one that does not consume, and for one that does as its tile has
counted, without a trap (R155, R161). -/
def CountsTo (s : State) (q : MemReq) (t : State) : Prop :=
  (q.cons = false ∧ s = t)
    ∨ (q.cons = true
      ∧ s.consumeAt s.cur.cell q.sp (q.eas.getD 0 0).toNat q.len (q.eas.getD 0 0) s.cur.cell s.cur.ctx = (t, none))

section
variable {s t : State} {q : MemReq}

/-- An admitted request to a space of the cell is taken there (R166, R196). -/
theorem access_local (hadm : admitted s q = true) (hloc : isLocal q = true) : s.access q = s.issueLocal q (s.newAcc q) := by
  obtain ⟨hfault, hroom⟩ := passes_of_admitted hadm
  simp only [State.access, hfault, hroom]
  cases hsp : q.sp with
  | glb => simp [isLocal, hsp] at hloc
  | peer => simp [isLocal, hsp] at hloc
  | loc | acc | vlt => rfl

/-- What lets a local request be performed: no conflict, no earlier access or release that holds it, and no unit that it would read
or merge with unreadable (R188, R204, R207, R234). -/
theorem free_of_performs (h : performs s q = true) :
    (q.eas.any fun e => (s.cell s.cur.cell).conflicts q.sp e.toNat q.len q.wr) = false
      ∧ (s.localHeld s.cur.cell s.cur.ctx (q.homes s.cur.cell) || q.rel && !s.releaseReady s.cur.cell s.cur.ctx q.scope) = false
      ∧ (q.eas.findSome? fun e => (s.poisoned (localHome s.cur.cell q.sp e.toNat) q.len).bind fun u =>
          if q.wr && covers (localHome s.cur.cell q.sp e.toNat) q.len u then none else some u) = none := by
  simp only [performs, Bool.and_eq_true, Bool.not_eq_true', List.all_eq_true, Bool.or_eq_true, Option.isNone_iff_eq_none] at h
  obtain ⟨⟨⟨hfree, hheld⟩, hrel⟩, hgood⟩ := h
  refine ⟨hfree, ?_, List.findSome?_eq_none_iff.mpr fun e he => ?_⟩
  · rcases hrel with hno | hready
    · simp [hheld, hno]
    · simp [hheld, hready]
  · rw [hgood e he, Option.bind_none]

/-- A local read that nothing holds fills its destination, after its count step (R161, R204). -/
theorem issueLocal_reads (hwr : q.wr = false) (h : performs s q = true) (ht : CountsTo s q t) :
    s.issueLocal q (s.newAcc q) = .ok (t.modMe (loadDone s q)) := by
  obtain ⟨hfree, hheld, hgood⟩ := free_of_performs h
  have hdone : loadDone s q = fun y => { (s.newAcc q).fill (s.laneBytes q) y with seq := y.seq + 1 }.retire := by
    funext y
    rw [loadDone, accessDone, fill_seq]
  rw [hdone, State.issueLocal, hfree, hheld, hgood]
  rcases ht with ⟨hcons, rfl⟩ | ⟨hcons, hcount⟩
  · rw [hwr, hcons]
    rfl
  · rw [hwr, hcons, hcount]
    rfl

variable {i : Instr} {g : Guard} {bs : List Byte}

/-- An instruction whose request is a local read that nothing holds ends with the read done. -/
theorem Accesses.loads (hi : Accesses i g s q) (hwr : q.wr = false) (h : PerformedAtOnce s q) (ht : CountsTo s q t) :
    Becomes i g s (t.modMe (loadDone s q)) := by
  obtain ⟨hadm, hloc, hperf⟩ := h
  exact hi.becomes ((access_local hadm hloc).trans (issueLocal_reads hwr hperf ht))

theorem Accesses.loadsScalar {d : SReg} (hi : Accesses i g s q) (hwr : q.wr = false) (hd : q.dest = d.val)
    (hbs : (s.laneBytes q).flatten = bs) (h : PerformedAtOnce s q) (ht : CountsTo s q t) :
    Becomes i g s (t.modMe fun y => accessDone (y.ws d (loadWord q.ty bs))) := by
  have hdone : loadDone s q = fun y => accessDone (y.ws d (loadWord q.ty bs)) := by
    funext y
    rw [loadDone, fill_scalar _ _ (show (s.newAcc q).dest = d.val from hd), hbs]
    rfl
  exact hdone ▸ hi.loads hwr h ht

theorem Accesses.loadsVector {d : VReg} (hi : Accesses i g s q) (hwr : q.wr = false) (hd : q.dest = 64 + d.val)
    (hbs : (s.laneBytes q).flatten = bs) (h : PerformedAtOnce s q) (ht : CountsTo s q t) :
    Becomes i g s (t.modMe fun y => accessDone (y.wv d (BitVec.ofNat 512 (leNat bs)))) := by
  have hdone : loadDone s q = fun y => accessDone (y.wv d (BitVec.ofNat 512 (leNat bs))) := by
    funext y
    rw [loadDone, fill_vector _ _ (show (s.newAcc q).dest = 64 + d.val from hd), hbs]
  exact hdone ▸ hi.loads hwr h ht

theorem Accesses.loadsTable (hi : Accesses i g s q) (hwr : q.wr = false) (hd : q.dest = 110)
    (hbs : (s.laneBytes q).flatten = bs) (h : PerformedAtOnce s q) (ht : CountsTo s q t) :
    Becomes i g s (t.modMe fun y => accessDone { y with tbl := BitVec.ofNat 128 (leNat bs) }) := by
  have hdone : loadDone s q = fun y => accessDone { y with tbl := BitVec.ofNat 128 (leNat bs) } := by
    funext y
    rw [loadDone, fill_table _ _ (show (s.newAcc q).dest = 110 from hd), hbs]
  exact hdone ▸ hi.loads hwr h ht

end

/-! ### The rows -/

theorem localLoadsReadMemory : LocalLoadsReadMemory := by
  intro s
  refine ⟨fun x r hr h => ?ld, fun x r hr h => ?vld, fun x r hr hcons h => ?ldtab, fun x h => ?accrd, fun x h => ?vgat⟩
  case ld => exact (accesses_ld hr).loadsScalar rfl rfl (laneBytes_accessOf ..) h (.inl ⟨rfl, rfl⟩)
  case vld => exact (accesses_vld hr).loadsVector rfl rfl (laneBytes_accessOf ..) h (.inl ⟨rfl, rfl⟩)
  case ldtab => exact (accesses_ldtab hr).loadsTable rfl rfl (laneBytes_accessOf ..) h (.inl ⟨hcons, rfl⟩)
  case accrd => exact (accesses_accrd x).loadsVector rfl rfl (laneBytes_accessOf ..) h (.inl ⟨rfl, rfl⟩)
  case vgat => exact (accesses_vgat x).loadsVector rfl rfl rfl h (.inl ⟨rfl, rfl⟩)

theorem consumingLoadsCountDown : ConsumingLoadsCountDown := by
  intro s
  refine ⟨fun x r t hr h hcount => ?ldc, fun x r t hr h hcount => ?vldc, fun x r t hr hcons h hcount => ?ldtab⟩
  case ldc => exact (accesses_ldc hr).loadsScalar rfl rfl (laneBytes_accessOf ..) h (.inr ⟨rfl, hcount⟩)
  case vldc => exact (accesses_vldc hr).loadsVector rfl rfl (laneBytes_accessOf ..) h (.inr ⟨rfl, hcount⟩)
  case ldtab => exact (accesses_ldtab hr).loadsTable rfl rfl (laneBytes_accessOf ..) h (.inr ⟨hcons, hcount⟩)

/-- Settles O10: the loads that count nothing, and those that count a read of their tile. -/
theorem loadsReadMemoryAndConsumingLoadsCount : Obligations.LoadsReadMemoryAndConsumingLoadsCount :=
  ⟨localLoadsReadMemory, consumingLoadsCountDown⟩

end Sys2Proof.Machine
end

section
/-! PROOFS. The number chapter (R110 to R127): what its scalar and vector instructions write, when they come to their effect. -/
namespace Sys2Proof.Machine

/-! ### From an instruction's effect to the context that it leaves -/

section
variable {i : Instr} {g : Guard} {s : State}

/-- A float result in a scalar, with its flags (R104, R110). -/
theorem Effect.putsFloat {d : SReg} {r : Nat × Nat} (h : Effect i g s (s.wsFloat d r)) :
    Computes i g s ((s.me.ws d (word r.1)).addFlags r.2) := h.computes

/-- Sixteen lanes in a vector, with their flags (R104, R118). -/
theorem Effect.putsLanes {d : VReg} {rs : List (Nat × Nat)} (h : Effect i g s (s.wvLanes d rs)) :
    Computes i g s (withLanes s.me d rs) := h.computes

variable {c : Prop} [Decidable c] {a b : Res}

/-- Of an effect that a condition chooses, the first where it holds. -/
theorem Effect.of_pos (h : Effect i g s (if c then a else b)) (hc : c) : Effect i g s a := by
  rwa [if_pos hc] at h

/-- The second where it does not. -/
theorem Effect.of_neg (h : Effect i g s (if c then a else b)) (hc : ¬ c) : Effect i g s b := by
  rwa [if_neg hc] at h

variable {sat : Bool} {y z : Ctx → Ctx}

/-- Of a change of the context that the saturation bit chooses, the one that clamps where it is set. -/
theorem Effect.saturates (h : Effect i g s (s.update fun x => if sat then y x else z x)) (hsat : sat = true) :
    Computes i g s (y s.me) := by
  subst hsat
  exact h.computes

/-- The plain one where it is not. -/
theorem Effect.wraps (h : Effect i g s (s.update fun x => if sat then y x else z x)) (hsat : sat = false) :
    Computes i g s (z s.me) := by
  subst hsat
  exact h.computes

end

/-! ### Scalar floating point (R110 to R116) -/

/-- A rounded operation on two FP32 operands writes its result (R111). -/
theorem floatArith_computes {i : Instr} {x : ArgFAr} {op : Rnd → FVal → FVal → Nat × Nat} {s : State}
    (he : exec i s = issue i x.g anyCtx (floatArith x op) s) :
    let r := op (s.me.mode x.r) (f32Val (s.me.rf x.a)) (f32Val (s.me.srcF x.b))
    Computes i x.g s ((s.me.ws x.d (word r.1)).addFlags r.2) :=
  (Effect.of_issue he rfl).putsFloat

/-- Settles O6: each instruction's effect is the float result of its row. -/
theorem floatInstructionsWriteTheirResult : Obligations.FloatInstructionsWriteTheirResult := by
  refine ⟨fun x s => ⟨?fadd, ?fsub, ?fmul, ?fdiv, ?fmin, ?fmax⟩, fun x s => ?fma, fun x s => ?fsqrt, fun x s => ?fcmp,
    fun x s => ⟨fun hfrom => ?fromInt, fun hfrom hty => ?toBf16, fun hfrom hty => ?toInt⟩, fun x s => ?fclass⟩
  case fadd => exact (floatArith_computes (exec_fadd x s) :)
  case fsub => exact (floatArith_computes (exec_fsub x s) :)
  case fmul => exact (floatArith_computes (exec_fmul x s) :)
  case fdiv => exact (floatArith_computes (exec_fdiv x s) :)
  case fmin => exact (Effect.of_issue (exec_fmin x s) rfl).putsFloat
  case fmax => exact (Effect.of_issue (exec_fmax x s) rfl).putsFloat
  case fma => exact (Effect.of_issue (exec_fma x s) rfl).putsFloat
  case fsqrt => exact (Effect.of_issue (exec_fsqrt x s) rfl).putsFloat
  case fcmp => exact (Effect.of_issue (exec_fcmp x s) rfl).computes
  case fromInt => exact ((Effect.of_issue (exec_fcvt x s) rfl).of_pos hfrom).putsFloat
  case toBf16 => exact (((Effect.of_issue (exec_fcvt x s) rfl).of_neg (ne_true_of_eq_false hfrom)).of_pos hty).putsFloat
  case toInt => exact (((Effect.of_issue (exec_fcvt x s) rfl).of_neg (ne_true_of_eq_false hfrom)).of_neg hty).computes
  case fclass => exact (Effect.of_issue (exec_fclass x s) rfl).putsFloat

/-! ### The element-wise vector instructions (R118, R119, R122) -/

section
variable {i : Instr} {s : State}

/-- An operation on FP32 lanes or on integer lanes writes its sixteen results (R118). -/
theorem vecArith_computes {x : ArgV} {ff : Rnd → Nat → Nat → Nat × Nat} {fi : Int → Int → Int}
    (he : exec i s = issue i x.g anyCtx (vecArith x ff fi) s) :
    Computes i x.g s (withLanes s.me x.d (List.zipWith (fun p q =>
      if x.ty = .f32 then ff (s.me.mode x.r) p q
      else intLane (tySigned x.ty) x.sat (fi (laneInt (tySigned x.ty) p) (laneInt (tySigned x.ty) q)))
      (lanesOf (s.me.rv x.a)) (lanesOf (s.me.srcV x.b)))) :=
  (Effect.of_issue he rfl).putsLanes

/-- An operation on the bits of the lanes writes its sixteen results (R118). -/
theorem vecBits_computes {x : ArgV} {f : Nat → Nat → Int} (he : exec i s = issue i x.g anyCtx (vecBits x f) s) :
    Computes i x.g s (withLanes s.me x.d (List.zipWith (fun p q => intLane (tySigned x.ty) x.sat (f p q))
      (lanesOf (s.me.rv x.a)) (lanesOf (s.me.srcV x.b)))) :=
  (Effect.of_issue he rfl).putsLanes

/-- A special function writes its value at each lane (R122). -/
theorem vecSpecial_computes {x : ArgVV} {f : Nat → Nat × Nat} (he : exec i s = issue i x.g anyCtx (vecSpecial x f) s) :
    Computes i x.g s (withLanes s.me x.d ((lanesOf (s.me.rv x.a)).map f)) :=
  (Effect.of_issue he rfl).putsLanes

end

/-- Settles O7: each row is its family's effect with the row's operation on a lane. -/
theorem vectorLanesAreIndependent : Obligations.VectorLanesAreIndependent := by
  refine ⟨fun x s => ⟨?vadd, ?vsub, ?vmul, ?vmin, ?vmax, ?vand, ?vor, ?vxor, ?vshl, ?vshr, ?vsra⟩, fun x s => ⟨?vabs, ?vneg⟩,
    fun x s => ?vfma, fun x s => ?vsel, fun x s => ⟨?vrcp, ?vrsqrt, ?vexp2, ?vlog2⟩⟩
  case vadd => exact (vecArith_computes (exec_vadd x s) :)
  case vsub => exact (vecArith_computes (exec_vsub x s) :)
  case vmul => exact (vecArith_computes (exec_vmul x s) :)
  case vmin => exact (vecArith_computes (exec_vmin x s) :)
  case vmax => exact (vecArith_computes (exec_vmax x s) :)
  case vand => exact (vecBits_computes (exec_vand x s) :)
  case vor => exact (vecBits_computes (exec_vor x s) :)
  case vxor => exact (vecBits_computes (exec_vxor x s) :)
  case vshl => exact (vecBits_computes (exec_vshl x s) :)
  case vshr => exact (vecBits_computes (exec_vshr x s) :)
  case vsra => exact (vecBits_computes (exec_vsra x s) :)
  case vabs => exact (Effect.of_issue (exec_vabs x s) rfl).putsLanes
  case vneg => exact (Effect.of_issue (exec_vneg x s) rfl).putsLanes
  case vfma => exact (Effect.of_issue (exec_vfma x s) rfl).putsLanes
  case vsel => exact (Effect.of_issue (exec_vsel x s) rfl).putsLanes
  case vrcp => exact (vecSpecial_computes (exec_vrcp x s) :)
  case vrsqrt => exact (vecSpecial_computes (exec_vrsqrt x s) :)
  case vexp2 => exact (vecSpecial_computes (exec_vexp2 x s) :)
  case vlog2 => exact (vecSpecial_computes (exec_vlog2 x s) :)

/-! ### Conversions, reductions, moves and quantization (R119 to R127) -/

/-- Settles O8: each row's effect is the result of its rule, in the case of its type, its direction and its saturation. -/
theorem vectorMovesAndReductionsWriteTheirResult : Obligations.VectorMovesAndReductionsWriteTheirResult := by
  refine ⟨fun x s => ?vcmp, fun x s => ⟨fun hfrom => ?vcvtFrom, fun hfrom hty => ?vcvtBf16, fun hfrom hty => ?vcvtInt⟩,
    fun x s => ?vexpand,
    fun x s => ⟨fun hty => ?sumFloat, fun hty hsat => ?sumPlain, fun hty hsat => ?sumClamped, fun hty => ?maxFloat, fun hty => ?maxInt⟩,
    fun x s => ⟨fun hty hsat => ?dotPlain, fun hty hsat => ?dotClamped, fun hty => ?dotFloat⟩,
    fun x s => ?vsplat, fun x s => ?vperm, fun x s => ?vidx, fun x s => ?vmovs, fun x s => ⟨?vqnt, ?vdqnt⟩, fun x s => ?vscacc⟩
  case vcmp => exact (Effect.of_issue (exec_vcmp x s) rfl).putsFloat
  case vcvtFrom => exact ((Effect.of_issue (exec_vcvt x s) rfl).of_pos hfrom).putsLanes
  case vcvtBf16 => exact (((Effect.of_issue (exec_vcvt x s) rfl).of_neg (ne_true_of_eq_false hfrom)).of_pos hty).computes
  case vcvtInt => exact (((Effect.of_issue (exec_vcvt x s) rfl).of_neg (ne_true_of_eq_false hfrom)).of_neg hty).putsLanes
  case vexpand => exact (Effect.of_issue (exec_vexpand x s) rfl).putsLanes
  case sumFloat => exact ((Effect.of_issue (exec_vredsum x s) rfl).of_pos hty).putsFloat
  case sumPlain => exact ((Effect.of_issue (exec_vredsum x s) rfl).of_neg hty).wraps hsat
  case sumClamped => exact ((Effect.of_issue (exec_vredsum x s) rfl).of_neg hty).saturates hsat
  case maxFloat => exact ((Effect.of_issue (exec_vredmax x s) rfl).of_pos hty).putsFloat
  case maxInt => exact ((Effect.of_issue (exec_vredmax x s) rfl).of_neg hty).computes
  case dotPlain => exact ((Effect.of_issue (exec_vdot x s) rfl).of_pos hty).wraps hsat
  case dotClamped => exact ((Effect.of_issue (exec_vdot x s) rfl).of_pos hty).saturates hsat
  case dotFloat => exact ((Effect.of_issue (exec_vdot x s) rfl).of_neg hty).putsFloat
  case vsplat => exact (Effect.of_issue (exec_vsplat x s) rfl).computes
  case vperm => exact (Effect.of_issue (exec_vperm x s) rfl).putsLanes
  case vidx => exact (Effect.of_issue (exec_vidx x s) rfl).putsLanes
  case vmovs => exact (Effect.of_issue (exec_vmovs x s) rfl).computes
  case vqnt => exact (Effect.of_issue (exec_vqnt x s) rfl).computes
  case vdqnt => exact (Effect.of_issue (exec_vdqnt x s) rfl).putsLanes
  case vscacc => exact (Effect.of_issue (exec_vscacc x s) rfl).putsLanes

end Sys2Proof.Machine
end

section
/-! PROOFS. A binary32 value rounds to its own pattern (R94, R101, R104). -/
namespace Sys2Proof.Machine

/-! ### Whole numbers of units round to themselves (R101) -/

/-- No mode takes an exact quotient to the next unit. -/
theorem roundsUp_exact (md : Rnd) (neg odd : Bool) : roundsUp md neg odd 0 1 = false := by
  cases md <;> cases neg <;> rfl

/-- A whole number of units is exact in those units. -/
theorem roundUnits_exact (md : Rnd) (neg : Bool) (m : Nat) (e : Int) : roundUnits md neg m 1 e e = (m, false) := by
  simp [roundUnits, Nat.mod_one, roundsUp_exact]

/-- The binary exponent of a whole number is its base 2 logarithm. -/
theorem ratLog_one {m : Nat} (h : m ≠ 0) : ratLog m 1 = Nat.log2 m := by
  simp [ratLog, show Nat.log2 1 = 0 by decide, Nat.log2_self_le h]

/-- A value whose unit is that of its binade, or the least unit of FP32, rounds to its pattern without a flag. -/
theorem roundRat_representable {m : Nat} {e : Int} (md : Rnd) (neg : Bool) (h0 : m ≠ 0) (hm : m < 2 ^ 24) (hmin : -149 ≤ e)
    (hmax : e ≤ 104) (hunit : e = -149 ∨ 2 ^ 23 ≤ m) :
    roundRat 24 md neg m 1 e = (b2n neg * 2 ^ 31 + ((e + 149).toNat * 2 ^ 23 + m), 0) := by
  have hlog : m.log2 < 24 := (Nat.log2_lt h0).mpr hm
  have hbinade : 2 ^ 23 ≤ m → m.log2 = 23 := fun h => Nat.le_antisymm (Nat.le_of_lt_succ hlog) ((Nat.le_log2 h0).mpr h)
  have hunitIs : (if (m.log2 : Int) + e - (24 - 1 : Nat) < -126 - (24 - 1 : Nat) then (-126 : Int) - (24 - 1 : Nat)
      else (m.log2 : Int) + e - (24 - 1 : Nat)) = e := by
    split <;> omega
  have hrange : ¬ 128 ≤ (m.log2 : Int) + e := by omega
  have hfinite : (decide (128 ≤ (m.log2 : Int) + e) || decide ((m.log2 : Int) + e = 127) &&
      decide (2 ^ 24 ≤ (roundUnits md neg m 1 e ((m.log2 : Int) + e - (24 - 1 : Nat))).1)) = false := by
    rcases hunit with hleast | hnormal
    · simp [hrange, show ¬ (m.log2 : Int) + e = 127 by omega]
    · rw [show (m.log2 : Int) + e - (24 - 1 : Nat) = e by have := hbinade hnormal; omega, roundUnits_exact]
      simp [hrange, show ¬ 16777216 ≤ m by omega]
  simp only [roundRat, ratLog_one h0, hunitIs, roundUnits_exact, hfinite]
  simp [flagIf]

/-! ### The values of binary32 patterns (R94) -/

/-- A pattern of 32 bits is its sign, its exponent and its fraction. -/
theorem f32_fields {n : Nat} (hn : n < 2 ^ 32) : b2n (bit n 31) * 2 ^ 31 + (slice n 23 8 * 2 ^ 23 + slice n 0 23) = n := by
  have hsign : b2n (bit n 31) = n / 2 ^ 31 := by
    have : n / 2 ^ 31 = 0 ∨ n / 2 ^ 31 = 1 := by omega
    rcases this with h | h <;> simp only [bit, h] <;> rfl
  rw [hsign, slice, slice]
  omega

section
variable {n : Nat}

theorem f32Val_inf (he : slice n 23 8 = 255) (hf : slice n 0 23 = 0) : f32Val n = .inf (bit n 31) := by
  simp [f32Val, he, hf]

theorem f32Val_nan (he : slice n 23 8 = 255) (hf : slice n 0 23 ≠ 0) : f32Val n = .nan (!bit n 22) := by
  simp [f32Val, he, hf]

theorem f32Val_zero (he : slice n 23 8 = 0) (hf : slice n 0 23 = 0) : f32Val n = .zero (bit n 31) := by
  simp [f32Val, he, hf]

theorem f32Val_subnormal (he : slice n 23 8 = 0) (hf : slice n 0 23 ≠ 0) :
    f32Val n = .fin (bit n 31) (slice n 0 23) (-149) := by
  simp [f32Val, he, hf]

theorem f32Val_normal (he : slice n 23 8 ≠ 255) (h0 : slice n 23 8 ≠ 0) :
    f32Val n = .fin (bit n 31) (slice n 0 23 + 2 ^ 23) ((slice n 23 8 : Int) - 150) := by
  simp [f32Val, he, h0]

end

/-- Settles O60: in each class of patterns but the NaNs, the pattern that rounding builds has the fields of the one given. -/
theorem representableValuesRoundToThemselves : Obligations.RepresentableValuesRoundToThemselves := by
  intro n md hn hnan
  have hfields := f32_fields hn
  have hexp : slice n 23 8 < 2 ^ 8 := Nat.mod_lt _ (by decide)
  have hfrac : slice n 0 23 < 2 ^ 23 := Nat.mod_lt _ (by decide)
  by_cases h255 : slice n 23 8 = 255
  · by_cases hf : slice n 0 23 = 0
    case pos =>
      rw [f32Val_inf h255 hf, FVal.round, Prod.mk.injEq]
      omega
    case neg =>
      rw [f32Val_nan h255 hf] at hnan
      exact nomatch hnan
  by_cases h0 : slice n 23 8 = 0
  · by_cases hf : slice n 0 23 = 0
    case pos =>
      rw [f32Val_zero h0 hf, FVal.round, Prod.mk.injEq]
      omega
    case neg =>
      rw [f32Val_subnormal h0 hf, FVal.round, roundRat_representable md _ hf (by omega) (by omega) (by omega) (.inl rfl), Prod.mk.injEq]
      omega
  · rw [f32Val_normal h255 h0, FVal.round,
      roundRat_representable md _ (by omega) (by omega) (by omega) (by omega) (.inr (by omega)), Prod.mk.injEq]
    omega

end Sys2Proof.Machine
end

section
/-! PROOFS. Stores to the spaces of the cell, and what the accesses of a cell leave alone (R146, R167 to R169, R232). -/
namespace Sys2Proof.Machine

/-! ### A store that nothing holds -/

/-- The state with the lanes of a request written, in rising order (R169). -/
def State.lanesWritten (s : State) (q : MemReq) : State :=
  (List.range q.eas.length).foldl (fun u k => u.writeLocal s.cur.cell q.sp (q.eas.getD k 0).toNat (q.data.getD k [])) s

section
variable {i : Instr} {g : Guard} {s : State} {q : MemReq}

/-- A local write that nothing holds writes its lanes (R188, R204). -/
theorem issueLocal_writes (hwr : q.wr = true) (h : performs s q = true) :
    s.issueLocal q (s.newAcc q) = .ok ((s.lanesWritten q).modMe accessDone) := by
  obtain ⟨hfree, hheld, hgood⟩ := free_of_performs h
  rw [State.issueLocal, hfree, hheld, hgood, hwr]
  rfl

/-- An instruction whose request is a local write that nothing holds ends with the write done. -/
theorem Accesses.stores (hi : Accesses i g s q) (hwr : q.wr = true) (h : PerformedAtOnce s q) :
    Becomes i g s ((s.lanesWritten q).modMe accessDone) := by
  obtain ⟨hadm, hloc, hperf⟩ := h
  exact hi.becomes ((access_local hadm hloc).trans (issueLocal_writes hwr hperf))

theorem accesses_accwr (x : ArgAccwr) : Accesses (.accwr x) x.g s (accwrReq x s.me) := ⟨_, exec_accwr x, rfl⟩

/-- The sixteen lanes of a scatter, one after the other (R169). -/
theorem lanesWritten_gatherReq (s : State) (x : ArgVgat) (y : Ctx) :
    s.lanesWritten (gatherReq x true y) = (List.range 16).foldl (fun u k => u.writeLocal s.cur.cell x.space
      ((gatherAddrs x y).getD k 0).toNat (((lanesOf (y.rv x.data)).map fun n => leBytes 4 n).getD k [])) s := rfl

end

/-- Settles O9: each store writes the one run of its request, and a scatter its lanes. -/
theorem localStoresWriteMemory : Obligations.LocalStoresWriteMemory := by
  intro s
  refine ⟨fun x r hr h => ?st, fun x r hr h => ?vst, fun x h => ?accwr, fun x h => ?vsca⟩
  case st => exact (accesses_st hr).stores rfl h
  case vst => exact (accesses_vst hr).stores rfl h
  case accwr => exact (accesses_accwr x).stores rfl h
  case vsca => exact lanesWritten_gatherReq s x s.me ▸ (accesses_vsca x).stores rfl h

/-! ### What a write of a local space leaves alone -/

/-- The two states differ at most in the bytes of memory, the key tags of their units and the poisoned ones. -/
def SameButMemory (s t : State) : Prop := ∃ m k p, t = { s with mem := m, keyTags := k, poison := p }

section
variable {s t u : State}

theorem SameButMemory.refl (s : State) : SameButMemory s s := ⟨_, _, _, rfl⟩

theorem SameButMemory.trans (h : SameButMemory s t) (k : SameButMemory t u) : SameButMemory s u := by
  obtain ⟨_, _, _, rfl⟩ := h
  obtain ⟨_, _, _, rfl⟩ := k
  exact ⟨_, _, _, rfl⟩

theorem sameButMemory_foldl {α : Type} {f : State → α → State} (hf : ∀ s a, SameButMemory s (f s a)) (as : List α) (s : State) :
    SameButMemory s (as.foldl f s) :=
  List.foldlRecOn as f (.refl s) fun u hu a _ => hu.trans (hf u a)

theorem sameButMemory_writeBytes (s : State) (a : Nat) (bs : List Byte) : SameButMemory s (s.writeBytes a bs) :=
  ⟨_, _, _, rfl⟩

theorem sameButMemory_keyTags (s : State) (k : Assoc (Nat × Nat)) : SameButMemory s { s with keyTags := k } := ⟨_, _, _, rfl⟩

theorem sameButMemory_retag (s : State) (tag : Nat × Nat) (v : Nat) : SameButMemory s (s.retag tag v) := by
  rw [State.retag]
  split
  · exact .refl s
  · exact (sameButMemory_writeBytes ..).trans (sameButMemory_keyTags ..)

theorem sameButMemory_writeUnder (s : State) (tag : Nat × Nat) (a : Nat) (bs : List Byte) :
    SameButMemory s (s.writeUnder tag a bs) := by
  rw [State.writeUnder]
  split
  · exact (sameButMemory_foldl (fun s v => sameButMemory_retag s tag v) _ s).trans ⟨_, _, _, rfl⟩
  · exact sameButMemory_writeBytes ..

theorem sameButMemory_writeLocal (s : State) (c : Nat) (sp : Space) (a : Nat) (bs : List Byte) :
    SameButMemory s (s.writeLocal c sp a bs) := by
  cases sp
  case vlt => exact sameButMemory_foldl (fun _ _ => sameButMemory_writeUnder ..) _ s
  all_goals exact ⟨_, _, _, rfl⟩

theorem sameButMemory_lanesWritten (s : State) (q : MemReq) : SameButMemory s (s.lanesWritten q) :=
  sameButMemory_foldl (fun _ _ => sameButMemory_writeLocal ..) _ s

/-- The tag that a `.vlt` byte is written under follows from the grants and the key slots (R232, R233). -/
theorem SameButMemory.vltTag (h : SameButMemory s t) (c off : Nat) : t.vltTag c off = s.vltTag c off := by
  obtain ⟨_, _, _, rfl⟩ := h
  rfl

end

/-! ### The bytes that a write of a local space leaves as they were -/

/-- Memory is in its canonical form, and a byte and the tag of its unit are as given. -/
def HoldsByte (b : Nat) (v : Byte) (tag : Nat × Nat) (s : State) : Prop :=
  Memory.wf s.mem = true ∧ s.readByte b = v ∧ s.tagOf (b / 64) = tag

section
variable {b : Nat} {v : Byte} {tag : Nat × Nat} {s : State}

/-- Bytes written elsewhere. -/
theorem HoldsByte.writeBytes {a : Nat} {bs : List Byte} (h : HoldsByte b v tag s) (hout : b < a ∨ a + bs.length ≤ b) :
    HoldsByte b v tag (s.writeBytes a bs) := by
  obtain ⟨hwf, hread, htag⟩ := h
  exact ⟨Memory.wf_writeAll a bs hwf, (Memory.read_writeAll a b bs hwf).trans ((if_neg (by omega)).trans hread), htag⟩

/-- A unit re-encrypted that is another one, or was last written under the same key (R232). -/
theorem HoldsByte.retag {key : Nat × Nat} {u : Nat} (h : HoldsByte b v tag s) (hkey : b / 64 = u → tag = key) :
    HoldsByte b v tag (s.retag key u) := by
  obtain ⟨hwf, hread, htag⟩ := h
  by_cases hu : b / 64 = u
  · have hsame : s.retag key u = s := if_pos (hu ▸ htag.trans (hkey hu))
    rw [hsame]
    exact ⟨hwf, hread, htag⟩
  · obtain ⟨hwf', -, htags, hbytes⟩ := State.retag_spec s key u hwf
    exact ⟨hwf', (hbytes b hu).trans hread, (htags _).trans ((if_neg hu).trans htag)⟩

theorem HoldsByte.retags {key : Nat × Nat} {us : List Nat} (h : HoldsByte b v tag s) (hkey : b / 64 ∈ us → tag = key) :
    HoldsByte b v tag (us.foldl (fun s u => s.retag key u) s) :=
  List.foldlRecOn us _ h fun _ ht _ hu => ht.retag fun e => hkey (e ▸ hu)

theorem HoldsByte.writeUnder {key : Nat × Nat} {a : Nat} {bs : List Byte} (h : HoldsByte b v tag s)
    (hout : b < a ∨ a + bs.length ≤ b) (hkey : b / 64 ∈ unitsOf a bs.length → tag = key) :
    HoldsByte b v tag (s.writeUnder key a bs) := by
  rw [State.writeUnder]
  split
  · exact HoldsByte.writeBytes (h.retags hkey) hout
  · exact h.writeBytes hout

end

/-- The runs of a byte range lie in it, each in one granule (R222). -/
theorem mem_cutRun {k a n : Nat} {r : Nat × Nat} (h : r ∈ cutRun k a n) :
    a ≤ r.1 ∧ r.1 + r.2 ≤ a + n ∧ r.1 % 4096 + r.2 ≤ 4096 := by
  induction k generalizing a n with
  | zero => exact nomatch h
  | succ k ih =>
    rw [cutRun] at h
    split at h
    · exact nomatch h
    · rcases List.mem_cons.mp h with rfl | h
      · dsimp only
        omega
      · have := ih h
        omega

/-- The owner of a `.vlt` byte is that of its 64 KiB unit of grants (R232, R270). -/
theorem vltTag_of_unit (s : State) (c : Nat) {a b : Nat} (h : a / 65536 = b / 65536) : s.vltTag c a = s.vltTag c b := by
  have hcover (g : Grant) : (g.cell == c && g.vlo * 65536 ≤ a && a < g.vhi * 65536)
      = (g.cell == c && g.vlo * 65536 ≤ b && b < g.vhi * 65536) := by
    have hlo : g.vlo * 65536 ≤ a ↔ g.vlo * 65536 ≤ b := by omega
    have hhi : a < g.vhi * 65536 ↔ b < g.vhi * 65536 := by omega
    simp only [hlo, hhi]
  simp only [State.vltTag, State.vltSlot, State.vltOwner, hcover]

/-- A state reached from the first by writes of memory, in which the byte and the tag of its unit are as they were. -/
def KeepsByte (s : State) (b : Nat) (t : State) : Prop :=
  SameButMemory s t ∧ HoldsByte b (s.readByte b) (s.tagOf (b / 64)) t

section
variable {b : Nat} {s u : State}

/-- A run of a `.vlt` write that leaves a byte untouched: where it re-encrypts the byte's unit, the unit was last written under
the same key (R232). -/
theorem untouched_run {ea n : Nat} {r : Nat × Nat} (h : untouched s .vlt ea n b) (hlo : ea ≤ r.1) (hhi : r.1 + r.2 ≤ ea + n)
    (hgran : r.1 % 4096 + r.2 ≤ 4096) {m : Nat} (hm : m ≤ r.2) :
    (b < vltA s.cur.cell r.1 ∨ vltA s.cur.cell r.1 + m ≤ b)
      ∧ (b / 64 ∈ unitsOf (vltA s.cur.cell r.1) m → s.tagOf (b / 64) = s.vltTag s.cur.cell r.1) := by
  obtain ⟨hout, hkey⟩ := h
  simp only [localHome, vltA, forall_const] at hout hkey ⊢
  refine ⟨by omega, fun hu => ?_⟩
  obtain ⟨k, hk, hkm, hkb⟩ := (mem_unitsOf ..).mp hu
  rw [hkey ((mem_unitsOf ..).mpr ⟨k, by omega, by omega, hkb⟩)]
  exact vltTag_of_unit s _ (by omega)

/-- A write of a local space keeps a byte that it leaves untouched (R201, R232). -/
theorem KeepsByte.writeLocal {sp : Space} {ea n : Nat} {bs : List Byte} (h : KeepsByte s b u) (hout : untouched s sp ea n b)
    (hlen : bs.length ≤ n) : KeepsByte s b (u.writeLocal s.cur.cell sp ea bs) := by
  cases sp
  case vlt =>
    refine List.foldlRecOn (motive := KeepsByte s b) _ _ h fun t ht r hr => ?_
    obtain ⟨hsame, hbyte⟩ := ht
    obtain ⟨hlo, hhi, hgran⟩ := mem_cutRun hr
    obtain ⟨hrun, hkey⟩ := untouched_run hout hlo (by omega) hgran (List.length_take_le r.2 (bs.drop (r.1 - ea)))
    exact ⟨hsame.trans (sameButMemory_writeUnder ..), hbyte.writeUnder hrun fun hu => (hkey hu).trans (hsame.vltTag ..).symm⟩
  all_goals
    obtain ⟨hsame, hbyte⟩ := h
    obtain ⟨hbytes, -⟩ := hout
    exact ⟨hsame.trans (sameButMemory_writeBytes ..), hbyte.writeBytes (by simp only [localHome] at hbytes ⊢; omega)⟩

/-- The lanes of a request keep a byte that each of them leaves untouched. -/
theorem keepsByte_lanesWritten {q : MemReq} (hwf : Memory.wf s.mem = true) (hlen : ∀ k, (q.data.getD k []).length ≤ q.len)
    (hout : ∀ e ∈ q.eas, untouched s q.sp e.toNat q.len b) : KeepsByte s b (s.lanesWritten q) := by
  refine List.foldlRecOn (motive := KeepsByte s b) _ _ ⟨.refl s, hwf, rfl, rfl⟩ fun t ht k hk => ?_
  have hlane : q.eas.getD k 0 ∈ q.eas := by
    rw [List.getD_eq_getElem?_getD, List.getElem?_eq_getElem (List.mem_range.mp hk), Option.getD_some]
    exact List.getElem_mem _
  exact ht.writeLocal (hout _ hlane) (hlen k)

theorem KeepsByte.readByte (h : KeepsByte s b u) : u.readByte b = s.readByte b := by
  obtain ⟨-, -, hread, -⟩ := h
  exact hread

end

/-! ### What a performed access leaves alone -/

/-- The regions, the messages under way, the key slots and every context but the executing one are as before. -/
def LeavesRest (s t : State) : Prop :=
  t.regions = s.regions ∧ t.net = s.net ∧ t.keys = s.keys
    ∧ ∀ d j, (d ≠ s.cur.cell ∨ j ≠ s.cur.ctx) → t.ctxAt d j = s.ctxAt d j

theorem SameButMemory.leavesRest_modMe {s t : State} (h : SameButMemory s t) (f : Ctx → Ctx) : LeavesRest s (t.modMe f) := by
  obtain ⟨_, _, _, rfl⟩ := h
  exact ⟨rfl, rfl, rfl, fun d j hne => State.ctxAt_modCtx_other _ _ _ d j f hne⟩

theorem SameButMemory.me_modMe {s t : State} (h : SameButMemory s t) (f : Ctx → Ctx) (hctx : s.cur.ctx < 10) :
    (t.modMe f).me = f s.me := by
  obtain ⟨_, _, _, rfl⟩ := h
  exact State.me_modMe _ f hctx

section
variable {i : Instr} {g : Guard} {s : State} {q : MemReq}

/-- A local store that nothing holds changes its bytes and counts in its context (R146, R167 to R169, R232). -/
theorem Accesses.stores_frame (hi : Accesses i g s q) (hwr : q.wr = true) (hlen : ∀ k, (q.data.getD k []).length ≤ q.len)
    (hwf : Memory.wf s.mem = true) (h : PerformedAtOnce s q) (hready : ready i g s = true) :
    ∃ t, exec i s = .next t ∧ LeavesRest s t ∧ t.me = accessDone s.me
      ∧ ∀ a, (∀ p ∈ q.eas.map fun e => (q.sp, e.toNat, q.len), untouched s p.1 p.2.1 p.2.2 a) → t.readByte a = s.readByte a := by
  have hsame := sameButMemory_lanesWritten s q
  exact ⟨_, hi.stores hwr h hready, hsame.leavesRest_modMe _, hsame.me_modMe _ (ctx_lt_of_ready hready),
    fun a ha => (keepsByte_lanesWritten hwf hlen (List.forall_mem_map.mp ha)).readByte⟩

/-- Filling a destination leaves every other register. -/
theorem fill_frame (a : Acc) (bs : List (List Byte)) (y : Ctx) :
    (∀ k : SReg, k.val ≠ a.dest → (a.fill bs y).rs k = y.rs k)
      ∧ (∀ k : VReg, 64 + k.val ≠ a.dest → (a.fill bs y).rv k = y.rv k)
      ∧ (a.fill bs y).p = y.p ∧ (a.fill bs y).fcsr = y.fcsr ∧ (a.dest ≠ 110 → (a.fill bs y).tbl = y.tbl) := by
  by_cases hs : a.dest < 64
  · rw [fill_scalar bs y (d := ⟨a.dest, hs⟩) rfl]
    refine ⟨fun k hk => ?_, fun k _ => ?_, ?_, ?_, fun _ => ?_⟩
    · have hne : k ≠ ⟨a.dest, hs⟩ := fun e => hk (congrArg Fin.val e)
      rw [Ctx.rs_ws, if_neg hne]
      exact ite_eq_right_iff.mpr fun h0 => (show y.rs k = 0 from if_pos h0).symm
    all_goals simp [Ctx.rv]
  by_cases hv : a.dest < 96
  · rw [fill_vector bs y (d := ⟨a.dest - 64, by omega⟩) (by dsimp only; omega)]
    refine ⟨fun k _ => rfl, fun k hk => ?_, rfl, rfl, fun _ => rfl⟩
    rw [Ctx.rv_wv, if_neg fun e => hk (by rw [e]; dsimp only; omega)]
  by_cases ht : a.dest = 110
  · rw [fill_table bs y ht]
    exact ⟨fun _ _ => rfl, fun _ _ => rfl, rfl, rfl, fun h => absurd ht h⟩
  · have hnone : a.fill bs y = y := by rw [Acc.fill, if_neg hs, dif_neg hv, if_neg ht]
    rw [hnone]
    exact ⟨fun _ _ => rfl, fun _ _ => rfl, rfl, rfl, fun _ => rfl⟩

/-- A local load that nothing holds changes its destination and counts in its context (R146, R167 to R169). -/
theorem Accesses.loads_frame {d : Nat} (hi : Accesses i g s q) (hwr : q.wr = false) (hcons : q.cons = false) (hd : q.dest = d)
    (h : PerformedAtOnce s q) (hready : ready i g s = true) :
    ∃ t, exec i s = .next t ∧ LeavesRest s t ∧ t.mem = s.mem
      ∧ (∀ k : SReg, k.val ≠ d → t.me.rs k = s.me.rs k) ∧ (∀ k : VReg, 64 + k.val ≠ d → t.me.rv k = s.me.rv k)
      ∧ t.me.p = s.me.p ∧ t.me.fcsr = s.me.fcsr ∧ (d ≠ 110 → t.me.tbl = s.me.tbl) := by
  subst hd
  have hsame := SameButMemory.refl s
  refine ⟨_, hi.loads hwr h (.inl ⟨hcons, rfl⟩) hready, hsame.leavesRest_modMe _, rfl, ?_⟩
  rw [hsame.me_modMe _ (ctx_lt_of_ready hready)]
  exact fill_frame (s.newAcc q) (s.laneBytes q) s.me

end

/-- A request of one run of data gives no lane more than the run. -/
theorem length_getD_singleton {n : Nat} {bs : List Byte} (h : bs.length = n) (k : Nat) : ([bs].getD k []).length ≤ n := by
  cases k with
  | zero => exact Nat.le_of_eq h
  | succ k => exact Nat.zero_le n

/-- A lane of a scatter has four bytes (R169). -/
theorem length_getD_lanes (ns : List Nat) (k : Nat) : ((ns.map fun n => leBytes 4 n).getD k []).length ≤ 4 := by
  rw [List.getD_eq_getElem?_getD, List.getElem?_map]
  cases ns[k]? with
  | none => exact Nat.zero_le 4
  | some n => exact Nat.le_of_eq (length_leBytes 4 n)

/-- Settles O56: the stores and the loads of the cell's spaces. -/
theorem localAccessesChangeOnlyTheirBytes : Obligations.LocalAccessesChangeOnlyTheirBytes := by
  intro s hwf
  refine ⟨fun x r hr => ⟨fun h => ?st, fun h => ?ld⟩, fun x r hr => ⟨fun h => ?vst, fun h => ?vld⟩, fun x h => ?accwr,
    fun x h => ?accrd, fun x => ⟨fun h => ?vsca, fun h => ?vgat⟩⟩
  case st => exact (accesses_st hr).stores_frame rfl (length_getD_singleton (length_leBytes ..)) hwf h
  case ld => exact (accesses_ld hr).loads_frame rfl rfl rfl h
  case vst => exact (accesses_vst hr).stores_frame rfl (length_getD_singleton (length_leBytes ..)) hwf h
  case vld => exact (accesses_vld hr).loads_frame rfl rfl rfl h
  case accwr => exact (accesses_accwr x).stores_frame rfl (length_getD_singleton (length_leBytes ..)) hwf h
  case accrd => exact (accesses_accrd x).loads_frame rfl rfl rfl h
  case vsca => exact (accesses_vsca x).stores_frame rfl (length_getD_lanes _) hwf h
  case vgat => exact (accesses_vgat x).loads_frame rfl rfl rfl h

end Sys2Proof.Machine
end

section
/-! PROOFS. The creation of a region (R132, R150, R225, R269, R279, R281): what its image is refused for, what the child takes from its
parent, and what `rgnact new` answers. -/
namespace Sys2Proof.Machine

/-! ### The image and the grants -/

/-- The image has its reserved fields zero and its given fields within their limits, and so have its grants, each of another
cell (R269, R270). -/
def WellFormedImage (s : State) (bs : List Byte) (gs : List (Option Grant)) : Prop :=
  imageOk bs = true ∧ (∀ g ∈ gs, g.isSome = true) ∧ (gs.filterMap id).all s.grantOk = true
    ∧ ((gs.filterMap id).map (·.cell)).eraseDups.length = (gs.filterMap id).length

/-- A well-formed image's grants lie inside the parent's, cell by cell (R270). -/
def GrantsInside (p : Region) (own : List Grant) : Prop := ∀ g ∈ own, ∃ q ∈ p.grants, q.cell = g.cell ∧ g.within q = true

/-- The control block of the child: its grants are the parent's where its image lists none (R269). -/
def State.childBlock (s : State) (bs : List Byte) (gs : List (Option Grant)) (parent : Nat) (p : Region) : Region :=
  (childOf bs parent p (if (gs.filterMap id).isEmpty then p.grants else gs.filterMap id)).begun s.clock

/-- A child may stand in its isolation partition with its cells (R279). -/
def State.partitionKept (s : State) (x : Region) : Bool := s.partitionOk x.tenant x.partition (x.grants.map (·.cell))

/-- An image gives an ASID that its child may not have (R225). -/
def AsidTaken (s : State) (bs : List Byte) (x : Region) : Prop :=
  bit (fieldAt bs 0 8) 8 = true ∧ (s.asidFree x.tenant x.asid = false ∨ s.asidRooted x.tenant x.asid = false)

/-- The same, as the model tests it. -/
def State.asidRefused (s : State) (bs : List Byte) (x : Region) : Bool :=
  bit (fieldAt bs 0 8) 8 && !(s.asidFree x.tenant x.asid && s.asidRooted x.tenant x.asid)

section
variable {s : State} {bs : List Byte} {gs : List (Option Grant)} {parent : Nat} {p : Region}

/-- The model's first check is that of the image and the grants. -/
theorem badImage_iff :
    (!imageOk bs || gs.any (·.isNone) || !(gs.filterMap id).all s.grantOk
      || decide (((gs.filterMap id).map (·.cell)).eraseDups.length ≠ (gs.filterMap id).length)) = true
      ↔ ¬ WellFormedImage s bs gs := by
  rw [WellFormedImage, ← Bool.not_eq_false]
  refine not_congr ?_
  simp only [Bool.or_eq_false_iff, Bool.not_eq_false', List.any_eq_false, decide_eq_false_iff_not, Decidable.not_not,
    Option.isNone_iff_eq_none, Option.isSome_iff_ne_none, ne_eq, and_assoc]

theorem insideCheck_iff (own : List Grant) :
    (own.all fun g => p.grants.any fun q => q.cell == g.cell && g.within q) = true ↔ GrantsInside p own := by
  simp [GrantsInside]

/-! ### The statuses, in their order -/

theorem newRegion_badImage (h : ¬ WellFormedImage s bs gs) : s.newRegion bs gs parent = .error 1 := if_pos (badImage_iff.mpr h)

theorem newRegion_noParent (h : WellFormedImage s bs gs) (hp : s.region parent = none ∨ s.mine parent = false) :
    s.newRegion bs gs parent = .error 3 := by
  have hnone : (s.region parent).filter (fun _ => s.mine parent) = none := by
    rcases hp with hp | hp
    · rw [hp]; rfl
    · simp [hp]
  rw [State.newRegion, if_neg (fun hb => badImage_iff.mp hb h), hnone]

/-- With a good image and a parent of the tenant: the depth and the containment, the isolation partition, the ASID. -/
theorem newRegion_child (h : WellFormedImage s bs gs) (hp : s.region parent = some p) (hmine : s.mine parent = true) :
    s.newRegion bs gs parent =
      if 8 < p.depth + 1 || !(gs.filterMap id).all fun g => p.grants.any fun q => q.cell == g.cell && g.within q then .error 2
      else if !s.partitionKept (s.childBlock bs gs parent p) then .error 2
      else if s.asidRefused bs (s.childBlock bs gs parent p) || 65535 ≤ s.regions.length then .error 5
      else .ok (s.childBlock bs gs parent p) := by
  have hsome : (s.region parent).filter (fun _ => s.mine parent) = some p := by
    simp [hp, hmine]
  rw [State.newRegion, if_neg (fun hb => badImage_iff.mp hb h), hsome]
  rfl

section
variable (h : WellFormedImage s bs gs) (hp : s.region parent = some p) (hmine : s.mine parent = true)
include h hp hmine

theorem newRegion_notContained (hbad : 8 ≤ p.depth ∨ ¬ GrantsInside p (gs.filterMap id)
    ∨ s.partitionKept (s.childBlock bs gs parent p) = false) :
    s.newRegion bs gs parent = .error 2 := by
  rw [newRegion_child h hp hmine]
  split
  next => rfl
  next hfirst =>
    rw [Bool.or_eq_true, decide_eq_true_eq, Bool.not_eq_true', ← Bool.not_eq_true, insideCheck_iff] at hfirst
    obtain hdepth | hout | hpart := hbad
    · exact absurd (.inl (by omega)) hfirst
    · exact absurd (.inr hout) hfirst
    · rw [hpart]; rfl

variable (hdepth : p.depth < 8) (hinside : GrantsInside p (gs.filterMap id))
  (hpart : s.partitionKept (s.childBlock bs gs parent p) = true)
include hdepth hinside hpart

/-- A child that is contained is refused for its ASID or for want of a number, and otherwise made (R225, R281). -/
theorem newRegion_contained :
    s.newRegion bs gs parent =
      if s.asidRefused bs (s.childBlock bs gs parent p) || 65535 ≤ s.regions.length then .error 5
      else .ok (s.childBlock bs gs parent p) := by
  have hfirst : ¬ (8 < p.depth + 1 ∨ ¬ GrantsInside p (gs.filterMap id)) := by
    rintro (hdeep | hout)
    · omega
    · exact hout hinside
  rw [newRegion_child h hp hmine, if_neg, hpart]
  · rfl
  · rwa [Bool.or_eq_true, decide_eq_true_eq, Bool.not_eq_true', ← Bool.not_eq_true, insideCheck_iff]

end

/-- The model's last check is that of the ASID and of a free number. -/
theorem asidCheck_iff (x : Region) :
    (s.asidRefused bs x || decide (65535 ≤ s.regions.length)) = true ↔ AsidTaken s bs x ∨ 65535 ≤ s.regions.length := by
  simp only [State.asidRefused, AsidTaken, Bool.or_eq_true, Bool.and_eq_true, Bool.not_eq_true', Bool.and_eq_false_iff, decide_eq_true_eq]

/-- Only one child can come of an image: the parent's block with what the image sets (R269). -/
theorem eq_childBlock {r : Region} (h : WellFormedImage s bs gs) (hp : s.region parent = some p) (hmine : s.mine parent = true)
    (hr : s.newRegion bs gs parent = .ok r) : r = s.childBlock bs gs parent p := by
  rw [newRegion_child h hp hmine] at hr
  split at hr
  · exact nomatch hr
  · split at hr
    · exact nomatch hr
    · split at hr
      · exact nomatch hr
      · exact (Except.ok.inj hr).symm

end

theorem childrenInheritFromTheirParent : ChildrenInheritFromTheirParent := by
  intro s bs gs parent
  refine ⟨newRegion_badImage, newRegion_noParent, fun p h hp hmine => ⟨?refused, ?taken, ?made, fun r hr => ?fields⟩⟩
  case refused => exact newRegion_notContained h hp hmine
  case taken =>
    intro hdepth hinside hpart htaken
    exact (newRegion_contained h hp hmine hdepth hinside hpart).trans
      (if_pos ((asidCheck_iff (s.childBlock bs gs parent p)).mpr htaken))
  case made =>
    intro hdepth hinside hpart hfree hroom
    exact ⟨_, (newRegion_contained h hp hmine hdepth hinside hpart).trans
      (if_neg fun hb => ((asidCheck_iff (s.childBlock bs gs parent p)).mp hb).elim hfree (Nat.not_le.mpr hroom))⟩
  case fields =>
    obtain rfl := eq_childBlock h hp hmine hr
    exact ⟨rfl, rfl, rfl, rfl, rfl, rfl, rfl, rfl, rfl, rfl, rfl⟩

/-! ### What `rgnact new` answers -/

/-- The number of grant records that an image lists; a malformed image lists none (R269). -/
def grantCount (bs : List Byte) : Nat := if imageOk bs then fieldAt bs 72 2 else 0

/-- The answer of `rgnact new` to the status or the child of its image (R281): the status, or the child added under a number that no
region has, with what its own grant list takes from the parent zero. -/
def State.answerNew (s : State) (x : ArgDAB) (bs : List Byte) (r : Except Nat Region) : Res :=
  match r with
  | .error e => s.update fun y => y.ws x.d (failed e)
  | .ok r =>
    let no := freeNumber (0 :: s.regions.map (·.1)) 65536 4 s.fresh
    let held := ((s.region (s.me.rs x.b).toNat).map (·.grants)).getD []
    ((if grantCount bs = 0 then s else r.grants.foldl (fun u g => u.passGrant g) s).addRegion no r
      (r.grants.filter fun g => !(held.any fun q => q.cell == g.cell && q.vsp == g.vsp))).update fun y => y.ws x.d (word no)

/-- In context 9, with its image and its grant list read, `rgnact new` answers by the status or the child (R269, R281). -/
theorem effect_rgnactNew {s : State} {x : ArgDAB} {bs list : List Byte} {r : Except Nat Region} (hctx : s.cur.ctx = 9)
    (himage : s.syncRead (s.me.rs x.a) 128 64 = .ok bs)
    (hlist : if grantCount bs = 0 then list = [] else s.syncRead (word (fieldAt bs 80 8)) (32 * grantCount bs) 32 = .ok list)
    (hr : s.newRegion bs ((List.range (grantCount bs)).map fun k => grantOf (list.drop (32 * k))) (s.me.rs x.b).toNat = r) :
    Effect (.rgnactNew x) x.g s (s.answerNew x bs r) := by
  subst hr
  have heffect := Effect.of_issue (g := x.g) (exec_rgnactNew x s) (decide_eq_true hctx)
  simp only [himage, bind, Except.bind] at heffect
  rw [← grantCount] at heffect
  split at hlist
  next h0 =>
    rw [if_pos h0] at heffect
    rw [hlist]
    exact heffect
  next h0 =>
    rw [if_neg h0, hlist] at heffect
    exact heffect

theorem newRegionsAreAdded : NewRegionsAreAdded :=
  fun _ _ _ _ hctx himage hlist =>
    ⟨fun _ he => effect_rgnactNew hctx himage hlist he, fun _ hr => effect_rgnactNew hctx himage hlist hr⟩

/-- Settles O21: what `rgnact new` answers, and the child that an image makes. -/
theorem regionsAreCreated : Obligations.RegionsAreCreated := ⟨newRegionsAreAdded, childrenInheritFromTheirParent⟩

end Sys2Proof.Machine
end

section
/-! PROOFS. The operations of the matrix unit at their issue (R133, R134, R136, R142 to R145). -/
namespace Sys2Proof.Machine

/-! ### The checks of an issue, in one -/

/-- Checking for the first of two faults is checking for the one and then for the other. -/
theorem trapIf_or (o p : Option TrapInfo) : trapIf (o.or p) = (do trapIf o; trapIf p) := by cases o <;> rfl

theorem stallIf_or (a b : Bool) : stallIf (a || b) = (do stallIf a; stallIf b) := by cases a <;> rfl

/-- There is no room where one of the limits is reached (R133, R134, R212). -/
theorem not_tileRoom (s : State) (n : Nat) : (!tileRoom s n) = (s.pointHeld s.cur.cell s.cur.ctx
    || ((32 ≤ (s.cell s.cur.cell).tileq.length || 8 ≤ ((s.cell s.cur.cell).tileq.filter (·.ctx == s.cur.ctx)).length)
      || decide ((s.cell s.cur.cell).openEntries < n))) := by
  simp only [tileRoom, Bool.not_and, Bool.not_not, ← decide_not, Nat.not_lt, Nat.not_le, Bool.or_assoc]

section
variable (s : State) (fn : TileFn) (md : Rnd) (m n : Nat) (ops used : List Opnd) (ca cb : Bool) (d a b : Word) (f : Compl)

/-- An operation of the matrix unit is checked, then waits for room, then is queued (R133, R134, R136). -/
theorem issueTile_eq : s.issueTile fn md m n ops used ca cb d a b f = (do
    trapIf (tileFault s ops used)
    stallIf (!tileRoom s ops.length)
    .ok (tileQueued s (tileOpOf s fn md m n ca cb d a b f) ops)) := by
  simp only [State.issueTile, tileFault, trapIf_or, not_tileRoom, stallIf_or, bind_assoc]
  rfl

end

/-- An instruction whose own effect is the issue of a tile operation is checked, stalls or queues it. -/
theorem Effect.queues {i : Instr} {g : Guard} {s : State} {fn : TileFn} {md : Rnd} {m n : Nat} {ops used : List Opnd} {ca cb : Bool}
    {d a b : Word} {f : Compl} (h : Effect i g s (s.issueTile fn md m n ops used ca cb d a b f)) :
    Queues i g s (tileOpOf s fn md m n ca cb d a b f) ops used := by
  rw [issueTile_eq] at h
  refine ⟨fun t ht => ?fault, fun hgood hroom => ?queued, fun hgood hfull => ?stall⟩
  case fault =>
    rw [ht] at h
    exact h
  case queued =>
    rw [hgood, hroom] at h
    exact h
  case stall =>
    rw [hgood, hfull] at h
    exact h

/-- Settles O14: each row is the issue of its operation. -/
theorem matrixOperationsAreQueued : Obligations.MatrixOperationsAreQueued := by
  intro s
  refine ⟨fun x => ?mma, fun x => ?accz, fun x => ?accsc, fun x => ⟨?accst, ?accld⟩⟩
  case mma => exact (Effect.of_issue (exec_mma x s) rfl).queues
  case accz => exact (Effect.of_issue (exec_accz x s) rfl).queues
  case accsc => exact (Effect.of_issue (exec_accsc x s) rfl).queues
  case accst => exact (Effect.of_issue (exec_accst x s) rfl).queues
  case accld => exact (Effect.of_issue (exec_accld x s) rfl).queues

end Sys2Proof.Machine
end

section
/-! PROOFS. The events of the matrix unit and of the copy engine (R133, R137, R138, R147, R182 to R184, R189, R191, R193, R198, R210,
R277). -/
namespace Sys2Proof.Machine

/-! ### The matrix unit (R133, R137, R138, R147, R210) -/

/-- The operations of a cell that its matrix unit may start: none while it executes one (R133). -/
def State.tileCands (s : State) (c : Nat) : List TileOp :=
  if (s.cell c).tileq.any (·.started) then [] else (s.cell c).tileq.filter (s.tileReady c)

/-- With no candidate no tenant is chosen (R271). -/
@[simp] theorem chooseTenant_nil (s : State) (c : Nat) (k : Resource) : s.chooseTenant c k [] = none := rfl

section
variable {s w : State} {t : Nat} {o : TileOp}

/-- A unit that executes an operation starts none. -/
theorem tileOpStart_busy (h : (s.cell s.cur.cell).tileq.any (·.started) = true) : exec .tileOpStart s = .next s := by
  simp only [exec_tileOpStart, execTileOpStart, h, if_true, List.map_nil, List.eraseDups_nil, chooseTenant_nil]
  rfl

section
variable
  (ht : s.chooseTenant s.cur.cell .tile (((s.tileCands s.cur.cell).map fun o => s.tenantOf o.region).eraseDups) = some (t, w))
  (ho : (s.tileCands s.cur.cell).find? (fun o => w.tenantOf o.region == t) = some o)
include ht ho

/-- The operation chosen is charged to its tenant; at a fault of an operand that it consumes it is abandoned (R138). -/
theorem tileOpStart_abandons {f : TrapInfo} (hf : ((w.spend s.cur.cell t .tile o.occupancy).consumeAll s.cur.cell o).2 = some f) :
    exec .tileOpStart s
      = .next (((w.spend s.cur.cell t .tile o.occupancy).consumeAll s.cur.cell o).1.abandonTile s.cur.cell o f) := by
  rw [State.tileCands] at ht ho
  simp only [exec_tileOpStart, execTileOpStart, ht, ho, hf, event]

/-- With its operands counted down it starts (R133, R138). -/
theorem tileOpStart_starts (hgood : ((w.spend s.cur.cell t .tile o.occupancy).consumeAll s.cur.cell o).2 = none) :
    exec .tileOpStart s = .next (((w.spend s.cur.cell t .tile o.occupancy).consumeAll s.cur.cell o).1.modCell s.cur.cell fun x =>
      { x with tileq := modifyFirst (·.key == o.key) (fun o => { o with started := true }) x.tileq }) := by
  rw [State.tileCands] at ht ho
  simp only [exec_tileOpStart, execTileOpStart, ht, ho, hgood, event]

end

/-- The state with an executed operation's elements written, its flags in its task's fcsr while that is resident, and its entries
gone (R133, R137). -/
def State.tileRetired (s : State) (c : Nat) (o : TileOp) : State :=
  (if (s.tileWrite c o).1.resident c o.ctx o.task then (s.tileWrite c o).1.modCtx c o.ctx (·.addFlags (s.tileWrite c o).2)
    else (s.tileWrite c o).1).dropTile c o.key

/-- An executed operation waits for its release (R210). -/
theorem tileOpRetire_held (ho : (s.cell s.cur.cell).tileq.find? (·.started) = some o)
    (h : (o.rel && !s.opReady s.cur.cell o.ctx o.task o.seq o.scope) = true) : exec .tileOpRetire s = .next s := by
  simp only [exec_tileOpRetire, execTileOpRetire, ho, h, if_true, event]

/-- With its release done it retires, and does its action unless that was suppressed (R147). -/
theorem tileOpRetire_done (ho : (s.cell s.cur.cell).tileq.find? (·.started) = some o)
    (h : (o.rel && !s.opReady s.cur.cell o.ctx o.task o.seq o.scope) = false) :
    exec .tileOpRetire s = .next (if o.suppressed then s.tileRetired s.cur.cell o
      else (s.tileRetired s.cur.cell o).finishAct s.cur.cell
        { ctx := o.ctx, task := o.task, region := o.region, act := o.act, word := o.word, id := o.id, item := o.id }) := by
  simp only [exec_tileOpRetire, execTileOpRetire, ho, h, Bool.false_eq_true, if_false, event]
  rfl

end

theorem tileOperationsExecute : TileOperationsExecute := by
  intro s
  refine ⟨tileOpStart_busy, fun t w o ht ho => ⟨fun f => tileOpStart_abandons ht ho, tileOpStart_starts ht ho⟩,
    fun o ho => ⟨fun hrel hready => ?held, fun hdone => ?retires⟩⟩
  case held => exact tileOpRetire_held ho (by rw [hrel, hready]; rfl)
  case retires =>
    have hopen : (o.rel && !s.opReady s.cur.cell o.ctx o.task o.seq o.scope) = false := by
      rcases hdone with h | h <;> simp [h]
    have hretire := tileOpRetire_done ho hopen
    refine ⟨fun hsup => ?suppressed, fun hact => ?acts⟩
    case suppressed =>
      rw [hsup] at hretire
      exact hretire
    case acts =>
      rw [hact] at hretire
      exact hretire

/-! ### The copy engine reads (R182 to R184, R277) -/

/-- The copies of a cell in the slots of its engine. -/
def State.activeCopies (s : State) (c : Nat) : List CopyOp := (s.cell c).copyq.filter fun o => o.phase == .active

/-- The copies that may take a slot: none while four have one (R184). -/
def State.copyCands (s : State) (c : Nat) : List CopyOp :=
  if 4 ≤ (s.activeCopies c).length then [] else (s.cell c).copyq.filter (s.copyReady c)

/-- The tenant that the engine's deficit counters choose among those of the candidates (R271). -/
def State.copyChoice (s : State) (c : Nat) : Option (Nat × State) :=
  s.chooseTenant c .copy (((s.copyCands c).map (·.tenant)).eraseDups)

section
variable {s w : State} {o : CopyOp}

/-- A copy chosen takes a slot, charged to its tenant when it begins (R182, R271). -/
theorem copyStart_begins {t : Nat} (ht : s.copyChoice s.cur.cell = some (t, w))
    (ho : (s.copyCands s.cur.cell).find? (·.tenant == t) = some o) :
    exec .copyStart s = .next ((if o.begun then w else w.spend s.cur.cell t .copy o.lay.total).modCopy s.cur.cell o.key
      fun o => { o with phase := .active, begun := true }) := by
  rw [State.copyChoice, State.copyCands, State.activeCopies] at ht
  rw [State.copyCands, State.activeCopies] at ho
  simp only [exec_copyStart, execCopyStart, ht, ho, event]

variable (hnone : s.copyChoice s.cur.cell = none)
include hnone

/-- With none to begin, the next active copy in turn reads a chunk, its tokens drawn (R184, R277). -/
theorem copyStart_reads
    (ho : nextCopy (s.cell s.cur.cell).copyTurn ((s.activeCopies s.cur.cell).filter (s.chunkReady s.cur.cell)) = some o)
    (hdraw : s.draw o.region s.cur.cell o.nextSize = some w) :
    exec .copyStart s = .next ((w.modCell s.cur.cell fun x => { x with copyTurn := o.key }).readChunk s.cur.cell o) := by
  rw [State.copyChoice, State.copyCands, State.activeCopies] at hnone
  rw [State.activeCopies] at ho
  simp only [exec_copyStart, execCopyStart, hnone, ho, hdraw, Option.getD_some, event]

theorem copyStart_idle
    (ho : nextCopy (s.cell s.cur.cell).copyTurn ((s.activeCopies s.cur.cell).filter (s.chunkReady s.cur.cell)) = none) :
    exec .copyStart s = .next s := by
  rw [State.copyChoice, State.copyCands, State.activeCopies] at hnone
  rw [State.activeCopies] at ho
  simp only [exec_copyStart, execCopyStart, hnone, ho, event]

end

/-! ### A chunk at its destination (R183, R191, R193, R198) -/

/-- The state with a new attempt of a chunk's copy: what was refused of it before is forgotten (R193). -/
def State.newAttempt (s : State) (d : Nat) (a : Chunk) : State :=
  s.modCell d fun x => { x with refused := x.refused.filter (!·.1.same a) }

/-- The accepted header of a chunk's copy whose region is torn down (R198). -/
def State.goneHeader (s : State) (d : Nat) (a : Chunk) : Option Chunk := ((s.cell d).header a).filter (s.headerGone d)

/-- The state without an accepted header and its entry, and what that lets go on. -/
def State.dropHeader (s : State) (d : Nat) (h : Chunk) : State :=
  ((s.modCell d fun x => { x with accepted := x.accepted.filter (!·.same h) }).dropSb d h.entry).drainAll d

section
variable {s : State} {src : Place} {d : Nat} {a : Chunk} (hs : s.brings src (.cell d) (.chunk a))
include hs

/-- A chunk that follows a refused one of its attempt is discarded (R193). -/
theorem chunkArrival_discarded (h : ((s.land s.cur.k).cell d).discards a = true) :
    exec .copyChunkArrival s = .next (s.land s.cur.k) := by
  rw [State.brings] at hs
  simp only [exec_copyChunkArrival, execCopyChunkArrival, hs, h, if_true, event]

variable (hnew : ((s.land s.cur.k).cell d).discards a = false)
include hnew

/-- Another enters the inbound buffer, and the inbound side goes on (R183). -/
theorem chunkArrival_buffered (h : ((s.land s.cur.k).newAttempt d a).goneHeader d a = none) :
    exec .copyChunkArrival s = .next ((((s.land s.cur.k).newAttempt d a).bufferChunk d a).drainAll d) := by
  rw [State.brings] at hs
  rw [State.goneHeader, State.newAttempt] at h
  simp only [exec_copyChunkArrival, execCopyChunkArrival, hs, hnew, h, Bool.false_eq_true, if_false, event]
  rfl

/-- One whose accepted copy has lost its region is refused, and the header goes (R198). -/
theorem chunkArrival_gone {h : Chunk} (hgone : ((s.land s.cur.k).newAttempt d a).goneHeader d a = some h) :
    exec .copyChunkArrival s = .next ((((s.land s.cur.k).newAttempt d a).rejectChunk d a 7).dropHeader d h) := by
  rw [State.brings] at hs
  rw [State.goneHeader, State.newAttempt] at hgone
  simp only [exec_copyChunkArrival, execCopyChunkArrival, hs, hnew, hgone, Bool.false_eq_true, if_false, event]
  rfl

/-- It is refused with the trap that its acceptance finds, or with that of an access outside every grant. -/
theorem chunkArrival_refused {h : Chunk} {t : TrapInfo} {z : Bool} (hgone : ((s.land s.cur.k).newAttempt d a).goneHeader d a = some h)
    (ht : ((s.land s.cur.k).newAttempt d a).rejectChunk d a 7 = ((s.land s.cur.k).newAttempt d a).refuseChunk d a (some t) z) :
    exec .copyChunkArrival s = .next ((((s.land s.cur.k).newAttempt d a).refuseChunk d a (some t) z).dropHeader d h) := by
  rw [chunkArrival_gone hs hnew hgone, ht]

end

section
variable {s : State} {d cause : Nat} {a : Chunk}

theorem rejectChunk_fault {k : Nat} (h : s.accept d a = .fault k) :
    s.rejectChunk d a cause = s.refuseChunk d a (some (chunkTrap a k)) false := by
  rw [State.rejectChunk, h]

theorem rejectChunk_foreign (h : s.accept d a = .foreign) :
    s.rejectChunk d a cause = s.refuseChunk d a (some (chunkTrap a 58)) true := by
  rw [State.rejectChunk, h]

theorem rejectChunk_ok {sp : Space} {lo n r : Nat} (h : s.accept d a = .ok sp lo n r) :
    s.rejectChunk d a cause = s.refuseChunk d a (some (chunkTrap a cause)) false := by
  rw [State.rejectChunk, h]

end

/-! ### The destination's answer (R182, R189, R193, R370) -/

/-- The state with a destination's answer taken by the copy of a key at a cell: a fault, the freeze of its engine, or bytes taken, with
the last of which the copy is acknowledged (R182, R193, R370). -/
def State.answered (s : State) (d key : Nat) (o : CopyOp) (f : Option TrapInfo) (z : Bool) (pos : Nat) (fin : Bool) : State :=
  match f with
  | some f =>
    if f.cause = 56 then s.abandonCopy d key pos f
    else if o.isFaulted then s.modCopy d key fun o => { o with pos := min o.pos pos }
    else if z then s.copyFreeze d key pos f else s.copyFault d key pos f
  | none => if z then s.freezeEngine d o pos else s.modCopy d key fun o => { o with acked := o.acked || fin }

/-- The answer of a destination reaches the copy that it names. -/
theorem acknowledgement_answered {s : State} {src : Place} {d n key pos tenant : Nat} {f : Option TrapInfo} {z fin : Bool} {o : CopyOp}
    (hs : s.brings src (.cell d) (.chunkAck n key f z pos fin tenant))
    (ho : ((s.land s.cur.k).cell d).copyq.find? (·.key == key) = some o) :
    exec .copyAcknowledgement s = .next ((s.land s.cur.k).answered d key o f z pos fin) := by
  rw [State.brings] at hs
  simp only [exec_copyAcknowledgement, execCopyAcknowledgement, hs, ho, event, State.answered]
  cases f with
  | none => cases z <;> rfl
  | some f =>
    dsimp only
    split
    · rfl
    · split <;> rfl

/-! ### The end of a copy, and the tokens (R189, R198, R277) -/

/-- A copy that is done leaves with its entries, does its action unless that was suppressed, and the inbound side goes on. -/
theorem copyRetire_done {s : State} {o : CopyOp} (ho : (s.cell s.cur.cell).copyq.find? (s.copyDone s.cur.cell) = some o) :
    exec .copyRetire s = .next ((if o.suppressed then s.dropCopy s.cur.cell o
      else (s.dropCopy s.cur.cell o).finishAct s.cur.cell { ctx := o.ctx, task := o.task, region := o.region, act := o.act, word := o.word,
                                                            id := o.id, item := o.item }).drainAll s.cur.cell) := by
  simp only [exec_copyRetire, execCopyRetire, ho, event]

/-- A bucket whose refill is due gains its rate, its debts first (R277). -/
theorem tokenRefill_due {s : State} {r cell : Nat} {q : Region} (hr : s.region r = some q)
    (hdue : q.refilled.getD cell 0 < s.clock / 1024) (hgrant : q.grants.any (·.cell == cell) = true) :
    exec (.copyTokenRefill r cell) s = .next ((s.repay cell q.tokRate q.debts).1.modRegion r fun y =>
      { y with
        tokens := Assoc.put cell (min y.tokDepth (y.tokens.getD cell 0 + (s.repay cell q.tokRate q.debts).2.1)) y.tokens
        debts := (s.repay cell q.tokRate q.debts).2.2
        refilled := Assoc.put cell (q.refilled.getD cell 0 + 1) y.refilled }) := by
  have hnot : (decide (s.clock / 1024 ≤ q.refilled.getD cell 0) || !q.grants.any (·.cell == cell)) = false := by
    simp [hgrant, hdue]
  simp only [exec_copyTokenRefill, execCopyTokenRefill, hr, hnot, Bool.false_eq_true, if_false, event]

theorem copiesMove : CopiesMove := by
  intro s
  refine ⟨fun t w o ht ho => ?begins, fun o w hnone ho hdraw => ?reads, fun hnone ho => ?idle, fun src d a hs => ?chunk,
    fun src d n key f z pos fin tenant o hs ho => ?answer, fun o ho => ?retires, fun r cell q hr hdue hgrant => ?refill⟩
  case begins => exact copyStart_begins ht ho
  case reads => exact copyStart_reads hnone ho hdraw
  case idle => exact copyStart_idle hnone ho
  case chunk =>
    exact ⟨chunkArrival_discarded hs, chunkArrival_buffered hs, fun h hnew hgone =>
      ⟨fun k hk => chunkArrival_refused hs hnew hgone (rejectChunk_fault hk),
        fun hk => chunkArrival_refused hs hnew hgone (rejectChunk_foreign hk),
        fun sp lo n r hk => chunkArrival_refused hs hnew hgone (rejectChunk_ok hk)⟩⟩
  case answer =>
    have hanswer := acknowledgement_answered hs ho
    refine ⟨fun t hf hcause => ?fault, fun t hf hcause => ?abandoned, fun hf hz => ?freezes, fun hf hz => ?taken⟩
    case fault =>
      rw [hf, State.answered] at hanswer
      refine ⟨fun hfaulted => ?again, fun hfresh hz => ?faults, fun hfresh hz => ?freezesRegion⟩
      case again => rw [hanswer, if_neg hcause, if_pos hfaulted]
      case faults => rw [hanswer, if_neg hcause, hfresh, hz]; rfl
      case freezesRegion => rw [hanswer, if_neg hcause, hfresh, hz]; rfl
    case abandoned => rw [hanswer, hf, State.answered, if_pos hcause]
    case freezes => rw [hanswer, hf, hz]; rfl
    case taken => rw [hanswer, hf, hz]; rfl
  case retires =>
    have hretire := copyRetire_done ho
    refine ⟨fun hsup => ?suppressed, fun hact => ?acts⟩
    case suppressed =>
      rw [hsup] at hretire
      exact hretire
    case acts =>
      rw [hact] at hretire
      exact hretire
  case refill => exact tokenRefill_due hr hdue hgrant

/-- Settles O40: the events of the matrix unit and those of the copy engine. -/
theorem engineEventsActAsStated : Obligations.EngineEventsActAsStated := ⟨tileOperationsExecute, copiesMove⟩

end Sys2Proof.Machine
end

section
/-! PROOFS. The checks of an access in their order, and how one that a lane fails ends it (R155, R166, R169, R206, R370, R392). -/
namespace Sys2Proof.Machine

/-! ### An access that a check ends -/

section
variable {i : Instr} {g : Guard} {s : State} {q : MemReq}

/-- An instruction's effect is the access of its request. -/
theorem Accesses.effect (hi : Accesses i g s q) : Effect i g s (s.access q) := by
  obtain ⟨body, hexec, hbody⟩ := hi
  exact hbody ▸ Effect.of_issue (hexec s) rfl

/-- The trap of a lane is taken, the tile of a consuming access published (R155, R166). -/
theorem access_of_trap {t : TrapInfo} (h : laneFault s q = some (.trap t)) :
    s.access q = .ok ((s.publish s.cur.cell q t).takeTrap s.cur.cell s.cur.ctx t) := by
  rw [laneFault] at h
  simp only [State.access, h]

/-- A key of another tenant ends the access as a freeze (R370). -/
theorem access_of_freeze {o : FrzOrigin} {t : TrapInfo} (h : laneFault s q = some (.freeze o t)) :
    s.access q = .error (.freeze o t) := by
  rw [laneFault] at h
  simp only [State.access, h]

/-- How an instruction ends whose request a check of its lanes fails. -/
def StopsAtCheck (i : Instr) (g : Guard) (s : State) (q : MemReq) : Prop :=
  (∀ t, laneFault s q = some (.trap t) → Becomes i g s ((s.publish s.cur.cell q t).takeTrap s.cur.cell s.cur.ctx t))
    ∧ (∀ o t, laneFault s q = some (.freeze o t) → Becomes i g s (s.takeFreeze s.cur.cell s.cur.ctx o t))

theorem Accesses.stopsAtCheck (hi : Accesses i g s q) : StopsAtCheck i g s q := by
  refine ⟨fun t ht => hi.becomes (access_of_trap ht), fun o t ht => ?freeze⟩
  have heffect := hi.effect
  rw [access_of_freeze ht] at heffect
  exact heffect

end

/-! ### The checks of one lane of a local access (R166) -/

/-- Whether an address of an access through s2 lies below the stack limit (R76). -/
def MemReq.belowStack (q : MemReq) (y : Ctx) (e : Word) : Bool := q.spBase && q.sp == .loc && e.toNat < y.xsl.toNat % 2 ^ 21

section
variable {s : State} {c i : Nat} {q : MemReq} {e : Word}

theorem laneCheck_misaligned (halign : e.toNat % q.align ≠ 0) : s.laneCheck c i q e = some (.trap (misaligned q.wr e)) := by
  rw [State.laneCheck, if_pos halign]

section
variable (halign : e.toNat % q.align = 0) (hloc : isLocal q = true)
include halign hloc

/-- An aligned lane of a local space goes on to the checks after alignment. -/
theorem laneCheck_aligned :
    s.laneCheck c i q e =
      if !s.grantCheck c i q.sp e.toNat q.len q.wr then some (.trap (accessFault q.wr e))
      else if q.belowStack s.me e then some (.trap { cause := 27, val := e, info := 0 })
      else match s.laneTile c i q e with
        | some t => some (.trap t)
        | none => s.keyCheck c q.sp e.toNat q.len (s.tenantOf (s.ctxRegion c i)) e := by
  have hspace : (q.sp == .glb || q.sp == .peer) = false := by
    rw [isLocal] at hloc
    rw [← Bool.not_inj_iff, Bool.not_or]
    exact hloc
  rw [State.laneCheck, if_neg (Decidable.not_not.mpr halign), hspace]
  rfl

theorem laneCheck_ungranted (hgrant : s.grantCheck c i q.sp e.toNat q.len q.wr = false) :
    s.laneCheck c i q e = some (.trap (accessFault q.wr e)) := by
  rw [laneCheck_aligned halign hloc, hgrant]; rfl

variable (hgrant : s.grantCheck c i q.sp e.toNat q.len q.wr = true)
include hgrant

theorem laneCheck_belowStack (hbelow : q.belowStack s.me e = true) :
    s.laneCheck c i q e = some (.trap { cause := 27, val := e, info := 0 }) := by
  rw [laneCheck_aligned halign hloc, hgrant, hbelow]; rfl

variable (habove : q.belowStack s.me e = false)
include habove

theorem laneCheck_tile {t : TrapInfo} (htile : s.laneTile c i q e = some t) : s.laneCheck c i q e = some (.trap t) := by
  rw [laneCheck_aligned halign hloc, hgrant, habove, htile]; rfl

theorem laneCheck_key (htile : s.laneTile c i q e = none) :
    s.laneCheck c i q e = s.keyCheck c q.sp e.toNat q.len (s.tenantOf (s.ctxRegion c i)) e := by
  rw [laneCheck_aligned halign hloc, hgrant, habove, htile]; rfl

end

/-! ### The page of a `.glb` lane follows its own checks (R169, R206, R392) -/

/-- The access of a request up to a lane. -/
def State.accUpTo (s : State) (q : MemReq) (k : Nat) : Acc := { s.newAcc q with lanes := (s.newAcc q).lanes.take (k + 1) }

section
variable {k : Nat}

theorem reqCheck_of_laneCheck {f : Stop} (h : s.laneCheck s.cur.cell s.cur.ctx q (q.eas.getD k 0) = some f) :
    s.reqCheck q k = some f := by
  rw [State.reqCheck, h]; rfl

variable (h : s.laneCheck s.cur.cell s.cur.ctx q (q.eas.getD k 0) = none)
include h

theorem reqCheck_noPage (hsp : q.sp ≠ .glb) : s.reqCheck q k = none := by
  rw [State.reqCheck, h, beq_false_of_ne hsp]; rfl

theorem reqCheck_page (hsp : q.sp = .glb) : s.reqCheck q k = (s.issueTrap (s.accUpTo q k)).map .trap := by
  rw [State.reqCheck, h, hsp]; rfl

end

end

/-! ### The trap of a translated access by its pieces (R206, R392) -/

/-- The effective address of the lane of a piece. -/
def Acc.pieceAddr (a : Acc) (p : Piece) : Word := ((a.lanes[p.lane]?).map fun l => word l.addr).getD a.firstAddr

/-- Whether a piece lies in host memory that its access may not reach: an atomic, or one of a tenant whose virtual function is not
in RUN (R334, R392). -/
def State.hostClosed (s : State) (a : Acc) (p : Piece) : Bool := isHost p.home && (a.isAtomic || !s.vfRuns (s.asidTenant a.asid))

/-- The trap of one piece, with the kind of the access's first page. -/
def State.pieceTrap (s : State) (a : Acc) (kind : PKind) (p : Piece) : Option TrapInfo :=
  if p.kind ≠ kind then some { cause := 29, val := a.pieceAddr p, info := 0 }
  else if s.hostClosed a p then some { cause := if a.op.need.2 then 7 else 5, val := a.pieceAddr p, info := 0 }
  else none

section
variable {s : State} {a : Acc} {kind : PKind} {p : Piece}

theorem hostClosed_iff :
    s.hostClosed a p = true ↔ isHost p.home = true ∧ (a.isAtomic = true ∨ s.vfRuns (s.asidTenant a.asid) = false) := by
  simp [State.hostClosed]

/-- The trap of a translated access is that of its first piece that has one. -/
theorem pageTrap_cons (s : State) (a : Acc) (p : Piece) (ps : List Piece) :
    s.pageTrap a (p :: ps) = (p :: ps).findSome? (s.pieceTrap a p.kind) := rfl

theorem of_pieceTrap_eq_some {t : TrapInfo} (h : s.pieceTrap a kind p = some t) :
    t.val = a.pieceAddr p
      ∧ ((p.kind ≠ kind ∧ t.cause = 29) ∨ (s.hostClosed a p = true ∧ t.cause = if a.op.need.2 then 7 else 5)) := by
  rw [State.pieceTrap] at h
  split at h
  case isTrue hkind =>
    obtain rfl := Option.some.inj h
    exact ⟨rfl, .inl ⟨hkind, rfl⟩⟩
  case isFalse =>
    split at h
    case isTrue hhost =>
      obtain rfl := Option.some.inj h
      exact ⟨rfl, .inr ⟨hhost, rfl⟩⟩
    case isFalse => exact nomatch h

theorem of_pieceTrap_eq_none (h : s.pieceTrap a kind p = none) : p.kind = kind ∧ s.hostClosed a p ≠ true := by
  rw [State.pieceTrap] at h
  split at h
  case isTrue => exact nomatch h
  case isFalse hkind =>
    split at h
    case isTrue => exact nomatch h
    case isFalse hhost => exact ⟨Decidable.not_not.mp hkind, hhost⟩

end

/-- Settles O12: each access stops at the first lane that a check fails, and the checks come in their order. -/
theorem accessChecksComeInOrder : Obligations.AccessChecksComeInOrder := by
  refine ⟨fun s => ⟨fun x r hr => ?scalar, fun x r hr => ?vector, fun x => ?lanes⟩, fun s q e => ?lane, fun s q k => ?page,
    fun s a p ps => ?pieces⟩
  case scalar => exact ⟨(accesses_ld hr).stopsAtCheck, (accesses_st hr).stopsAtCheck, (accesses_ldc hr).stopsAtCheck⟩
  case vector => exact ⟨(accesses_vld hr).stopsAtCheck, (accesses_vst hr).stopsAtCheck, (accesses_vldc hr).stopsAtCheck⟩
  case lanes => exact ⟨(accesses_vgat x).stopsAtCheck, (accesses_vsca x).stopsAtCheck⟩
  case lane =>
    exact ⟨laneCheck_misaligned, laneCheck_ungranted, laneCheck_belowStack, fun _ ha hl hg hb ht => laneCheck_tile ha hl hg hb ht,
      laneCheck_key⟩
  case page => exact ⟨fun _ => reqCheck_of_laneCheck, reqCheck_noPage, reqCheck_page⟩
  case pieces =>
    rw [pageTrap_cons]
    refine ⟨fun t ht => ?trap, fun hnone q hq => ?none⟩
    case trap =>
      obtain ⟨q, hq, htrap⟩ := List.exists_of_findSome?_eq_some ht
      obtain ⟨hval, hcause⟩ := of_pieceTrap_eq_some htrap
      exact ⟨q, hq, hval, hcause.imp_right fun ⟨hhost, hcode⟩ => ⟨hostClosed_iff.mp hhost, hcode⟩⟩
    case none =>
      obtain ⟨hkind, hhost⟩ := of_pieceTrap_eq_none (List.findSome?_eq_none_iff.mp hnone q hq)
      exact ⟨hkind, mt hostClosed_iff.mpr hhost⟩

end Sys2Proof.Machine
end

section
/-! PROOFS. The instructions that read state (R174, R187, R197, R266, R283, R306, R322, R328, R353, R364, R379, R395, R396). -/
namespace Sys2Proof.Machine

/-! ### From an instruction's effect to the word that it writes -/

section
variable {i : Instr} {g : Guard} {s t : State} {d : SReg} {v w : Word}

/-- An instruction whose effect is to write a word leaves the machine as given but for that word. -/
theorem Effect.writes (h : Effect i g s (t.update fun y => y.ws d w)) (hw : w = v) : Writes i g s t d v := hw ▸ h

theorem Effect.traps {f : TrapInfo} (h : Effect i g s (.error (.trap f))) : Traps i g s f := h

end

/-! ### Words that the model computes otherwise than the statement -/

/-- The cycles of a task in its own context run from its start (R283). -/
theorem tcycles_of_task {s : State} {c i : Nat} (hi : i < 8) {t : Task} (ht : (s.ctxAt c i).task = some t) :
    s.tcycles c i = s.clock - t.start := by
  have h9 : i ≠ 9 := by omega
  have h8 : i ≠ 8 := by omega
  simp [State.tcycles, h9, h8, ht]

/-- A count of a channel, or zero for an unusable one (R395). -/
theorem poll_eq (s : State) (w : Word) (f : Channel → Nat) :
    s.poll w f = match s.usable w with
      | some q => word (f q.2)
      | none => 0 := by
  rw [State.poll]
  cases s.usable w <;> rfl

/-- Settles O16: each reading instruction's effect is to write its word. -/
theorem statusReadsWriteTheirWord : Obligations.StatusReadsWriteTheirWord := by
  intro s
  refine ⟨fun a => ?sbstat, fun a => ?tid, fun a => ?portst, fun a => ⟨fun h => ?cstatBad, fun hw hhub => ?cstat⟩,
    fun a => ⟨fun h => ?poolstNone, fun q hq => ?poolst⟩, fun a h => ?htab, fun a h => ?budget, fun a h => ?bcfg, fun a h => ?rcfg,
    fun a h => ?ring, fun a h => ⟨fun hk => ?frz, ?lkrot, fun hk => ?keyset⟩, fun a h => ⟨?tail, ?head, ?done⟩⟩
  case sbstat =>
    refine (Effect.of_issue (exec_sbstat a s) rfl).writes ?_
    cases a.sel with
    | status n => match n with | 0 | 1 | 2 | 3 | 4 => rfl
    | entry n => rfl
  case tid =>
    refine (Effect.of_issue (exec_tid a s) rfl).writes ?_
    obtain ⟨g, d, sel⟩ := a
    cases s.me.task with
    | none => exact ite_self _
    | some t => match sel with | 0 | 1 | 2 | 3 | 4 | 5 | 6 => rfl
  case portst => exact (Effect.of_issue (exec_portst a s) rfl).writes rfl
  case cstatBad =>
    have heffect := Effect.of_issue (exec_cstat a s) rfl
    dsimp only at heffect
    rw [if_pos (by simpa using h)] at heffect
    exact heffect.traps
  case cstat =>
    have heffect := Effect.of_issue (exec_cstat a s) rfl
    dsimp only at heffect
    rw [if_neg (by simp; omega)] at heffect
    refine heffect.writes ?_
    cases s.hubSlot ((s.me.rs a.a).toNat % 2 ^ 10) (slice (s.me.rs a.a).toNat 10 4) <;> rfl
  case poolstNone =>
    have heffect := Effect.of_issue (exec_poolst a s) rfl
    dsimp only at heffect
    rw [desCell, desPool, h] at heffect
    exact heffect.traps
  case poolst =>
    have heffect := Effect.of_issue (exec_poolst a s) rfl
    dsimp only at heffect
    rw [desCell, desPool, hq] at heffect
    refine heffect.writes (congrArg word ?_)
    by_cases hown : q.owner = s.ctxRegion s.cur.cell s.cur.ctx
    · simp only [hown, decide_true, Bool.not_true, Bool.false_eq_true, if_false, if_true]
      generalize a.sel = k
      match k with | 0 | 1 | 2 | 3 | 4 | 5 | 6 => rfl
    · simp only [hown, decide_false, Bool.not_false, if_true, if_false]
      generalize a.sel = k
      match k with | 0 | 1 | 2 | 3 | 4 | 5 | 6 => rfl
  case htab =>
    refine (Effect.of_issue (exec_htabRd a s) (decide_eq_true h)).writes ?_
    cases Assoc.get? a.cls.val (s.cell s.cur.cell).htab <;> rfl
  case budget =>
    refine (Effect.of_issue (exec_budgetRd a s) (decide_eq_true h)).writes ?_
    cases ht : s.me.task with
    | none => rfl
    | some t => rw [tcycles_of_task h ht]
  case bcfg => exact (Effect.of_issue (exec_bcfgRd a s) (decide_eq_true h)).writes rfl
  case rcfg => exact (Effect.of_issue (exec_rcfgRd a s) (decide_eq_true h)).writes rfl
  case ring =>
    refine (Effect.of_issue (exec_trapRing a s) (decide_eq_true h)).writes ?_
    cases s.entryAt (s.me.rs a.a) <;> rfl
  case frz =>
    refine (Effect.of_issue (exec_frzRd a s) (decide_eq_true h)).writes ?_
    rw [if_neg (Nat.not_le.mpr hk), ite_not]
  case lkrot => exact (Effect.of_issue (exec_lkrotSt a s) (decide_eq_true h)).writes rfl
  case keyset =>
    refine (Effect.of_issue (exec_keysetSt a s) (decide_eq_true h)).writes ?_
    rw [if_neg (Nat.not_lt.mpr hk)]
    cases (s.keySlot (s.me.rs a.a).toNat).st <;> rfl
  case tail => exact (Effect.of_issue (exec_hpollTail a s) (decide_eq_true h)).writes (poll_eq ..)
  case head => exact (Effect.of_issue (exec_hpollHead a s) (decide_eq_true h)).writes (poll_eq ..)
  case done => exact (Effect.of_issue (exec_hpollDone a s) (decide_eq_true h)).writes (poll_eq ..)

end Sys2Proof.Machine
end

section
/-! PROOFS. The table of one tile's events (R154, R155). -/
namespace Sys2Proof.Machine

/-! ### One event of a tile, by its state -/

/-- The tile after a consuming read or drop has counted it down: published, and Draining with its last read (R155). -/
def Tile.countedDown (t : Tile) : Tile :=
  { t with published := true, count := t.count - 1, st := if t.count ≤ 1 then .draining else .consuming }

/-- The tile as a handle operation leaves its handle: published, if another context than that of the grant issues it (R154). -/
def Tile.seenBy (t : Tile) (mine : Bool) : Tile := if mine then t else { t with published := true }

section
variable {t : Tile} {mine : Bool}

/-- A free tile refuses every event. -/
theorem Tile.on_free (n : Nat) (h : t.st = .free) :
    t.on .write true mine = (t, some 50) ∧ t.on .read true mine = (t, some 50) ∧ t.on .consume true mine = (t, some 49)
      ∧ t.on .drop true mine = (t, some 49) ∧ t.on (.seal n) true mine = (t, some 50) ∧ t.on .count true mine = (t, some 50) := by
  simp [Tile.on, h]

/-- An operation whose handle has another tag takes the fault of a free tile. -/
theorem Tile.on_otherTag (t : Tile) (n : Nat) (mine : Bool) :
    t.on .drop false mine = (t, some 49) ∧ t.on (.seal n) false mine = (t, some 50) ∧ t.on .count false mine = (t, some 50) := by
  simp [Tile.on]

/-! ### Plain accesses -/

theorem Tile.on_read (h : t.st ≠ .free) : t.on .read true mine = (t, none) := by
  simp [Tile.on, TileEv.isHandleOp, h]

theorem Tile.on_write_early (h : t.st = .unsealed ∨ t.st = .held) : t.on .write true mine = (t, none) := by
  rcases h with h | h <;> simp [Tile.on, TileEv.isHandleOp, h]

theorem Tile.on_write_late (h : t.st = .consuming ∨ t.st = .draining) : t.on .write true mine = (t, some 51) := by
  rcases h with h | h <;> simp [Tile.on, TileEv.isHandleOp, h]

/-! ### Consuming reads and drops -/

/-- On a tile with reads left each counts it down. -/
theorem Tile.on_counts (h : t.st = .held ∨ t.st = .consuming) :
    t.on .consume true mine = (t.countedDown, none) ∧ t.on .drop true mine = (t.countedDown, none) := by
  rcases h with h | h <;> cases mine <;> simp [Tile.on, TileEv.isHandleOp, Tile.countedDown, h]

/-- On one not sealed yet each publishes the handle and faults. -/
theorem Tile.on_counts_unsealed (h : t.st = .unsealed) :
    t.on .consume true mine = ({ t with published := true }, some 52)
      ∧ t.on .drop true mine = ({ t with published := true }, some 52) := by
  cases mine <;> simp [Tile.on, TileEv.isHandleOp, h]

/-- On one without reads left each faults. -/
theorem Tile.on_counts_draining (h : t.st = .draining) :
    t.on .consume true mine = (t, some 49) ∧ t.on .drop true mine = (t.seenBy mine, some 49) := by
  cases mine <;> simp [Tile.on, TileEv.isHandleOp, Tile.seenBy, h]

/-! ### Seals and counts -/

theorem Tile.on_count (h : t.st ≠ .free) : t.on .count true mine = (t.seenBy mine, none) := by
  cases mine <;> simp [Tile.on, TileEv.isHandleOp, Tile.seenBy, h]

/-- A seal passes on an unsealed tile, for the context of the grant, before the handle is published. -/
theorem Tile.on_seal_passes (n : Nat) (h : t.st = .unsealed) (hpub : t.published = false) :
    t.on (.seal n) true true = ({ t with st := .held, count := n }, none) := by
  simp [Tile.on, h, hpub]

/-- Any other seal of a granted tile faults. -/
theorem Tile.on_seal_refused (n : Nat) (hst : t.st ≠ .free) (h : t.st = .unsealed → mine = false ∨ t.published = true) :
    t.on (.seal n) true mine = (t.seenBy mine, some 52) := by
  cases hs : t.st
  case free => exact absurd hs hst
  case unsealed =>
    rcases h hs with rfl | hpub
    · simp [Tile.on, TileEv.isHandleOp, Tile.seenBy, hs]
    · cases mine <;> simp [Tile.on, TileEv.isHandleOp, Tile.seenBy, hs, hpub]
  all_goals cases mine <;> simp [Tile.on, TileEv.isHandleOp, Tile.seenBy, hs]

end

/-- Settles O18: the rows of the table, by the tile's state. -/
theorem tileEventsFollowTheirTable : Obligations.TileEventsFollowTheirTable := by
  intro t n mine
  refine ⟨Tile.on_free n, fun h => ?unsealed, fun h => ?held, fun h => ?consuming, fun h => ?draining, Tile.on_otherTag t n mine⟩
  case unsealed =>
    have hst : t.st ≠ .free := by simp [h]
    obtain ⟨hconsume, hdrop⟩ := Tile.on_counts_unsealed (mine := mine) h
    refine ⟨Tile.on_write_early (.inl h), Tile.on_read hst, hconsume, hdrop, ?_, fun hlate => Tile.on_seal_refused n hst fun _ => hlate,
      Tile.on_count hst⟩
    rintro rfl hpub
    exact Tile.on_seal_passes n h hpub
  case held =>
    have hst : t.st ≠ .free := by simp [h]
    obtain ⟨hconsume, hdrop⟩ := Tile.on_counts (mine := mine) (.inl h)
    exact ⟨Tile.on_write_early (.inr h), Tile.on_read hst, hconsume, hdrop, Tile.on_seal_refused n hst (by simp [h]), Tile.on_count hst⟩
  case consuming =>
    have hst : t.st ≠ .free := by simp [h]
    obtain ⟨hconsume, hdrop⟩ := Tile.on_counts (mine := mine) (.inr h)
    exact ⟨Tile.on_write_late (.inl h), Tile.on_read hst, hconsume, hdrop, Tile.on_seal_refused n hst (by simp [h]), Tile.on_count hst⟩
  case draining =>
    have hst : t.st ≠ .free := by simp [h]
    obtain ⟨hconsume, hdrop⟩ := Tile.on_counts_draining (mine := mine) h
    exact ⟨Tile.on_write_late (.inr h), Tile.on_read hst, hconsume, congrArg Prod.snd hdrop, Tile.on_seal_refused n hst (by simp [h]),
      Tile.on_count hst⟩

end Sys2Proof.Machine
end

section
/-! PROOFS. The instructions of tiles and pools (R151 to R160, R171 to R173). -/
namespace Sys2Proof.Machine

/-! ### Requests for tiles (R153, R157, R158, R171) -/

theorem desPlace_eq (w : Word) :
    desPlace w = if bit w.toNat 13 then .link (slice w.toNat 14 4) else .cell (slice w.toNat 0 10) := by
  rw [desPlace, desLink]
  cases bit w.toNat 13 <;> rfl

/-- Whether a request is a pool request fault: its designator is no pool's that the context may ask, its read count does not fit its
field, or it leaves the count of a tile across a link open. -/
def State.requestBad (s : State) (w reads : Word) : Prop :=
  s.designatorBad (s.tenantOf (s.ctxRegion s.cur.cell s.cur.ctx)) w = true ∨ 255 < reads.toNat
    ∨ (reads.toNat = 0 ∧ bit w.toNat 13 = true)

/-- The request of the executing context for a tile. -/
def State.poolReq (s : State) (reads : Word) : PoolReq where
  cell := s.cur.cell
  ctx := s.cur.ctx
  task := s.ctxTask s.cur.cell s.cur.ctx
  region := s.ctxRegion s.cur.cell s.cur.ctx
  reads := reads.toNat
  link := none
  tenant := s.tenantOf (s.ctxRegion s.cur.cell s.cur.ctx)

section
variable {i : Instr} {g : Guard} {s : State} {d : SReg} {try_ : Option PReg} {w reads : Word}

theorem requestBad_iff :
    (s.designatorBad (s.tenantOf (s.ctxRegion s.cur.cell s.cur.ctx)) w || decide (255 < reads.toNat)
      || (decide (reads.toNat = 0) && bit w.toNat 13)) = true ↔ s.requestBad w reads := by
  simp [State.requestBad, or_assoc]

theorem allocate_bad (h : s.requestBad w reads) : s.allocate d try_ w reads = .error (.trap (poolFault w reads.toNat)) := by
  rw [State.allocate, if_pos (requestBad_iff.mpr h)]; rfl

/-- A good request is on its way to the controller, and its context waits. -/
theorem allocate_good (h : ¬ s.requestBad w reads) :
    s.allocate d try_ w reads = .ok ((s.send (.cell s.cur.cell)
      (if bit w.toNat 13 then .link (slice w.toNat 14 4) else .cell (slice w.toNat 0 10))
      (.talloc (slice w.toNat 10 3) (slice w.toNat 0 10) (s.poolReq reads) try_.isSome)).holds
        (.talloc try_ d w reads.toNat false)) := by
  rw [State.allocate, if_neg (mt requestBad_iff.mp h), desPlace_eq]; rfl

/-- What an instruction does whose effect is such a request. -/
theorem Effect.asks (h : Effect i g s (s.allocate d try_ w reads)) :
    (s.requestBad w reads → Traps i g s (poolFault w reads.toNat))
      ∧ (¬ s.requestBad w reads → Becomes i g s ((s.send (.cell s.cur.cell)
        (if bit w.toNat 13 then .link (slice w.toNat 14 4) else .cell (slice w.toNat 0 10))
        (.talloc (slice w.toNat 10 3) (slice w.toNat 0 10) (s.poolReq reads) try_.isSome)).holds
          (.talloc try_ d w reads.toNat false))) := by
  refine ⟨fun hbad => ?bad, fun hgood => ?good⟩
  case bad =>
    rw [allocate_bad hbad] at h
    exact h.traps
  case good =>
    rw [allocate_good hgood] at h
    exact h.becomes

end

theorem tileRequestsReachTheirController : TileRequestsReachTheirController := by
  intro s
  refine ⟨fun x h8 => ?talloc, fun x => ?try_⟩
  case talloc => exact (Effect.of_issue (exec_talloc x s) (decide_eq_true h8)).asks
  case try_ => exact (Effect.of_issue (exec_tallocTry x s) rfl).asks

/-! ### Handle operations (R155, R157, R159, R172) -/

/-- A context with the answer of a handle operation in its destination, where the operation has one. -/
def Ctx.answered (y : Ctx) (d : Option SReg) (n : Nat) : Ctx :=
  match d with
  | some d => y.ws d (word n)
  | none => y

section
variable {i : Instr} {g : Guard} {s : State} {kind n : Nat} {h : Word} {d : Option SReg}

theorem handleIssue_malformed (hform : hFormed h = false) : s.handleIssue kind h n d = .error (.trap (poolFault h 0)) := by
  rw [State.handleIssue, hform]; rfl

/-- On a tile of the own cell the operation has its effect at once, or traps as it fails. -/
theorem handleIssue_own (hform : hFormed h = true) (hcell : hCell h = s.cur.cell) :
    s.handleIssue kind h n d = match (s.handleAt s.cur.cell kind h n s.cur.cell s.cur.ctx).2.2 with
      | some t => .ok ((s.handleAt s.cur.cell kind h n s.cur.cell s.cur.ctx).1.takeTrap s.cur.cell s.cur.ctx t)
      | none => (s.handleAt s.cur.cell kind h n s.cur.cell s.cur.ctx).1.update fun y =>
          y.answered d (s.handleAt s.cur.cell kind h n s.cur.cell s.cur.ctx).2.1 := by
  rw [State.handleIssue, hform, if_pos hcell]; rfl

/-- To the tile of another cell it is sent, and its context waits. -/
theorem handleIssue_sent (hform : hFormed h = true) (hcell : hCell h ≠ s.cur.cell) :
    s.handleIssue kind h n d = .ok ((s.send (.cell s.cur.cell) (.cell (hCell h)) (.handleOp kind h n s.cur.cell s.cur.ctx
      (s.ctxTask s.cur.cell s.cur.ctx) (s.tenantOf (s.ctxRegion s.cur.cell s.cur.ctx)))).holds (.handle d)) := by
  rw [State.handleIssue, hform, if_neg hcell]; rfl

/-- How an instruction ends that is a handle operation. -/
def ActsOnTile (i : Instr) (g : Guard) (s : State) (kind : Nat) (h : Word) (n : Nat) (d : Option SReg) : Prop :=
  let r := s.handleAt s.cur.cell kind h n s.cur.cell s.cur.ctx
  (hFormed h = false → Traps i g s (poolFault h 0))
    ∧ (hFormed h = true → hCell h = s.cur.cell →
      (∀ t, r.2.2 = some t → Becomes i g s (r.1.takeTrap s.cur.cell s.cur.ctx t))
      ∧ (r.2.2 = none → Becomes i g s (r.1.modMe fun y => (y.answered d r.2.1).retire)))
    ∧ (hFormed h = true → hCell h ≠ s.cur.cell → Becomes i g s ((s.send (.cell s.cur.cell) (.cell (hCell h)) (.handleOp kind h n
        s.cur.cell s.cur.ctx (s.ctxTask s.cur.cell s.cur.ctx) (s.tenantOf (s.ctxRegion s.cur.cell s.cur.ctx)))).holds (.handle d)))

theorem Effect.actsOnTile (he : Effect i g s (s.handleIssue kind h n d)) : ActsOnTile i g s kind h n d := by
  refine ⟨fun hform => ?malformed, fun hform hcell => ⟨fun t ht => ?fails, fun hnone => ?passes⟩, fun hform hcell => ?sent⟩
  case malformed =>
    rw [handleIssue_malformed hform] at he
    exact he.traps
  case fails =>
    rw [handleIssue_own hform hcell, ht] at he
    exact he.becomes
  case passes =>
    rw [handleIssue_own hform hcell, hnone] at he
    exact he.becomes
  case sent =>
    rw [handleIssue_sent hform hcell] at he
    exact he.becomes

end

/-- A seal with a read count in its field is a handle operation; another is a fault (R172). -/
theorem tseal_acts (s : State) (x : ArgABi) :
    let n := (s.me.srcB x.b).toNat
    (n = 0 ∨ 255 < n → Traps (.tseal x) x.g s (poolFault (s.me.rs x.a) 0))
      ∧ (n ≠ 0 → n ≤ 255 → ActsOnTile (.tseal x) x.g s 0 (s.me.rs x.a) n none) := by
  have heffect := Effect.of_issue (exec_tseal x s) rfl
  dsimp only at heffect
  refine ⟨fun hbad => ?bad, fun hpos hmax => ?good⟩
  case bad =>
    rw [if_pos (by simpa using hbad)] at heffect
    exact heffect.traps
  case good =>
    rw [if_neg (by simp; omega)] at heffect
    exact heffect.actsOnTile

theorem handleOperationsActOnTheirTile : HandleOperationsActOnTheirTile := by
  intro s
  refine ⟨tseal_acts s, fun x => ?tdrop, fun x => ?tcount⟩
  case tdrop => exact (Effect.of_issue (exec_tdrop x s) rfl).actsOnTile
  case tcount => exact (Effect.of_issue (exec_tcount x s) rfl).actsOnTile

/-! ### Pools (R173) -/

theorem poolsAreConfigured : PoolsAreConfigured := by
  intro s x h9
  have heffect := Effect.of_issue (exec_poolcfg x s) (decide_eq_true h9)
  dsimp only at heffect
  refine ⟨fun hst => ?fails, fun hst => ?configured⟩
  case fails =>
    rw [if_neg hst] at heffect
    exact heffect.writes rfl
  case configured =>
    rw [if_pos hst, hst] at heffect
    exact heffect.writes rfl

/-- Settles O19: requests for tiles, handle operations, and the configuration of pools. -/
theorem tileInstructionsAct : Obligations.TileInstructionsAct :=
  ⟨tileRequestsReachTheirController, handleOperationsActOnTheirTile, poolsAreConfigured⟩

end Sys2Proof.Machine
end

section
/-! PROOFS. The events of pools and tiles (R151, R155, R158 to R160, R163, R165, R175). -/
namespace Sys2Proof.Machine

/-! ### Requests at their controller (R151, R158 to R160) -/

/-- The state with the controller's refusal on its way, as a fault or as no tile. -/
def State.refuse (s : State) (c pool : Nat) (r : PoolReq) (fault : Bool) : State :=
  s.send (.cell c) r.place (.grant pool r none fault)

/-- The state with a request in the queue of its pool. -/
def State.enqueue (s : State) (c pool : Nat) (p : Pool) (r : PoolReq) : State :=
  s.modCell c fun x => { x with pools := Assoc.put pool { p with queue := p.queue ++ [r] } x.pools }

section
variable {s : State} {src : Place} {c pool n : Nat} {p : Pool} {r : PoolReq} {try_ : Bool}
  (hs : s.brings src (.cell c) (.talloc pool n r try_))
include hs

theorem tallocRequest_noPool (hp : Assoc.get? pool ((s.land s.cur.k).cell c).pools = none) :
    exec .tallocRequestArrival s = .next ((s.land s.cur.k).refuse c pool r true) := by
  rw [State.brings] at hs
  simp only [exec_tallocRequestArrival, execTallocRequestArrival, hs, hp, event]
  rfl

variable (hp : Assoc.get? pool ((s.land s.cur.k).cell c).pools = some p)
include hp

/-- What a request does at a pool: it is refused, finds no tile, or queues. -/
theorem tallocRequest_atPool :
    exec .tallocRequestArrival s = .next (
      if !(s.land s.cur.k).poolServes p r then (s.land s.cur.k).refuse c pool r true
      else if try_ && !(p.queue.isEmpty && !p.free.isEmpty) then (s.land s.cur.k).refuse c pool r false
      else ((s.land s.cur.k).enqueue c pool p r).settle c) := by
  rw [State.brings] at hs
  simp only [exec_tallocRequestArrival, execTallocRequestArrival, hs, hp, event]
  split
  · rfl
  · split <;> rfl

theorem tallocRequest_notServed (h : (s.land s.cur.k).poolServes p r = false) :
    exec .tallocRequestArrival s = .next ((s.land s.cur.k).refuse c pool r true) := by
  rw [tallocRequest_atPool hs hp, h]; rfl

variable (hserves : (s.land s.cur.k).poolServes p r = true)
include hserves

theorem tallocRequest_noTile (htry : try_ = true) (h : p.queue ≠ [] ∨ p.free = []) :
    exec .tallocRequestArrival s = .next ((s.land s.cur.k).refuse c pool r false) := by
  have hbusy : (try_ && !(p.queue.isEmpty && !p.free.isEmpty)) = true := by
    rcases h with h | h <;> simp [htry, h]
  rw [tallocRequest_atPool hs hp, hserves, if_pos hbusy]; rfl

theorem tallocRequest_queues (h : try_ = false ∨ p.queue = [] ∧ p.free ≠ []) :
    exec .tallocRequestArrival s = .next (((s.land s.cur.k).enqueue c pool p r).settle c) := by
  have hroom : (try_ && !(p.queue.isEmpty && !p.free.isEmpty)) = false := by
    rcases h with h | ⟨hqueue, hfree⟩
    · simp [h]
    · simp [hqueue, hfree]
  rw [tallocRequest_atPool hs hp, hserves, hroom]; rfl

end

/-- Whether a queued request is the one that a cancel names (R160). -/
def PoolReq.cancelledBy (cell ctx : Nat) (task : Word) (link : Option Nat) (r : PoolReq) : Bool :=
  r.cell == cell && r.ctx == ctx && r.task == task && r.link == link

section
variable {s : State} {src : Place} {c pool n cell ctx tenant : Nat} {task : Word} {link : Option Nat} {p : Pool}
  (hs : s.brings src (.cell c) (.tallocCancel pool n cell ctx task link tenant))
  (hp : Assoc.get? pool ((s.land s.cur.k).cell c).pools = some p)
include hs hp

/-- A cancel takes its request out of the queue, if it stands there, and answers without a tile. -/
theorem tallocCancel_cases :
    exec .tallocCancel s = match p.queue.find? (PoolReq.cancelledBy cell ctx task link) with
      | none => .next (s.land s.cur.k)
      | some r => .next (((s.land s.cur.k).modCell c fun x =>
          { x with pools := Assoc.put pool { p with queue := eraseFirst (PoolReq.cancelledBy cell ctx task link) p.queue } x.pools }).send
            (.cell c) r.place (.grant pool r none false)) := by
  rw [State.brings] at hs
  simp only [exec_tallocCancel, execTallocCancel, hs, hp, event]
  rfl

theorem tallocCancel_gone (h : p.queue.find? (PoolReq.cancelledBy cell ctx task link) = none) :
    exec .tallocCancel s = .next (s.land s.cur.k) := by
  rw [tallocCancel_cases hs hp, h]

theorem tallocCancel_queued {r : PoolReq} (h : p.queue.find? (PoolReq.cancelledBy cell ctx task link) = some r) :
    exec .tallocCancel s = .next (((s.land s.cur.k).modCell c fun x =>
      { x with pools := Assoc.put pool { p with queue := eraseFirst (PoolReq.cancelledBy cell ctx task link) p.queue } x.pools }).send
        (.cell c) r.place (.grant pool r none false)) := by
  rw [tallocCancel_cases hs hp, h]

end

section
variable {s : State} {src : Place} {c pool : Nat} {r : PoolReq} {h : Option Word} {f : Bool}
  (hs : s.brings src (.cell c) (.grant pool r h f))
include hs

/-- The context that waits goes on with the controller's answer (R158, R171). -/
theorem grantReply_served {t : Option PReg} {d : SReg} {w : Word} {q : Nat} {b : Bool}
    (htask : (s.land s.cur.k).ctxTask c r.ctx = r.task)
    (hwait : ((s.land s.cur.k).ctxAt c r.ctx).st = .waiting (.talloc t d w q b)) :
    exec .grantReplyArrival s = .next ((s.land s.cur.k).finishTalloc r h f t d w) := by
  rw [State.brings] at hs
  simp only [exec_grantReplyArrival, execGrantReplyArrival, hs, htask, hwait, beq_self_eq_true, event]

/-- A grant whose task is gone goes back (R160). -/
theorem grantReply_returned {w : Word} (htask : (s.land s.cur.k).ctxTask c r.ctx ≠ r.task) (hgrant : h = some w) :
    exec .grantReplyArrival s = .next
      (((s.land s.cur.k).send (.cell c) src (.handleOp 3 w 0 c r.ctx r.task r.tenant)).frBump r.region c 8 1) := by
  rw [State.brings] at hs
  simp only [exec_grantReplyArrival, execGrantReplyArrival, hs, hgrant, beq_false_of_ne htask, event]

end

theorem controllersServeInTurn : ControllersServeInTurn := by
  intro s src c pool n r try_
  refine ⟨fun hs => ⟨tallocRequest_noPool hs, fun p hp => ⟨tallocRequest_notServed hs hp, fun hserves =>
      ⟨tallocRequest_noTile hs hp hserves, tallocRequest_queues hs hp hserves⟩⟩⟩,
    fun p cell ctx task link tenant hs hp => ⟨tallocCancel_gone hs hp, tallocCancel_queued hs hp⟩,
    fun h f hs => ⟨fun t d w q b => grantReply_served hs, fun w => grantReply_returned hs⟩⟩

/-! ### Handle operations at their tile (R155, R159, R175) -/

section
variable {s : State} {src : Place} {c kind n cell i tenant : Nat} {h task : Word}
  (hs : s.brings src (.cell c) (.handleOp kind h n cell i task tenant))
include hs

theorem handleOperation_returns (hkind : kind = 3) : exec .handleOperationArrival s = .next ((s.land s.cur.k).returnTile c h) := by
  rw [State.brings] at hs
  simp only [exec_handleOperationArrival, execHandleOperationArrival, hs, hkind, if_true, event]

variable (hkind : kind ≠ 3)
include hkind

/-- With its task gone the operation is applied all the same. -/
theorem handleOperation_taskGone (htask : (s.land s.cur.k).ctxTask cell i ≠ task) :
    exec .handleOperationArrival s = .next ((s.land s.cur.k).handleAt c kind h n cell i).1 := by
  rw [State.brings] at hs
  simp only [exec_handleOperationArrival, execHandleOperationArrival, hs, hkind, if_false, beq_false_of_ne htask, event]

variable {d : Option SReg} (htask : (s.land s.cur.k).ctxTask cell i = task)
  (hwait : ((s.land s.cur.k).ctxAt cell i).st = .waiting (.handle d))
include htask hwait

theorem handleOperation_fails {t : TrapInfo} (ht : ((s.land s.cur.k).handleAt c kind h n cell i).2.2 = some t) :
    exec .handleOperationArrival s = .next (((s.land s.cur.k).handleAt c kind h n cell i).1.takeTrap cell i t) := by
  rw [State.brings] at hs
  simp only [exec_handleOperationArrival, execHandleOperationArrival, hs, hkind, if_false, htask, hwait, beq_self_eq_true, ht, event]

theorem handleOperation_answers (hnone : ((s.land s.cur.k).handleAt c kind h n cell i).2.2 = none) :
    exec .handleOperationArrival s = .next (((s.land s.cur.k).handleAt c kind h n cell i).1.modCtx cell i fun x =>
      { x.answered d ((s.land s.cur.k).handleAt c kind h n cell i).2.1 with st := .running }.retire) := by
  rw [State.brings] at hs
  simp only [exec_handleOperationArrival, execHandleOperationArrival, hs, hkind, if_false, htask, hwait, beq_self_eq_true, hnone, event]
  rfl

end

theorem handleOperationsAnswer : HandleOperationsAnswer := by
  intro s src c kind n cell i tenant h task u r hs
  exact ⟨handleOperation_returns hs, fun hkind => ⟨handleOperation_taskGone hs hkind, fun d htask hwait =>
    ⟨fun t => handleOperation_fails hs hkind htask hwait, handleOperation_answers hs hkind htask hwait⟩⟩⟩

/-! ### Abandoned tiles and the stall watchdog (R163, R165) -/

/-- Whether a tile is granted and its reads are not all taken. -/
def Tile.live (t : Tile) : Bool := t.st == .unsealed || t.st == .held || t.st == .consuming

/-- The state with a tile reported as abandoned: noted at the tile and its pool, and told to the fault handler of its region (R163). -/
def State.reportTile (s : State) (c pool k : Nat) (t : Tile) : State :=
  let x := (s.cell c).setTile (pool, k) { t with raised := true }
  let u := s.setCell c { x with pools := Assoc.modify pool (fun p => { p with abandoned := p.abandoned + 1 }) x.pools }
  u.pushEvent t.region c 2 0 (word t.count) ((s.cell c).handleOf c (pool, k)) (word t.ctx) 0

section
variable {s : State} {c pool k : Nat} {p : Pool} {t : Tile} (hp : Assoc.get? pool (s.cell c).pools = some p)
  (ht : (s.cell c).tile (pool, k) = some t)
include hp ht

/-- A tile is reported unless its pool has no deadline, it was reported, it is not in use, or its time has not come. -/
theorem abandonedTile_cases :
    exec (.abandonedTile c pool k) s =
      if p.deadline = 0 || t.raised || !t.live || s.clock - t.born < p.deadline then .next s else .next (s.reportTile c pool k t) := by
  rw [exec_abandonedTile, execAbandonedTile, hp, ht]
  rfl

theorem abandonedTile_due (hdl : p.deadline ≠ 0) (hraised : t.raised = false) (hlive : t.live = true)
    (hdue : p.deadline ≤ s.clock - t.born) : exec (.abandonedTile c pool k) s = .next (s.reportTile c pool k t) := by
  rw [abandonedTile_cases hp ht, if_neg (by simp [hdl, hraised, hlive, hdue])]

theorem abandonedTile_quiet (h : p.deadline = 0 ∨ t.raised = true ∨ t.live = false ∨ s.clock - t.born < p.deadline) :
    exec (.abandonedTile c pool k) s = .next s := by
  rw [abandonedTile_cases hp ht, if_pos (by simpa [or_assoc] using h)]

end

/-- The quiet cycles of a region at a sample of its watchdog (R165). -/
def Region.quietNow (x : Region) : Nat := if x.activity then 0 else x.quiet + 1024

/-- The state with a region's watchdog sampled. -/
def State.sample (s : State) (r quiet : Nat) : State :=
  s.modRegion r fun x => { x with quiet := quiet, activity := false, sampledAt := x.sampledAt + 1 }

section
variable {s : State} {r : Nat} {x : Region} (hr : s.region r = some x)
include hr

theorem stallWatchdog_early (h : s.clock / 1024 ≤ x.sampledAt) : exec (.stallWatchdog r) s = .next s := by
  simp only [exec_stallWatchdog, execStallWatchdog, hr, h, if_true, event]

variable (hdue : x.sampledAt < s.clock / 1024)
include hdue

/-- A due sample counts the quiet cycles, and at the threshold enlarges the smallest exhausted pool. -/
theorem stallWatchdog_due :
    exec (.stallWatchdog r) s =
      if x.quietNow < x.h then .next (s.sample r x.quietNow)
      else match smallestPool ((s.sample r x.quietNow).exhaustedPools r) with
        | none => .next (s.sample r x.quietNow)
        | some (c, k, p) => .next ((s.sample r x.quietNow).enlarge r c k p) := by
  rw [exec_stallWatchdog, execStallWatchdog, hr]
  exact if_neg (Nat.not_le.mpr hdue)

theorem stallWatchdog_counts (h : x.quietNow < x.h ∨ smallestPool ((s.sample r x.quietNow).exhaustedPools r) = none) :
    exec (.stallWatchdog r) s = .next (s.sample r x.quietNow) := by
  rw [stallWatchdog_due hr hdue]
  rcases h with hquiet | hnone
  · rw [if_pos hquiet]
  · rw [hnone, ite_self]

theorem stallWatchdog_enlarges {c k : Nat} {p : Pool} (hlong : x.h ≤ x.quietNow)
    (hp : smallestPool ((s.sample r x.quietNow).exhaustedPools r) = some (c, k, p)) :
    exec (.stallWatchdog r) s = .next ((s.sample r x.quietNow).enlarge r c k p) := by
  rw [stallWatchdog_due hr hdue, if_neg (Nat.not_lt.mpr hlong), hp]

end

theorem deadlinesAndStallsAreSeen : DeadlinesAndStallsAreSeen := fun _ =>
  ⟨fun _ _ _ _ _ hp ht => ⟨abandonedTile_due hp ht, abandonedTile_quiet hp ht⟩,
    fun _ _ hr => ⟨stallWatchdog_early hr, stallWatchdog_counts hr, fun _ _ _ hdue => stallWatchdog_enlarges hr hdue⟩⟩

/-- Settles O39: the controllers, the handle operations, and what is seen of deadlines and stalls. -/
theorem poolEventsActAsStated : Obligations.PoolEventsActAsStated :=
  ⟨controllersServeInTurn, handleOperationsAnswer, deadlinesAndStallsAreSeen⟩

end Sys2Proof.Machine
end

section
/-! PROOFS. The events of memory: stations and walks, homes, peers, the order S, and key slots (R201 to R215, R228 to R234, R345). -/
namespace Sys2Proof.Machine

/-! ### Stations and walks (R228 to R231) -/

/-- A request waits at its station while something of its context holds it, or an earlier request of its way does. -/
theorem stationRequest_cases {s : State} {src : Place} {d c : Nat} {a : Acc}
    (hs : s.net[s.cur.k]? = some { src := src, dst := .station d c, pay := .stationReq a }) :
    exec .stationRequest s =
      if s.stationHeld s.cur.k (d * 16 + c) a || (s.passes s.cur.k (s.stationWaits (d * 16 + c))).isNone then .next s
      else .next (((s.land s.cur.k).stationTake (d * 16 + c) a).getD s) := by
  rw [exec_stationRequest, execStationRequest, hs]
  rfl

/-- The state without a walk of a station. -/
def State.endWalk (s : State) (st k : Nat) : State := s.modStation st fun x => { x with walks := dropAt k x.walks }

/-- The state with one access of a failed walk faulted, by the tables as they stand (R228). -/
def Walk.fail (w : Walk) (s : State) (a : Acc) : State :=
  match s.walk w.asid w.page a.op.need with
  | .error f =>
    let va := ((a.runs.find? fun r => r.2.2.1 / 65536 * 65536 == w.page).map (·.2.2.1)).getD w.page
    s.deliverFault a (a.laneAddr va) (a.pageFault va f) (s.foreign a.asid f)
  | .ok _ => s

section
variable {s : State} {d c k : Nat} {w : Walk} (hw : (s.station (d * 16 + c)).walks[k]? = some w)
include hw

theorem walkComplete_found {l : Leaf} (hl : (s.endWalk (d * 16 + c) k).walk w.asid w.page (false, false) = .ok l) :
    exec (.walkComplete d c k) s = .next { (s.endWalk (d * 16 + c) k).cacheLeaf (d * 16 + c) l with
      net := (w.waiting.map fun a => ({ src := .cell a.cell, dst := .station d c, pay := .stationReq a } : Flight))
        ++ (s.endWalk (d * 16 + c) k).net } := by
  rw [State.endWalk] at hl
  simp only [exec_walkComplete, execWalkComplete, hw, hl, event]
  rfl

theorem walkComplete_failed {e : XFault} (he : (s.endWalk (d * 16 + c) k).walk w.asid w.page (false, false) = .error e) :
    exec (.walkComplete d c k) s = .next (w.waiting.foldl w.fail (s.endWalk (d * 16 + c) k)) := by
  rw [State.endWalk] at he
  simp only [exec_walkComplete, execWalkComplete, hw, he, event]
  rfl

end

theorem stationsTranslate : StationsTranslate := by
  intro s
  refine ⟨fun src d c a hs => ⟨fun hwaits => ?waits, fun hbehind hheld hpasses => ?goes⟩,
    fun d c k w hw => ⟨fun l => walkComplete_found hw, fun e => walkComplete_failed hw⟩⟩
  case waits =>
    rw [stationRequest_cases hs, if_pos]
    rw [Bool.or_eq_true, State.stationHeld, Bool.or_eq_true, or_assoc]
    exact hwaits
  case goes =>
    rw [stationRequest_cases hs, if_neg]
    rw [Bool.or_eq_true, State.stationHeld, Bool.or_eq_true, or_assoc]
    rintro (h | h | h)
    · exact Bool.eq_false_iff.mp hbehind h
    · exact Bool.eq_false_iff.mp hheld h
    · exact Bool.eq_false_iff.mp hpasses h

/-! ### Accesses at their home (R201, R204, R205, R207, R215, R234) -/

/-- What makes an access to global memory wait at its home (R193, R204, R205, R207, R215). -/
theorem homeWaits_glb (s : State) (k : Nat) (src dst : Place) (a : Acc) :
    s.homeWaits k { src := src, dst := dst, pay := .glb a }
      = (!s.inOrder a || s.earlierChunk a || ((a.op != .load || a.kind == .S) && s.waitsFor k src a) || s.seenWait k a) := rfl

/-- The state with a memory error of a write told to its copy, or to its access (R193, R234). -/
def State.failWrite (s : State) (a : Acc) (n : Nat) : State :=
  match a.op with
  | .copy _ => s.deliverFault a 0 (memError n) false
  | _ => s.faultMem a n

section
variable {s : State} {src dst : Place} {a : Acc}

/-- A load has its value fixed, or meets a memory error, unless it waits. -/
theorem loadValueReturned_cases
    (hs : (s.passes s.cur.k fun n f => f.standsAtStation || s.homeWaits n f) = some { src := src, dst := dst, pay := .glb a }) :
    exec .loadValueReturned s =
      if a.op != .load || s.homeWaits s.cur.k { src := src, dst := dst, pay := .glb a } then .next s
      else match s.badUnit a with
        | some n => .next ((s.land s.cur.k).faultMem a n)
        | none => .next ((s.land s.cur.k).deliver a (a.laneBytes (s.pieceBytes s.cur.k src a))) := by
  rw [exec_loadValueReturned, execLoadValueReturned, hs]
  rfl

/-- A value on its way reaches its register. -/
theorem loadValueReturned_value {bs : List (List Byte)}
    (hs : (s.passes s.cur.k fun n f => f.standsAtStation || s.homeWaits n f) = some { src := src, dst := dst, pay := .value a bs }) :
    exec .loadValueReturned s = .next ((s.land s.cur.k).deliver a bs) := by
  rw [exec_loadValueReturned, execLoadValueReturned, hs]
  rfl

/-- A write is performed, or meets a memory error, unless it waits. -/
theorem writePerformed_cases (hs : s.passes s.cur.k s.homeWaits = some { src := src, dst := dst, pay := .glb a }) :
    exec .writePerformedAtHome s =
      if a.isLoad || s.homeWaits s.cur.k { src := src, dst := dst, pay := .glb a } then .next s
      else match s.badUnit a with
        | some n => .next ((s.land s.cur.k).failWrite a n)
        | none => .next (((s.land s.cur.k).performWrite a).ackCopy a) := by
  simp only [exec_writePerformedAtHome, execWritePerformedAtHome, hs, event, State.failWrite]
  split
  · rfl
  · cases s.badUnit a with
    | none => rfl
    | some n => cases a.op <;> rfl

end

/-- The oldest fault that waits and that nothing holds takes a ring entry (R363, R371). -/
theorem ringEntryFreed_takes {s : State} {i : Nat} {e : REntry × TrapInfo × Bool}
    (hi : indexWhere (fun e => s.ringRoom s.cur.cell e.1.tenant && ((s.cell s.cur.cell).ctx e.1.ctx).frozen.isNone)
      (s.cell s.cur.cell).retryWait = some i)
    (he : (s.cell s.cur.cell).retryWait[i]? = some e) :
    exec .ringEntryFreed s = .next ((s.setCell s.cur.cell
      { s.cell s.cur.cell with retryWait := dropAt i (s.cell s.cur.cell).retryWait }).ringPut s.cur.cell e.1 e.2.1 e.2.2) := by
  simp only [exec_ringEntryFreed, execRingEntryFreed, hi, he, event]

theorem accessesArePerformedInOrder : AccessesArePerformedInOrder := by
  intro s src dst a
  refine ⟨fun hs hop => ⟨fun horder hchunk hmeets hseen => ?load, fun hwaits => ?loadWaits⟩,
    fun hs hload => ⟨fun horder hchunk hmeets hseen => ?write, fun hwaits => ?writeWaits⟩, fun bs => loadValueReturned_value,
    fun i e => ringEntryFreed_takes⟩
  case load =>
    have hgoes : (a.op != .load || s.homeWaits s.cur.k { src := src, dst := dst, pay := .glb a }) = false := by
      simp [homeWaits_glb, hop, horder, hchunk, hmeets, hseen]
    rw [loadValueReturned_cases hs, hgoes]
    exact ⟨fun n hn => by rw [hn]; rfl, fun hn => by rw [hn]; rfl⟩
  case loadWaits => rw [loadValueReturned_cases hs, hwaits, Bool.or_true]; rfl
  case write =>
    have hgoes : (a.isLoad || s.homeWaits s.cur.k { src := src, dst := dst, pay := .glb a }) = false := by
      simp [homeWaits_glb, hload, horder, hchunk, hmeets, hseen]
    rw [writePerformed_cases hs, hgoes]
    exact ⟨fun n hn => by rw [hn]; rfl, fun hn => by rw [hn]; rfl⟩
  case writeWaits => rw [writePerformed_cases hs, hwaits, Bool.or_true]; rfl

/-! ### Accesses to a peer (R157, R188, R215, R345) -/

/-- The address of a piece in the scratchpad of a cell. -/
def Piece.offset (p : Piece) (c : Nat) : Nat := p.home - locA c 0

/-- Whether an access that is at its peer waits there: for its context's order, the writes its context may have seen, or an engine
operation there. -/
def State.peerWaits (s : State) (c : Nat) (a : Acc) (p : Piece) : Bool :=
  !s.inOrder a || s.seenWait s.net.length a || (s.cell c).conflicts .loc (p.offset c) p.len (a.op == .store)

section
variable {s : State} {c : Nat} {a : Acc} {p : Piece}

theorem peerWaits_iff :
    s.peerWaits c a p = true ↔ s.inOrder a = false ∨ s.seenWait s.net.length a = true
      ∨ (s.cell c).conflicts .loc (p.offset c) p.len (a.op == .store) = true := by
  simp [State.peerWaits, or_assoc]

theorem peerWaits_eq_false (horder : s.inOrder a = true) (hseen : s.seenWait s.net.length a = false)
    (hfree : (s.cell c).conflicts .loc (p.offset c) p.len (a.op == .store) = false) : s.peerWaits c a p = false := by
  rw [State.peerWaits, horder, hseen, hfree]; rfl

end

/-- The state with an access performed at its peer, which does not consume: a trap of the tiles there goes back, a store writes, and a
load's value goes back. -/
def State.performPeer (s : State) (c : Nat) (a : Acc) (p : Piece) : State :=
  match s.tileCheck c .loc (p.offset c) p.len (a.op == .store) a.firstAddr with
  | some t => s.peerTrap a t
  | none =>
    if a.op == .store then (s.freeEntry a).writeBytes p.home (a.pieceData p)
    else s.send (.cell c) (.cell a.cell) (.value a [s.readBytes p.home p.len])

/-- The state with a consuming load performed at its peer, its tile there counted down (R161). -/
def State.consumePeer (s : State) (c : Nat) (a : Acc) (p : Piece) : State :=
  let r := s.consumeAt c .loc (p.offset c) p.len a.firstAddr a.cell a.ctx
  match r.2 with
  | some t => r.1.peerTrap a t
  | none => r.1.send (.cell c) (.cell a.cell) (.value a [s.readBytes p.home p.len])

section
variable {s : State} {src : Place} {c : Nat} {a : Acc} {p : Piece} {ps : List Piece}
  (hs : s.brings src (.cell c) (.peer a)) (hp : a.pieces = p :: ps)
include hs hp

/-- What an access does that reaches its peer's cell: it comes back from a peer that has departed, waits there, or is performed. -/
theorem peerAccess_cases :
    exec .peerAccessArrival s =
      if !a.arrived && !s.peerPresent a c then .next ((s.land s.cur.k).send (.cell c) (.cell a.cell) (.peerAbsent a))
      else if s.peerWaits c a p then .next (s.arrived s.cur.k)
      else if a.cons then .next ((s.land s.cur.k).consumePeer c a p)
      else .next ((s.land s.cur.k).performPeer c a p) := by
  rw [State.brings] at hs
  simp only [exec_peerAccessArrival, execPeerAccessArrival, hs, hp, List.headD_cons, event]
  split
  · rfl
  split
  next hwaits => exact (if_pos hwaits).symm
  next hgoes =>
    refine Eq.trans ?_ (if_neg hgoes).symm
    split
    · rw [State.consumePeer, Piece.offset]
      cases ((s.land s.cur.k).consumeAt c .loc (p.home - locA c 0) p.len a.firstAddr a.cell a.ctx).2 <;> rfl
    · rw [State.performPeer, Piece.offset]
      cases (s.land s.cur.k).tileCheck c .loc (p.home - locA c 0) p.len (a.op == .store) a.firstAddr with
      | some t => rfl
      | none => cases (a.op == .store) <;> rfl

theorem peerAccess_absent (harrived : a.arrived = false) (hpresent : s.peerPresent a c = false) :
    exec .peerAccessArrival s = .next ((s.land s.cur.k).send (.cell c) (.cell a.cell) (.peerAbsent a)) := by
  rw [peerAccess_cases hs hp, harrived, hpresent]; rfl

variable (hthere : a.arrived = true ∨ s.peerPresent a c = true)
include hthere

/-- What an access does that has arrived, or finds its peer present. -/
theorem peerAccess_there :
    exec .peerAccessArrival s =
      if s.peerWaits c a p then .next (s.arrived s.cur.k)
      else if a.cons then .next ((s.land s.cur.k).consumePeer c a p)
      else .next ((s.land s.cur.k).performPeer c a p) := by
  rw [peerAccess_cases hs hp, if_neg]
  rcases hthere with h | h <;> simp [h]

theorem peerAccess_waits (h : s.peerWaits c a p = true) : exec .peerAccessArrival s = .next (s.arrived s.cur.k) := by
  rw [peerAccess_there hs hp hthere, if_pos h]

variable (hgoes : s.peerWaits c a p = false)
include hgoes

theorem peerAccess_consumes (hcons : a.cons = true) : exec .peerAccessArrival s = .next ((s.land s.cur.k).consumePeer c a p) := by
  rw [peerAccess_there hs hp hthere, hgoes, hcons]; rfl

theorem peerAccess_performs (hcons : a.cons = false) : exec .peerAccessArrival s = .next ((s.land s.cur.k).performPeer c a p) := by
  rw [peerAccess_there hs hp hthere, hgoes, hcons]; rfl

end

section
variable {s : State} {c : Nat} {a : Acc} {p : Piece}

/-- A trap of the peer's tiles goes back. -/
theorem performPeer_trap {t : TrapInfo} (ht : s.tileCheck c .loc (p.offset c) p.len (a.op == .store) a.firstAddr = some t) :
    s.performPeer c a p = s.peerTrap a t := by
  rw [State.performPeer, ht]

theorem performPeer_store (hopen : s.tileCheck c .loc (p.offset c) p.len (a.op == .store) a.firstAddr = none) (hop : a.op = .store) :
    s.performPeer c a p = (s.freeEntry a).writeBytes p.home (a.pieceData p) := by
  rw [State.performPeer, hopen, if_pos (beq_iff_eq.mpr hop)]

theorem performPeer_load (hopen : s.tileCheck c .loc (p.offset c) p.len (a.op == .store) a.firstAddr = none) (hop : a.op ≠ .store) :
    s.performPeer c a p = s.send (.cell c) (.cell a.cell) (.value a [s.readBytes p.home p.len]) := by
  rw [State.performPeer, hopen, if_neg (mt beq_iff_eq.mp hop)]

theorem consumePeer_trap {t : TrapInfo} (ht : (s.consumeAt c .loc (p.offset c) p.len a.firstAddr a.cell a.ctx).2 = some t) :
    s.consumePeer c a p = (s.consumeAt c .loc (p.offset c) p.len a.firstAddr a.cell a.ctx).1.peerTrap a t := by
  rw [State.consumePeer, ht]

theorem consumePeer_counted (hnone : (s.consumeAt c .loc (p.offset c) p.len a.firstAddr a.cell a.ctx).2 = none) :
    s.consumePeer c a p = (s.consumeAt c .loc (p.offset c) p.len a.firstAddr a.cell a.ctx).1.send (.cell c) (.cell a.cell)
      (.value a [s.readBytes p.home p.len]) := by
  rw [State.consumePeer, hnone]

end

/-- An access that comes back from a departed peer is cause 28, as its context holds for it or has gone on (R345). -/
theorem peerAbsentReturn_cases {s : State} {src dst : Place} {a : Acc} (hs : s.brings src dst (.peerAbsent a)) :
    let t : TrapInfo := { cause := 28, val := a.firstAddr, info := word a.rank }
    exec .peerAbsentReturn s = .next (if a.sc then ((s.land s.cur.k).scDone a).trapSc a t
      else if a.cons then (s.land s.cur.k).peerTrap a t else (s.land s.cur.k).faultAcc a a.firstAddr t) := by
  rw [State.brings] at hs
  simp only [exec_peerAbsentReturn, execPeerAbsentReturn, hs, event]
  split
  · rfl
  · split <;> rfl

theorem peersAreAccessed : PeersAreAccessed := by
  intro s src c a p ps
  refine ⟨fun hs hp => ⟨peerAccess_absent hs hp, fun hthere => ⟨fun hwaits => ?waits, fun horder hseen hfree hcons => ?plain,
    fun horder hseen hfree hcons => ?consuming⟩⟩, fun dst => peerAbsentReturn_cases⟩
  case waits => exact peerAccess_waits hs hp hthere (peerWaits_iff.mpr hwaits)
  case plain =>
    rw [peerAccess_performs hs hp hthere (peerWaits_eq_false horder hseen hfree) hcons]
    exact ⟨fun t ht => congrArg _ (performPeer_trap ht), fun hopen => ⟨fun hop => congrArg _ (performPeer_store hopen hop),
      fun hop => congrArg _ (performPeer_load hopen hop)⟩⟩
  case consuming =>
    rw [peerAccess_consumes hs hp hthere (peerWaits_eq_false horder hseen hfree) hcons]
    exact ⟨fun t ht => congrArg _ (consumePeer_trap ht), fun hnone => congrArg _ (consumePeer_counted hnone)⟩

/-! ### The order S (R213 to R215, R334) -/

/-- An announcement makes the operation that it names ready (R213). -/
theorem scAnnouncement_readies {s : State} {src dst : Place} {w c i n : Nat} (hs : s.brings src dst (.announce w c i n)) :
    exec .scAnnouncementArrival s = .next { s.land s.cur.k with
      scOps := s.scOps.map fun o => if o.window = w ∧ o.cell = c ∧ o.ctx = i ∧ o.seq = n then { o with ready := true } else o } := by
  rw [State.brings] at hs
  simp only [exec_scAnnouncementArrival, execScAnnouncementArrival, hs, event, Bool.and_eq_true, decide_eq_true_eq, and_assoc]

/-- Whether it is too early for an operation: a cell does not know it yet, or its window is not closed for 96 cycles (R213). -/
def State.tooEarly (s : State) (o : ScOp) : Prop := o.ready = false ∨ s.clock < 32 * (o.window + 1) + 96

/-- The state with the first operation of the order S performed at its home, a load or a store. -/
def State.performSc (s : State) (o : ScOp) : State :=
  let a := o.acc
  let u := { s with scOps := eraseFirst (· == o) s.scOps }
  match u.badUnit a with
  | some n => u.faultMem a n
  | none =>
    if a.op = .load then u.finishSc a (a.laneBytes fun p => u.readUnder (u.homeTag p.key p.home) p.home p.len)
    else (u.performWrite a).finishSc a []

section
variable {s : State} {o : ScOp}

theorem scNext_eq_none_of_nil (h : s.scOps = []) : s.scNext = none := by
  rw [State.scNext, h]; rfl

section
variable (ho : firstSc s.scOps = some o)
include ho

theorem scNext_early (h : s.tooEarly o) : s.scNext = none := by
  rw [State.scNext, ho, Option.filter_some, if_neg]
  rcases h with h | h
  · simp [h]
  · simp [Nat.not_le.mpr h]

theorem scNext_due (h : ¬ s.tooEarly o) : s.scNext = some o := by
  rw [State.tooEarly, not_or, Bool.not_eq_false, Nat.not_lt] at h
  obtain ⟨hready, hclock⟩ := h
  rw [State.scNext, ho, Option.filter_some, if_pos (by simp [hready, hclock])]

/-- The operation whose turn it is waits for nothing but the writes that its context may have seen (R215). -/
theorem scWaits_due (h : ¬ s.tooEarly o) (hof : o.of o.acc = true) :
    s.scWaits o.acc = s.waitsFor s.net.length (stationPlace o.acc.cell) o.acc := by
  rw [State.scWaits, scNext_due ho h, Option.map_some, hof]; rfl

end

theorem windowClose_none (h : s.scNext = none) : exec .windowClose s = .next s := by
  simp only [exec_windowClose, execWindowClose, h, event]

/-- The close of a window performs the operation whose turn it is, unless something holds it at its home. -/
theorem windowClose_some (h : s.scNext = some o) :
    exec .windowClose s =
      if o.acc.isAtomic || s.scWaits o.acc || s.homeConflict o.acc (o.acc.op != .load) then .next s else .next (s.performSc o) := by
  simp only [exec_windowClose, execWindowClose, h, event]
  split
  · rfl
  · rw [State.performSc]
    cases State.badUnit { s with scOps := eraseFirst (· == o) s.scOps } o.acc with
    | some n => rfl
    | none => exact (apply_ite Host.Outcome.next ..).symm

section
variable (ho : firstSc s.scOps = some o)
include ho

theorem windowClose_waits
    (h : s.tooEarly o ∨ o.acc.isAtomic = true ∨ s.scWaits o.acc = true ∨ s.homeConflict o.acc (o.acc.op != .load) = true) :
    exec .windowClose s = .next s := by
  by_cases hearly : s.tooEarly o
  · exact windowClose_none (scNext_early ho hearly)
  · rw [windowClose_some (scNext_due ho hearly), if_pos]
    simpa [or_assoc] using h.resolve_left hearly

theorem windowClose_performs (hdue : ¬ s.tooEarly o) (hatomic : o.acc.isAtomic = false) (hwaits : s.scWaits o.acc = false)
    (hfree : s.homeConflict o.acc (o.acc.op != .load) = false) : exec .windowClose s = .next (s.performSc o) := by
  rw [windowClose_some (scNext_due ho hdue), hatomic, hwaits, hfree]; rfl

end

end

theorem windowsCloseInOrder : WindowsCloseInOrder := by
  intro s
  refine ⟨fun src dst w c i n => scAnnouncement_readies, fun hnil => windowClose_none (scNext_eq_none_of_nil hnil),
    fun o ho => ⟨windowClose_waits ho, fun hdue hcell hctx hseq => ?turn, fun hdue hatomic hwaits hfree => ?performs⟩⟩
  case turn => exact scWaits_due ho hdue (by simp [ScOp.of, hcell, hctx, hseq])
  case performs =>
    rw [windowClose_performs ho hdue hatomic hwaits hfree, State.performSc]
    exact ⟨fun n hn => by rw [hn], fun hgood => ⟨fun hop => by rw [hgood, if_pos hop], fun hop => by rw [hgood, if_neg hop]⟩⟩

/-! ### Key slots (R233, R238, R393) -/

/-- A key slot that does not retire, or that something uses, stays as it is. -/
theorem keySlotEmpty_stays {s : State} {k : Nat} (h : (s.keySlot k).st ≠ .retiring ∨ s.slotIdle k = false) :
    exec (.keySlotEmpty k) s = .next s := by
  rw [exec_keySlotEmpty, execKeySlotEmpty, if_pos (by simpa using h), event]

theorem keySlotsEmpty : KeySlotsEmpty := by
  intro s k
  refine ⟨keySlotEmpty_stays, fun hretiring hidle => ?_⟩
  rw [exec_keySlotEmpty, execKeySlotEmpty, if_neg (by simp [hretiring, hidle])]
  rfl

/-- Settles O43: stations, homes, peers, the order S, and key slots. -/
theorem memoryEventsActAsStated : Obligations.MemoryEventsActAsStated :=
  ⟨stationsTranslate, accessesArePerformedInOrder, peersAreAccessed, windowsCloseInOrder, keySlotsEmpty⟩

end Sys2Proof.Machine
end

section
/-! PROOFS. `fence` and `wait`, and the issue of copies (R184, R190, R192, R195, R196, R217). -/
namespace Sys2Proof.Machine

/-! ### Instructions that wait for a condition (R196, R217) -/

section
variable {i : Instr} {g : Guard} {s : State} {c : Prop} [Decidable c]

/-- An instruction that goes on where a condition holds, and else stalls. -/
def WaitsUntil (i : Instr) (g : Guard) (s : State) (c : Prop) [Decidable c] : Prop :=
  Effect i g s (if c then .ok s.retire else Res.stall)

theorem WaitsUntil.computes (h : WaitsUntil i g s c) (hc : c) : Computes i g s s.me := Effect.of_pos h hc

theorem WaitsUntil.stalls (h : WaitsUntil i g s c) (hc : ¬ c) : Stalls i g s := Effect.of_neg h hc

end

/-- What `fence` waits for (R217). -/
def State.fenceOpen (s : State) (x : ArgFence) : Bool := match x.kind with
  | .acq => s.acquireReady s.cur.cell s.cur.ctx
  | .rel => s.releaseReady s.cur.cell s.cur.ctx x.scope
  | .acqrel => s.acquireReady s.cur.cell s.cur.ctx && s.releaseReady s.cur.cell s.cur.ctx x.scope
  | .full => s.fullReady s.cur.cell s.cur.ctx

theorem fence_waits (x : ArgFence) (s : State) : WaitsUntil (.fence x) x.g s (s.fenceOpen x = true) :=
  Effect.of_issue (exec_fence x s) rfl

/-- The count of a class is at most its value, or the value is at or above the limit of the class (R196). -/
def waitMet (v limit n : Nat) : Bool := limit ≤ v || n ≤ v

theorem waitMet_iff {v limit n : Nat} : waitMet v limit n = true ↔ limit ≤ v ∨ n ≤ v := by simp [waitMet]

/-- What `wait` waits for: each of its four classes (R196). -/
def State.waitOpen (s : State) (x : ArgWait) : Bool :=
  waitMet x.l.val 16 (s.loadCount s.cur.cell s.cur.ctx) && waitMet x.s.val 32 (s.storeCount s.cur.cell s.cur.ctx)
    && waitMet x.c.val 16 (s.copyCount s.cur.cell s.cur.ctx) && waitMet x.t.val 8 (s.tileCount s.cur.cell s.cur.ctx)

theorem wait_waits (x : ArgWait) (s : State) : WaitsUntil (.wait x) x.g s (s.waitOpen x = true) :=
  Effect.of_issue (exec_wait x s) rfl

/-- Settles O13: each of the two goes on where what it waits for holds, and else stalls. -/
theorem fenceAndWaitHoldTheirContext : Obligations.FenceAndWaitHoldTheirContext := by
  refine ⟨fun x s => ?fence, fun x s => ?wait⟩
  case fence => exact ⟨(fence_waits x s).computes, fun h => (fence_waits x s).stalls (ne_true_of_eq_false h)⟩
  case wait =>
    intro c i low
    have hlow : s.waitOpen x = true ↔ low := by simp only [State.waitOpen, Bool.and_eq_true, waitMet_iff, and_assoc, low, c, i]
    exact ⟨fun h => (wait_waits x s).computes (hlow.mpr h), fun h => (wait_waits x s).stalls (mt hlow.mp h)⟩

/-! ### The checks of a copy, and its queue (R184, R190, R192) -/

section
variable {s : State} {q : CopyReq}

/-- An admitted copy passes the checks of its source, of a destination in its cell, and of room, and is queued. -/
theorem issueCopy_queued {tile : Option (Nat × Nat × Option Nat)} (h : copyAdmitted s q = true)
    (ht : s.sourceTile q q.from_.1 q.from_.2 = .ok tile) : s.issueCopy q none none = .ok (copyQueued s q (copyOpOf s q tile)) := by
  simp only [copyAdmitted, Bool.and_eq_true, Bool.not_eq_true', decide_eq_true_eq] at h
  obtain ⟨⟨⟨⟨⟨hsrc, hdst⟩, hpoint⟩, hengine⟩, hshare⟩, hroom⟩ := h
  have hfull : (decide (32 ≤ (s.cell s.cur.cell).copyq.length)
      || decide (16 ≤ ((s.cell s.cur.cell).copyq.filter (·.ctx == s.cur.ctx)).length)) = false := by
    simp [hengine, hshare]
  have hentries : decide ((s.cell s.cur.cell).openEntries < (q.intervals s.cur.cell).length) = false := by simpa using hroom
  cases hlocal : q.dst.localTo s.cur.cell with
  | none =>
    simp only [State.issueCopy, hsrc, hlocal, ht, hpoint, hfull, hentries]
    rfl
  | some d =>
    rw [hlocal] at hdst
    simp only [State.issueCopy, hsrc, hlocal, hdst, ht, hpoint, hfull, hentries]
    rfl

theorem Effect.of_eq {i : Instr} {g : Guard} {r r' : Res} (h : Effect i g s r) (hr : r = r') : Effect i g s r' := hr ▸ h

/-- A copy, when admitted and with its source tile found, is queued, and its context goes on. -/
def QueuesCopy (i : Instr) (g : Guard) (s : State) (q : CopyReq) : Prop :=
  copyAdmitted s q = true → ∀ tile, s.sourceTile q q.from_.1 q.from_.2 = .ok tile →
    Becomes i g s (copyQueued s q (copyOpOf s q tile))

/-- An instruction whose own effect is the issue of a copy, with no fault of its destination, queues it. -/
theorem Effect.queuesCopy {i : Instr} {g : Guard} (h : Effect i g s (s.issueCopy q none none)) : QueuesCopy i g s q := by
  intro hadm tile ht
  rw [issueCopy_queued hadm ht] at h
  exact h

end

section
variable {s : State}

/-- The copy of `send` and `send.lay`, with its layout (R195). -/
def State.sendReq (s : State) (x : ArgSend) (lay : Layout) (at_ : Nat) : CopyReq where
  src := x.sspace
  base := (s.me.rs x.a).toNat
  dst := destOf x.dspace (s.me.rs x.b)
  lay := lay
  layAddr := at_
  cons := x.cons
  fill := false
  handle := none
  d := x.d
  item := none
  fin := x.fin

/-- That of `fill` and `fill.lay` (R195). -/
def State.fillReq (s : State) (x : ArgFill) (lay : Layout) (at_ : Nat) : CopyReq where
  src := .vlt
  base := (s.me.rs x.a).toNat
  dst := .mem none s.cur.cell .loc (s.me.rs x.b).toNat
  lay := lay
  layAddr := at_
  cons := x.cons
  fill := true
  handle := none
  d := x.d
  item := none
  fin := x.fin

section
variable {x : ArgSend} (hdst : s.destFault (s.tenantOf (s.ctxRegion s.cur.cell s.cur.ctx)) (x.dspace == .glb) (s.me.rs x.b) = none)
include hdst

/-- With no fault of its destination a `send` is the issue of its copy, in the layout that it has. -/
theorem sendCopy_eq {record : Bool} {lay : Layout} (hlay : s.layoutFor record x.n.toNat = .ok lay) :
    s.sendCopy x record = s.issueCopy (s.sendReq x lay (if record then x.n.toNat else 0)) none none := by
  simp only [State.sendCopy, hlay, hdst]
  rfl

theorem send_queues : QueuesCopy (.send x) x.g s (s.sendReq x (Layout.flat x.n.toNat) 0) :=
  ((Effect.of_issue (exec_send x s) rfl).of_eq (sendCopy_eq hdst rfl)).queuesCopy

theorem sendLay_queues {lay : Layout} (hlay : s.readLayout x.n.toNat = .ok lay) :
    QueuesCopy (.sendLay x) x.g s (s.sendReq x lay x.n.toNat) :=
  ((Effect.of_issue (exec_sendLay x s) rfl).of_eq (sendCopy_eq hdst hlay)).queuesCopy

end

theorem fillCopy_eq {x : ArgFill} {record : Bool} {lay : Layout} (hlay : s.layoutFor record x.n.toNat = .ok lay) :
    s.fillCopy x record = s.issueCopy (s.fillReq x lay (if record then x.n.toNat else 0)) none none := by
  simp only [State.fillCopy, hlay]
  rfl

theorem fill_queues (x : ArgFill) : QueuesCopy (.fill x) x.g s (s.fillReq x (Layout.flat x.n.toNat) 0) :=
  ((Effect.of_issue (exec_fill x s) rfl).of_eq (fillCopy_eq rfl)).queuesCopy

theorem fillLay_queues {x : ArgFill} {lay : Layout} (hlay : s.readLayout x.n.toNat = .ok lay) :
    QueuesCopy (.fillLay x) x.g s (s.fillReq x lay x.n.toNat) :=
  ((Effect.of_issue (exec_fillLay x s) rfl).of_eq (fillCopy_eq hlay)).queuesCopy

/-- The copy of `sendt` from the tile of a pool that its handle names (R195). -/
def State.sendtReq (s : State) (x : ArgSendt) (p : Pool) : CopyReq where
  src := p.spaceOf (hIdx (s.me.rs x.a))
  base := p.addrOf (hIdx (s.me.rs x.a))
  dst := .tile (if x.remote then some x.link.val else none) (s.me.rs x.b)
  lay := Layout.flat p.size
  layAddr := 0
  cons := x.cons
  fill := false
  handle := some (s.me.rs x.a)
  d := x.d
  item := some (s.me.rs x.b)
  fin := x.fin

/-- A formed source handle of a tile of the cell, a formed destination handle and an open link pass the checks of `sendt` (R195). -/
theorem sendt_queues {x : ArgSendt} {p : Pool} (hformed : hFormed (s.me.rs x.a) = true) (hhere : hCell (s.me.rs x.a) = s.cur.cell)
    (hpool : Assoc.get? (hPool (s.me.rs x.a)) (s.cell s.cur.cell).pools = some p) (htile : hIdx (s.me.rs x.a) < p.tiles.length)
    (hdst : hFormed (s.me.rs x.b) = true)
    (hlink : x.remote = true → s.linkOpen x.link.val (s.tenantOf (s.ctxRegion s.cur.cell s.cur.ctx)) = true) :
    QueuesCopy (.sendt x) x.g s (s.sendtReq x p) := by
  have hopen : (x.remote && !s.linkOpen x.link.val (s.tenantOf (s.ctxRegion s.cur.cell s.cur.ctx))) = false := by
    cases hremote : x.remote
    · rfl
    · rw [hlink hremote]; rfl
  have heffect := Effect.of_issue (exec_sendt x s) rfl
  simp only [hformed, hhere, decide_true, Bool.and_self, if_true, hpool, Nat.not_le.mpr htile, if_false, hdst, hopen, Bool.not_true,
    Bool.false_eq_true] at heffect
  exact heffect.queuesCopy

end

/-- Settles O15: each row is the issue of its copy. -/
theorem copiesAreQueued : Obligations.CopiesAreQueued := by
  intro s
  exact ⟨fun x hdst => ⟨send_queues hdst, fun lay => sendLay_queues hdst⟩, fun x => ⟨fill_queues x, fun lay => fillLay_queues⟩,
    fun x p => sendt_queues⟩

end Sys2Proof.Machine
end

section
/-! PROOFS. The events of owners, messages, handlers and endpoints that move (R181, R213, R253 to R257, R262 to R265, R326 to R330, R334,
R337, R345). -/
namespace Sys2Proof.Machine

/-! ### Requests at their owner (R253, R271, R329) -/

section
variable {s : State} {src : Place} {c : Nat} {q : OwnReq}

/-- An owner request of the kind that an event takes comes before context 8. -/
theorem ownerArrival_taken {p : OwnKind → Bool} (hs : s.brings src (.cell c) (.owner q)) (hp : p q.kind = true) :
    s.ownerArrival p = .next ((s.land s.cur.k).arrive8 c (.owner q)) := by
  rw [State.brings] at hs
  simp only [State.ownerArrival, hs, hp, if_true, event]

/-- An owner request is served at once where context 8 and its queue are free, the scoreboard does not hold it, and the outbound buffer
is free; else it queues. -/
theorem arrive8_owner : s.arrive8 c (.owner q) =
    if (s.cell c).run8 = none ∧ (s.cell c).in8 = [] ∧ (s.cell c).over8 = [] ∧ s.ownerHeld c q = false ∧ (s.cell c).outbuf = [] then
      (s.chargeTo c q.tenant .handler 1).ownerRoutine c q
    else s.enqueue8 c (.owner q) := by
  simp only [State.arrive8, State.canServe, Bool.not_false, Bool.and_true, Bool.and_eq_true, Bool.not_eq_true', List.isEmpty_iff,
    Option.isNone_iff_eq_none, and_assoc]
  rfl

theorem arrive8_owner_served (hrun : (s.cell c).run8 = none) (hin : (s.cell c).in8 = []) (hover : (s.cell c).over8 = [])
    (hheld : s.ownerHeld c q = false) (hout : (s.cell c).outbuf = []) :
    s.arrive8 c (.owner q) = (s.chargeTo c q.tenant .handler 1).ownerRoutine c q := by
  rw [arrive8_owner, if_pos ⟨hrun, hin, hover, hheld, hout⟩]

theorem arrive8_owner_queued
    (h : (s.cell c).run8.isSome = true ∨ (s.cell c).in8 ≠ [] ∨ s.ownerHeld c q = true ∨ (s.cell c).outbuf ≠ []) :
    s.arrive8 c (.owner q) = s.enqueue8 c (.owner q) := by
  rw [arrive8_owner, if_neg]
  rintro ⟨hrun, hin, -, hheld, hout⟩
  rcases h with h | h | h | h
  · rw [hrun] at h; cases h
  · exact h hin
  · rw [hheld] at h; cases h
  · exact h hout

end

/-! ### The owner's reply (R181, R249, R254, R257) -/

/-- The state with an owner's answer taken by the context that waits for it: its signal completes, or its fault is a trap. -/
def State.signalAnswered (s : State) (c : Nat) (q : OwnReq) (d : Option SReg) (n : Nat) (st : Word) : State :=
  if n = 0 then s.modCtx c q.ctx fun x =>
    { (match d with | some r => x.ws r st | none => x).signalled with st := .running }.retire
  else s.takeTrap c q.ctx (ownerTrap q n st)

section
variable {s : State} {src : Place} {c n : Nat} {q : OwnReq} {st : Word} (hs : s.brings src (.cell c) (.ownerReply q n st))
include hs

theorem ownerReply_signal {d : Option SReg} (haction : q.action = none) (htask : (s.land s.cur.k).ctxTask c q.ctx = q.task)
    (hwait : ((s.land s.cur.k).ctxAt c q.ctx).st = .waiting (.owner d)) :
    exec .ownerReplyArrival s = .next ((s.land s.cur.k).signalAnswered c q d n st) := by
  rw [State.brings] at hs
  simp only [exec_ownerReplyArrival, execOwnerReplyArrival, hs, haction, htask, hwait, if_true, event]
  exact (apply_ite Host.Outcome.next ..).symm

section
variable {id : Word} (haction : q.action = some id)
include haction

/-- The fault of a completion action is its context's while its task is there (R181). -/
theorem ownerReply_async (htask : (s.land s.cur.k).ctxTask c q.ctx = q.task) (hctx : ((s.land s.cur.k).ctxAt c q.ctx).st ≠ .idle) :
    exec .ownerReplyArrival s = .next ((s.land s.cur.k).addAsync c q.ctx q.region q.task (ownerTrap q n st) none) := by
  rw [State.brings] at hs
  have hthere : (((s.land s.cur.k).ctxAt c q.ctx).st != .idle) = true := bne_iff_ne.mpr hctx
  simp only [exec_ownerReplyArrival, execOwnerReplyArrival, hs, haction, htask, hthere, decide_true, Bool.and_true, if_true, event]

/-- Once its task has ended it is an event of its region, and one of R254's table the object's region's too. -/
theorem ownerReply_events (htask : (s.land s.cur.k).ctxTask c q.ctx ≠ q.task) :
    exec .ownerReplyArrival s = .next ((if (ownerTrap q n st).cause = 60 then
        (s.land s.cur.k).joinFault (refCell q.ref) st.toNat q (ownerTrap q n st).info.toNat else s.land s.cur.k).pushEvent
      q.region c 9 q.task (word (ownerTrap q n st).cause) id (ownerTrap q n st).val 0) := by
  rw [State.brings] at hs
  simp only [exec_ownerReplyArrival, execOwnerReplyArrival, hs, haction, htask, decide_false, Bool.false_and, Bool.false_eq_true,
    if_false, event]

end

end

theorem ownersServeAndReply : OwnersServeAndReply := by
  intro s src c q
  refine ⟨fun hs => ?arrives, arrive8_owner_served, arrive8_owner_queued, fun d st hs haction htask hwait => ?answered,
    fun d n st hs hn haction htask hwait => ?trap,
    fun id n st hs haction => ⟨ownerReply_async hs haction, ownerReply_events hs haction⟩⟩
  case arrives =>
    cases hkind : q.kind with
    | jdec n => exact (exec_jdecArrival s).trans (ownerArrival_taken hs (by rw [hkind]))
    | fres ok v => exact (exec_fresArrival s).trans (ownerArrival_taken hs (by rw [hkind]))
    | freg cont => exact (exec_fregArrival s).trans (ownerArrival_taken hs (by rw [hkind]))
  case answered => exact ownerReply_signal hs haction htask hwait
  case trap => rw [ownerReply_signal hs haction htask hwait, State.signalAnswered, if_neg hn]

/-! ### Messages on their way (R326, R327, R334, R345) -/

/-- The oldest message of a cell's outbound buffer enters the mesh (R326). -/
theorem messageInjection_oldest {s : State} {f : Flight} {fs : List Flight} (hout : (s.cell s.cur.cell).outbuf = f :: fs) :
    exec .messageInjection s = .next { (s.modCell s.cur.cell fun x => { x with outbuf := fs }) with net := s.net ++ [f] } := by
  simp only [exec_messageInjection, execMessageInjection, hout, event]

/-- A flight that arrives passes whatever waits at its home: no earlier one has its way (R20). -/
theorem passes_of_arriving {s : State} {k : Nat} {f : Flight} (waits : Nat → Flight → Bool) (h : s.arriving k = some f) :
    s.passes k waits = some f := by
  rw [State.arriving, Option.filter_eq_some_iff, Bool.and_eq_true, Bool.not_eq_true', Bool.not_eq_true', List.any_eq_false] at h
  obtain ⟨hf, -, hfirst⟩ := h
  rw [State.passes, Option.filter_eq_some_iff, List.all_eq_true]
  refine ⟨hf, fun g hg => ?_⟩
  have hnone := hfirst g.1 (List.fst_mem_of_mem_zipIdx hg)
  cases hheld : s.heldFlight g.1
  case true => simp
  case false =>
    rw [hheld, Bool.not_false, Bool.and_true, Bool.not_eq_true] at hnone
    rw [hnone]; rfl

section
variable {s : State} {src : Place} {c : Nat} {m : Msg} (hs : s.brings src (.cell c) (.message m))
include hs

theorem messageArrival_cases :
    exec .messageArrival s = .next (match m.link with
      | some l => if m.hops = 0 && !(s.land s.cur.k).pairedAsid l m.tenant (epAsid m.target) then (s.land s.cur.k).returnMsg c m 2
          else (s.land s.cur.k).deliverMsg c m
      | none => (s.land s.cur.k).deliverMsg c m) := by
  simp only [exec_messageArrival, execMessageArrival, passes_of_arriving s.homeWaits hs, event]
  cases m.link with
  | none => rfl
  | some l => exact (apply_ite Host.Outcome.next ..).symm

/-- A message of this module is delivered (R327). -/
theorem messageArrival_delivers (hlink : m.link = none) : exec .messageArrival s = .next ((s.land s.cur.k).deliverMsg c m) := by
  rw [messageArrival_cases hs, hlink]

/-- One from across a link whose name's ASID is not paired there goes back (R327). -/
theorem messageArrival_unpaired {l : Nat} (hlink : m.link = some l) (hhops : m.hops = 0)
    (hpair : (s.land s.cur.k).pairedAsid l m.tenant (epAsid m.target) = false) :
    exec .messageArrival s = .next ((s.land s.cur.k).returnMsg c m 2) := by
  rw [messageArrival_cases hs, hlink]
  simp only [hhops, hpair]
  rfl

end

/-- An atomic for a peer that departed before it arrived goes back (R345). -/
def State.peerGone (s : State) (c : Nat) (a : Acc) : Bool := a.peer.isSome && !a.arrived && !s.peerPresent a c

section
variable {s : State} {src : Place} {c : Nat} {a : Acc}

/-- An atomic does not wait at its home: it has its turn in the order S, its context's order, and what it releases is done (R204, R205,
R214, R215). -/
theorem homeWaits_atomic_false {dst : Place} (hturn : a.sc = true → s.scWaits a = false) (horder : s.inOrder a = true)
    (hmeets : s.waitsFor s.cur.k src a = false) (hseen : s.seenWait (if a.peer.isSome then s.net.length else s.cur.k) a = false) :
    s.homeWaits s.cur.k { src := src, dst := dst, pay := .atomicReq a } = false := by
  have hsc : (a.sc && s.scWaits a) = false := by
    cases hs : a.sc
    · rfl
    · rw [hturn hs]; rfl
  simp only [State.homeWaits, hsc, horder, hmeets, hseen, Bool.not_true, Bool.or_self]

variable (hs : s.passes s.cur.k s.homeWaits = some { src := src, dst := .cell c, pay := .atomicReq a })
include hs

theorem atomicArrival_cases :
    exec .messageArrival s =
      if s.peerGone c a then .next ((s.land s.cur.k).send (.cell c) (.cell a.cell) (.peerAbsent a))
      else if s.homeWaits s.cur.k { src := src, dst := .cell c, pay := .atomicReq a } then .next (s.arrived s.cur.k)
      else .next ((s.land s.cur.k).arrive8 c (.atomic a)) := by
  simp only [exec_messageArrival, execMessageArrival, hs, event]
  rfl

theorem atomicArrival_absent (h : s.peerGone c a = true) :
    exec .messageArrival s = .next ((s.land s.cur.k).send (.cell c) (.cell a.cell) (.peerAbsent a)) := by
  rw [atomicArrival_cases hs, if_pos h]

variable (hthere : s.peerGone c a = false)
include hthere

theorem atomicArrival_waits (h : s.homeWaits s.cur.k { src := src, dst := .cell c, pay := .atomicReq a } = true) :
    exec .messageArrival s = .next (s.arrived s.cur.k) := by
  rw [atomicArrival_cases hs, hthere, h]; rfl

theorem atomicArrival_joins (h : s.homeWaits s.cur.k { src := src, dst := .cell c, pay := .atomicReq a } = false) :
    exec .messageArrival s = .next ((s.land s.cur.k).arrive8 c (.atomic a)) := by
  rw [atomicArrival_cases hs, hthere, h]; rfl

end

section
variable {s : State} {src : Place} {c n : Nat} {m : Msg} (hs : s.brings src (.cell c) (.returned m n))
include hs

/-- A returned message is a trap of its sender's context while its task is there (R327). -/
theorem returnedMessage_async (htask : (s.land s.cur.k).ctxTask c m.ctx = m.task)
    (hctx : ((s.land s.cur.k).ctxAt c m.ctx).st ≠ .idle) :
    exec .returnedMessageArrival s = .next ((s.land s.cur.k).addAsync c m.ctx m.region m.task
      { cause := 63, val := m.name, info := word n } none) := by
  rw [State.brings] at hs
  have hthere : (((s.land s.cur.k).ctxAt c m.ctx).st != .idle) = true := bne_iff_ne.mpr hctx
  simp only [exec_returnedMessageArrival, execReturnedMessageArrival, hs, htask, hthere, decide_true, Bool.and_true, if_true, event]

/-- Once its task has ended it is an event of its region. -/
theorem returnedMessage_event (htask : (s.land s.cur.k).ctxTask c m.ctx ≠ m.task) :
    exec .returnedMessageArrival s = .next ((s.land s.cur.k).pushEvent m.region c 8 m.task (word n) m.name m.header 0) := by
  rw [State.brings] at hs
  simp only [exec_returnedMessageArrival, execReturnedMessageArrival, hs, htask, decide_false, Bool.false_and, Bool.false_eq_true,
    if_false, event]

end

/-- An atomic's old value fills its destination, or lets the context that holds for it go on (R334). -/
theorem atomicResult_cases {s : State} {src dst : Place} {a : Acc} {old : Word} (hs : s.brings src dst (.atomicResult a old)) :
    exec .atomicResultArrival s = .next (if a.sc then (s.land s.cur.k).finishSc a [leBytes (tyBytes a.ty) old.toNat]
      else (s.land s.cur.k).fillDest a [leBytes (tyBytes a.ty) old.toNat]) := by
  rw [State.brings] at hs
  simp only [exec_atomicResultArrival, execAtomicResultArrival, hs, event]
  rfl

theorem messagesTravel : MessagesTravel := by
  intro s src c
  refine ⟨fun f fs => messageInjection_oldest, fun m hs => ⟨messageArrival_delivers hs, fun l => messageArrival_unpaired hs⟩,
    fun a => id fun hs => ⟨atomicArrival_absent hs, atomicArrival_waits hs, fun hthere hturn horder hmeets hseen => ?joins⟩,
    fun m n hs => ⟨returnedMessage_async hs, returnedMessage_event hs⟩,
    fun dst a old hs => ⟨fun hsc => ?fills, fun hsc => ?goesOn⟩⟩
  case joins => exact atomicArrival_joins hs hthere (homeWaits_atomic_false hturn horder hmeets hseen)
  case fills => rw [atomicResult_cases hs, hsc]; rfl
  case goesOn => rw [atomicResult_cases hs, hsc]; rfl

/-! ### Context 8's turns (R329, R330) -/

/-- The oldest request of a tenant in a cell's queue. -/
def State.oldest8 (s : State) (c t : Nat) : Option Req8 := (s.cell c).in8.find? fun q => s.reqTenant q == t

/-- The tenants whose oldest request a cell's context 8 can serve. -/
def State.served8 (s : State) (c : Nat) : List Nat :=
  (((s.cell c).in8.map s.reqTenant).eraseDups).filter fun t => ((s.oldest8 c t).map (s.canServe c)).getD false

/-- Context 8 serves the oldest request of the tenant chosen, which leaves the queue (R329). -/
theorem handlerRun_serves {s w : State} {t : Nat} {q : Req8} (hrun : (s.cell s.cur.cell).run8 = none)
    (ht : s.chooseTenant s.cur.cell .handler (s.served8 s.cur.cell) = some (t, w)) (hq : s.oldest8 s.cur.cell t = some q) :
    exec .handlerRun s = .next ((((w.modCell s.cur.cell fun x => { x with in8 := eraseFirst (· == q) x.in8 }).refill8
      s.cur.cell 64).spend s.cur.cell t .handler 1).serve s.cur.cell q) := by
  have hchosen : ∀ ts, ts = s.served8 s.cur.cell → s.chooseTenant s.cur.cell .handler ts = some (t, w) := fun _ h => h ▸ ht
  rw [State.oldest8] at hq
  simp only [exec_handlerRun, execHandlerRun, hrun, Option.isSome_none, Bool.false_eq_true, if_false, event]
  rw [hchosen]
  case a =>
    refine List.filter_congr fun t _ => ?_
    rw [State.oldest8]
    cases (s.cell s.cur.cell).in8.find? fun q => s.reqTenant q == t <;> rfl
  simp only [hq]

section
variable {s : State} {r : Run8} (hrun : (s.cell s.cur.cell).run8 = some r)
include hrun

/-- While a handler runs context 8 serves nothing. -/
theorem handlerRun_busy : exec .handlerRun s = .next s := by
  simp only [exec_handlerRun, execHandlerRun, hrun, Option.isSome_some, if_true, event]

/-- A handler is killed at its run cap, unless it stands frozen (R330). -/
theorem handlerCap_cases :
    exec .handlerCap s = .next (if s.clock < r.start + r.stopped + r.cap || (s.ctxAt s.cur.cell 8).frozen.isSome then s
      else s.kill s.cur.cell 8 6 false (s.ctxAt s.cur.cell 8).pc { cause := 0, val := 0, info := 0 }) := by
  simp only [exec_handlerCap, execHandlerCap, hrun, event]
  exact (apply_ite Host.Outcome.next ..).symm

end

theorem handlersRun : HandlersRun := by
  intro s
  refine ⟨fun t w q => handlerRun_serves, fun r hrun => ⟨handlerRun_busy hrun, fun hcap hfrozen => ?killed, fun hearly => ?early⟩⟩
  case killed =>
    rw [handlerCap_cases hrun, if_neg]
    simp [Nat.not_lt.mpr hcap, hfrozen]
  case early =>
    rw [handlerCap_cases hrun, if_pos]
    simp [hearly]

/-! ### An endpoint at its target (R337) -/

/-- The state with an endpoint's entry at a cell. -/
def State.putEndpoint (s : State) (c n region : Nat) (st : EpSt) : State :=
  s.modCell c fun y => { y with eps := Assoc.put n { region := region, st := st } y.eps }

section
variable {s : State} {src : Place} {c t n r asid i : Nat} {name task : Word}
  (hs : s.brings src (.cell t) (.epmov name n r asid c i task))
  (hmoving : Assoc.get? n ((s.land s.cur.k).cell c).eps = some { region := r, st := .moving })
include hs hmoving

/-- With no entry free at the target the endpoint stays, and `epmov` answers failure word 3. -/
theorem epmovTarget_full (hfree : ((s.land s.cur.k).cell t).freeEp = none) :
    exec .epmovTargetArrival s = .next (((s.land s.cur.k).putEndpoint c n r .resident).epmovAnswer c i task (failWord 3)) := by
  rw [State.brings] at hs
  simp only [exec_epmovTargetArrival, execEpmovTargetArrival, hs, hmoving, ne_eq, not_true_eq_false, if_false, hfree, event]
  rfl

/-- Else the target has a new entry, the old one is its stub, and the messages that wait go after it. -/
theorem epmovTarget_moves {k : Nat} (hfree : ((s.land s.cur.k).cell t).freeEp = some k) :
    let q := (s.land s.cur.k).takeRequests c fun m x => epNumber m.target == n && x == r
    exec .epmovTargetArrival s = .next ((q.1.foldl
      (fun s m => s.send (.cell c) (.cell t) (.message { m with target := mkEp asid k t }))
      ((q.2.putEndpoint t k r .resident).putEndpoint c n r (.stub (mkEp asid k t)))).epmovAnswer c i task (mkEp asid k t)) := by
  rw [State.brings] at hs
  simp only [exec_epmovTargetArrival, execEpmovTargetArrival, hs, hmoving, ne_eq, not_true_eq_false, if_false, hfree, event]
  rfl

end

theorem endpointsArrive : EndpointsArrive :=
  fun _ _ _ _ _ _ _ _ _ _ hs hmoving => ⟨epmovTarget_full hs hmoving, fun _ => epmovTarget_moves hs hmoving⟩

/-- Settles O38: owners, messages, context 8's turns, and endpoints that move. -/
theorem ownerAndMessageEventsActAsStated : Obligations.OwnerAndMessageEventsActAsStated :=
  ⟨ownersServeAndReply, messagesTravel, handlersRun, endpointsArrive⟩

end Sys2Proof.Machine
end

section
/-! PROOFS. The events of ports and hubs (R181, R256, R274, R297 to R305, R310 to R315, R321, R408, R412). -/
namespace Sys2Proof.Machine

/-! ### Offers at their slot (R300, R310, R321, R408) -/

/-- The state with an offer at the end of a hub slot's, in the hub's store or in the spill area. -/
def State.storeOffer (s : State) (c j : Nat) (o : Offer) (spilled : Bool) : State := s.modCell c fun y =>
  { y with
    nextKey := y.nextKey + 1
    hub := Assoc.modify j (fun h =>
      { h with dirty := true, offers := h.offers ++ [{ o with age := 0, arrival := y.nextKey, spilled := spilled }] }) y.hub }

/-- The state with an offer that no place is left for withdrawn, or, an action's, told to the region (R310). -/
def State.offerUnplaced (s : State) (c j : Nat) (h : HubSlot) (o : Offer) : State :=
  match o.by_ with
  | .ctx _ _ _ _ =>
    (s.dropAlts c o.group.toList).answerOffer c o j (.withdrawn (some 6)) { hub := c, slot := j, trans := 0, cycle := s.clock }
  | .action _ _ => s.pushEvent h.region c 3 0 5 (o.item.getD 0) 0 0

/-- Whether a hub slot is not the one that an offer was made to: another connector, another tenant, or no port of the offer's index
(R321). -/
def HubSlot.foreign (h : HubSlot) (conn tenant : Nat) (o : Offer) : Bool :=
  h.conn ≠ conn || h.tenant ≠ tenant || (h.image.entry o.port).isNone

/-- The state with an offer that has reached a loaded hub slot. -/
def State.offerAt (s : State) (c j : Nat) (h : HubSlot) (conn tenant region : Nat) (o : Offer) : State :=
  if h.foreign conn tenant o then s.frBump region c 0x20 1
  else if (s.cell c).storedOffers < 512 then s.storeOffer c j o false
  else match s.charge h.region 32 with
    | some v => v.storeOffer c j o true
    | none => s.offerUnplaced c j h o

section
variable {s : State} {c j conn tenant region : Nat} {h : HubSlot} {o : Offer}

theorem foreign_iff : h.foreign conn tenant o = true ↔ h.conn ≠ conn ∨ h.tenant ≠ tenant ∨ h.image.entry o.port = none := by
  simp [HubSlot.foreign, or_assoc]

theorem foreign_eq_false (hconn : h.conn = conn) (htenant : h.tenant = tenant) (hport : (h.image.entry o.port).isSome = true) :
    h.foreign conn tenant o = false := by
  simpa [HubSlot.foreign, hconn, htenant] using hport

theorem offerAt_gone (hgone : h.foreign conn tenant o = true) :
    s.offerAt c j h conn tenant region o = s.frBump region c 0x20 1 := by
  rw [State.offerAt, if_pos hgone]

section
variable (hown : h.foreign conn tenant o = false)
include hown

theorem offerAt_stored (hroom : (s.cell c).storedOffers < 512) :
    s.offerAt c j h conn tenant region o = s.storeOffer c j o false := by
  rw [State.offerAt, hown, if_neg Bool.false_ne_true, if_pos hroom]

variable (hfull : 512 ≤ (s.cell c).storedOffers)
include hfull

theorem offerAt_spilled {v : State} (hv : s.charge h.region 32 = some v) :
    s.offerAt c j h conn tenant region o = v.storeOffer c j o true := by
  rw [State.offerAt, hown, if_neg Bool.false_ne_true, if_neg (Nat.not_lt.mpr hfull), hv]

theorem offerAt_unplaced (hv : s.charge h.region 32 = none) :
    s.offerAt c j h conn tenant region o = s.offerUnplaced c j h o := by
  rw [State.offerAt, hown, if_neg Bool.false_ne_true, if_neg (Nat.not_lt.mpr hfull), hv]

end

end

section
variable {s : State} {k c j conn tenant region : Nat} {o : Offer}

section
variable (hs : s.brings (.cell k) (.cell c) (.offer o conn tenant j region))
include hs

/-- An offer of this module comes to the slot that it names. -/
theorem offerArrival_noSlot (hslot : (s.land s.cur.k).hubSlot c j = none) :
    exec .offerArrival s = .next ((s.land s.cur.k).frBump region c 0x20 1) := by
  rw [State.brings] at hs
  simp only [exec_offerArrival, execOfferArrival, hs, hslot, Option.isSome_none, Bool.false_eq_true, if_false, Option.bind_none,
    Option.bind_some, Option.map_none, event]

theorem offerArrival_slot {h : HubSlot} (hslot : (s.land s.cur.k).hubSlot c j = some h) :
    exec .offerArrival s = .next ((s.land s.cur.k).offerAt c j h conn tenant region o) := by
  rw [State.brings] at hs
  simp only [exec_offerArrival, execOfferArrival, hs, hslot, Option.isSome_none, Bool.false_eq_true, if_false, Option.bind_none,
    Option.bind_some, Option.map_some, State.offerAt, HubSlot.foreign, event]
  refine (ite_congr rfl (fun _ => rfl) fun _ => ?_).trans (apply_ite Host.Outcome.next ..).symm
  refine (ite_congr rfl (fun _ => rfl) fun _ => ?_).trans (apply_ite Host.Outcome.next ..).symm
  cases (s.land s.cur.k).charge h.region 32 with
  | some v => rfl
  | none =>
    rw [State.offerUnplaced]
    obtain ⟨port, name, item, by_, alt, link, age, arrival, spilled, tenant⟩ := o
    cases by_ <;> rfl

end

section
variable {l : Nat} (hs : s.brings (.link l) (.cell c) (.offer o conn tenant j region))
include hs

/-- One from across a link is refused where its port may not be offered at from there (R408). -/
theorem offerArrival_refused {r : Nat} (hr : (s.land s.cur.k).linkedReason tenant (mkPort conn o.port) = some r) :
    exec .offerArrival s = .next ((s.land s.cur.k).answerOffer c { o with link := some l } 0 (.withdrawn (some r))
      { hub := c, slot := 0, trans := 0, cycle := (s.land s.cur.k).clock }) := by
  rw [State.brings] at hs
  simp only [exec_offerArrival, execOfferArrival, hs, Option.bind_some, hr, event]
  rfl

/-- Else it is stored at the slot of its port for the tenant of its share. -/
theorem offerArrival_linked {d i : Nat} {h : HubSlot} (hr : (s.land s.cur.k).linkedReason tenant (mkPort conn o.port) = none)
    (hport : (s.land s.cur.k).lookup tenant (mkPort conn o.port) = some (d, i)) (hslot : (s.land s.cur.k).hubSlot d i = some h)
    (hown : h.foreign conn tenant o = false) (hroom : ((s.land s.cur.k).cell d).storedOffers < 512) :
    exec .offerArrival s = .next ((s.land s.cur.k).storeOffer d i { o with link := some l } false) := by
  rw [State.brings] at hs
  rw [HubSlot.foreign] at hown
  simp only [exec_offerArrival, execOfferArrival, hs, Option.bind_some, hr, Option.isSome_some, if_true, hport, hslot, Option.map_some,
    hown, Bool.false_eq_true, if_false, hroom, event]
  rfl

end

end

theorem offersAreStored : OffersAreStored := by
  intro s k c j conn tenant region o
  refine ⟨fun l hs => ⟨fun r => offerArrival_refused hs, fun d i h hr hport hslot hconn htenant hentry hroom => ?linked⟩,
    fun hs => ⟨offerArrival_noSlot hs, fun h hslot => ?atSlot⟩⟩
  case linked => exact offerArrival_linked hs hr hport hslot (foreign_eq_false hconn htenant hentry) hroom
  case atSlot =>
    rw [offerArrival_slot hs hslot]
    refine ⟨fun hgone => congrArg _ (offerAt_gone (foreign_iff.mpr hgone)), fun hconn htenant hentry => ?taken⟩
    have hown : h.foreign conn tenant o = false := foreign_eq_false hconn htenant hentry
    refine ⟨fun hroom => congrArg _ (offerAt_stored hown hroom), fun hfull => ⟨fun v hv => congrArg _ (offerAt_spilled hown hfull hv),
      fun hv => ?unplaced⟩⟩
    rw [offerAt_unplaced hown hfull hv, State.offerUnplaced]
    exact ⟨fun a i t n hby => by rw [hby], fun a q hby => by rw [hby]⟩

/-! ### Items at their FIFO (R297, R298, R312, R321, R412) -/

/-- A hub slot that holds the output end of a FIFO of a connector. -/
def State.fifoSlot (s : State) (c tenant conn number : Nat) : Option (Nat × HubSlot) := (s.cell c).hub.find? fun h =>
  h.2.tenant == tenant && h.2.conn == conn && h.2.image.fifos.any fun q => q.here && q.number == number

/-- The entry of that end in its slot. -/
def HubSlot.fifoEntry (h : HubSlot) (number : Nat) : Nat := (indexWhere (fun q => q.here && q.number == number) h.image.fifos).getD 0

/-- Whether a FIFO entry holds the n items that stay in its hub (R297). -/
def HubSlot.fifoFull (h : HubSlot) (e : Nat) : Bool := ((h.image.fifos[e]?).map (·.cap)).getD 0 ≤ ((h.fifo[e]?).map (·.length)).getD 0

/-- The state with a hub slot changed, and dirty. -/
def State.changeSlot (s : State) (c j : Nat) (g : HubSlot → HubSlot) : State := s.modCell c fun y =>
  { y with hub := Assoc.modify j (fun h => { g h with dirty := true }) y.hub }

/-- The state with an item at the end of a full FIFO, in the spill area, where its region has the budget and the place for it
(R297, R412). -/
def State.spillItem (s : State) (c j : Nat) (h : HubSlot) (e : Nat) (item : Word) : Option State :=
  (s.charge h.region 8).bind fun v => (v.spillPlace h.region c 8 8).map fun a =>
    (v.spillWrite c a (leBytes 8 item.toNat)).changeSlot c j fun h => { h with beyond := modifyAt (· ++ [a]) e h.beyond }

section
variable {s : State} {src : Place} {c tenant conn region number : Nat} {item name : Word} {fwd : List Offer} {cut : Bool} {f : FiringAt}
  (hs : s.brings src (.cell c) (.fifoItem tenant conn region number item name fwd cut f))
include hs

theorem fifoItem_gone (hslot : (s.land s.cur.k).fifoSlot c tenant conn number = none) :
    exec .fifoItemArrival s = .next (((s.land s.cur.k).frBump region c 0x20 1).fifoAnswers c fwd cut f .gone) := by
  rw [State.brings] at hs
  rw [State.fifoSlot] at hslot
  simp only [exec_fifoItemArrival, execFifoItemArrival, hs, hslot, event]

section
variable {j : Nat} {h : HubSlot} (hslot : (s.land s.cur.k).fifoSlot c tenant conn number = some (j, h))
include hslot

/-- A FIFO with room in its hub takes the item there. -/
theorem fifoItem_stays (hroom : h.fifoFull (h.fifoEntry number) = false) :
    exec .fifoItemArrival s = .next (((s.land s.cur.k).changeSlot c j fun y =>
      { y with fifo := modifyAt (· ++ [item]) (h.fifoEntry number) y.fifo }).fifoAnswers c fwd cut f .took) := by
  rw [State.brings] at hs
  rw [State.fifoSlot] at hslot
  rw [HubSlot.fifoFull, HubSlot.fifoEntry, decide_eq_false_iff_not, Nat.not_le] at hroom
  simp only [exec_fifoItemArrival, execFifoItemArrival, hs, hslot, hroom, if_true, event]
  rfl

variable (hfull : h.fifoFull (h.fifoEntry number) = true)
include hfull

/-- Else the spill area takes it, or it is discarded and its region told. -/
theorem fifoItem_full :
    exec .fifoItemArrival s = .next (match (s.land s.cur.k).spillItem c j h (h.fifoEntry number) item with
      | some v => v.fifoAnswers c fwd cut f .took
      | none => ((s.land s.cur.k).pushEvent h.region c 3 0 4 item name 0).fifoAnswers c fwd cut f .cut) := by
  rw [State.brings] at hs
  rw [State.fifoSlot] at hslot
  rw [HubSlot.fifoFull, HubSlot.fifoEntry, decide_eq_true_eq, ← Nat.not_lt] at hfull
  simp only [exec_fifoItemArrival, execFifoItemArrival, hs, hslot, hfull, if_false, event]
  rw [State.spillItem]
  cases (s.land s.cur.k).charge h.region 8 with
  | none => rfl
  | some v =>
    rw [Option.bind_some, Option.bind_some]
    cases v.spillPlace h.region c 8 8 <;> rfl

end

end

section
variable {s : State} {c j e : Nat} {h : HubSlot} {item : Word}

theorem spillItem_noBudget (hv : s.charge h.region 8 = none) : s.spillItem c j h e item = none := by
  rw [State.spillItem, hv]; rfl

section
variable {v : State} (hv : s.charge h.region 8 = some v)
include hv

theorem spillItem_noPlace (ha : v.spillPlace h.region c 8 8 = none) : s.spillItem c j h e item = none := by
  rw [State.spillItem, hv, Option.bind_some, ha]; rfl

theorem spillItem_placed {a : Nat} (ha : v.spillPlace h.region c 8 8 = some a) :
    s.spillItem c j h e item = some ((v.spillWrite c a (leBytes 8 item.toNat)).changeSlot c j fun h =>
      { h with beyond := modifyAt (· ++ [a]) e h.beyond }) := by
  rw [State.spillItem, hv, Option.bind_some, ha]; rfl

end

end


/-- The flight of an item that a `put` waits for: one of the same firing whose offer went only to FIFOs (R312). -/
def Flight.carries (o : Offer) (f : FiringAt) (g : Flight) : Bool := match g.pay with
  | .fifoItem _ _ _ _ _ _ os _ e => e == f && os.contains o
  | _ => false

/-- Such a flight with its offers and its mark changed. -/
def Flight.changeItem (o : Offer) (f : FiringAt) (k : List Offer → Bool → List Offer × Bool) (g : Flight) : Flight := match g.pay with
  | .fifoItem a b r n item name os cut e =>
    if e = f && os.contains o then { g with pay := .fifoItem a b r n item name (k os cut).1 (k os cut).2 e } else g
  | _ => g

section
variable {s : State} {c : Nat} {o : Offer} {cut : Bool} {f : FiringAt}

/-- A `put` whose item a FIFO took answers 1, and the other items of its offer answer nothing more. -/
theorem fifoAnswers_took :
    s.fifoAnswers c [o] cut f .took =
      ({ s with net := s.net.map (Flight.changeItem o f fun os z => (os.filter (· != o), z)) } : State).answerOffer c o f.slot
        (.fired none 1) f := rfl

section
variable (hmore : s.net.any (Flight.carries o f) = true)
include hmore

/-- While another item of its offer is under way a `put` has no answer yet; that one was discarded is marked. -/
theorem fifoAnswers_gone_waits : s.fifoAnswers c [o] cut f .gone = s := (if_pos hmore : _)

theorem fifoAnswers_cut_waits :
    s.fifoAnswers c [o] cut f .cut = { s with net := s.net.map (Flight.changeItem o f fun os _ => (os, true)) } := (if_pos hmore : _)

end

section
variable (hlast : s.net.any (Flight.carries o f) = false)
include hlast

theorem fifoAnswers_gone_last :
    s.fifoAnswers c [o] cut f .gone = s.answerOffer c o f.slot (.fired none (if cut then 2 else 0)) f := by
  refine (if_neg (ne_true_of_eq_false hlast)).trans ?_
  cases cut <;> rfl

theorem fifoAnswers_cut_last : s.fifoAnswers c [o] cut f .cut = s.answerOffer c o f.slot (.fired none 2) f := by
  refine (if_neg (ne_true_of_eq_false hlast)).trans ?_
  cases cut <;> rfl

end

end

theorem itemsReachTheirFifo : ItemsReachTheirFifo := by
  intro s src c tenant conn region number item name fwd cut f
  refine ⟨fun hs => ⟨fifoItem_gone hs, fun j h hslot => ⟨fifoItem_stays hs hslot, fun hfull => ⟨fun hv => ?noBudget, fun v hv =>
    ⟨fun ha => ?noPlace, fun a ha => ?spilt⟩⟩⟩⟩, fun o => ⟨fifoAnswers_took, fun hmore => ⟨fifoAnswers_gone_waits hmore,
    fifoAnswers_cut_waits hmore⟩, fun hlast => ⟨fifoAnswers_gone_last hlast, fifoAnswers_cut_last hlast⟩⟩⟩
  case noBudget => exact (fifoItem_full hs hslot hfull).trans (by rw [spillItem_noBudget hv])
  case noPlace => exact (fifoItem_full hs hslot hfull).trans (by rw [spillItem_noPlace hv ha])
  case spilt => exact (fifoItem_full hs hslot hfull).trans (by rw [spillItem_placed hv ha]; rfl)

/-! ### Cancels (R303, R314) -/

/-- Whether an offer is one of this module that a context's instruction made. -/
def Offer.ofCtx (o : Offer) (cell i : Nat) (task : Word) : Bool := o.link == none && (match o.by_ with
  | .ctx a j t _ => a == cell && j == i && t == task
  | .action _ _ => false)

/-- The state with those of a hub's offers withdrawn. -/
def State.withdraw (s : State) (c cell i : Nat) (task : Word) : State :=
  ((s.cell c).hub.map (·.1)).foldl (fun s j => s.removeOffers c j fun o => o.ofCtx cell i task) s

/-- Whether one of them has fired: its completion is on its way, or an item that completes it. -/
def State.hasFired (s : State) (cell i : Nat) (task : Word) : Bool := s.net.any fun g => match g.pay with
  | .portDone o _ _ _ => o.ofCtx cell i task
  | .fifoItem _ _ _ _ _ _ fwd _ _ => fwd.any fun o => o.ofCtx cell i task
  | _ => false

/-- The first of them that has not come to its hub. -/
def State.stillComing (s : State) (cell i : Nat) (task : Word) : Option Flight := s.net.find? fun g => match g.pay with
  | .offer o _ _ _ _ => Offer.ofCtx { o with link := match g.src with
      | .link l => some l
      | _ => none } cell i task
  | _ => false

/-- The offer in whose name a hub answers a cancel. -/
def cancelledOffer (cell i : Nat) (task : Word) (tenant : Nat) : Offer where
  port := 0
  name := 0
  item := none
  by_ := .ctx cell i task 0
  alt := none
  link := none
  age := 0
  arrival := 0
  spilled := false
  tenant := tenant

section
variable {s : State} {k c cell i n tenant : Nat} {task : Word} (hs : s.brings (.cell k) (.cell c) (.hubCancel cell i task n tenant))
include hs

/-- A cancel withdraws the offers that it names; then it is answered by what has fired, follows what is still coming, or has the hub's
answer. -/
theorem hubCancel_cases :
    let t := (s.land s.cur.k).withdraw c cell i task
    exec .hubCancelArrival s = .next (if t.hasFired cell i task then t
      else match t.stillComing cell i task with
        | some g => t.send (.cell k) g.dst (.hubCancel cell i task n tenant)
        | none => t.answerOffer c (cancelledOffer cell i task tenant) 0 (.withdrawn none)
            { hub := c, slot := 0, trans := 0, cycle := t.clock }) := by
  intro t
  rw [State.brings] at hs
  rw [exec_hubCancelArrival, execHubCancelArrival, hs]
  refine (ite_congr rfl (fun _ => rfl) fun _ => ?_).trans (apply_ite Host.Outcome.next ..).symm
  split
  next g hg => rw [show t.stillComing cell i task = some g from hg]; rfl
  next hnone => rw [show t.stillComing cell i task = none from Option.eq_none_iff_forall_ne_some.mpr hnone]; rfl

/-- What has fired is the answer. -/
theorem hubCancel_fired (hfired : ((s.land s.cur.k).withdraw c cell i task).hasFired cell i task = true) :
    exec .hubCancelArrival s = .next ((s.land s.cur.k).withdraw c cell i task) :=
  (hubCancel_cases hs).trans (congrArg _ (if_pos hfired))

section
variable (hfired : ((s.land s.cur.k).withdraw c cell i task).hasFired cell i task = false)
include hfired

theorem hubCancel_follows {g : Flight} (hg : ((s.land s.cur.k).withdraw c cell i task).stillComing cell i task = some g) :
    exec .hubCancelArrival s = .next (((s.land s.cur.k).withdraw c cell i task).send (.cell k) g.dst
      (.hubCancel cell i task n tenant)) := by
  rw [hubCancel_cases hs, hfired, hg]; rfl

theorem hubCancel_answered (hnone : ((s.land s.cur.k).withdraw c cell i task).stillComing cell i task = none) :
    exec .hubCancelArrival s = .next (((s.land s.cur.k).withdraw c cell i task).answerOffer c (cancelledOffer cell i task tenant) 0
      (.withdrawn none) { hub := c, slot := 0, trans := 0, cycle := ((s.land s.cur.k).withdraw c cell i task).clock }) := by
  rw [hubCancel_cases hs, hfired, hnone]; rfl

end

end

theorem cancelsWithdrawOffers : CancelsWithdrawOffers :=
  fun _ _ _ _ _ _ _ _ hs => ⟨hubCancel_fired hs, fun _ hfired => hubCancel_follows hs hfired, hubCancel_answered hs⟩

/-! ### Decisions and stage governors (R256, R274, R311) -/

/-- Whether a hub slot is due for a decision: dirty, not busy, and its region not parked. -/
def State.slotDue (s : State) (c j : Nat) : Bool := match Assoc.get? j (s.cell c).hub with
  | some h => h.dirty && h.busyUntil ≤ s.clock && !s.isParked h.region
  | none => false

/-- The slot whose turn it is. -/
def State.nextSlot (s : State) (c : Nat) : Option Nat :=
  ((List.range 16).map fun k => ((s.cell c).hubNext + k) % 16).find? (s.slotDue c)

section
variable {s : State}

/-- A hub decides the slot whose turn it is (R311). -/
theorem decide_cases : exec .decide s = match s.nextSlot s.cur.cell with
    | none => .next s
    | some j => match Assoc.get? j (s.cell s.cur.cell).hub with
      | none => .next s
      | some h => .next ((s.setCell s.cur.cell { s.cell s.cur.cell with hubNext := (j + 1) % 16 }).decide s.cur.cell j h) := rfl

theorem decide_idle (hnext : s.nextSlot s.cur.cell = none) : exec .decide s = .next s := by
  rw [decide_cases, hnext]

theorem decide_due {j : Nat} {h : HubSlot} (hnext : s.nextSlot s.cur.cell = some j)
    (hslot : Assoc.get? j (s.cell s.cur.cell).hub = some h) :
    exec .decide s = .next ((s.setCell s.cur.cell { s.cell s.cur.cell with hubNext := (j + 1) % 16 }).decide s.cur.cell j h) := by
  rw [decide_cases, hnext]
  simp only [hslot]

end

/-- The items that wait in the FIFO ends of a stage's slot (R256). -/
def HubSlot.waiting (h : HubSlot) : Nat := ((List.range h.image.fifos.length).map fun k =>
  if ((h.image.fifos[k]?).map (·.here)).getD false then h.held k else 0).sum

/-- The candidates that are not eligible. -/
def State.idleCandidates (s : State) (h : HubSlot) : List Nat := (s.candidates h).filter fun k => !h.eligible.contains k

/-- The eligible cells after a sample: one more above the high mark, one less below the low mark (R256). -/
def State.sampledEligible (s : State) (h : HubSlot) (ty : TaskType) : List Nat :=
  if ty.high < h.waiting && !(s.idleCandidates h).isEmpty then
    (s.candidates h).filter fun k => h.eligible.contains k || some k == (s.idleCandidates h).head?
  else if h.waiting < ty.low && 1 < h.eligible.length then h.eligible.dropLast
  else h.eligible

/-- The state with a stage's slot sampled. -/
def State.governed (s : State) (d j : Nat) (el : List Nat) : State := s.modCell d fun x =>
  { x with hub := Assoc.modify j (fun h => { h with eligible := el, sampled := s.clock }) x.hub }

section
variable {s : State} {d j : Nat} {h : HubSlot} {ty : TaskType}

section
variable (hslot : s.hubSlot d j = some h) (hty : h.image.actor.bind (s.taskType h.tenant) = some ty)
include hslot hty

theorem stageGovernor_early (hearly : s.clock < h.sampled + 256) : exec (.stageGovernor d j) s = .next s := by
  simp only [exec_stageGovernor, execStageGovernor, hslot, hty, hearly, if_true, event]

theorem stageGovernor_due (hdue : h.sampled + 256 ≤ s.clock) :
    exec (.stageGovernor d j) s = .next (s.governed d j (s.sampledEligible h ty)) := by
  simp only [exec_stageGovernor, execStageGovernor, hslot, hty, Nat.not_lt.mpr hdue, if_false, event]
  rfl

end

/-- Above the high mark the lowest idle candidate becomes eligible. -/
theorem sampledEligible_adds {k : Nat} (hidle : (s.idleCandidates h).head? = some k) (hhigh : ty.high < h.waiting) :
    s.sampledEligible h ty = (s.candidates h).filter fun n => h.eligible.contains n || n == k := by
  have hsome : (s.idleCandidates h).isEmpty = false := by
    cases hl : s.idleCandidates h
    · rw [hl] at hidle; cases hidle
    · rfl
  rw [State.sampledEligible, hsome, hidle, if_pos (by simp [hhigh])]
  rfl

section
variable (hnot : h.waiting ≤ ty.high ∨ s.idleCandidates h = [])
include hnot

theorem sampledEligible_notAdded :
    s.sampledEligible h ty = if h.waiting < ty.low && 1 < h.eligible.length then h.eligible.dropLast else h.eligible := by
  rw [State.sampledEligible, if_neg]
  rcases hnot with h | h
  · simp [Nat.not_lt.mpr h]
  · simp [h]

/-- Below the low mark the last eligible cell is taken away, but never the only one. -/
theorem sampledEligible_drops (hlow : h.waiting < ty.low) (hmore : 1 < h.eligible.length) :
    s.sampledEligible h ty = h.eligible.dropLast := by
  rw [sampledEligible_notAdded hnot, if_pos (by simp [hlow, hmore])]

theorem sampledEligible_stays (hlow : ty.low ≤ h.waiting ∨ h.eligible.length ≤ 1) : s.sampledEligible h ty = h.eligible := by
  rw [sampledEligible_notAdded hnot, if_neg]
  rcases hlow with h | h <;> simp [Nat.not_lt.mpr h]

end

end

theorem hubsDecideInTurn : HubsDecideInTurn := by
  intro s
  refine ⟨decide_idle, fun j h => decide_due, fun d j h ty hslot hty => ⟨stageGovernor_early hslot hty, fun hdue => ?due⟩⟩
  case due =>
    rw [stageGovernor_due hslot hty hdue]
    refine ⟨fun k hidle hhigh => ?adds, fun hnot => ⟨fun hlow hmore => ?drops, fun hlow => ?stays⟩⟩
    case adds => exact congrArg _ (congrArg _ (sampledEligible_adds hidle hhigh))
    case drops => exact congrArg _ (congrArg _ (sampledEligible_drops hnot hlow hmore))
    case stays => exact congrArg _ (congrArg _ (sampledEligible_stays hnot hlow))


/-! ### A hub's answers (R181, R302, R303, R314, R315) -/

/-- The state with a hub's answer taken by the port instruction that waits for it: a firing completes it (R302), a reason is its port
fault (R303), and one that was cancelled issues again (R314). -/
def State.portAnswered (s : State) (c i n : Nat) (d : SReg) (slots : List Nat) (run : Option SReg) (b z : Bool) : PortEnd → State
  | .fired item st => s.modCtx c i fun x => x.portResult d slots run b n item st
  | .withdrawn (some r) => s.takeTrap c i (portFault (word n) r)
  | .withdrawn none => if z then s.modCtx c i fun x => { x with st := .running } else s

section
variable {s : State} {src : Place} {c j k i n : Nat} {task : Word} {o : Offer} {f : FiringAt}

section
variable (hby : o.by_ = .ctx k i task n)
include hby

/-- A firing that finds its task gone is lost (R315). -/
theorem portCompletion_lost {item : Option Word} {st : Nat} (hs : s.brings src (.cell c) (.portDone o j (.fired item st) f))
    (htask : (s.land s.cur.k).ctxTask c i ≠ task) :
    exec .portCompletionArrival s = .next ((s.land s.cur.k).lostFiring c o task (item.getD (word st)) f) := by
  rw [State.brings] at hs
  simp only [exec_portCompletionArrival, execPortCompletionArrival, hs, hby, beq_false_of_ne htask, Bool.false_and, Bool.false_eq_true,
    if_false, event]
  cases ((s.land s.cur.k).ctxAt c i).st with
  | waiting w => cases w <;> rfl
  | _ => rfl

/-- Any other answer is the waiting instruction's. -/
theorem portCompletion_waiting {e : PortEnd} {d : SReg} {slots : List Nat} {run : Option SReg} {b z : Bool} (hi : i < 8)
    (hs : s.brings src (.cell c) (.portDone o j e f)) (htask : (s.land s.cur.k).ctxTask c i = task)
    (hwait : ((s.land s.cur.k).ctxAt c i).st = .waiting (.port d slots run b z)) :
    exec .portCompletionArrival s = .next ((s.land s.cur.k).portAnswered c i n d slots run b z e) := by
  rw [State.brings] at hs
  simp only [exec_portCompletionArrival, execPortCompletionArrival, hs, hby, hwait, htask, beq_self_eq_true, hi, decide_true,
    Bool.and_self, if_true, event]
  cases e with
  | fired item st => rfl
  | withdrawn r => cases r with
    | some r => rfl
    | none => cases z <;> rfl

end

/-- A completion action whose offer is refused has that fault (R181, R408). -/
theorem portCompletion_action {r : Nat} {e : EndAct} (hby : o.by_ = .action k e)
    (hs : s.brings src (.cell c) (.portDone o j (.withdrawn (some r)) f)) :
    exec .portCompletionArrival s = .next ((s.land s.cur.k).actFault c e (portFault o.name r)) := by
  rw [State.brings] at hs
  simp only [exec_portCompletionArrival, execPortCompletionArrival, hs, hby, event]

end

/-! ### Binding at the home hub (R300, R305) -/

section
variable {s : State} {k hub c i n region tenant : Nat} {task name : Word}

section
variable (hs : s.brings (.cell k) (.cell hub) (.pbind c i task n name region tenant))
include hs

theorem pbindRequest_refused {r : Nat} (hr : (s.land s.cur.k).bindReason tenant region hub name false = some r) :
    exec .pbindRequestArrival s = .next ((s.land s.cur.k).bindAnswer c i task n name none r) := by
  rw [State.brings] at hs
  simp only [exec_pbindRequestArrival, execPbindRequestArrival, hs, hr, Bool.false_eq_true, if_false, event]

/-- A binding is recorded for the context that waits, which has its slot (R305). -/
theorem pbindRequest_binds (hr : (s.land s.cur.k).bindReason tenant region hub name false = none)
    (htask : (s.land s.cur.k).ctxTask c i = task) (hwait : ((s.land s.cur.k).ctxAt c i).bindWaits = true) :
    exec .pbindRequestArrival s = .next (((s.land s.cur.k).recordBind hub
      { name := name, tenant := tenant, cell := c, ctx := i, slot := n, task := task }).bindAnswer c i task n name
        ((s.land s.cur.k).boundSlot tenant name false) 0) := by
  rw [State.brings] at hs
  simp only [exec_pbindRequestArrival, execPbindRequestArrival, hs, hr, htask, hwait, beq_self_eq_true, Bool.and_self, Bool.or_true,
    if_true, Bool.false_eq_true, if_false, event]

end

/-- One from across a link is refused across it. -/
theorem pbindRequest_refusedAcross {l r : Nat} (hs : s.brings (.link l) (.cell hub) (.pbind c i task n name region tenant))
    (hr : (s.land s.cur.k).bindReason tenant region hub name true = some r) :
    exec .pbindRequestArrival s = .next ((s.land s.cur.k).send (.cell hub) (.link l) (.pbindAnswer c i task n name none r tenant)) := by
  rw [State.brings] at hs
  simp only [exec_pbindRequestArrival, execPbindRequestArrival, hs, hr, if_true, event]

/-- The answer from across a link is the waiting context's. -/
theorem pbindRequest_answer {src : Place} {p : Option PortSlot} {r : Nat}
    (hs : s.brings src (.cell c) (.pbindAnswer k i task n name p r tenant)) :
    exec .pbindRequestArrival s = .next ((s.land s.cur.k).bindAnswer c i task n name p r) := by
  rw [State.brings] at hs
  simp only [exec_pbindRequestArrival, execPbindRequestArrival, hs, event]

end

theorem hubsAnswer : HubsAnswer := by
  intro s src c
  refine ⟨fun o j f k i n task hby hi => ⟨fun item st d slots run b z hs => portCompletion_waiting hby hi hs,
      fun item st hs => portCompletion_lost hby hs, fun r d slots run b z hs => portCompletion_waiting hby hi hs,
      fun d slots run b hs => portCompletion_waiting hby hi hs⟩,
    fun o j k r e f hby hs => portCompletion_action hby hs,
    fun k hub i n region tenant task name => ⟨fun r hs => pbindRequest_refused hs, fun hs => pbindRequest_binds hs,
      fun l r hs => pbindRequest_refusedAcross hs, fun p r hs => pbindRequest_answer hs⟩⟩

/-- Settles O41: offers, FIFO items, cancels, decisions and stage governors, and the hubs' answers. -/
theorem hubEventsActAsStated : Obligations.HubEventsActAsStated :=
  ⟨offersAreStored, itemsReachTheirFifo, cancelsWithdrawOffers, hubsDecideInTurn, hubsAnswer⟩

end Sys2Proof.Machine
end

section
/-! PROOFS. Atomics and the accesses of the order S at their issue (R213, R214, R218, R230, R234, R330, R333, R334). -/
namespace Sys2Proof.Machine

/-! ### An effect that makes a check and goes on -/

section
variable {i : Instr} {g : Guard} {s : State}

/-- An effect that stops ends as its stop says. -/
theorem Effect.stops {e : Stop} (h : Effect i g s (.error e)) : Stops i g s e := by
  cases e <;> exact h

variable {r : Unit → Res}

/-- An effect that begins with a condition to stall on stalls where it holds. -/
theorem Effect.stalled {b : Bool} (h : Effect i g s (stallIf b >>= r)) (hb : b = true) : Stalls i g s := by
  subst hb; exact h

/-- It is what follows where it does not. -/
theorem Effect.unstalled {b : Bool} (h : Effect i g s (stallIf b >>= r)) (hb : b = false) : Effect i g s (r ()) := by
  subst hb; exact h

theorem Effect.stopped {o : Option Stop} {e : Stop} (h : Effect i g s (stopIf o >>= r)) (ho : o = some e) : Stops i g s e := by
  subst ho; exact h.stops

theorem Effect.unstopped {o : Option Stop} (h : Effect i g s (stopIf o >>= r)) (ho : o = none) : Effect i g s (r ()) := by
  subst ho; exact h

theorem Effect.trapped {o : Option TrapInfo} {t : TrapInfo} (h : Effect i g s (trapIf o >>= r)) (ho : o = some t) :
    Traps i g s t := by
  subst ho; exact h

theorem Effect.untrapped {o : Option TrapInfo} (h : Effect i g s (trapIf o >>= r)) (ho : o = none) : Effect i g s (r ()) := by
  subst ho; exact h

end

/-! ### An atomic that is announced (R213, R218, R326, R334) -/

/-- The cell of the first piece of an access, to which the message of an announced atomic goes. -/
def Acc.homePlace (a : Acc) : Place := .cell (homeCell (((a.pieces.head?).map (·.home)).getD 0))

/-- The state in which an atomic of a cell is announced, its message on its way to its home and its context waiting. -/
def State.announcedAtomic (u : State) (b : Acc) (c : Nat) : State :=
  ((u.announceAcc b).post c b.homePlace (.atomicReq b)).modMe fun y => { y with seq := y.seq + 1, st := .waiting .sc, stalled := false }

section
variable {i : Instr} {g : Guard} {s u : State} {b : Acc}

/-- An atomic is announced once the outbound buffer takes its message. -/
theorem Effect.announcesAtomic (h : Effect i g s (u.announceWhen b)) (hb : b.isAtomic = true) :
    (u.outHeld b.cell b.homePlace = true → Stalls i g s)
      ∧ (u.outHeld b.cell b.homePlace = false → Becomes i g s (u.announcedAtomic b b.cell)) := by
  have hheld : u.scLeaveHeld b = u.outHeld b.cell b.homePlace := by rw [State.scLeaveHeld, hb]; rfl
  have hgoes : u.announce b = u.announcedAtomic b b.cell := by rw [State.announce, State.sendSc, if_pos hb]; rfl
  rw [State.announceWhen, hheld, hgoes] at h
  exact ⟨h.stalled, fun hfree => h.unstalled hfree⟩

/-- A load or a store is announced at once. -/
theorem Effect.announces (h : Effect i g s (u.announceWhen b)) (hb : b.isAtomic = false) : Becomes i g s (u.announce b) := by
  rw [State.announceWhen, State.scLeaveHeld, hb] at h
  exact h

end

/-! ### A translation before the announcement (R214, R218, R230) -/

/-- A translation changes no byte: it caches leaves. -/
@[simp] theorem translateNow_mem (s : State) (a : Acc) (n : Nat) : (s.translateNow a n).1.mem = s.mem := by
  induction n generalizing s with
  | zero => rfl
  | succ n ih =>
    rw [State.translateNow]
    split
    · split
      · rfl
      · exact ih _
    · rfl

/-- An access that translates is the translated one, in the state that its translation leaves. -/
theorem translateSc_ok {s u : State} {a b : Acc} (h : s.translateSc a = .ok (u, b)) :
    (s.translateNow a 2).1 = u ∧ ∃ ps, b = a.translated ps := by
  rw [State.translateSc] at h
  cases hload : decide (16 ≤ s.stationLoad a.cell)
  case true => rw [hload] at h; exact nomatch h
  case false =>
    rw [hload, stallIf_false] at h
    obtain ⟨⟨v, r⟩, hr⟩ : ∃ p, s.translateNow a 2 = p := ⟨_, rfl⟩
    rw [hr] at h ⊢
    cases r with
    | fault va f => exact nomatch h
    | miss va => exact nomatch h
    | ok ps =>
      change (if (ps.any fun p => isHost p.home) = true then _ else Except.ok (v, a.translated ps)) = _ at h
      split at h
      · split at h <;> exact nomatch h
      · obtain ⟨rfl, rfl⟩ := Prod.mk.inj (Except.ok.inj h)
        exact ⟨rfl, ps, rfl⟩

section
variable {i : Instr} {g : Guard} {s : State} {a : Acc}

/-- Its announcement follows a translation, or its stop ends the instruction. -/
theorem Effect.translated (h : Effect i g s (s.issueScGlb a)) :
    (∀ e, s.translateSc a = .error e → Stops i g s e)
      ∧ ∀ u b, s.translateSc a = .ok (u, b) → Effect i g s (u.announceWhen b) := by
  refine ⟨fun e he => ?stop, fun u b hok => ?goes⟩
  case stop => rw [State.issueScGlb, he] at h; exact h.stops
  case goes => rw [State.issueScGlb, hok] at h; exact h

end

/-! ### `ldsc` and `stsc` (R218, R330) -/

theorem guard_of_ready {i : Instr} {g : Guard} {s : State} (h : ready i g s = true) : s.me.guard g = true := by
  simp only [ready, Bool.and_eq_true] at h
  obtain ⟨⟨⟨-, hguard⟩, -⟩, -⟩ := h
  exact hguard

/-- In a context that its entry does not allow, an instruction is illegal (R9, R330). -/
theorem traps_of_notAllowed {i : Instr} {g : Guard} {s : State} {allowed : Nat → Bool} {body : State → Res}
    (h : exec i s = issue i g allowed body s) (ha : allowed s.cur.ctx = false) : Traps i g s (encTrap 2 i) :=
  fun hready => h.trans (issue_illegal (issuing_of_ready hready) (guard_of_ready hready) ha)

/-- `stsc` or `ldsc`. -/
def scInstr (x : ArgLdsc) (wr : Bool) : Instr := if wr then .stsc x else .ldsc x

theorem exec_scInstr (x : ArgLdsc) (wr : Bool) (s : State) :
    exec (scInstr x wr) s = issue (scInstr x wr) x.g notHandler (fun s => s.scAccess (scReq x wr s.me)) s := by
  cases wr <;> rfl

/-- The announcement of a load or a store: one operation more in the order S, and one message (R213). -/
theorem announce_plain {u : State} {b : Acc} (hb : b.isAtomic = false) :
    (u.announce b).mem = u.mem
      ∧ (u.announce b).scOps = u.scOps
        ++ [{ window := u.clock / 32, cell := b.cell, ctx := b.ctx, seq := b.seq, acc := b, ready := false }]
      ∧ (u.announce b).net = u.net
        ++ [{ src := .cell b.cell, dst := .network, pay := .announce (u.clock / 32) b.cell b.ctx b.seq }] := by
  rw [State.announce, State.sendSc, if_neg (Bool.eq_false_iff.mp hb)]
  exact ⟨rfl, rfl, rfl⟩

theorem sequentiallyConsistentAccessesAnnounce : SequentiallyConsistentAccessesAnnounce := by
  intro s x wr c i q ea a tells
  have hexec : exec i s = issue i x.g notHandler (fun s => s.scAccess (scReq x wr s.me)) s := exec_scInstr x wr s
  have heffect (h8 : s.cur.ctx ≠ 8) : Effect i x.g s (s.scAccess q) := Effect.of_issue hexec (decide_eq_true h8)
  have hplain : a.isAtomic = false := newAcc_isAtomic s q
  refine ⟨fun h8 => traps_of_notAllowed hexec (decide_eq_false (Decidable.not_not.mpr h8)), fun h8 e => (heffect h8).stopped,
    fun h8 hcheck => ?checked⟩
  have hchecked := (heffect h8).unstopped hcheck
  refine ⟨fun hwaits => hchecked.stalled (by rw [hwaits]; rfl), fun hfull hsp => ?local_, fun hfull hsp => ?global⟩
  case local_ =>
    have h := ((hchecked.unstalled (by rw [hfull]; rfl)).of_neg hsp).announces hplain
    exact fun hready => ⟨_, h hready, rfl, announce_plain hplain⟩
  case global =>
    obtain ⟨hstops, hgoes⟩ := ((hchecked.unstalled (by rw [hfull]; rfl)).of_pos hsp).translated
    refine ⟨hstops, fun u b hok hready => ?_⟩
    obtain ⟨rfl, ps, rfl⟩ := translateSc_ok hok
    obtain ⟨hmem, hsends⟩ := announce_plain (u := (s.translateNow a 2).1) (b := a.translated ps) hplain
    exact ⟨_, (hgoes _ _ hok).announces hplain hready, rfl, hmem.trans (translateNow_mem ..), hmem, hsends⟩

/-! ### What an atomic makes of the old value and its operands (R334) -/

/-- The value of a pattern as a signed number of its width (R81). -/
theorem asInt_toNat {w : Nat} (hw : 0 < w) (a : BitVec w) : asInt w a.toNat = a.toInt := by
  have hpow : 2 ^ w = 2 * 2 ^ (w - 1) := (Nat.two_pow_pred_mul_two hw).symm.trans (Nat.mul_comm ..)
  have hhalf : 2 * a.toNat < 2 ^ w ↔ a.toNat < 2 ^ (w - 1) := by omega
  simp only [asInt, BitVec.toInt_eq_toNat_cond, hhalf, Int.natCast_pow]
  rfl

theorem atomicsComputeTheirFunction : AtomicsComputeTheirFunction := by
  intro w o v v2 hw f sg
  have hself (a : BitVec w) : BitVec.ofNat w a.toNat = a := (BitVec.ofNat_toNat w a).trans a.setWidth_eq
  have hchoice (c : Bool) (a b : BitVec w) :
      BitVec.ofNat w (if c then a.toNat else b.toNat) = if c then a else b := by cases c <;> exact hself _
  have hsigned (a b : BitVec w) : decide (asInt w a.toNat < asInt w b.toNat) = a.slt b := by
    rw [asInt_toNat hw, asInt_toNat hw]; rfl
  refine ⟨?add, ?and, ?or, ?xor, ?maxSigned, ?maxUnsigned, ?minSigned, ?minUnsigned, hself v, ?compare⟩
  case add | and | or | xor => exact BitVec.eq_of_toNat_eq (by simp [f, atomicNew])
  case maxSigned =>
    change BitVec.ofNat w (if decide (asInt w o.toNat < asInt w v.toNat) then v.toNat else o.toNat) = _
    rw [hsigned, hchoice]
  case maxUnsigned => exact hchoice (o.ult v) v o
  case minSigned =>
    change BitVec.ofNat w (if decide (asInt w v.toNat < asInt w o.toNat) then v.toNat else o.toNat) = _
    rw [hsigned, hchoice]
  case minUnsigned => exact hchoice (v.ult o) v o
  case compare =>
    change BitVec.ofNat w (if o.toNat = v.toNat then v2.toNat else o.toNat) = _
    simp only [BitVec.toNat_inj]
    split <;> exact hself _

/-! ### Atomics, in every space and order (R213, R330, R333, R334) -/

theorem exec_atomicOf (x : ArgAtom) (cls : Fin 8) (s : State) :
    exec (atomicOf x cls) s = issue (atomicOf x cls) x.g (atomicCtx x) (fun s => s.atomic x cls) s := by
  match cls with
  | 0 | 1 | 2 | 3 | 4 | 5 | 6 | 7 => rfl

/-- The destination of an atomic takes the old value at the width of its type. -/
theorem modMe_fill_atomic {a : Acc} {x : ArgAtom} (hdest : a.dest = x.data.val) (hty : a.ty = x.ty) (u : State) (bs : List Byte) :
    (u.modMe fun y => { (a.fill [bs] y) with seq := y.seq + 1 }.retire)
      = u.modMe fun y => { (y.ws x.data (loadWord x.ty bs)) with seq := y.seq + 1 }.retire := by
  have hfill (y : Ctx) : a.fill [bs] y = y.ws x.data (loadWord x.ty bs) := by
    rw [fill_scalar _ _ hdest, hty, List.flatten_singleton]
  simp only [hfill]

/-- The rank that the address word of a `.peer` atomic names (R333). -/
def State.atomicRank (s : State) (x : ArgAtom) : Word := word (slice (s.me.rs x.base).toNat 56 8)

/-- The access of an atomic as it goes to a peer: it needs no translation (R333). -/
def State.atomicAtPeer (s : State) (x : ArgAtom) (cls : Nat) (ea : Word) (k : Nat) : Acc :=
  { s.newAtomic x cls ea with
    peer := some k, pieces := [{ lane := 0, off := 0, len := tyBytes x.ty, home := locA k ea.toNat }], done := true,
    rank := (s.atomicRank x).toNat }

/-- Whether the executing context's region has a grant of the bytes of an atomic at a peer. -/
def State.peerGranted (s : State) (x : ArgAtom) (ea : Word) (k : Nat) : Bool :=
  s.granted (s.ctxRegion s.cur.cell s.cur.ctx) k .loc ea.toNat (tyBytes x.ty)

/-- What is done with the peer of an atomic, once its rank names one whose grant has the bytes (R333). -/
def State.withPeer (s : State) (x : ArgAtom) (ea : Word) (f : Nat → Res) : Res :=
  match s.peerCell (s.atomicRank x) with
  | none => Res.trap 28 ea (s.atomicRank x)
  | some k => do
    trapIf (if s.peerGranted x ea k then none else some (accessFault true ea))
    f k

section
variable {i : Instr} {g : Guard} {s : State} {x : ArgAtom} {cls : Nat} {ea : Word}

/-- A rank with no peer and a peer that does not grant the bytes are traps; else what is done with the peer follows (R166, R333). -/
theorem Effect.withPeer_cases {f : Nat → Res} (h : Effect i g s (s.withPeer x ea f)) :
    (s.peerCell (s.atomicRank x) = none → Traps i g s { cause := 28, val := ea, info := s.atomicRank x })
      ∧ (∀ k, s.peerCell (s.atomicRank x) = some k → s.peerGranted x ea k = false →
        Traps i g s { cause := 7, val := ea, info := 0 })
      ∧ (∀ k, s.peerCell (s.atomicRank x) = some k → s.peerGranted x ea k = true → Effect i g s (f k)) := by
  refine ⟨fun hk => ?absent, fun k hk hgrant => ?ungranted, fun k hk hgrant => ?granted⟩
  case absent =>
    rw [State.withPeer, hk] at h
    exact h.traps
  case ungranted =>
    rw [State.withPeer, hk] at h
    exact h.trapped (by rw [hgrant]; rfl)
  case granted =>
    rw [State.withPeer, hk] at h
    exact h.untrapped (if_pos hgrant)

theorem atomicPeer_eq : s.atomicPeer x cls ea = s.withPeer x ea (fun k => do
    stallIf (64 ≤ s.replyLoad s.cur.cell || s.outHeld s.cur.cell (.cell k))
    .ok (s.post s.cur.cell (.cell k) (.atomicReq (s.atomicAtPeer x cls ea k))).issued) := rfl

/-- An atomic leaves for its station by the outbound buffer (R326). -/
theorem leaveHeld_newAtomic :
    s.leaveHeld (s.newAtomic x cls ea) = s.outHeld s.cur.cell (stationPlace s.cur.cell) := rfl

/-- What an atomic of the order S waits for (R213): all that precedes it, and room for its reply. -/
def State.scHeld (s : State) : Bool := !s.fullReady s.cur.cell s.cur.ctx || 64 ≤ s.replyLoad s.cur.cell

theorem scHeld_eq_false : s.scHeld = false ↔ s.fullReady s.cur.cell s.cur.ctx = true ∧ s.replyLoad s.cur.cell < 64 := by
  simp [State.scHeld]

theorem atomicSc_glb (hsp : x.space = .glb) :
    s.atomicSc x cls ea = (do stallIf s.scHeld; s.issueScGlb (s.newAtomic x cls ea)) := by
  rw [State.atomicSc, hsp]; rfl

theorem atomicSc_peer (hsp : x.space = .peer) :
    s.atomicSc x cls ea = (do stallIf s.scHeld; s.withPeer x ea fun k => s.announceWhen (s.atomicAtPeer x cls ea k)) := by
  rw [State.atomicSc, hsp]; rfl

theorem atomicSc_local (hglb : x.space ≠ .glb) (hpeer : x.space ≠ .peer) :
    s.atomicSc x cls ea = (do
      stallIf s.scHeld
      stopIf (s.keyCheck s.cur.cell x.space ea.toNat (tyBytes x.ty) (s.tenantOf (s.ctxRegion s.cur.cell s.cur.ctx)) ea)
      s.announceWhen ((s.newAtomic x cls ea).atLocal s.cur.cell x.space)) := by
  rw [State.atomicSc]
  cases hsp : x.space
  case glb => exact absurd hsp hglb
  case peer => exact absurd hsp hpeer
  all_goals rfl

end

section
variable {s : State} {x : ArgAtom} {cls : Fin 8}

theorem localAtomic (h : Effect (atomicOf x cls) x.g s (s.atomicLocal x cls (s.me.atomicEa x))) : LocalAtomic s x cls := by
  refine ⟨fun e => h.stopped, fun hkey => (h.unstopped hkey).stalled, fun hkey hheld hfree => ?runs,
    fun hkey hheld hbusy => ?queues⟩
  case runs =>
    have hruns := ((h.unstopped hkey).unstalled hheld).of_pos hfree
    refine ⟨hruns.stalled, fun hopen hgood hready => ?performed, fun k hopen hbad => ?faulted⟩
    case performed =>
      have hdone := hruns.unstalled hopen
      rw [hgood] at hdone
      exact ⟨_, hdone hready, rfl, modMe_fill_atomic rfl rfl ..⟩
    case faulted =>
      have hdone := hruns.unstalled hopen
      rw [hbad] at hdone
      exact hdone.becomes
  case queues =>
    have hqueues := ((h.unstopped hkey).unstalled hheld).of_neg (Bool.eq_false_iff.mp hbusy)
    exact ⟨fun hfull => hqueues.stalled (decide_eq_true hfull),
      fun hroom => hqueues.unstalled (decide_eq_false (Nat.not_le.mpr hroom))⟩

theorem remoteAtomic (hpeer : x.space = .peer → Effect (atomicOf x cls) x.g s (s.atomicPeer x cls (s.me.atomicEa x)))
    (hglb : x.space = .glb → Effect (atomicOf x cls) x.g s (s.atomicGlb x cls (s.me.atomicEa x))) : RemoteAtomic s x cls := by
  have hadmitted (hsp : x.space = .glb) (hroom : s.replyLoad s.cur.cell < 64) :=
    (hglb hsp).unstalled (decide_eq_false (Nat.not_le.mpr hroom))
  refine ⟨fun hsp => ?peer, fun hsp hfull => (hglb hsp).stalled (decide_eq_true hfull),
    fun hsp hroom h8 => ?station, fun hsp hroom h8 => ?handler⟩
  case peer =>
    obtain ⟨habsent, hungranted, hgoes⟩ := ((hpeer hsp).of_eq atomicPeer_eq).withPeer_cases
    refine ⟨habsent, hungranted, fun k hk hgrant => ⟨fun hheld => ?held, fun hroom hfree => ?goes⟩⟩
    case held => exact (hgoes k hk hgrant).stalled (by simpa using hheld)
    case goes => exact (hgoes k hk hgrant).unstalled (by simp [hroom, hfree])
  case station =>
    have hissue := (hadmitted hsp hroom).of_pos h8
    refine ⟨fun t => hissue.trapped, fun hnone hheld => ?held, fun hnone hring hload hfree => ?goes⟩
    case held => exact (hissue.untrapped hnone).stalled (by simpa [leaveHeld_newAtomic, or_assoc] using hheld)
    case goes => exact (hissue.untrapped hnone).unstalled (by simp [leaveHeld_newAtomic, hring, hload, hfree])
  case handler =>
    have hissue := (hadmitted hsp hroom).of_neg (Decidable.not_not.mpr h8)
    refine ⟨fun hwaits => ?waits, fun hopen u ps hps => ?translated⟩
    case waits => exact hissue.stalled (by simpa [or_assoc] using hwaits)
    case translated =>
      have htranslated := hissue.unstalled (by simpa [or_assoc, and_assoc] using hopen)
      rw [hps] at htranslated
      refine ⟨fun t => htranslated.trapped, fun hnone hfar => ?far, fun hnone hhere hheld => ?held,
        fun hnone hhere hfree hgood => ?performed⟩
      case far => exact ((htranslated.untrapped hnone).of_pos hfar).traps
      case held => exact ((htranslated.untrapped hnone).of_neg (Decidable.not_not.mpr hhere)).stalled hheld
      case performed =>
        have hdone := ((htranslated.untrapped hnone).of_neg (Decidable.not_not.mpr hhere)).unstalled hfree
        rw [hgood] at hdone
        exact fun hready => (hdone hready).trans (congrArg _ (modMe_fill_atomic rfl rfl ..))

theorem announcedAtomic (h : Effect (atomicOf x cls) x.g s (s.atomicSc x cls (s.me.atomicEa x))) : AnnouncedAtomic s x cls := by
  refine ⟨fun hwaits => h.stalled (by simpa using hwaits), fun hfirst hglb hpeer => ?local_, fun hfirst hsp => ?global,
    fun hfirst hsp => ?peer⟩
  case local_ =>
    have hissue := (h.of_eq (atomicSc_local hglb hpeer)).unstalled (scHeld_eq_false.mpr hfirst)
    exact ⟨fun e => hissue.stopped, fun hkey => (hissue.unstopped hkey).announcesAtomic rfl⟩
  case global =>
    obtain ⟨hstops, hgoes⟩ := ((h.of_eq (atomicSc_glb hsp)).unstalled (scHeld_eq_false.mpr hfirst)).translated
    refine ⟨hstops, fun u b hok => ?_⟩
    obtain ⟨rfl, ps, rfl⟩ := translateSc_ok hok
    exact (hgoes _ _ hok).announcesAtomic rfl
  case peer =>
    obtain ⟨habsent, hungranted, hgoes⟩ := ((h.of_eq (atomicSc_peer hsp)).unstalled (scHeld_eq_false.mpr hfirst)).withPeer_cases
    exact ⟨habsent, hungranted, fun k hk hgrant => (hgoes k hk hgrant).announcesAtomic rfl⟩

end

/-! ### The checks of an atomic, and its way by order and space -/

theorem atomicCtx_iff {x : ArgAtom} {i : Nat} : atomicCtx x i = true ↔ i ≠ 8 ∨ x.ord ≠ .sc := by
  simp [atomicCtx]

theorem atomicsArePerformedAtTheirHome : AtomicsArePerformedAtTheirHome := by
  intro s x cls i check allowed goes
  have hexec : exec i s = issue i x.g (atomicCtx x) (fun s => s.atomic x cls) s := exec_atomicOf x cls s
  have heffect (hallowed : allowed) : Effect i x.g s (s.atomic x cls) := Effect.of_issue hexec (atomicCtx_iff.mpr hallowed)
  have hadmitted : goes → _ := fun ⟨hallowed, hcheck, hroom⟩ =>
    ((heffect hallowed).untrapped hcheck).unstalled (decide_eq_false (Nat.not_le.mpr hroom))
  refine ⟨fun h8 hsc => ?illegal, fun hallowed t => (heffect hallowed).trapped,
    fun hallowed hcheck hfull => ((heffect hallowed).untrapped hcheck).stalled (decide_eq_true hfull),
    fun hgoes hsc => announcedAtomic ((hadmitted hgoes).of_pos hsc), fun hgoes hsc hglb hpeer => ?local_,
    fun hgoes hsc hsp => ?remote⟩
  case illegal => exact traps_of_notAllowed hexec (by simp [atomicCtx, h8, hsc])
  case local_ =>
    have h := (hadmitted hgoes).of_neg hsc
    refine localAtomic ?_
    cases hsp : x.space
    case glb => exact absurd hsp hglb
    case peer => exact absurd hsp hpeer
    all_goals rwa [hsp] at h
  case remote =>
    have h := (hadmitted hgoes).of_neg hsc
    exact remoteAtomic (fun hpeer => by rwa [hpeer] at h) fun hglb => by rwa [hglb] at h

/-- Settles O25: atomics in every space and order, what they compute, and the accesses of the order S. -/
theorem atomicsActAtTheirHome : Obligations.AtomicsActAtTheirHome :=
  ⟨atomicsArePerformedAtTheirHome, atomicsComputeTheirFunction, sequentiallyConsistentAccessesAnnounce⟩

end Sys2Proof.Machine
end

section
/-! PROOFS. The instructions of translation and of key slots (R221, R225, R228, R233, R236 to R238, R393). -/
namespace Sys2Proof.Machine

/-! ### Probes (R221, R228, R236) -/

/-- What a probe writes for a leaf: the leaf's word, or the fault that an access through it would meet. -/
def State.leafWord (s : State) (l : Leaf) (wr : Bool) (va : Nat) : Word :=
  match s.leafHome l (!wr, wr) va with
  | .error f => probeFault f
  | .ok _ => probeWord l va (s.cur.ctx == 9)

section
variable {s : State} {l : Leaf} {wr : Bool} {va : Nat}

/-- The first condition of R228 that applies to the leaf decides the word. -/
theorem leafWord_eq :
    s.leafWord l wr va =
      if (if wr then l.w else l.r) = false then probeFault { code := 2, level := 3 - l.size }
      else if (s.home (l.frame + va % 2 ^ l.bits)).isNone then probeFault { code := 4, level := 3 - l.size }
      else if s.slotUsable l.key (s.asidTenant l.asid) = false then probeFault { code := 5, level := 3 - l.size }
      else probeWord l va (s.cur.ctx == 9) := by
  have hneed : (((!wr) && !l.r) || (wr && !l.w)) = !(if wr then l.w else l.r) := by cases wr <;> simp
  rw [State.leafWord, State.leafHome, hneed]
  cases (if wr then l.w else l.r)
  case false => rfl
  case true =>
    cases s.home (l.frame + va % 2 ^ l.bits) with
    | none => rfl
    | some h => cases s.slotUsable l.key (s.asidTenant l.asid) <;> rfl

/-- With the leaf held at the station nothing is walked, and only the destination changes. -/
theorem probe_held {d : SReg}
    (hl : (s.station (stationOf s.cur.cell)).leaves.find? (fun l => l.serves (s.asidOf s.cur.cell s.cur.ctx) va) = some l) :
    s.probe d va wr = s.update fun y => y.ws d (s.leafWord l wr va) := by
  simp only [State.probe, hl, State.leafWord]
  cases s.leafHome l (!wr, wr) va <;> rfl

end

section
variable {s : State} {i : Instr} {d a : SReg} {hi : Bool}

theorem setWord_beyond (h : 63 < (s.me.rs a).toNat) : s.setWord i d a hi = .error (.trap (encTrap 2 i)) := if_pos h

theorem setWord_within (h : (s.me.rs a).toNat ≤ 63) :
    s.setWord i d a hi =
      s.update fun y => y.ws d (((Assoc.get? (s.me.rs a).toNat s.sets).map fun q => if hi then q.w1 else q.w0).getD 0) := by
  rw [State.setWord, if_neg (Nat.not_lt.mpr h)]
  cases Assoc.get? (s.me.rs a).toNat s.sets <;> rfl

end

theorem probesWriteTheTranslation : ProbesWriteTheTranslation := by
  intro s x l
  refine ⟨fun hl => ⟨?read, ?write⟩, fun h9 => ⟨fun hn => ⟨?beyond0, ?beyond1⟩, fun hn => ⟨?word0, ?word1⟩⟩⟩
  case read => exact ((Effect.of_issue (exec_xlatR x s) rfl).of_eq (probe_held hl)).writes leafWord_eq
  case write => exact ((Effect.of_issue (exec_xlatW x s) rfl).of_eq (probe_held hl)).writes leafWord_eq
  case beyond0 => exact ((Effect.of_issue (exec_xlatSet0 x s) (decide_eq_true h9)).of_eq (setWord_beyond hn)).traps
  case beyond1 => exact ((Effect.of_issue (exec_xlatSet1 x s) (decide_eq_true h9)).of_eq (setWord_beyond hn)).traps
  case word0 => exact ((Effect.of_issue (exec_xlatSet0 x s) (decide_eq_true h9)).of_eq (setWord_within hn)).writes rfl
  case word1 => exact ((Effect.of_issue (exec_xlatSet1 x s) (decide_eq_true h9)).of_eq (setWord_within hn)).writes rfl

/-! ### Invalidation (R225, R237) -/

/-- The state in which no station holds a leaf that a test names, with the freed ASIDs that another test names given back. -/
def State.dropLeaves (s : State) (drop : Leaf → Bool) (whole : Nat → Bool) : State :=
  { s with
    stations := s.stations.map (fun (x : Nat × Station) => (x.1, { x.2 with leaves := x.2.leaves.filter (fun l => !drop l) }))
    staleAsids := s.staleAsids.filter fun n => !whole n }

/-- Whether a piece of an access was translated through a leaf that a test names. -/
def Piece.through (drop : Leaf → Bool) (p : Piece) : Bool :=
  match p.leaf with
  | some l => drop l
  | none => false

theorem Piece.through_eq (drop : Leaf → Bool) (p : Piece) : p.through drop = (p.leaf.map drop == some true) := by
  rw [Piece.through]
  cases p.leaf <;> simp

section
variable {s : State} {drop : Leaf → Bool} {whole : Nat → Bool}

/-- An invalidation waits twice, for the accesses before it and for those through its leaves, and then drops them. -/
theorem invalidate_eq :
    s.invalidate drop whole = (do
      stallIf (!s.releaseReady s.cur.cell s.cur.ctx .mod)
      stallIf (usesLeaf s drop)
      .ok (s.dropLeaves drop whole).retire) := by
  simp only [usesLeaf, ← Piece.through_eq]
  rfl

theorem Effect.dropsLeaves {i : Instr} {g : Guard} (h9 : s.cur.ctx = 9) (h : Effect i g s (s.invalidate drop whole)) :
    (s.releaseReady s.cur.cell 9 .mod = true → usesLeaf s drop = false →
        Becomes i g s ((s.dropLeaves drop whole).modMe Ctx.retire))
      ∧ (s.releaseReady s.cur.cell 9 .mod = false ∨ usesLeaf s drop = true → Stalls i g s) := by
  rw [invalidate_eq, h9] at h
  refine ⟨fun hrel hfree => ?drops, fun hwaits => ?waits⟩
  case drops => exact (h.unstalled (by rw [hrel]; rfl)).unstalled hfree
  case waits =>
    cases hrel : s.releaseReady s.cur.cell 9 .mod with
    | false => exact h.stalled (by rw [hrel]; rfl)
    | true => exact (h.unstalled (by rw [hrel]; rfl)).stalled (hwaits.resolve_left (by simp [hrel]))

end

theorem invalidationDropsLeaves : InvalidationDropsLeaves := by
  intro s h9
  refine ⟨fun x => ?all, fun x => ?asid, fun x => ?page⟩
  case all => exact (Effect.of_issue (exec_tinvAll x s) (decide_eq_true h9)).dropsLeaves h9
  case asid => exact (Effect.of_issue (exec_tinvAsid x s) (decide_eq_true h9)).dropsLeaves h9
  case page => exact (Effect.of_issue (exec_tinvPage x s) (decide_eq_true h9)).dropsLeaves h9

/-! ### Key slots (R233, R238, R393) -/

/-- The state with a key slot installed for the supervisor's tenant under a new key (R233, R393). -/
def State.installSlot (s : State) (slot : Nat) : State :=
  s.setKey slot { st := .installed, owner := s.myTenant, gen := (s.keySlot slot).gen + 1 }

section
variable {s : State} {x : ArgDA} (h9 : s.cur.ctx = 9)
include h9

theorem keysetInst_misaligned (hal : (s.me.rs x.a).toNat % 16 ≠ 0) :
    Traps (.keysetInst x) x.g s (misaligned false (s.me.rs x.a)) :=
  (Effect.of_issue (exec_keysetInst x s) (decide_eq_true h9)).trapped (if_pos hal)

/-- A blob that may be read, with nothing to wait for, is judged: its first failing check is the answer, and with none the slot that
it names is installed. -/
theorem keysetInst_judges (hal : (s.me.rs x.a).toNat % 16 = 0)
    (hgrant : s.grantCheck s.cur.cell 9 .loc (s.me.rs x.a).toNat 112 false = true)
    (htile : s.tileCheck s.cur.cell .loc (s.me.rs x.a).toNat 112 false (s.me.rs x.a) = none)
    (hconf : (s.cell s.cur.cell).conflicts .loc (s.me.rs x.a).toNat 112 false = false)
    (hheld : s.localHeld s.cur.cell 9 [] = false) :
    let blob := s.readLocal s.cur.cell .loc (s.me.rs x.a).toNat 112
    (s.installStatus blob ≠ 0 → Writes (.keysetInst x) x.g s s x.d (word (s.installStatus blob)))
      ∧ (s.installStatus blob = 0 → Writes (.keysetInst x) x.g s (s.installSlot (leNat ((blob.drop 4).take 4))) x.d 0) := by
  have hread := (Effect.of_issue (exec_keysetInst x s) (decide_eq_true h9)).untrapped (by simp [hal, hgrant, htile])
  have hjudge := hread.unstalled (by rw [hconf, hheld]; rfl)
  dsimp only at hjudge
  refine ⟨fun hst => ?fails, fun hst => ?installs⟩
  case fails =>
    rw [if_neg hst] at hjudge
    exact hjudge.writes rfl
  case installs =>
    rw [if_pos hst, hst] at hjudge
    exact hjudge.writes rfl

theorem keysetRet_refused
    (h : (s.me.rs x.a).toNat = 0 ∨ 1023 < (s.me.rs x.a).toNat ∨ s.slotForeign (s.me.rs x.a).toNat s.myTenant = true) :
    Writes (.keysetRet x) x.g s s x.d 3 :=
  ((Effect.of_issue (exec_keysetRet x s) (decide_eq_true h9)).of_pos (by simpa [or_assoc] using h)).writes rfl

/-- A slot of the supervisor's tenant is refused while it is empty; else it retires, and its context waits. -/
theorem keysetRet_own (hpos : (s.me.rs x.a).toNat ≠ 0) (hmax : (s.me.rs x.a).toNat ≤ 1023)
    (hown : s.slotForeign (s.me.rs x.a).toNat s.myTenant = false) :
    ((s.keySlot (s.me.rs x.a).toNat).st = .empty → Writes (.keysetRet x) x.g s s x.d 4)
      ∧ ((s.keySlot (s.me.rs x.a).toNat).st ≠ .empty → Becomes (.keysetRet x) x.g s
          ((s.setKey (s.me.rs x.a).toNat { s.keySlot (s.me.rs x.a).toNat with st := .retiring }).holds
            (.keyset x.d (s.me.rs x.a).toNat))) := by
  have heffect := (Effect.of_issue (exec_keysetRet x s) (decide_eq_true h9)).of_neg (by simp [hpos, hmax, hown])
  exact ⟨fun hempty => (heffect.of_pos hempty).writes rfl, fun hused => (heffect.of_neg hused).becomes⟩

end

theorem keySlotsInstallAndRetire : KeySlotsInstallAndRetire := by
  intro s x h9
  exact ⟨keysetInst_misaligned h9, keysetInst_judges h9, keysetRet_refused h9, keysetRet_own h9⟩

/-- Settles O17: probes, invalidations, and the instructions of key slots. -/
theorem translationInstructionsAct : Obligations.TranslationInstructionsAct :=
  ⟨probesWriteTheTranslation, invalidationDropsLeaves, keySlotsInstallAndRetire⟩

end Sys2Proof.Machine
end

section
/-! PROOFS. The instructions of tasks, joins and futures (R209, R242, R249 to R265, R326). -/
namespace Sys2Proof.Machine

/-! ### What follows a value that is found -/

section
variable {i : Instr} {g : Guard} {s : State} {α : Type} {e : Except Stop α} {f : α → Res}

/-- An effect that begins with what gives a value goes on with that value. -/
theorem Effect.given {v : α} (h : Effect i g s (e >>= f)) (he : e = .ok v) : Effect i g s (f v) := by
  subst he; exact h

/-- Where it is a stop, the instruction ends as the stop says. -/
theorem Effect.refused {k : Stop} (h : Effect i g s (e >>= f)) (he : e = .error k) : Stops i g s k := by
  subst he; exact h.stops

/-- An effect that waits for a release stalls until it, and then goes on. -/
theorem Effect.awaits {sc : Scope} {r : Unit → Res} (h : Effect i g s (s.releaseWait sc >>= r)) :
    (s.releaseReady s.cur.cell s.cur.ctx sc = false → Stalls i g s)
      ∧ (s.releaseReady s.cur.cell s.cur.ctx sc = true → Effect i g s (r ())) :=
  ⟨fun hwait => h.stalled (by rw [hwait]; rfl), fun hrel => h.unstalled (by rw [hrel]; rfl)⟩

end

/-! ### Records (R242, R249, R254, R258, R259) -/

section
variable {i : Instr} {g : Guard} {s : State} {tenant : Nat} {r : Rec}

/-- What `spawn` and `callat` do once their checks are passed: the release, the record, the signal. -/
def State.sendsSignal (s : State) (tenant : Nat) (r : Rec) (target : Word) : Res := do
  s.releaseWait .mod
  let t ← s.postRecord s.cur.cell tenant r (bit target.toNat 10) (target.toNat % 2 ^ 10)
  .ok t.signal.retire

theorem Effect.signalsRecord {target : Word} (h : Effect i g s (s.sendsSignal tenant r target)) :
    SignalsRecord i g s tenant r target := by
  obtain ⟨hstall, hgoes⟩ := h.awaits
  refine ⟨fun hwaits => ?waits, fun hrel hfree => ?goes⟩
  case waits =>
    cases hrel : s.releaseReady s.cur.cell s.cur.ctx .mod with
    | false => exact hstall hrel
    | true => exact (hgoes hrel).refused (if_pos (hwaits.resolve_left (by simp [hrel])))
  case goes => exact ((hgoes hrel).given (if_neg (by simpa [State.outHeld] using hfree))).becomes

/-- An effect that takes a word from a register or from the template goes on with the one that the flag selects. -/
theorem Effect.selected {b : Bool} {v w : Word} {e : Except Stop Word} {f : Word → Res}
    (h : Effect i g s (if b then (.ok v >>= f) else (e >>= f))) (hw : if b then w = v else e = .ok w) : Effect i g s (f w) := by
  cases b
  · exact Effect.given h hw
  · obtain rfl : w = v := hw
    exact h

/-- With every argument taken from a register the template is not read (R258). -/
theorem spawnArgs_registers {mask : Nat} {t : Word} {n : Nat} (h : ∀ k, k < n → bit mask k = true) :
    s.spawnArgs mask t n = .ok ((List.range n).map fun k => s.me.rsN (4 + k)) := by
  induction n with
  | zero => rfl
  | succ n ih =>
    have hn : bit mask n = true := h n n.lt_succ_self
    simp only [State.spawnArgs, ih fun k hk => h k (Nat.lt_succ_of_lt hk), hn, List.range_succ, List.map_append]
    rfl

end

theorem spawn_sends (s : State) (x : ArgSpawn) (head reply : Word) (args : List Word) :
    let t := word (slice s.me.sptmpl.toNat 3 18 * 8)
    let r := s.ctxRegion s.cur.cell s.cur.ctx
    let n := headArgc head
    (if x.hReg then head = s.me.rs x.h else s.syncWord t = .ok head) →
    (if x.rReg then reply = s.me.rs x.r else s.syncWord (t + 8) = .ok reply) →
    (∀ f, s.headFault (s.tenantOf r) head = some f → Traps (.spawn x) x.g s f)
    ∧ (s.headFault (s.tenantOf r) head = none → ∀ f, s.targetFault (s.tenantOf r) (s.me.rs x.a) = some f → Traps (.spawn x) x.g s f)
    ∧ (s.headFault (s.tenantOf r) head = none → s.targetFault (s.tenantOf r) (s.me.rs x.a) = none →
        s.spawnArgs x.mask.toNat t n = .ok args →
        SignalsRecord (.spawn x) x.g s (s.tenantOf r)
          { head := mkHead r 0 n (headType head), reply := reply, args := args ++ List.replicate (8 - n) 0 } (s.me.rs x.a)) := by
  intro t r n hhead hreply
  have hchecks := ((Effect.of_issue (exec_spawn x s) rfl).selected hhead).selected hreply
  refine ⟨fun f hf => hchecks.trapped hf, fun hok f hf => (hchecks.untrapped hok).trapped hf, fun hok htarget hargs => ?_⟩
  exact (((hchecks.untrapped hok).untrapped htarget).given hargs).signalsRecord

theorem callat_sends (s : State) (x : ArgCallat) :
    let r := s.ctxRegion s.cur.cell s.cur.ctx
    let t := (s.me.srcB x.t).toNat
    let tenant := s.tenantOf r
    (2 ^ 16 ≤ t → Traps (.callat x) x.g s { cause := 60, val := s.me.srcB x.t, info := 1 })
    ∧ (t < 2 ^ 16 → s.headFault tenant (word (4 * 2 ^ 16 + t % 2 ^ 16)) = none → s.targetFault tenant (s.me.rs x.a) = none →
        (∀ f, s.refFault tenant 27 (s.me.rs x.c) = some f → Traps (.callat x) x.g s f)
        ∧ (s.refFault tenant 27 (s.me.rs x.c) = none → SignalsRecord (.callat x) x.g s tenant
            { head := mkHead r 1 4 t, reply := s.me.rs x.c,
              args := [s.me.rsN 4, s.me.rsN 5, s.me.rsN 6, s.me.rsN 7, 0, 0, 0, 0] } (s.me.rs x.a))) := by
  intro r t tenant
  have hchecks := Effect.of_issue (exec_callat x s) rfl
  refine ⟨fun hbig => hchecks.trapped (if_pos hbig), fun ht hhead htarget => ?_⟩
  have href := (hchecks.untrapped ((if_neg (Nat.not_le.mpr ht)).trans hhead)).untrapped htarget
  exact ⟨fun f hf => href.trapped hf, fun hnone => (href.untrapped hnone).signalsRecord⟩

theorem spawnAndCallatSendOneRecord : SpawnAndCallatSendOneRecord :=
  ⟨spawn_sends, fun _ _ _ _ => spawnArgs_registers, callat_sends⟩

/-! ### Requests to owners (R253, R257, R260, R262, R264, R265) -/

section
variable {i : Instr} {g : Guard} {s : State} {k : OwnKind} {ref : Word} {d : Option SReg}

/-- A message to an object's owner leaves the cell where the owner is another cell. -/
theorem outHeld_owner (s : State) (c : Nat) (ref : Word) :
    s.outHeld c (.cell (refCell ref)) = (refCell ref != c && !(s.cell c).outbuf.isEmpty) := by
  have : (Place.cell (refCell ref) != Place.cell c) = (refCell ref != c) := by
    rw [Bool.eq_iff_iff]; simp
  rw [State.outHeld, this]

theorem postOwner_held (h : (refCell ref != s.cur.cell && !(s.cell s.cur.cell).outbuf.isEmpty) = true) :
    s.postOwner (s.ownReq k ref) = .error .stall := if_pos ((outHeld_owner ..).trans h)

theorem postOwner_free (h : (refCell ref != s.cur.cell && !(s.cell s.cur.cell).outbuf.isEmpty) = false) :
    s.postOwner (s.ownReq k ref) = .ok (s.post s.cur.cell (.cell (refCell ref)) (.owner (s.ownReq k ref))) :=
  if_neg (ne_true_of_eq_false ((outHeld_owner ..).trans h))

/-- What an instruction does that asks an owner and waits, once its checks are passed. -/
theorem Effect.asksOwner (h : Effect i g s (s.askOwner k ref d)) :
    let held : Bool := refCell ref != s.cur.cell && !(s.cell s.cur.cell).outbuf.isEmpty
    (s.releaseReady s.cur.cell s.cur.ctx .mod = false ∨ 64 ≤ s.replyLoad s.cur.cell ∨ held = true → Stalls i g s)
      ∧ (s.releaseReady s.cur.cell s.cur.ctx .mod = true → s.replyLoad s.cur.cell < 64 → held = false →
          Becomes i g s ((s.post s.cur.cell (.cell (refCell ref)) (.owner (s.ownReq k ref))).holds (.owner d))) := by
  intro held
  obtain ⟨hstall, hgoes⟩ := h.awaits
  refine ⟨fun hwaits => ?waits, fun hrel hroom hfree => ?goes⟩
  case waits =>
    cases hrel : s.releaseReady s.cur.cell s.cur.ctx .mod with
    | false => exact hstall hrel
    | true =>
      rcases Nat.lt_or_ge (s.replyLoad s.cur.cell) 64 with hroom | hfull
      · refine ((hgoes hrel).unstalled (decide_eq_false (Nat.not_le.mpr hroom))).refused (k := .stall) (postOwner_held ?_)
        exact (hwaits.resolve_left (by simp [hrel])).resolve_left (Nat.not_le.mpr hroom)
      · exact (hgoes hrel).stalled (decide_eq_true hfull)
  case goes =>
    exact (((hgoes hrel).unstalled (decide_eq_false (Nat.not_le.mpr hroom))).given (postOwner_free hfree)).becomes

end

/-- A `jdec` whose reference and count are good sends its request and goes on (R262). -/
theorem jdec_counts (s : State) (x : ArgABi) :
    let tenant := s.tenantOf (s.ctxRegion s.cur.cell s.cur.ctx)
    let held : Bool := refCell (s.me.rs x.a) != s.cur.cell && !(s.cell s.cur.cell).outbuf.isEmpty
    s.refFault tenant 25 (s.me.rs x.a) = none →
      let n := (s.me.srcB x.b).toNat
      (n = 0 ∨ 2 ^ 32 ≤ n → Traps (.jdec x) x.g s { cause := 60, val := s.me.srcB x.b, info := 5 })
      ∧ (n ≠ 0 → n < 2 ^ 32 →
        (s.releaseReady s.cur.cell s.cur.ctx .mod = false ∨ held = true → Stalls (.jdec x) x.g s)
        ∧ (s.releaseReady s.cur.cell s.cur.ctx .mod = true → held = false → Becomes (.jdec x) x.g s
            ((s.post s.cur.cell (.cell (refCell (s.me.rs x.a))) (.owner (s.ownReq (.jdec n) (s.me.rs x.a)))).signal.retire))) := by
  intro tenant held href n
  have hcount := (Effect.of_issue (exec_jdec x s) rfl).untrapped href
  refine ⟨fun hbad => hcount.trapped (if_pos (by simpa using hbad)), fun hpos hmax => ?_⟩
  obtain ⟨hstall, hgoes⟩ := (hcount.untrapped (if_neg (by simp; omega))).awaits
  refine ⟨fun hwaits => ?waits, fun hrel hfree => ((hgoes hrel).given (postOwner_free hfree)).becomes⟩
  cases hrel : s.releaseReady s.cur.cell s.cur.ctx .mod with
  | false => exact hstall hrel
  | true => exact (hgoes hrel).refused (k := .stall) (postOwner_held (hwaits.resolve_left (by simp [hrel])))

theorem signalsToOwnersAreSent : SignalsToOwnersAreSent := by
  intro s
  refine ⟨fun x h8 => ⟨fun hnone => ?noReply, fun href hok => ?reply⟩, fun x h8 hok => ?fres,
    fun x h8 => ⟨fun t hok ht => ?badCont, fun hcont hok => ?freg⟩, jdec_counts s⟩
  case noReply => exact (Effect.of_issue (exec_reply x s) (decide_eq_true h8)).trapped (if_pos hnone)
  case reply => exact ((Effect.of_issue (exec_reply x s) (decide_eq_true h8)).untrapped ((if_neg href).trans hok)).asksOwner
  case fres => exact ((Effect.of_issue (exec_fres x s) (decide_eq_true h8)).untrapped hok).asksOwner
  case badCont => exact ((Effect.of_issue (exec_freg x s) (decide_eq_true h8)).untrapped hok).trapped ht
  case freg => exact (((Effect.of_issue (exec_freg x s) (decide_eq_true h8)).untrapped hok).untrapped hcont).asksOwner

/-! ### New objects (R250, R251, R261, R263) -/

section
variable {s : State} {a : Word} {al : Nat} {bs : List Byte}

theorem syncWrite_misaligned {f : State → Res} {i : Instr} {g : Guard} (h : Effect i g s (s.syncWrite a al bs >>= f))
    (hal : a.toNat % al ≠ 0) : Traps i g s (misaligned true a) :=
  h.refused (k := .trap (misaligned true a)) (by rw [State.syncWrite, if_pos hal]; rfl)

/-- A write that is aligned and that nothing forbids or holds has its bytes written. -/
theorem syncWrite_done (hal : a.toNat % al = 0) (hw : writable s a.toNat bs.length = true) :
    s.syncWrite a al bs = .ok (s.writeLocal s.cur.cell .loc a.toNat bs) := by
  simp only [writable, word, BitVec.ofNat_toNat, BitVec.setWidth_eq, Bool.and_eq_true, Bool.not_eq_true',
    Option.isNone_iff_eq_none] at hw
  obtain ⟨⟨⟨hgrant, htile⟩, hconf⟩, hheld⟩ := hw
  have hpasses : (if a.toNat % al ≠ 0 then some (misaligned true a)
      else if !s.grantCheck s.cur.cell s.cur.ctx .loc a.toNat bs.length true then some (accessFault true a)
      else s.tileCheck s.cur.cell .loc a.toNat bs.length true a) = none := by
    rw [if_neg (not_not.mpr hal), hgrant, htile]; rfl
  rw [State.syncWrite, hpasses, hconf, hheld]
  rfl

end

theorem newObjectsAreWritten : NewObjectsAreWritten := by
  intro s
  refine ⟨fun x => ?jnew, fun x => ?fnew⟩
  case jnew =>
    have hcount := Effect.of_issue (exec_jnew x s) rfl
    refine ⟨fun hbad => hcount.trapped (if_pos (by simpa using hbad)), fun hpos hmax hal => ?misaligned, fun hpos hmax hal hw => ?written⟩
    all_goals have hwrite := hcount.untrapped (if_neg (by simp; omega))
    case misaligned => exact syncWrite_misaligned hwrite hal
    case written => exact (hwrite.given (syncWrite_done hal hw)).becomes
  case fnew =>
    have hwrite := Effect.of_issue (exec_fnew x s) rfl
    exact ⟨syncWrite_misaligned hwrite, fun hal hw => (hwrite.given (syncWrite_done hal hw)).becomes⟩

/-- Settles O20: records, signals to owners, and new objects. -/
theorem recordsSignalsAndObjectsAreSent : Obligations.RecordsSignalsAndObjectsAreSent :=
  ⟨spawnAndCallatSendOneRecord, signalsToOwnersAreSent, newObjectsAreWritten⟩

end Sys2Proof.Machine
end

section
/-! PROOFS. The instructions of regions and budgets (R272, R274, R278, R281 to R284). -/
namespace Sys2Proof.Machine

/-! ### Regions parked, resumed and counted (R274, R278, R281) -/

theorem word_b2n_decide (p : Prop) [Decidable p] : word (b2n (decide p)) = if p then 1 else 0 := by
  by_cases h : p
  · rw [if_pos h, decide_eq_true h]; rfl
  · rw [if_neg h, decide_eq_false h]; rfl

section
variable {s : State} {x : ArgDA} (h9 : s.cur.ctx = 9)
include h9

/-- A word that names no active region of the tenant is refused (R280, R281). -/
theorem rgnact_refused (h : 65535 < (s.me.rs x.a).toNat ∨ s.mine (s.me.rs x.a).toNat = false) :
    Writes (.rgnactPark x) x.g s s x.d (word (2 ^ 63 + 3)) ∧ Writes (.rgnactResume x) x.g s s x.d (word (2 ^ 63 + 3))
      ∧ Writes (.rgnactQuiet x) x.g s s x.d (word (2 ^ 63 + 3)) := by
  have hbad : (decide (65535 < (s.me.rs x.a).toNat) || !s.mine ((s.me.rs x.a).toNat % 2 ^ 16)) = true := by
    rcases Nat.lt_or_ge 65535 (s.me.rs x.a).toNat with hbig | hsmall
    · simp [hbig]
    · rw [Nat.mod_eq_of_lt (by omega), h.resolve_left (Nat.not_lt.mpr hsmall)]
      simp
  exact ⟨((Effect.of_issue (exec_rgnactPark x s) (decide_eq_true h9)).of_pos hbad).writes rfl,
    ((Effect.of_issue (exec_rgnactResume x s) (decide_eq_true h9)).of_pos hbad).writes rfl,
    ((Effect.of_issue (exec_rgnactQuiet x s) (decide_eq_true h9)).of_pos hbad).writes rfl⟩

variable (hsmall : (s.me.rs x.a).toNat ≤ 65535) (hmine : s.mine (s.me.rs x.a).toNat = true)
include hsmall hmine

omit h9 in
/-- One that does is taken as it is. -/
theorem rgnact_taken :
    (s.me.rs x.a).toNat % 2 ^ 16 = (s.me.rs x.a).toNat
      ∧ ¬ (decide (65535 < (s.me.rs x.a).toNat) || !s.mine (s.me.rs x.a).toNat) = true :=
  ⟨Nat.mod_eq_of_lt (by omega), by simp [hmine, hsmall]⟩

theorem rgnactPark_acts :
    let n := (s.me.rs x.a).toNat
    let parked : Bool := ((s.region n).map (·.parked)).getD false
    (parked = true → Writes (.rgnactPark x) x.g s s x.d (word (2 ^ 63 + 4)))
      ∧ (parked = false → (∃ c ∈ s.cells, s.busyOn c.1 n = true) → Becomes (.rgnactPark x) x.g s
          ((s.modRegion n fun q => { q with
            parking := s.cur.cell :: q.parking.filter (· ≠ s.cur.cell) }).modMe fun y => { y with stalled := true }))
      ∧ (parked = false → (∀ c ∈ s.cells, s.busyOn c.1 n = false) → Writes (.rgnactPark x) x.g s (s.park n) x.d (word n)) := by
  intro n parked
  obtain ⟨hmod, hgood⟩ := rgnact_taken hsmall hmine
  have heffect := Effect.of_issue (exec_rgnactPark x s) (decide_eq_true h9)
  dsimp only at heffect
  rw [hmod] at heffect
  have hown := heffect.of_neg hgood
  refine ⟨fun hp => (hown.of_pos hp).writes rfl, fun hp hbusy => ?busy, fun hp hidle => ?idle⟩
  all_goals have hrun := hown.of_neg (ne_true_of_eq_false hp)
  case busy => exact (hrun.of_pos (List.any_eq_true.mpr hbusy)).becomes
  case idle => exact (hrun.of_neg (by simpa using hidle)).writes rfl

theorem rgnactResume_acts :
    let n := (s.me.rs x.a).toNat
    let parked : Bool := ((s.region n).map (·.parked)).getD false
    (parked = false → Writes (.rgnactResume x) x.g s s x.d (word (2 ^ 63 + 4)))
      ∧ (parked = true → Writes (.rgnactResume x) x.g s (s.unpark n) x.d (word n)) := by
  intro n parked
  obtain ⟨hmod, hgood⟩ := rgnact_taken hsmall hmine
  have heffect := Effect.of_issue (exec_rgnactResume x s) (decide_eq_true h9)
  dsimp only at heffect
  rw [hmod] at heffect
  have hown := heffect.of_neg hgood
  exact ⟨fun hp => (hown.of_pos (congrArg not hp)).writes rfl,
    fun hp => (hown.of_neg (ne_true_of_eq_false (congrArg not hp))).writes rfl⟩

/-- The first of two waves is noted and the context stalls; the second answers (R278). -/
theorem rgnactQuiet_acts :
    let n := (s.me.rs x.a).toNat
    let now := s.waveOf [n]
    ((s.region n).bind (·.wave) = none → Becomes (.rgnactQuiet x) x.g s
          ((s.modRegion n fun q => { q with wave := some now }).modMe fun y => { y with stalled := true }))
      ∧ (∀ before, (s.region n).bind (·.wave) = some before → Writes (.rgnactQuiet x) x.g s
          (s.modRegion n fun q => { q with wave := none }) x.d (if before.1 = before.2 ∧ now = before then 1 else 0)) := by
  intro n now
  obtain ⟨hmod, hgood⟩ := rgnact_taken hsmall hmine
  have heffect := Effect.of_issue (exec_rgnactQuiet x s) (decide_eq_true h9)
  dsimp only at heffect
  rw [hmod] at heffect
  have hown := heffect.of_neg hgood
  refine ⟨fun hfirst => ?first, fun before hsecond => ?second⟩
  case first =>
    rw [hfirst] at hown
    exact hown.becomes
  case second =>
    rw [hsecond] at hown
    exact hown.writes (by rw [← Bool.decide_and, word_b2n_decide])

end

theorem regionsParkResumeAndCount : RegionsParkResumeAndCount := by
  intro s x h9
  refine ⟨rgnact_refused h9, fun hsmall hmine => ?_⟩
  obtain ⟨hparked, hbusy, hidle⟩ := rgnactPark_acts h9 hsmall hmine
  obtain ⟨hrunning, hresumed⟩ := rgnactResume_acts h9 hsmall hmine
  exact ⟨hparked, hbusy, hidle, hrunning, hresumed, rgnactQuiet_acts h9 hsmall hmine⟩

/-! ### Ends of regions, and budgets (R278, R282, R283) -/

section
variable {i : Instr} {g : Guard} {s : State} {n : Nat} {d : SReg}

/-- The state in which a subtree's tear-down is under way. -/
def State.tearingDown (s : State) (n : Nat) : State := if ((s.region n).map (·.dying)).getD false then s else s.endSubtree n

/-- An instruction that may tear a subtree down does so, and its context waits while something of it is under way. -/
theorem Effect.tearsDown (h : Effect i g s (s.killSubtree n d)) :
    ((s.tearingDown n).subtreeBusy n = false → Writes i g s ((s.tearingDown n).finishTearDown n) d 0)
      ∧ ((s.tearingDown n).subtreeBusy n = true → Becomes i g s ((s.tearingDown n).modMe fun y => { y with stalled := true })) :=
  ⟨fun hfree => (h.of_neg (ne_true_of_eq_false hfree)).writes rfl, fun hbusy => (h.of_pos hbusy).becomes⟩

end

/-- `exit` tears down once two waves agree, or while the tear-down is under way (R278, R282). -/
theorem rgnkillExit_acts {s : State} {x : ArgDA} (h9 : s.cur.ctx = 9) (hkill : s.killable (s.me.rs x.a).toNat = true) :
    let n := (s.me.rs x.a).toNat
    let now := s.waveOf (s.subtree n)
    let dying : Bool := ((s.region n).map (·.dying)).getD false
    (dying = true ∨ (now.1 = now.2 ∧ (s.region n).bind (·.wave) = some now) →
        ((s.tearingDown n).subtreeBusy n = false → Writes (.rgnkillExit x) x.g s ((s.tearingDown n).finishTearDown n) x.d 0)
        ∧ ((s.tearingDown n).subtreeBusy n = true →
            Becomes (.rgnkillExit x) x.g s ((s.tearingDown n).modMe fun y => { y with stalled := true })))
      ∧ (dying = false → now.1 ≠ now.2 ∨ (s.region n).bind (·.wave) ≠ some now → Becomes (.rgnkillExit x) x.g s
          ((s.modRegion n fun q => { q with wave := some now }).modMe fun y => { y with stalled := true })) := by
  intro n now dying
  have hgoes := (Effect.of_issue (exec_rgnkillExit x s) (decide_eq_true h9)).of_neg (by rw [hkill]; decide)
  have hwhen : (((s.region n).map (·.dying)).getD false || (decide (now.1 = now.2) && decide ((s.region n).bind (·.wave) = some now)))
      = true ↔ dying = true ∨ (now.1 = now.2 ∧ (s.region n).bind (·.wave) = some now) := by
    simp only [Bool.or_eq_true, Bool.and_eq_true, decide_eq_true_eq, dying]
  refine ⟨fun hends => (hgoes.of_pos (hwhen.mpr hends)).tearsDown, fun hlive hdiffer => (hgoes.of_neg (mt hwhen.mp ?waits)).becomes⟩
  rintro (hdying | ⟨hcounts, hwave⟩)
  · exact ne_true_of_eq_false hlive hdying
  · exact hdiffer.elim (· hcounts) (· hwave)

theorem budgetExt_acts {s : State} {x : ArgD} (h9 : s.cur.ctx = 9) :
    ((s.cell s.cur.cell).run9 = none → Writes (.budgetExt x) x.g s s x.d 2)
      ∧ (∀ r, (s.cell s.cur.cell).run9 = some r →
        (s.extStatus r ≠ 0 → Writes (.budgetExt x) x.g s s x.d (word (s.extStatus r)))
        ∧ (s.extStatus r = 0 → Writes (.budgetExt x) x.g s (s.modCtx s.cur.cell r.trap.ctx fun y => { y with
            task := y.task.map fun t => { t with ext := ((s.region t.region).map (·.ext)).getD 0, extended := true } }) x.d 0)) := by
  have heffect := Effect.of_issue (exec_budgetExt x s) (decide_eq_true h9)
  dsimp only at heffect
  refine ⟨fun hnone => ?none_, fun r hr => ⟨fun hst => ?fails, fun hst => ?extends_⟩⟩
  case none_ =>
    rw [hnone] at heffect
    exact heffect.writes rfl
  case fails =>
    rw [hr] at heffect
    dsimp only at heffect
    rw [if_pos hst] at heffect
    exact heffect.writes rfl
  case extends_ =>
    rw [hr] at heffect
    dsimp only at heffect
    rw [if_neg (not_not.mpr hst), hst] at heffect
    exact heffect.writes rfl

theorem regionsEndAndBudgetsExtend : RegionsEndAndBudgetsExtend := by
  refine ⟨fun s x h9 => ⟨fun hkill => ?refused, fun hkill => ⟨?kill, ?exit⟩⟩, fun s x h9 => budgetExt_acts h9⟩
  case refused =>
    exact ⟨((Effect.of_issue (exec_rgnkillKill x s) (decide_eq_true h9)).of_pos (by rw [hkill]; rfl)).writes rfl,
      ((Effect.of_issue (exec_rgnkillExit x s) (decide_eq_true h9)).of_pos (by rw [hkill]; rfl)).writes rfl⟩
  case kill => exact ((Effect.of_issue (exec_rgnkillKill x s) (decide_eq_true h9)).of_neg (by rw [hkill]; decide)).tearsDown
  case exit => exact rgnkillExit_acts h9 hkill

end Sys2Proof.Machine
end

section
/-! PROOFS. What the end of a tear-down leaves of its regions (R267, R282, R353, R354). -/
namespace Sys2Proof.Machine
/-! ### What a tear-down leaves (R282, R354) -/

/-- What the state holds of regions beside the cells: the numbers of the regions, and what they own of the module's own units. -/
@[ext] structure Ledger where
  numbers : List Nat
  bars : Assoc BarInst
  reds : Assoc RedInst
  clusters : Assoc ClusterSt
  placers : Assoc (List PlaceReq)

/-- A ledger without its barriers and reductions. -/
def Ledger.withoutStakes (l : Ledger) : Ledger := { l with bars := [], reds := [] }

/-- Nothing of some regions stands in a ledger. -/
def Ledger.Free (l : Ledger) (rs : List Nat) : Prop :=
  (∀ b ∈ l.bars, b.2.owner ∉ rs) ∧ (∀ r ∈ l.reds, r.2.bar.owner ∉ rs) ∧ (∀ c ∈ l.clusters, c.2.region ∉ rs)
    ∧ ∀ p ∈ l.placers, ∀ q ∈ p.2, headRegion q.record.head ∉ rs

/-- The ledger of a state. -/
def State.ledger (s : State) : Ledger where
  numbers := s.regions.map (·.1)
  bars := s.bars
  reds := s.reds
  clusters := s.clusters
  placers := s.placers

theorem Assoc.keys_modify {α : Type} (k : Nat) (f : α → α) (m : Assoc α) : (Assoc.modify k f m).map (·.1) = m.map (·.1) := by
  induction m with
  | nil => rfl
  | cons e m ih =>
    rw [Assoc.modify]
    split
    · rfl
    · exact congrArg (e.1 :: ·) ih

/-- An option gives some value for the keys of a list. -/
theorem Assoc.isSome_get?_iff {α : Type} (k : Nat) (m : Assoc α) : (Assoc.get? k m).isSome = true ↔ k ∈ m.map (·.1) := by
  induction m with
  | nil => simp [Assoc.get?]
  | cons e m ih =>
    rw [Assoc.get?]
    split
    next h => simp [h]
    next h => simp [ih, Ne.symm h]

theorem Assoc.get?_filter_key {α : Type} (p : Nat → Bool) (k : Nat) (m : Assoc α) :
    Assoc.get? k (m.filter fun e => p e.1) = if p k then Assoc.get? k m else none := by
  induction m with
  | nil => simp [Assoc.get?]
  | cons e m ih =>
    obtain ⟨j, v⟩ := e
    by_cases hj : j = k
    · subst hj
      cases hp : p j <;> simp [Assoc.get?, ih, hp]
    · cases hp : p j <;> simp [Assoc.get?, ih, hp, hj]

theorem Assoc.mem_erase {α : Type} {k : Nat} {m : Assoc α} {e : Nat × α} (h : e ∈ Assoc.erase k m) : e ∈ m ∧ e.1 ≠ k := by
  induction m with
  | nil => simp [Assoc.erase] at h
  | cons d m ih =>
    rw [Assoc.erase] at h
    split at h
    next => exact ⟨List.mem_cons_of_mem _ (ih h).1, (ih h).2⟩
    next hd =>
      rcases List.mem_cons.mp h with rfl | hm
      · exact ⟨List.mem_cons_self, hd⟩
      · exact ⟨List.mem_cons_of_mem _ (ih hm).1, (ih hm).2⟩

theorem Assoc.erase_put {α : Type} (k : Nat) (v : α) (m : Assoc α) : Assoc.erase k (Assoc.put k v m) = Assoc.erase k m := by
  induction m with
  | nil => simp [Assoc.put, Assoc.erase]
  | cons e m ih =>
    obtain ⟨j, x⟩ := e
    rw [Assoc.put]
    split
    · simp [Assoc.erase]
    · split
      next h => simp [Assoc.erase, h]
      next h => simp [Assoc.erase, ih]

section
variable (s : State) (c k j r n : Nat)

@[simp] theorem ledger_modCell (f : Cell → Cell) : (s.modCell c f).ledger = s.ledger := rfl
@[simp] theorem ledger_modCtx (f : Ctx → Ctx) : (s.modCtx c k f).ledger = s.ledger := rfl
@[simp] theorem ledger_send (a b : Place) (p : Pay) : (s.send a b p).ledger = s.ledger := rfl
@[simp] theorem ledger_setRing (g : Ring) : (s.setRing c k g).ledger = s.ledger := rfl
@[simp] theorem ledger_returnMsg (m : Msg) : (s.returnMsg c m k).ledger = s.ledger := rfl

@[simp] theorem ledger_modRegion (f : Region → Region) : (s.modRegion r f).ledger = s.ledger := by
  rw [State.ledger, State.modRegion, Assoc.keys_modify]; rfl

@[simp] theorem ledger_credit : (s.credit r n).ledger = s.ledger := ledger_modRegion ..
@[simp] theorem ledger_countDropped : (s.countDropped r c).ledger = s.ledger := ledger_modRegion ..

/-- What each step of a run leaves as it was the run leaves so. -/
theorem foldl_keeps {α β : Type} {p : State → β} {f : State → α → State} (hf : ∀ u a, p (f u a) = p u) (as : List α) :
    p (as.foldl f s) = p s :=
  List.foldlRecOn (motive := fun u => p u = p s) as f rfl fun u hu a _ => (hf u a).trans hu

theorem ledger_foldl {α : Type} {f : State → α → State} (hf : ∀ u a, (f u a).ledger = u.ledger) (as : List α) :
    (as.foldl f s).ledger = s.ledger :=
  foldl_keeps s hf as

theorem ledger_of_sameButMemory {s t : State} (h : SameButMemory s t) : t.ledger = s.ledger := by
  obtain ⟨_, _, _, rfl⟩ := h
  rfl

/-- A merge of bytes writes memory only (R234). -/
theorem sameButMemory_mergeUnder (tag : Nat × Nat) (a : Nat) (bs : List Byte) : SameButMemory s (s.mergeUnder tag a bs) := by
  rw [State.mergeUnder]
  split
  · exact sameButMemory_writeUnder ..
  · exact sameButMemory_foldl (fun _ _ => sameButMemory_writeUnder ..) _ s

@[simp] theorem ledger_mergeUnder (tag : Nat × Nat) (a : Nat) (bs : List Byte) : (s.mergeUnder tag a bs).ledger = s.ledger :=
  ledger_of_sameButMemory (sameButMemory_mergeUnder ..)

@[simp] theorem ledger_frBump : (s.frBump r c j n).ledger = s.ledger := by
  rw [State.frBump, State.frWrite]
  split
  · exact ledger_mergeUnder ..
  · rfl

end

section
variable {s t : State} {c k tenant r n : Nat}

theorem ledger_charge (h : s.charge r n = some t) : t.ledger = s.ledger := by
  rw [State.charge] at h
  split at h
  · exact nomatch h
  · split at h
    · obtain rfl := Option.some.inj h
      exact ledger_modRegion ..
    · exact nomatch h

theorem ledger_setImage {rs : List (Rec × Nat)} (h : s.setImage c tenant rs = some t) : t.ledger = s.ledger := by
  have hcredits : ∀ q : List Nat, (q.foldl (fun u r => u.credit r 88) s).ledger = s.ledger :=
    ledger_foldl s fun u q => ledger_credit ..
  simp only [State.setImage] at h
  split at h
  · obtain rfl := Option.some.inj h
    rw [ledger_setRing, hcredits]
  · obtain ⟨a, -, rfl⟩ := Option.map_eq_some_iff.mp h
    rw [ledger_setRing, ledger_mergeUnder, ledger_setRing, hcredits]

theorem ledger_ringPush {q : Rec} (h : s.ringPush c tenant q = some t) : t.ledger = s.ledger := by
  rw [State.ringPush] at h
  split at h
  · obtain ⟨u, hu, rfl⟩ := Option.map_eq_some_iff.mp h
    exact (ledger_setRing ..).trans (ledger_charge hu)
  · split at h
    · obtain rfl := Option.some.inj h
      rfl
    · obtain ⟨u, hu, ht⟩ := Option.bind_eq_some_iff.mp h
      exact (ledger_setImage ht).trans (ledger_charge hu)

theorem ledger_getD {o : Option State} (ho : ∀ u, o = some u → u.ledger = s.ledger) (ht : t.ledger = s.ledger) :
    (o.getD t).ledger = s.ledger := by
  cases o with
  | none => exact ht
  | some u => exact ho u rfl

variable (s c k tenant r n)

@[simp] theorem ledger_pushEvent (a1 a2 a3 a4 a5 : Word) : (s.pushEvent r c n a1 a2 a3 a4 a5).ledger = s.ledger := by
  rw [State.pushEvent]
  split
  · exact (ledger_modRegion ..).trans (ledger_getD (fun u hu => ledger_ringPush hu) rfl)
  · exact ledger_frBump ..

@[simp] theorem ledger_refillRing : (s.refillRing c tenant).ledger = s.ledger := by
  rw [State.refillRing]
  dsimp only
  split
  · rfl
  · split
    · have hdropped := ledger_foldl s (f := fun u q => u.countDropped q c) (fun u q => ledger_countDropped ..) (s.ring c tenant).charges
      exact (ledger_pushEvent ..).trans ((ledger_getD (fun u hu => ledger_setImage hu) rfl).trans hdropped)
    · split
      · rfl
      · split
        next => rfl
        next h => exact (ledger_setRing ..).trans (ledger_setImage h)

@[simp] theorem ledger_checkedImage : (s.checkedImage c tenant).ledger = s.ledger := by
  rw [State.checkedImage]
  split
  · exact ledger_refillRing ..
  · rfl

@[simp] theorem ledger_dropRecords (rs : List Nat) : (s.dropRecords c tenant rs).ledger = s.ledger := by
  rw [State.dropRecords]
  refine (ledger_setRing ..).trans (Eq.trans ?_ (ledger_checkedImage s c tenant))
  split
  · split
    · exact ledger_getD (fun u hu => ledger_setImage hu) rfl
    · rfl
  · rfl

@[simp] theorem ledger_credit8 (q : Req8) : (s.credit8 q).ledger = s.ledger := by
  rw [State.credit8]
  split
  · exact ledger_credit ..
  · rfl

@[simp] theorem ledger_unspillOffers : (s.unspillOffers c n).ledger = s.ledger := by
  induction n generalizing s with
  | zero => rfl
  | succ n ih =>
    rw [State.unspillOffers]
    dsimp only
    split
    · rfl
    · split
      · rfl
      · split
        · rfl
        · exact (ih _).trans ((ledger_modCell ..).trans (ledger_credit ..))

@[simp] theorem ledger_removeOffers (p : Offer → Bool) : (s.removeOffers c k p).ledger = s.ledger := by
  rw [State.removeOffers]
  split
  · rfl
  · dsimp only
    split
    · rfl
    · simp only [ledger_unspillOffers, ledger_modCell, ledger_credit]

@[simp] theorem ledger_answerOffer (o : Offer) (e : PortEnd) (f : FiringAt) : (s.answerOffer c o k e f).ledger = s.ledger := by
  rw [State.answerOffer]
  split <;> rfl

@[simp] theorem ledger_emptySlots : (s.emptySlots c k tenant).ledger = s.ledger :=
  ledger_foldl s (fun _ _ => ledger_modCtx ..) _

@[simp] theorem ledger_dropAlts (gs : List (Nat × Nat × Word × Nat)) : (s.dropAlts c gs).ledger = s.ledger := by
  rw [State.dropAlts]
  exact ledger_foldl _ (fun u p => ledger_removeOffers ..) _

@[simp] theorem ledger_dropHub : (s.dropHub c k).ledger = s.ledger := by
  rw [State.dropHub]
  split
  · rfl
  next h _ =>
    simp only [ledger_unspillOffers, ledger_dropAlts, ledger_emptySlots]
    refine Eq.trans (b := (State.ledger (if _ then _ else _))) rfl ?_
    split
    all_goals
      simp only [ledger_frBump, ledger_credit]
      exact ledger_foldl _ (fun u o => ledger_answerOffer ..) _

@[simp] theorem ledger_dropHubs (rs : List Nat) : (s.dropHubs rs).ledger = s.ledger := by
  rw [State.dropHubs]
  refine ledger_foldl _ (fun u q => ledger_foldl _ (fun v j => ?_) _) _
  split
  · rfl
  · split
    · exact ledger_dropHub ..
    · exact ledger_removeOffers ..

@[simp] theorem ledger_wakeBarrier (b : BarInst) (all : Bool) : (s.wakeBarrier k b all).ledger = s.ledger :=
  ledger_foldl s (fun _ _ => ledger_modCtx ..) _

@[simp] theorem ledger_tellLinks (q : RedInst) (ls : List RLane) (b : Bool) : (s.tellLinks n q ls b).ledger = s.ledger :=
  ledger_foldl s (fun _ _ => ledger_send ..) _

@[simp] theorem ledger_grantPool : (s.grantPool c k n).ledger = s.ledger := by
  induction n generalizing s with
  | zero => rfl
  | succ n ih =>
    rw [State.grantPool]
    split
    · rfl
    · split
      · simp only [ih, ledger_send, ledger_modRegion, ledger_modCell]
      · rfl

@[simp] theorem ledger_closePool : (s.closePool c k).ledger = s.ledger := by
  rw [State.closePool]
  split
  · rfl
  · split
    · exact ledger_foldl _ (fun _ _ => ledger_send ..) _
    · rfl

@[simp] theorem ledger_settle : (s.settle c).ledger = s.ledger := by
  rw [State.settle]
  exact ledger_foldl _ (fun u p => (ledger_closePool ..).trans (ledger_grantPool ..)) _

/-- A scrub writes memory only (R132, R150, R282). -/
theorem sameButMemory_scrubHome (lo hi : Nat) (tag : Nat × Nat) : SameButMemory s (s.scrubHome lo hi tag) := by
  rw [State.scrubHome]
  dsimp only
  split <;> exact ⟨_, _, _, rfl⟩

theorem sameButMemory_scrubGrant (g : Grant) (tag : Nat × Nat) : SameButMemory s (s.scrubGrant g tag) :=
  ((sameButMemory_scrubHome ..).trans (sameButMemory_scrubHome ..)).trans (sameButMemory_scrubHome ..)

end

/-! ### Instances and reductions of regions that end (R353, R354) -/

section
variable (s : State)

theorem ledger_freeBar (key : Nat) (b : BarInst) :
    (s.freeBar key b).ledger = { s.ledger with bars := Assoc.erase key s.ledger.bars } := by
  have hwoken : ((s.wakeBarrier key b.break_ true).wakeBarrier key b.break_.break_ true).ledger = s.ledger :=
    (ledger_wakeBarrier ..).trans (ledger_wakeBarrier ..)
  rw [State.freeBar, ← hwoken]
  rfl

theorem ledger_setRed (n : Nat) (r : RedInst) (all : Bool) :
    (s.setRed n r all).ledger = { s.ledger with reds := Assoc.put n r s.ledger.reds } := by
  rw [State.setRed]
  exact ledger_foldl _ (fun _ _ => ledger_modCtx ..) _

theorem ledger_breakRed (n : Nat) (r : RedInst) (all : Bool) :
    (s.breakRed n r all).ledger = { s.ledger with reds := Assoc.put n (r.ended r.bar.break_) s.ledger.reds } := by
  rw [State.breakRed, ledger_setRed, ledger_tellLinks]

theorem ledger_freeRed (n : Nat) (r : RedInst) :
    (s.freeRed n r).ledger = { s.ledger with reds := Assoc.erase n s.ledger.reds } := by
  have hfreed : (s.freeRed n r).ledger =
      { ((s.breakRed n r true).breakRed n (r.ended r.bar.break_) true).ledger with
        reds := Assoc.erase n ((s.breakRed n r true).breakRed n (r.ended r.bar.break_) true).ledger.reds } := rfl
  simp only [hfreed, ledger_breakRed, Assoc.erase_put]

/-- After some entries are freed, one by one, each that is left was there before, and is none of them. -/
theorem freed_spec {α : Type} {p : State → Assoc α} {f : State → Nat × α → State} (hf : ∀ u e, p (f u e) = Assoc.erase e.1 (p u))
    (es : List (Nat × α)) : ∀ e ∈ p (es.foldl f s), e ∈ p s ∧ e ∉ es := by
  induction es generalizing s with
  | nil => exact fun e he => ⟨he, List.not_mem_nil⟩
  | cons d es ih =>
    intro e he
    obtain ⟨hthere, hnot⟩ := ih (f s d) e he
    obtain ⟨hbefore, hkey⟩ := Assoc.mem_erase (hf s d ▸ hthere)
    exact ⟨hbefore, fun hmem => (List.mem_cons.mp hmem).elim (fun h => hkey (h ▸ rfl)) hnot⟩

/-- With the stakes of some regions freed no barrier and no reduction of theirs is left; the rest of the ledger stays. -/
theorem freeStakes_spec (rs : List Nat) :
    let t := s.freeStakes rs
    t.ledger = { s.ledger with bars := t.bars, reds := t.reds }
      ∧ (∀ b ∈ t.bars, b.2.owner ∉ rs) ∧ (∀ r ∈ t.reds, r.2.bar.owner ∉ rs) := by
  have hbar (u : State) (b : Nat × BarInst) := ledger_freeBar u b.1 b.2
  have hred (u : State) (r : Nat × RedInst) := ledger_freeRed u r.1 r.2
  refine ⟨?ledger, fun b hb howner => ?bar, fun r hr howner => ?red⟩
  case ledger =>
    have hrest : (s.freeStakes rs).ledger.withoutStakes = s.ledger.withoutStakes :=
      (foldl_keeps (p := fun u => u.ledger.withoutStakes) _ (fun u r => by simp only [hred]; rfl) _).trans
        (foldl_keeps (p := fun u => u.ledger.withoutStakes) s (fun u b => by simp only [hbar]; rfl) _)
    obtain ⟨hnumbers, -, -, hclusters, hplacers⟩ := Ledger.ext_iff.mp hrest
    exact Ledger.ext hnumbers rfl rfl hclusters hplacers
  case bar =>
    have hthere := foldl_keeps (p := State.bars) _ (fun u r => congrArg Ledger.bars (hred u r)) _ ▸ hb
    obtain ⟨hbefore, hnot⟩ := freed_spec s (p := State.bars) (fun u b => congrArg Ledger.bars (hbar u b)) _ b hthere
    exact hnot (List.mem_filter.mpr ⟨hbefore, List.contains_iff_mem.mpr howner⟩)
  case red =>
    obtain ⟨hbefore, hnot⟩ := freed_spec _ (p := State.reds) (fun u r => congrArg Ledger.reds (hred u r)) _ r hr
    exact hnot (List.mem_filter.mpr ⟨hbefore, List.contains_iff_mem.mpr howner⟩)

end

/-! ### The end of a tear-down (R267, R282) -/

section
variable (s : State) (rs : List Nat)

/-- What is forgotten of some regions in a cell is not in the ledger. -/
theorem ledger_forgetCells :
    ((s.cells.map (·.1)).foldl (fun s c =>
      let s := (s.orphanMsgs c rs).foldl (fun s m => s.returnMsg c m 3) s
      let s := ((s.cell c).over8.filter (·.of rs)).foldl (fun s q => s.credit8 q) s
      let s := ((s.cell c).rings.map (·.1)).foldl (fun s t => s.dropRecords c t rs) s
      s.modCell c fun x => x.forget rs) s).ledger = s.ledger :=
  ledger_foldl s (fun u c => by
    dsimp only
    rw [ledger_modCell, ledger_foldl _ fun _ _ => ledger_dropRecords .., ledger_foldl _ fun _ _ => ledger_credit8 ..,
      ledger_foldl _ fun _ _ => ledger_returnMsg ..]) _

/-- What the module's own units hold of some regions is forgotten, and the regions stay. -/
theorem ledger_forgetAll : (s.forgetAll rs).ledger.numbers = s.ledger.numbers ∧ (s.forgetAll rs).ledger.Free rs := by
  have hcells := ledger_forgetCells s rs
  rw [State.forgetAll]
  dsimp only at hcells ⊢
  generalize (s.cells.map (·.1)).foldl _ s = u at hcells ⊢
  obtain ⟨hledger, hbars, hreds⟩ := freeStakes_spec { u with
    placers := u.placers.map fun (p : Nat × List PlaceReq) => (p.1, p.2.filter fun q => !q.record.of rs)
    clusters := u.clusters.filter fun x => !rs.contains x.2.region } rs
  obtain ⟨hnumbers, -, -, hclusters, hplacers⟩ := Ledger.ext_iff.mp hledger
  have hkept : u.ledger.numbers = s.ledger.numbers := congrArg Ledger.numbers hcells
  refine ⟨hnumbers.trans hkept, hbars, hreds, fun c hc => ?cluster, fun p hp q hq => ?place⟩
  case cluster =>
    obtain ⟨-, hother⟩ := List.mem_filter.mp (hclusters ▸ hc)
    simpa using hother
  case place =>
    obtain ⟨p, -, rfl⟩ := List.mem_map.mp (hplacers ▸ hp)
    obtain ⟨-, hother⟩ := List.mem_filter.mp hq
    simpa [Rec.of] using hother

/-- The state in which nothing of a subtree is left beside its regions. -/
def State.forgotten (s : State) (rs : List Nat) : State :=
  let u : State := { s with cells := s.cells.map fun (x : Nat × Cell) => (x.1, x.2.withdraw rs) }
  let v := (u.dropHubs rs).forgetAll rs
  (v.cells.map (·.1)).foldl (fun v c => v.settle c) v

theorem ledger_forgotten : (s.forgotten rs).ledger.numbers = s.ledger.numbers ∧ (s.forgotten rs).ledger.Free rs := by
  obtain ⟨hnumbers, hfree⟩ := ledger_forgetAll
    (State.dropHubs { s with cells := s.cells.map fun (x : Nat × Cell) => (x.1, x.2.withdraw rs) } rs) rs
  rw [State.forgotten, ledger_foldl _ fun _ _ => ledger_settle ..]
  exact ⟨hnumbers.trans (congrArg Ledger.numbers (ledger_dropHubs ..)), hfree⟩

/-- After the end of a tear-down the subtree's regions are gone, and the rest of the ledger is as it was left. -/
theorem finishTearDown_spec (n : Nat) :
    let t := s.finishTearDown n
    t.regions = (s.forgotten (s.subtree n)).regions.filter (fun r => !(s.subtree n).contains r.1)
      ∧ t.ledger = { (s.forgotten (s.subtree n)).ledger with numbers := t.regions.map (·.1) } := by
  intro t
  obtain ⟨_, _, _, ht⟩ : SameButMemory _ t := sameButMemory_foldl (fun _ _ => sameButMemory_scrubGrant ..) _ _
  rw [ht]
  exact ⟨rfl, rfl⟩

theorem tearDownEndsTheSubtree : TearDownEndsTheSubtree := by
  intro s n
  obtain ⟨hregions, hledger⟩ := finishTearDown_spec s n
  obtain ⟨hnumbers, hbars, hreds, hclusters, hplacers⟩ := ledger_forgotten s (s.subtree n)
  obtain ⟨-, hb, hr, hc, hp⟩ := Ledger.ext_iff.mp hledger
  have hregion (k : Nat) : (s.finishTearDown n).region k
      = if !(s.subtree n).contains k then (s.forgotten (s.subtree n)).region k else none := by
    rw [State.region, hregions, Assoc.get?_filter_key fun k => !(s.subtree n).contains k]; rfl
  refine ⟨fun k hk => ?gone, fun k hk => ?kept, fun b hb' => hbars b (hb ▸ hb'), fun r hr' => hreds r (hr ▸ hr'),
    fun c hc' => hclusters c (hc ▸ hc'), fun p hp' => hplacers p (hp ▸ hp')⟩
  case gone => rw [hregion, if_neg (by simpa using hk)]
  case kept =>
    rw [hregion, if_pos (by simpa using hk), Bool.eq_iff_iff]
    exact (Assoc.isSome_get?_iff ..).trans ((iff_of_eq (congrArg (k ∈ ·) hnumbers)).trans (Assoc.isSome_get?_iff ..).symm)

/-- Settles O22: parking and waves, ends and budgets, and what a tear-down leaves. -/
theorem regionsParkAndEnd : Obligations.RegionsParkAndEnd :=
  ⟨regionsParkResumeAndCount, regionsEndAndBudgetsExtend, tearDownEndsTheSubtree⟩

end

end Sys2Proof.Machine
end

section
/-! PROOFS. The instructions of ports and of hub images (R285, R300, R302 to R305, R317 to R321, R326). -/
namespace Sys2Proof.Machine

/-! ### Offers (R300, R302, R304, R326) -/

section
variable {i : Instr} {g : Guard} {s : State} {os : List Offer}

theorem postOffers_eq :
    s.postOffers s.cur.cell s.taskTenant os = if offersHeld s os then .error .stall else .ok (offersSent s os) := rfl

/-- An instruction that makes offers stalls while the outbound buffer is held, and else goes on with them on their way. -/
theorem Effect.offers {f : State → Res} (h : Effect i g s (s.postOffers s.cur.cell s.taskTenant os >>= f)) :
    (offersHeld s os = true → Stalls i g s) ∧ (offersHeld s os = false → Effect i g s (f (offersSent s os))) := by
  rw [postOffers_eq] at h
  exact ⟨fun hheld => h.refused (k := .stall) (if_pos hheld), fun hfree => h.given (if_neg (ne_true_of_eq_false hfree))⟩

/-- One that waits for its release first stalls for either. -/
theorem Effect.offersReleased {sc : Scope} {f : State → Res}
    (h : Effect i g s (s.releaseWait sc >>= fun _ => s.postOffers s.cur.cell s.taskTenant os >>= f)) :
    (s.releaseReady s.cur.cell s.cur.ctx sc = false ∨ offersHeld s os = true → Stalls i g s)
      ∧ (s.releaseReady s.cur.cell s.cur.ctx sc = true → offersHeld s os = false → Effect i g s (f (offersSent s os))) := by
  obtain ⟨hstall, hgoes⟩ := h.awaits
  refine ⟨fun hwaits => ?_, fun hrel hfree => (hgoes hrel).offers.2 hfree⟩
  cases hrel : s.releaseReady s.cur.cell s.cur.ctx sc with
  | false => exact hstall hrel
  | true => exact (hgoes hrel).offers.1 (hwaits.resolve_left (by simp [hrel]))

end

theorem putAndGetOfferOnce : PutAndGetOfferOnce := by
  intro s h8
  refine ⟨fun x => ⟨fun r hr => ?putSlot, fun hslot t ht => ?putLink, fun hslot hlink => ?put⟩,
    fun x => ⟨fun r hr => ?getSlot, fun hslot => ?get⟩⟩
  case putSlot => exact (Effect.of_issue (exec_put x s) (decide_eq_true h8)).trapped (by rw [hr]; rfl)
  case putLink => exact ((Effect.of_issue (exec_put x s) (decide_eq_true h8)).untrapped (by rw [hslot]; rfl)).trapped ht
  case put =>
    obtain ⟨hstall, hgoes⟩ :=
      (((Effect.of_issue (exec_put x s) (decide_eq_true h8)).untrapped (by rw [hslot]; rfl)).untrapped hlink).offersReleased
    exact ⟨hstall, fun hrel hfree => (hgoes hrel hfree).becomes⟩
  case getSlot => exact (Effect.of_issue (exec_get x s) (decide_eq_true h8)).trapped (by rw [hr]; rfl)
  case get =>
    obtain ⟨hstall, hgoes⟩ := ((Effect.of_issue (exec_get x s) (decide_eq_true h8)).untrapped (by rw [hslot]; rfl)).offers
    exact ⟨hstall, fun hfree => (hgoes hfree).becomes⟩

/-- The check of an `alt`'s slots in its rising order is that of the first slot which may not be used. -/
theorem altFault_eq (s : State) (ks : List Nat) :
    ks.findSome? (fun k => (if ((s.me.slots.getD k none).map fun p => portRemote p.name) == some true then some 2
      else s.slotReason k none).map fun r => portFault (word k) r) = altFault s ks := by
  simp only [altFault, beq_iff_eq]
  rfl

theorem altOffersAtEverySlot : AltOffersAtEverySlot := by
  intro s x h8 ks hubs isIn output os
  have heffect := Effect.of_issue (exec_alt x s) (decide_eq_true h8)
  refine ⟨fun t ht => heffect.trapped ((altFault_eq ..).trans ht), fun hslots hmany => ?hubs, fun hslots hone => ?offers⟩
  all_goals have hchecked := heffect.untrapped ((altFault_eq ..).trans hslots)
  case hubs => exact hchecked.trapped (if_pos hmany)
  case offers =>
    have hgoes := hchecked.untrapped (if_neg (Nat.not_lt.mpr hone))
    cases hout : output with
    | false =>
      obtain ⟨hstall, hsent⟩ := (hgoes.of_neg (ne_true_of_eq_false hout)).offers
      exact ⟨fun hwaits => hstall (hwaits.resolve_left (by simp)), fun _ hfree => (hsent hfree).becomes⟩
    | true =>
      obtain ⟨hstall, hsent⟩ := (hgoes.of_pos hout).offersReleased
      exact ⟨fun hwaits => hstall (hwaits.imp_left (·.2)), fun hrel hfree => (hsent (hrel.resolve_left (by simp)) hfree).becomes⟩

/-- Settles O23: `put` and `get`, and `alt`. -/
theorem portInstructionsOffer : Obligations.PortInstructionsOffer := ⟨putAndGetOfferOnce, altOffersAtEverySlot⟩

/-! ### Binding (R285, R300, R305) -/

theorem pbindUnbindsThenAsks : PbindUnbindsThenAsks := by
  intro s x h8
  have heffect := Effect.of_issue (exec_pbind x s) (decide_eq_true h8)
  dsimp only at heffect ⊢
  refine ⟨fun hbeyond => ?beyond, fun hslot => ?bound⟩
  case beyond =>
    have htrap := heffect.of_pos hbeyond
    by_cases ha : x.a.val = 0
    · rw [if_pos ha] at htrap ⊢
      exact htrap.traps
    · rw [if_neg ha] at htrap ⊢
      exact htrap.traps
  case bound =>
    have hunbound := heffect.of_neg (Nat.not_le.mpr hslot)
    refine ⟨fun ha => (hunbound.of_pos ha).becomes, fun ha hform => ?malformed, fun ha hform hremote => ?remote,
      fun ha hform hlocal => ?home⟩
    case malformed => exact ((hunbound.of_neg ha).of_pos (congrArg not hform)).becomes
    all_goals have hformed := (hunbound.of_neg ha).of_neg (ne_true_of_eq_false (congrArg not hform))
    case remote =>
      have hfar := hformed.of_pos hremote
      refine ⟨fun t ht => ?down, fun hup => ?up⟩
      case down => rw [ht] at hfar; exact hfar.becomes
      case up => rw [hup] at hfar; exact hfar.becomes
    case home =>
      have hnear := hformed.of_neg (ne_true_of_eq_false hlocal)
      refine ⟨fun hnone => ?unknown, fun h hh => ?known⟩
      case unknown => rw [hnone] at hnear; exact hnear.becomes
      case known => rw [hh] at hnear; exact hnear.becomes

/-! ### Hub images (R320, R321) -/

theorem cload_loads {s : State} {x : ArgDAB} {head bs : List Byte} (h9 : s.cur.ctx = 9) (hhead : s.syncRead (s.me.rs x.a) 128 64 = .ok head)
    (hbs : s.syncRead (s.me.rs x.a) (hubImageSize head) 64 = .ok bs) :
    let w := (s.me.rs x.b).toNat
    let r := s.loadHub s.cur.cell bs (w % 2 ^ 16) (if 2 ^ 32 ≤ w then 0 else slice w 16 16) s.myTenant
    (∀ e, r = .error e → Writes (.cload x) x.g s s x.d (word e))
      ∧ (∀ j t, r = .ok (j, t) → Writes (.cload x) x.g s t x.d (word (j * 2 ^ 8))) := by
  intro w r
  have hloads := ((Effect.of_issue (exec_cload x s) (decide_eq_true h9)).given hhead).given hbs
  dsimp only at hloads
  refine ⟨fun e he => ?fails, fun j t hok => ?loads⟩
  case fails =>
    rw [show s.loadHub s.cur.cell bs _ _ s.myTenant = .error e from he] at hloads
    exact hloads.writes rfl
  case loads =>
    rw [show s.loadHub s.cur.cell bs _ _ s.myTenant = .ok (j, t) from hok] at hloads
    exact hloads.writes rfl

theorem cdrop_drops {s : State} {x : ArgDA} (h9 : s.cur.ctx = 9) :
    let w := (s.me.rs x.a).toNat
    let hit (h : HubSlot) : Bool := w < 2 ^ 24 && h.conn == w % 2 ^ 16 && h.image.creg == slice w 16 8
    let mine := (s.cell s.cur.cell).hub.find? fun h => hit h.2 && h.2.tenant == s.myTenant
    (∀ j h, mine = some (j, h) → Writes (.cdrop x) x.g s (s.dropHub s.cur.cell j) x.d 0)
      ∧ (mine = none → Writes (.cdrop x) x.g s s x.d (if (s.cell s.cur.cell).hub.any fun h => hit h.2 then 3 else 1)) := by
  intro w hit mine
  have heffect := Effect.of_issue (exec_cdrop x s) (decide_eq_true h9)
  dsimp only at heffect
  refine ⟨fun j h hmine => ?drops, fun hnone => ?none_⟩
  case drops =>
    rw [show (s.cell s.cur.cell).hub.find? _ = some (j, h) from hmine] at heffect
    exact heffect.writes rfl
  case none_ =>
    rw [show (s.cell s.cur.cell).hub.find? _ = none from hnone] at heffect
    exact heffect.writes (apply_ite word ..)

theorem hubsLoadAndDrop : HubsLoadAndDrop := ⟨fun _ _ _ _ h9 hhead hbs => cload_loads h9 hhead hbs, fun _ _ h9 => cdrop_drops h9⟩

/-- Settles O24: binding, and hub images. -/
theorem portsBindAndHubsLoad : Obligations.PortsBindAndHubsLoad := ⟨pbindUnbindsThenAsks, hubsLoadAndDrop⟩

end Sys2Proof.Machine
end

section
/-! PROOFS. Messages, the handler table and endpoints at their instructions (R326, R328, R331, R332, R335 to R338). -/
namespace Sys2Proof.Machine

/-! ### Messages (R332, R335) -/

/-- Settles O26: the checks of the name, the release and the buffer, in their order. -/
theorem messagesTakeTheOutputBuffer : Obligations.MessagesTakeTheOutputBuffer := by
  intro s x c name remote bad known scope m f
  have heffect := Effect.of_issue (exec_amsg x s) rfl
  have hbad : (decide (2 ^ 44 ≤ name.toNat) || (remote && !s.linkOpen (epLink name) s.myTenant)) = true ↔ bad := by
    simp only [bad, Bool.or_eq_true, Bool.and_eq_true, Bool.not_eq_true', decide_eq_true_eq]
  refine ⟨fun h => heffect.trapped (if_pos (hbad.mpr h)), fun hok hlocal hnone => ?foreign, fun hok hown => ?sent⟩
  all_goals have hname := heffect.untrapped (if_neg (mt hbad.mp hok))
  case foreign =>
    exact hname.stopped (e := .freeze .message (msgFault name 2)) (if_pos (by
      rw [show epRemote (s.me.rs x.a) = false from hlocal, show (s.regions.any _) = false from hnone]; rfl))
  case sent =>
    have hfound : ¬ (!remote && !known) = true := by rcases hown with h | h <;> simp [h]
    obtain ⟨hstall, hgoes⟩ := (hname.unstopped (if_neg hfound)).awaits
    refine ⟨fun hwaits => ?waits, fun hrel hfree => ((hgoes hrel).unstalled ?_).becomes⟩
    case waits =>
      cases hrel : s.releaseReady c s.cur.ctx scope with
      | false => exact hstall hrel
      | true => exact (hgoes hrel).stalled (by simpa using hwaits.resolve_left (by simp [hrel]))
    · rw [show (s.cell s.cur.cell).outbuf = [] from hfree]; rfl

/-! ### The handler table (R328, R336) -/

/-- The ASID of a context follows from its task or run, and its region's control block, not from the endpoints of the cell. -/
theorem asidOf_changeEps (s : State) (c i : Nat) (f : Cell → Assoc Endpoint) :
    (s.modCell c fun y => { y with eps := f y }).asidOf c i = s.asidOf c i := by
  simp [State.asidOf, State.ctxRegion, State.ctxAt, Cell.ctx, State.region]

section
variable {s : State} (hctx : s.cur.ctx < 8)
include hctx

theorem htabSet_sets (x : ArgHtab) :
    let r := s.htabSet s.cur.cell (s.ctxRegion s.cur.cell s.cur.ctx) x.cls.val (s.me.rs x.a)
    (∀ e, r = .error e → Writes (.htabSet x) x.g s s x.d (failWord e)) ∧ (∀ t, r = .ok t → Writes (.htabSet x) x.g s t x.d 0) := by
  have heffect := Effect.of_issue (exec_htabSet x s) (decide_eq_true hctx)
  dsimp only at heffect ⊢
  refine ⟨fun e he => ?_, fun t ht => ?_⟩
  · rw [he] at heffect; exact heffect.writes rfl
  · rw [ht] at heffect; exact heffect.writes rfl

theorem htabClr_clears (x : ArgHtab) :
    let c := s.cur.cell
    let r := s.ctxRegion c s.cur.ctx
    (Assoc.get? x.cls.val (s.cell c).htab = none → Writes (.htabClr x) x.g s s x.d (failWord (if x.cls.val < 8 then 1 else 4)))
      ∧ (∀ e, Assoc.get? x.cls.val (s.cell c).htab = some e →
        (e.region ≠ r → Writes (.htabClr x) x.g s s x.d (failWord 1))
        ∧ (e.region = r →
          let t := (s.modCell c fun y => { y with htab := Assoc.erase x.cls.val y.htab }).takeRequests c
            fun m q => m.cls == x.cls.val && q == r
          Writes (.htabClr x) x.g s (t.1.foldl (fun s m => s.returnMsg c m 5) t.2) x.d 0)) := by
  have heffect := Effect.of_issue (exec_htabClr x s) (decide_eq_true hctx)
  dsimp only at heffect ⊢
  refine ⟨fun hnone => ?_, fun e he => ?_⟩
  · rw [hnone] at heffect; exact heffect.writes rfl
  · rw [he] at heffect
    exact ⟨fun hother => (heffect.of_pos hother).writes rfl, fun hown => (heffect.of_neg (not_not.mpr hown)).writes rfl⟩

theorem htabEpnew_makes (x : ArgD) :
    let c := s.cur.cell
    ((s.cell c).freeEp = none → Writes (.htabEpnew x) x.g s s x.d (failWord 3))
      ∧ (∀ n, (s.cell c).freeEp = some n → Writes (.htabEpnew x) x.g s
          (s.modCell c fun y => { y with eps := Assoc.put n { region := s.ctxRegion c s.cur.ctx, st := .resident } y.eps }) x.d
          (mkEp (s.asidOf c s.cur.ctx) n c)) := by
  have heffect := Effect.of_issue (exec_htabEpnew x s) (decide_eq_true hctx)
  dsimp only at heffect ⊢
  refine ⟨fun hnone => ?_, fun n hn => ?_⟩
  · rw [hnone] at heffect; exact heffect.writes rfl
  · rw [hn] at heffect; exact heffect.writes (congrArg (mkEp · n _) (asidOf_changeEps ..))

/-- A resident endpoint of the region and a stub of its are deleted; one that moves or is parked is not (R336). -/
theorem htabEpdel_deletes (x : ArgDA) :
    let c := s.cur.cell
    let r := s.ctxRegion c s.cur.ctx
    let n := s.me.rs x.a
    let t := (s.modCell c fun y => { y with eps := Assoc.erase (epNumber n) y.eps }).takeRequests c
      fun m q => epNumber m.target == epNumber n && q == r
    (s.ownEndpoint c r n = none → Writes (.htabEpdel x) x.g s s x.d (failWord 4))
      ∧ (∀ e, s.ownEndpoint c r n = some e → (e.st = .resident ∨ ∃ w, e.st = .stub w) →
          Writes (.htabEpdel x) x.g s (t.1.foldl (fun s m => s.returnMsg c m 3) t.2) x.d 0)
      ∧ (∀ e, s.ownEndpoint c r n = some e → (e.st = .moving ∨ ∃ q b, e.st = .parked q b) →
          Writes (.htabEpdel x) x.g s s x.d (failWord 4)) := by
  have heffect := Effect.of_issue (exec_htabEpdel x s) (decide_eq_true hctx)
  dsimp only at heffect ⊢
  refine ⟨fun hnone => ?none_, fun e he hst => ?gone, fun e he hst => ?stays⟩
  case none_ => rw [hnone] at heffect; exact (heffect.of_pos rfl).writes rfl
  case gone =>
    rw [he] at heffect
    rcases hst with hst | ⟨w, hst⟩
    all_goals
      simp only [hst] at heffect
      exact (heffect.of_neg Bool.false_ne_true).writes rfl
  case stays =>
    rw [he] at heffect
    rcases hst with hst | ⟨q, b, hst⟩
    all_goals
      simp only [hst] at heffect
      exact (heffect.of_pos rfl).writes rfl

end

theorem handlerTableEntriesChange : HandlerTableEntriesChange :=
  fun _ hctx => ⟨fun x => ⟨(htabSet_sets hctx x).1, (htabSet_sets hctx x).2, htabClr_clears hctx x⟩, htabEpnew_makes hctx,
    htabEpdel_deletes hctx⟩

/-! ### Endpoints that move and park (R331, R337, R338) -/

theorem endpointsMoveAndPark : EndpointsMoveAndPark := by
  intro s hctx
  dsimp only
  refine ⟨fun x => ⟨fun hbad => ?badTarget, fun ht hgrant => ⟨fun hnone => ?notResident, fun e he => ?moves⟩⟩,
    fun x => ⟨fun hnone => ?parkNone, fun e he => ?parks, fun e q b he hst => ?resumes, fun hnot => ?resumeNone⟩⟩
  case badTarget =>
    have heffect := Effect.of_issue (exec_epmov x s) (decide_eq_true hctx)
    exact (heffect.of_pos (by simpa using hbad)).traps
  case notResident =>
    have heffect := (Effect.of_issue (exec_epmov x s) (decide_eq_true hctx)).of_neg (by simpa using ⟨ht, Option.isSome_iff_ne_none.mp hgrant⟩)
    rw [hnone] at heffect
    exact heffect.writes rfl
  case moves =>
    have heffect := (Effect.of_issue (exec_epmov x s) (decide_eq_true hctx)).of_neg (by simpa using ⟨ht, Option.isSome_iff_ne_none.mp hgrant⟩)
    rw [he] at heffect
    exact heffect.becomes
  case parkNone =>
    have heffect := Effect.of_issue (exec_epparkPark x s) (decide_eq_true hctx)
    dsimp only at heffect
    rw [hnone] at heffect
    exact heffect.writes rfl
  case parks =>
    have heffect := Effect.of_issue (exec_epparkPark x s) (decide_eq_true hctx)
    dsimp only at heffect
    rw [he] at heffect
    exact heffect.writes rfl
  case resumes =>
    obtain ⟨r, st⟩ := e
    obtain rfl : st = .parked q b := hst
    have heffect := Effect.of_issue (exec_epparkResume x s) (decide_eq_true hctx)
    dsimp only at heffect
    rw [he] at heffect
    exact heffect.writes rfl
  case resumeNone =>
    have heffect := Effect.of_issue (exec_epparkResume x s) (decide_eq_true hctx)
    dsimp only at heffect
    split at heffect
    next r q b he => exact absurd rfl (hnot _ he q b)
    next => exact heffect.writes rfl

/-- Settles O27: the handler table and the endpoint store. -/
theorem handlersAndEndpointsChange : Obligations.HandlersAndEndpointsChange := ⟨handlerTableEntriesChange, endpointsMoveAndPark⟩

end Sys2Proof.Machine
end

section
/-! PROOFS. The instructions of barriers and reductions, and their configuration (R342 to R344, R346, R347, R349 to R353). -/
namespace Sys2Proof.Machine

/-! ### Generations (R342) -/

theorem Assoc.get?_map {α β : Type} (f : α → β) (k : Nat) (m : Assoc α) :
    Assoc.get? k (m.map fun (e : Nat × α) => (e.1, f e.2)) = (Assoc.get? k m).map f := by
  induction m with
  | nil => rfl
  | cons e m ih =>
    obtain ⟨j, v⟩ := e
    by_cases h : j = k
    · simp [Assoc.get?, h]
    · simp [Assoc.get?, h, ih]

/-- Every cell of a barrier or reduction that a block configures begins with no arrival (R353). -/
theorem blockBar_cell {bs : List Byte} {c : Nat} {x : BarCell} (h : Assoc.get? c (blockBar bs).cells = some x) :
    x = { cur := 0, next := 0, departed := false } := by
  simp only [blockBar] at h
  generalize bitmapCells bs = ks at h
  induction ks with
  | nil => exact nomatch h
  | cons k ks ih =>
    rw [List.map_cons, Assoc.get?] at h
    split at h
    · exact (Option.some.inj h).symm
    · exact ih h

/-- The arrivals of a cell as a release leaves them. -/
def BarCell.turned (x : BarCell) : BarCell := { x with cur := x.next, next := 0 }

section
variable {b : BarInst} {c : Nat} {x : BarCell} (hx : Assoc.get? c b.cells = some x)
include hx

theorem arrive_current (h : x.cur < b.k) :
    b.arrive c = some ({ b with cells := Assoc.put c { x with cur := x.cur + 1 } b.cells }, b.gen) := by
  simp only [BarInst.arrive, hx, if_pos h]

theorem arrive_next (hcur : b.k ≤ x.cur) (h : x.next < b.k) :
    b.arrive c = some ({ b with cells := Assoc.put c { x with next := x.next + 1 } b.cells }, (b.gen + 1) % 2 ^ 16) := by
  simp only [BarInst.arrive, hx, if_neg (Nat.not_lt.mpr hcur), if_pos h]

theorem arrive_full (hcur : b.k ≤ x.cur) (hnext : b.k ≤ x.next) : b.arrive c = none := by
  simp only [BarInst.arrive, hx, if_neg (Nat.not_lt.mpr hcur), if_neg (Nat.not_lt.mpr hnext)]

theorem release_cell : Assoc.get? c b.release.cells = some { x with cur := x.next, next := 0 } :=
  (Assoc.get?_map BarCell.turned c b.cells).trans (by rw [hx]; rfl)

end

theorem allHigh_iff (b : BarInst) : b.allHigh = true ↔ ∀ e ∈ b.cells, e.2.cur = b.k ∨ e.2.departed = true := by
  simp [BarInst.allHigh, BarInst.high]

/-- A generation has ended that lies between 1 and 32768 behind, modulo 2^16. -/
theorem ended_iff {b : BarInst} {g : Nat} (hgen : b.gen < 2 ^ 16) (hg : g < 2 ^ 16) :
    b.ended g = true ↔ ∃ d, 1 ≤ d ∧ d ≤ 32768 ∧ (g + d) % 2 ^ 16 = b.gen := by
  rw [BarInst.ended, Bool.and_eq_true, decide_eq_true_iff, decide_eq_true_iff, BarInst.behind]
  constructor
  · exact fun ⟨hlow, hhigh⟩ => ⟨(b.gen + 2 ^ 16 - g) % 2 ^ 16, hlow, hhigh, by omega⟩
  · rintro ⟨d, hlow, hhigh, hd⟩
    omega

/-! ### Barriers at their instructions (R342 to R344, R351) -/

section
variable {s : State} (hctx : s.cur.ctx < 8)
include hctx

/-- An arrival at a barrier that no reason refuses waits for its release and for room, and then counts. -/
theorem barv_arrives {x : ArgBarv} {k : Nat} {b : BarInst} (hkey : s.barKeyOf x.clu x.n.val = some k) (hb : Assoc.get? k s.bars = some b)
    (hok : s.barReason (some b) x.clu none = none) :
    (s.releaseReady s.cur.cell s.cur.ctx (arrivalScope b) = false ∨ b.arrive s.cur.cell = none → Stalls (.barv x) x.g s)
      ∧ ∀ j g, s.releaseReady s.cur.cell s.cur.ctx (arrivalScope b) = true → b.arrive s.cur.cell = some (j, g) →
        Writes (.barv x) x.g s { s with bars := Assoc.put k j s.bars } x.d (barToken b.cluster (k % 64) g) := by
  have heffect := Effect.of_issue (exec_barv x s) (decide_eq_true hctx)
  dsimp only at heffect
  rw [hkey] at heffect
  dsimp only [Option.bind_some] at heffect
  rw [hb, hok] at heffect
  obtain ⟨hstall, hgoes⟩ := (heffect.untrapped rfl).awaits
  refine ⟨fun hwaits => ?waits, fun j g hrel harrive => ?arrives⟩
  case waits =>
    cases hrel : s.releaseReady s.cur.cell s.cur.ctx (arrivalScope b) with
    | false => exact hstall hrel
    | true =>
      have hfull := hgoes hrel
      rw [hwaits.resolve_left (by simp [hrel])] at hfull
      exact hfull.stops (e := .stall)
  case arrives =>
    have hcounts := hgoes hrel
    rw [harrive] at hcounts
    exact hcounts.writes rfl

theorem barv_refused (x : ArgBarv) :
    let b := (s.barKeyOf x.clu x.n.val).bind fun k => Assoc.get? k s.bars
    ∀ r, s.barReason b x.clu none = some r → Traps (.barv x) x.g s { cause := 7, val := word x.n.val, info := word r } :=
  fun _ hr => (Effect.of_issue (exec_barv x s) (decide_eq_true hctx)).trapped (congrArg (Option.map _) hr)

/-- `barw` ends with the status of its token's generation, and holds while that has not ended. -/
theorem barw_waits (x : ArgDA) :
    let n := (s.me.rs x.a).toNat
    let g := n % 2 ^ 16
    let k := barKey (slice n 16 6) (s.cur.cell / 240)
    let b := Assoc.get? k s.bars
    let reason := s.barReason b (bit n 22) (some (g, n < 2 ^ 23))
    (∀ r, reason = some r → Traps (.barw x) x.g s { cause := 5, val := s.me.rs x.a, info := word r })
      ∧ (∀ i, b = some i → reason = none →
        (i.ended g = true → Writes (.barw x) x.g s s x.d (if i.lb = some g then 1 else 0))
        ∧ (i.ended g = false → Becomes (.barw x) x.g s (s.holds (.barrier x.d k g)))) := by
  intro n g k b reason
  have heffect := Effect.of_issue (exec_barw x s) (decide_eq_true hctx)
  refine ⟨fun r hr => heffect.trapped (congrArg (Option.map _) hr), fun i hi hok => ?_⟩
  have hgoes := heffect.untrapped (congrArg (Option.map _) hok)
  rw [show Assoc.get? (barKey (slice (s.me.rs x.a).toNat 16 6) (s.cur.cell / 240)) s.bars = some i from hi] at hgoes
  exact ⟨fun hend => (hgoes.of_pos hend).writes (apply_ite word ..), fun hlive => (hgoes.of_neg (ne_true_of_eq_false hlive)).becomes⟩

end

theorem barriersCountArrivals : BarriersCountArrivals :=
  fun _ hctx => ⟨fun x => ⟨barv_refused hctx x, fun _ _ hkey hb hok => barv_arrives hctx hkey (by simpa [hkey] using hb) (hb ▸ hok)⟩,
    barw_waits hctx⟩

/-! ### Reductions at their instructions (R343, R346, R347, R349, R352) -/

section
variable {s : State} (hctx : s.cur.ctx < 8)
include hctx

theorem redp_sends (x : ArgRedp) :
    let c := s.cur.cell
    let n := x.n.val
    let r := Assoc.get? n s.reds
    (∀ k, s.barReason (r.map (·.bar)) false none = some k → Traps (.redp x) x.g s { cause := 7, val := word n, info := word k })
      ∧ (∀ i, r = some i → s.barReason (some i.bar) false none = none →
        let sc : Scope := if i.links.isEmpty then .mod else .sys
        (s.releaseReady c s.cur.ctx sc = false ∨ i.bar.arrive c = none → Stalls (.redp x) x.g s)
        ∧ (∀ j g, s.releaseReady c s.cur.ctx sc = true → i.bar.arrive c = some (j, g) →
          Writes (.redp x) x.g s ({ s with reds := Assoc.put n { i with bar := j } s.reds }.send (.cell c) (.router (routerOf c))
            (.contribution n g ((lanesOf (s.me.rv x.a)).map (laneIn i.op)))) x.d (word (n * 2 ^ 16 + g)))) := by
  intro c n r
  have heffect := Effect.of_issue (exec_redp x s) (decide_eq_true hctx)
  refine ⟨fun k hk => heffect.trapped (congrArg (Option.map _) hk), fun i hi hok => ?_⟩
  intro sc
  dsimp only at heffect
  rw [show Assoc.get? x.n.val s.reds = some i from hi] at heffect
  obtain ⟨hstall, hgoes⟩ := (heffect.untrapped (congrArg (Option.map _) hok)).awaits
  refine ⟨fun hwaits => ?waits, fun j g hrel harrive => ?arrives⟩
  case waits =>
    cases hrel : s.releaseReady s.cur.cell s.cur.ctx sc with
    | false => exact hstall hrel
    | true =>
      have hfull := hgoes hrel
      rw [show i.bar.arrive s.cur.cell = none from hwaits.resolve_left (ne_false_of_eq_true hrel)] at hfull
      exact hfull.stops (e := .stall)
  case arrives =>
    have hcounts := hgoes hrel
    rw [show i.bar.arrive s.cur.cell = some (j, g) from harrive] at hcounts
    exact hcounts.writes rfl

theorem redg_gets (x : ArgRedg) :
    let t := s.me.rs x.a
    let n := slice t.toNat 16 3
    let g := t.toNat % 2 ^ 16
    let r := Assoc.get? n s.reds
    let reason := s.barReason (r.map (·.bar)) false (some (g, t.toNat < 2 ^ 19))
    (∀ k, reason = some k → Traps (.redg x) x.g s { cause := 5, val := t, info := word k })
      ∧ (∀ i, r = some i → reason = none →
        (i.bar.ended g = true → Becomes (.redg x) x.g s (s.modMe fun y => (y.redResult i x.d x.c g).retire))
        ∧ (i.bar.ended g = false → Becomes (.redg x) x.g s (s.holds (.reduction x.d x.c n g)))) := by
  intro t n g r reason
  have heffect := Effect.of_issue (exec_redg x s) (decide_eq_true hctx)
  refine ⟨fun k hk => heffect.trapped (congrArg (Option.map _) hk), fun i hi hok => ?_⟩
  have hgoes := heffect.untrapped (congrArg (Option.map _) hok)
  rw [show Assoc.get? (slice (s.me.rs x.a).toNat 16 3) s.reds = some i from hi] at hgoes
  exact ⟨fun hend => (hgoes.of_pos hend).becomes, fun hlive => (hgoes.of_neg (ne_true_of_eq_false hlive)).becomes⟩

end

/-- Settles O29: barriers, and reductions. -/
theorem barriersAndReductionsCount : Obligations.BarriersAndReductionsCount :=
  ⟨barriersCountArrivals, fun _ hctx => ⟨redp_sends hctx, redg_gets hctx⟩⟩

/-! ### Configuration (R342, R346, R353) -/

/-- With a reduction freed its number stands for nothing, and nothing of it is on its way on the module (R353). -/
theorem freeRed_clears (s : State) (n : Nat) (r : RedInst) :
    let t := s.freeRed n r
    Assoc.get? n t.reds = none ∧ (∀ k ∈ t.routers, k.number ≠ n) ∧ ∀ f ∈ t.net, ∀ g ls, f.pay ≠ .contribution n g ls := by
  refine ⟨(Assoc.get?_erase ..).trans (if_pos rfl), fun k hk => ?router, fun f hf g ls hpay => ?flight⟩
  case router =>
    obtain ⟨-, hother⟩ := List.mem_filter.mp hk
    exact of_decide_eq_true (by simpa using hother)
  case flight =>
    obtain ⟨-, hother⟩ := List.mem_filter.mp hf
    simp [hpay] at hother

section
variable {s : State} (h9 : s.cur.ctx = 9)
include h9

/-- `bcfg brk` and `bcfg free` of a barrier of the tenant's. -/
theorem bcfg_own {x : ArgBcfg} {b : BarInst} (hb : (Assoc.get? (barKey x.n.val x.die.val) s.bars).filter s.ownsBar = some b) :
    let key := barKey x.n.val x.die.val
    let t := (s.wakeBarrier key b.break_ true).wakeBarrier key b.break_.break_ true
    Writes (.bcfgBrk x) x.g s (s.setBar key b.break_) x.d 0
      ∧ Writes (.bcfgFree x) x.g s { t with bars := Assoc.erase key s.bars } x.d 0 := by
  intro key t
  have hbrk := Effect.of_issue (exec_bcfgBrk x s) (decide_eq_true h9)
  have hfree := Effect.of_issue (exec_bcfgFree x s) (decide_eq_true h9)
  dsimp only at hbrk hfree
  rw [hb] at hbrk hfree
  have hbars : t.bars = s.bars := congrArg Ledger.bars ((ledger_wakeBarrier ..).trans (ledger_wakeBarrier ..) : t.ledger = s.ledger)
  refine ⟨hbrk.writes rfl, ?_⟩
  rw [← hbars]
  exact hfree.writes rfl

theorem bcfg_foreign {x : ArgBcfg} (hb : (Assoc.get? (barKey x.n.val x.die.val) s.bars).filter s.ownsBar = none) :
    Writes (.bcfgFree x) x.g s s x.d 3 ∧ Writes (.bcfgBrk x) x.g s s x.d 3 := by
  have hbrk := Effect.of_issue (exec_bcfgBrk x s) (decide_eq_true h9)
  have hfree := Effect.of_issue (exec_bcfgFree x s) (decide_eq_true h9)
  dsimp only at hbrk hfree
  rw [hb] at hbrk hfree
  exact ⟨hfree.writes rfl, hbrk.writes rfl⟩

theorem bcfgSet_sets {x : ArgBcfg} {bs : List Byte} (hbs : s.syncRead (s.me.rs x.a) 128 64 = .ok bs) :
    let key := barKey x.n.val x.die.val
    let st := if (Assoc.get? key s.bars).isSome then 1
      else if fieldAt bs 121 1 ≠ 0 ∨ fieldAt bs 124 4 ≠ 0 then 2
      else s.blockStatus bs (if x.n.val < 32 then none else some x.die.val)
    (st ≠ 0 → Writes (.bcfgSet x) x.g s s x.d (word st))
      ∧ (st = 0 → Writes (.bcfgSet x) x.g s { s with bars := Assoc.put key (blockBar bs) s.bars } x.d 0) := by
  have heffect := (Effect.of_issue (exec_bcfgSet x s) (decide_eq_true h9)).given hbs
  simp only [Bool.or_eq_true, decide_eq_true_eq] at heffect
  intro key st
  refine ⟨fun hst => ?fails, fun hst => ?sets⟩
  case fails =>
    rw [if_neg (show ¬ st = 0 from hst)] at heffect
    exact heffect.writes rfl
  case sets =>
    rw [if_pos (show st = 0 from hst)] at heffect
    exact heffect.writes (congrArg word hst)

theorem rcfg_own {x : ArgRcfg} {q : RedInst} (hq : ((Assoc.get? x.n.val s.reds).filter fun r => s.ownsBar r.bar) = some q) :
    Writes (.rcfgBrk x) x.g s (s.breakRed x.n.val q false) x.d 0 ∧ Writes (.rcfgFree x) x.g s (s.freeRed x.n.val q) x.d 0 := by
  have hbrk := Effect.of_issue (exec_rcfgBrk x s) (decide_eq_true h9)
  have hfree := Effect.of_issue (exec_rcfgFree x s) (decide_eq_true h9)
  rw [hq] at hbrk hfree
  exact ⟨hbrk.writes rfl, hfree.writes rfl⟩

theorem rcfg_foreign {x : ArgRcfg} (hq : ((Assoc.get? x.n.val s.reds).filter fun r => s.ownsBar r.bar) = none) :
    Writes (.rcfgFree x) x.g s s x.d 3 ∧ Writes (.rcfgBrk x) x.g s s x.d 3 := by
  have hbrk := Effect.of_issue (exec_rcfgBrk x s) (decide_eq_true h9)
  have hfree := Effect.of_issue (exec_rcfgFree x s) (decide_eq_true h9)
  rw [hq] at hbrk hfree
  exact ⟨hfree.writes rfl, hbrk.writes rfl⟩

theorem rcfgSet_sets {x : ArgRcfg} {bs : List Byte} (hbs : s.syncRead (s.me.rs x.a) 128 64 = .ok bs) :
    let n := x.n.val
    let r := blockRed bs
    let st := if (Assoc.get? n s.reds).isSome then 1
      else if slice (fieldAt bs 121 1) 5 3 ≠ 0 ∨ 7 < r.links.length ∨ (bitmapCells bs).contains r.root = false then 2
      else s.blockStatus bs none
    (st ≠ 0 → Writes (.rcfgSet x) x.g s s x.d (word st))
      ∧ (st = 0 → Writes (.rcfgSet x) x.g s { s with reds := Assoc.put n r s.reds } x.d 0) := by
  have heffect := (Effect.of_issue (exec_rcfgSet x s) (decide_eq_true h9)).given hbs
  simp only [Bool.or_eq_true, decide_eq_true_eq, Bool.not_eq_true', or_assoc] at heffect
  intro n r st
  refine ⟨fun hst => ?fails, fun hst => ?sets⟩
  case fails =>
    rw [if_neg (show ¬ st = 0 from hst)] at heffect
    exact heffect.writes rfl
  case sets =>
    rw [if_pos (show st = 0 from hst)] at heffect
    exact heffect.writes (congrArg word hst)

end

/-- Settles O30: `bcfg`, and `rcfg`. -/
theorem instancesAreConfigured : Obligations.InstancesAreConfigured := by
  intro s h9
  refine ⟨fun x bs => ⟨bcfgSet_sets h9, bcfg_foreign h9, fun b => bcfg_own h9⟩,
    fun x bs => ⟨rcfgSet_sets h9, rcfg_foreign h9, fun q hq => ?_⟩⟩
  obtain ⟨hbrk, hfree⟩ := rcfg_own h9 hq
  exact ⟨hbrk, hfree, freeRed_clears s x.n.val q⟩

/-- Settles O28: arrivals and inputs, the release and the break, and the end of a wait. -/
theorem generationsTurn : Obligations.GenerationsTurn := by
  refine ⟨fun bs c x hx => blockBar_cell hx, fun b c x hx => ⟨arrive_current hx, arrive_next hx, arrive_full hx, release_cell hx⟩,
    fun s x k b hctx hkey hb hok hfull => ?stalls, allHigh_iff, fun s n b hb => ⟨barrierRelease_high hb, barrierRelease_waits hb⟩,
    fun s x b h9 hb hown => ?brk,
    fun b g hgen hg => ⟨⟨rfl, rfl, rfl⟩, rfl, ended_iff hgen hg⟩⟩
  case stalls => exact (barv_arrives hctx hkey hb hok).1 (.inr hfull)
  case brk => exact (bcfg_own h9 (by rw [hb, Option.filter_some, if_pos hown])).1

end Sys2Proof.Machine
end

section
/-! PROOFS. Traps: how one is taken, how its handler is entered, and the return from it (R330, R356 to R359, R374 to R376, R378). -/
namespace Sys2Proof.Machine

/-! ### Taking a precise trap (R356, R358, R359) -/

section
variable {s : State} {c i : Nat}

/-- The trap that a context takes at its instruction. -/
def State.preciseTrap (s : State) (c i : Nat) (t : TrapInfo) : Trap where
  ctx := i
  async := false
  ring := false
  held := true
  entry := 0
  epc := if t.cause = 3 ∨ t.cause = 8 then pcNext (s.ctxAt c i).pc else (s.ctxAt c i).pc
  info := t
  region := s.ctxRegion c i
  task := s.ctxTask c i
  upto := (s.ctxAt c i).seq

theorem takeTrap_eq (hi : i < 9) (t : TrapInfo) :
    s.takeTrap c i t = (s.modCtx c i fun x => { x with st := .held, stalled := false }).modCell c fun x =>
      { x with trapq := x.trapq ++ [s.preciseTrap c i t] } := by
  simp only [State.takeTrap, if_neg (Nat.ne_of_lt hi), Bool.or_eq_true, decide_eq_true_eq]
  rfl

/-- A change of what a cell holds beside its contexts leaves every context as it was. -/
theorem ctxAt_modCell {f : Cell → Cell} (hf : ∀ x, (f x).ctxs = x.ctxs) (s : State) (c d j : Nat) :
    (s.modCell c f).ctxAt d j = s.ctxAt d j := by
  by_cases hd : d = c
  · subst hd
    rw [State.ctxAt, State.cell_modCell_same, State.ctxAt, Cell.ctx, Cell.ctx, hf]
  · rw [State.ctxAt, State.cell_modCell_other _ _ _ _ hd, State.ctxAt]

/-- A change of one context of a cell leaves what the cell holds beside its contexts. -/
theorem cell_modCtx (s : State) (c i : Nat) (f : Ctx → Ctx) :
    (s.modCtx c i f).cell c = (s.cell c).setCtx i (f ((s.cell c).ctx i)) := State.cell_modCell_same ..

end

section
variable {s : State} {c i : Nat} (hi : i < 9) (t : TrapInfo)
include hi

theorem cell_takeTrap :
    (s.takeTrap c i t).cell c = { (s.cell c).setCtx i { s.ctxAt c i with st := .held, stalled := false } with
      trapq := (s.cell c).trapq ++ [s.preciseTrap c i t] } := by
  rw [takeTrap_eq hi, State.cell_modCell_same, cell_modCtx, Cell.setCtx_trapq]
  rfl

theorem ctxAt_takeTrap (d j : Nat) :
    (s.takeTrap c i t).ctxAt d j = (s.modCtx c i fun x => { x with st := .held, stalled := false }).ctxAt d j := by
  rw [takeTrap_eq hi]
  exact ctxAt_modCell (by intro _; rfl) _ c d j

end

theorem takingATrapHoldsTheContext : TakingATrapHoldsTheContext := by
  intro s c i t hi
  refine ⟨?held, fun d j h => ?other, ?queue, ?memory, ?regions, ?run, ?epc, takeTrap_eq hi t⟩
  case held => rw [ctxAt_takeTrap hi, State.ctxAt_modCtx_same s c i _ (by omega)]
  case other => rw [ctxAt_takeTrap hi, State.ctxAt_modCtx_other s c i d j _ h]
  case queue => rw [cell_takeTrap hi]; rfl
  case memory => rw [takeTrap_eq hi]; rfl
  case regions => rw [takeTrap_eq hi]; rfl
  case run => rw [cell_takeTrap hi]; rfl
  case epc => rw [cell_takeTrap hi]; rfl

/-! ### Entering the handler (R357, R358) -/

section
variable {s : State} {c : Nat} {t : Trap} {q : List Trap} {ty : TaskType} {g : Grant} {r : Region}

/-- The state in which the oldest trap's handler has been entered. -/
def State.handlerEntered (s : State) (c : Nat) (t : Trap) (q : List Trap) (ty : TaskType) (g : Grant) : State :=
  (s.modCell c fun x => { x with
    trapq := q, run9 := some { trap := t, start := s.clock, tenant := s.tenantOf t.region, stopped := 0, frozenAt := none },
    xcause := t.xcause, xepc := t.epc, xval := t.info.val, xinfo := t.info.info }).modCtx c 9 fun x =>
      entryRegs x (word ty.entry) g.fhi ty.frame (if t.ctx = 8 then 0 else t.task)

theorem enterTrap_entered (hrun : (s.cell c).run9 = none) (hq : (s.cell c).trapq = t :: q) (hr : s.region (s.tenantOf t.region) = some r)
    (hty : s.taskType (s.tenantOf t.region) r.sup = some ty) (hg : s.grant (s.tenantOf t.region) c = some g)
    (hentry : s.checkTarget (s.tenantOf t.region) c (word ty.entry) = none) : s.enterTrap c = s.handlerEntered c t q ty g := by
  let u := s.modCell c fun x => { x with trapq := q }
  have htype : (u.region (u.tenantOf t.region)).bind (fun x => u.taskType (u.tenantOf t.region) x.sup) = some ty :=
    (congrArg (Option.bind · _) hr).trans hty
  have hgrant : u.grant (u.tenantOf t.region) c = some g := hg
  have hcheck : u.checkTarget (u.tenantOf t.region) c (word ty.entry) = none := hentry
  simp only [State.enterTrap, hrun, hq]
  rw [htype, hgrant]
  simp only [u] at hcheck
  simp only [hcheck, State.modCell_modCell]
  rfl

end

theorem cell_handlerEntered (s : State) (c : Nat) (t : Trap) (q : List Trap) (ty : TaskType) (g : Grant) :
    ∃ y : Ctx, (s.handlerEntered c t q ty g).cell c = { s.cell c with
      trapq := q, run9 := some { trap := t, start := s.clock, tenant := s.tenantOf t.region, stopped := 0, frozenAt := none },
      xcause := t.xcause, xepc := t.epc, xval := t.info.val, xinfo := t.info.info }.setCtx 9 y := by
  rw [State.handlerEntered, cell_modCtx, State.cell_modCell_same]
  exact ⟨_, rfl⟩

theorem enteringTheHandlerSavesTheTrap : EnteringTheHandlerSavesTheTrap := by
  intro s c t q ty g r tenant hrun hq hr hty hg hentry
  obtain ⟨y, hcell⟩ := cell_handlerEntered s c t q ty g
  dsimp only
  rw [enterTrap_entered hrun hq hr hty hg hentry, hcell]
  refine ⟨rfl, rfl, rfl, rfl, rfl, rfl, ?pc, rfl, fun i hi => ?other⟩
  case pc =>
    rw [State.handlerEntered, State.ctxAt_modCtx_same _ _ _ _ (by decide)]
    rfl
  case other =>
    rw [State.handlerEntered, State.ctxAt_modCtx_other _ _ _ _ _ _ (.inr hi)]
    exact ctxAt_modCell (by intro _; rfl) s c c i

/-- Settles O31: taking a trap, and entering its handler. -/
theorem trapsHoldTheContextAndEnterTheHandler : Obligations.TrapsHoldTheContextAndEnterTheHandler :=
  ⟨takingATrapHoldsTheContext, enteringTheHandlerSavesTheTrap⟩

/-! ### Traps of instructions, and the return (R330, R375, R376, R378) -/

theorem trapInstructionsTakeTheirTrap : TrapInstructionsTakeTheirTrap := by
  intro s x
  refine ⟨fun hctx => ?call, ?brk⟩
  case call => exact (Effect.of_issue (exec_trapCall x s) (decide_eq_true hctx)).traps
  case brk => exact (Effect.of_issue (exec_brk x s) rfl).traps

section
variable {s : State} {c : Nat} {r : Run9}

/-- The end of context 9's run changes no other context. -/
theorem ctxAt_endRun9 {i : Nat} (hi : i < 9) : (s.endRun9 c).ctxAt c i = s.ctxAt c i := by
  rw [State.endRun9, State.ctxAt_modCtx_other _ _ _ _ _ _ (.inr (Nat.ne_of_lt hi))]
  exact ctxAt_modCell (by intro _; rfl) _ c c i

theorem cell_endRun9 : (s.endRun9 c).cell c =
    ({ s.cell c with run9 := none }.setCtx 9
      { Ctx.reset with seq := ((s.cell c).ctx 9).seq, opSeq := ((s.cell c).ctx 9).opSeq }) := by
  rw [State.endRun9, cell_modCtx, State.cell_modCell_same]
  congr 1

/-- Nor the work of another context. -/
theorem ctxTask_endRun9 {i : Nat} (hi : i < 9) : (s.endRun9 c).ctxTask c i = s.ctxTask c i := by
  rw [State.ctxTask, State.ctxTask, if_neg (Nat.ne_of_lt hi), if_neg (Nat.ne_of_lt hi), ctxAt_endRun9 hi, cell_endRun9]
  rfl

theorem ctxRegion_endRun9 {i : Nat} (hi : i < 9) : (s.endRun9 c).ctxRegion c i = s.ctxRegion c i := by
  rw [State.ctxRegion, State.ctxRegion, if_neg (Nat.ne_of_lt hi), if_neg (Nat.ne_of_lt hi), ctxAt_endRun9 hi, cell_endRun9]
  rfl

/-- A held context whose resumption passes the check runs on from the place given. -/
theorem resume_ok {u : State} {i : Nat} {pc : Word} (hi : i < 9) (hcheck : u.checkResume (u.ctxRegion c i) c pc = none) :
    u.resume c i pc = u.modCtx c i fun x => { x with st := .running, stalled := false, pc := pc, fetchq := [] } := by
  have hregion : (u.modCtx c i fun x => { x with st := .running, stalled := false, pc := pc, fetchq := [] }).ctxRegion c i
      = u.ctxRegion c i := by
    rw [State.ctxRegion, State.ctxRegion, if_neg (Nat.ne_of_lt hi), if_neg (Nat.ne_of_lt hi),
      State.ctxAt_modCtx_same _ _ _ _ (by omega), cell_modCtx]
    rfl
  have hpasses : (u.modCtx c i fun x => { x with st := .running, stalled := false, pc := pc, fetchq := [] }).checkResume
      (u.ctxRegion c i) c pc = none := hcheck
  simp only [State.resume, hregion, hpasses]

theorem returnFrom9_resumes (hrun : (s.cell c).run9 = some r) (hheld : r.trap.held = true) (hi : r.trap.ctx < 9)
    (hst : (s.ctxAt c r.trap.ctx).st = .held) (htask : s.ctxTask c r.trap.ctx = r.trap.task)
    (hcheck : (s.endRun9 c).checkResume (s.ctxRegion c r.trap.ctx) c (word ((s.cell c).xepc.toNat % 2 ^ 30)) = none) :
    s.returnFrom9 c = (s.endRun9 c).modCtx c r.trap.ctx fun x =>
      { x with st := .running, stalled := false, pc := word ((s.cell c).xepc.toNat % 2 ^ 30), fetchq := [] } := by
  have hstill : (s.endRun9 c).stillHeld c r = true := by
    rw [State.stillHeld, hheld, ctxAt_endRun9 hi, hst, ctxTask_endRun9 hi, htask]; simp
  simp only [State.returnFrom9, hrun, hstill, if_true]
  exact resume_ok hi (by rw [ctxRegion_endRun9 hi, hcheck])

end

theorem eretReturns : EretReturns := by
  refine ⟨fun s x => ⟨fun h8 => ?handler, fun h9 => ?supervisor⟩, fun s x h9 => ?rretry, fun s c r => ?returns⟩
  case handler =>
    have heffect := Effect.of_issue (exec_eret x s) (by rw [runCtx, h8]; rfl)
    rw [if_neg (by omega)] at heffect
    exact heffect.becomes
  case supervisor =>
    have heffect := Effect.of_issue (exec_eret x s) (by rw [runCtx, h9]; rfl)
    rw [if_pos h9] at heffect
    exact heffect.becomes
  case rretry => exact (Effect.of_issue (exec_rretryCtx x s) (decide_eq_true h9)).becomes
  case returns =>
    intro i pc u hrun hheld hi hst htask hcheck
    have hu : u = _ := returnFrom9_resumes hrun hheld hi hst htask hcheck
    refine ⟨?ctx, ?run, ?memory⟩
    case ctx => rw [hu, State.ctxAt_modCtx_same _ _ _ _ (by omega), ctxAt_endRun9 hi]
    case run => rw [hu, cell_modCtx, cell_endRun9]; rfl
    case memory => rw [hu]; rfl

/-- Settles O32: the instructions that take a trap, and those that return from one. -/
theorem trapsAreTakenAndReturnedFrom : Obligations.TrapsAreTakenAndReturnedFrom := ⟨trapInstructionsTakeTheirTrap, eretReturns⟩

end Sys2Proof.Machine
end

section
/-! PROOFS. The instructions of the retry ring, kills and freezes (R358, R363, R364, R370, R371, R377 to R379). -/
namespace Sys2Proof.Machine

/-! ### The retry ring (R363, R364, R377, R378, R379) -/

/-- A completion's entry is judged by R377's table: valid, of a kind that the instruction completes, of the run's tenant. -/
theorem completes_cases (s : State) (a : Word) (suits : REntry → Bool) :
    (s.entryAt a = none → s.completes a suits = .error 1)
      ∧ ∀ e, s.entryAt a = some e →
        (suits e = false → s.completes a suits = .error 2)
        ∧ (suits e = true → e.tenant ≠ s.myTenant → s.completes a suits = .error 3)
        ∧ (suits e = true → e.tenant = s.myTenant → s.completes a suits = .ok e) := by
  refine ⟨fun h => by rw [State.completes, h], fun e he => ⟨fun hs => ?_, fun hs ht => ?_, fun hs ht => ?_⟩⟩
  · simp [State.completes, he, hs]
  · simp [State.completes, he, hs, ht]
  · simp [State.completes, he, hs, ht]

section
variable {s : State} (h9 : s.cur.ctx = 9)
include h9

/-- `rretry` issues the entry's access again, or resumes its copy (R378). -/
theorem rretry_issues {x : ArgDA} {e : REntry} (he : s.completes (s.me.rs x.a) (fun _ => true) = .ok e) :
    let out := s.outEntry (s.me.rs x.a).toNat
    (e.acc = none → Writes (.rretry x) x.g s (out.resumeCopy e (·.pos)) x.d 0)
      ∧ ∀ q, e.acc = some q → let r := out.reissue { q with retry := some (s.me.rs x.a).toNat }
        (∀ t, r = .ok t → Writes (.rretry x) x.g s t x.d 0) ∧ (∀ k, r = .error k → Stops (.rretry x) x.g s k) := by
  intro out
  have hgoes := Effect.of_issue (exec_rretry x s) (decide_eq_true h9)
  dsimp only at hgoes
  rw [he] at hgoes
  dsimp only at hgoes
  refine ⟨fun hcopy => ?copy, fun q hq => ⟨fun t ht => ?issued, fun k hk => ?stopped⟩⟩
  case copy => rw [hcopy] at hgoes; exact hgoes.writes rfl
  case issued =>
    rw [hq] at hgoes
    exact (Effect.given (f := fun t => t.update fun y => y.ws x.d 0) hgoes ht).writes rfl
  case stopped =>
    rw [hq] at hgoes
    exact Effect.refused (f := fun t => t.update fun y => y.ws x.d 0) hgoes hk

theorem rretry_refused {x : ArgDA} {n : Nat} (hn : s.completes (s.me.rs x.a) (fun _ => true) = .error n) :
    Writes (.rretry x) x.g s s x.d (word n) := by
  have heffect := Effect.of_issue (exec_rretry x s) (decide_eq_true h9)
  dsimp only at heffect
  rw [hn] at heffect
  exact heffect.writes rfl

theorem rkillEnt_kills (x : ArgDA) :
    let any_ := s.completes (s.me.rs x.a) fun _ => true
    (∀ n, any_ = .error n → Writes (.rkillEnt x) x.g s s x.d (word n))
      ∧ ∀ e, any_ = .ok e → Writes (.rkillEnt x) x.g s (if s.resident s.cur.cell e.ctx e.task then
          s.kill s.cur.cell e.ctx 0 (e.kind = 2) e.pc { cause := e.cause, val := e.addr, info := e.info }
            else s.dropEntries s.cur.cell e.task) x.d 0 := by
  have heffect := Effect.of_issue (exec_rkillEnt x s) (decide_eq_true h9)
  dsimp only at heffect ⊢
  refine ⟨fun n hn => ?_, fun e he => ?_⟩
  · rw [hn] at heffect; exact heffect.writes rfl
  · rw [he] at heffect; exact heffect.writes rfl

theorem rskip_skips (x : ArgDA) :
    let a := s.me.rs x.a
    let skip := s.completes a fun e => e.kind = 1 || e.kind = 2
    (∀ n, skip = .error n → Writes (.rskip x) x.g s s x.d (word n))
      ∧ ∀ e, skip = .ok e → Writes (.rskip x) x.g s (if e.kind = 1 then (s.dropEntry a.toNat).wake s.cur.cell e.ctx e.task .sc
          else (s.dropEntry a.toNat).resumeCopy e fun o => min o.lay.total ((o.pos / o.lay.run + 1) * o.lay.run)) x.d 0 := by
  have heffect := Effect.of_issue (exec_rskip x s) (decide_eq_true h9)
  dsimp only at heffect ⊢
  refine ⟨fun n hn => ?_, fun e he => ?_⟩
  · rw [hn] at heffect; exact heffect.writes rfl
  · rw [he] at heffect; exact heffect.writes rfl

theorem rfill_fills (x : ArgRfill) :
    let a := s.me.rs x.a
    (∀ n, s.completes a (fun e => e.takes x.b) = .error n → Writes (.rfill x) x.g s s x.d (word n))
      ∧ ∀ e, s.completes a (fun e => e.takes x.b) = .ok e →
        let t := s.dropEntry a.toNat
        let filled := t.modCtx s.cur.cell e.ctx fun y => y.fillFrom s.me e.dest x.b
        Writes (.rfill x) x.g s (if t.resident s.cur.cell e.ctx e.task then
          (filled.wake s.cur.cell e.ctx e.task .access).wake s.cur.cell e.ctx e.task .sc else t) x.d 0 := by
  have heffect := Effect.of_issue (exec_rfill x s) (decide_eq_true h9)
  dsimp only at heffect ⊢
  refine ⟨fun n hn => ?_, fun e he => ?_⟩
  · rw [hn] at heffect; exact heffect.writes rfl
  · rw [he] at heffect; exact heffect.writes rfl

end

theorem ringEntriesComplete : RingEntriesComplete := by
  intro s h9
  refine ⟨rfill_fills h9, fun x => ?_, completes_cases s⟩
  obtain ⟨hkillFails, hkill⟩ := rkillEnt_kills h9 x
  obtain ⟨hskipFails, hskip⟩ := rskip_skips h9 x
  refine ⟨fun n hn => ⟨rretry_refused h9 hn, hkillFails n hn⟩, hskipFails, fun e he => ?_, hskip⟩
  obtain ⟨hcopy, hissued⟩ := rretry_issues h9 he
  exact ⟨hcopy, hissued, hkill e he⟩

/-! ### Kills and freezes (R358, R370, R371, R379) -/

theorem killAndFreeze : KillAndFreeze := by
  intro s h9
  refine ⟨fun x => ⟨fun hnone => ?notHeld, fun r hr => ?killed⟩,
    fun x => ⟨fun hkill => ?refused, fun hkill hfrozen => ?frozen, fun hkill hfree => ?freezes⟩⟩
  case notHeld =>
    have heffect := Effect.of_issue (exec_rkillCtx x s) (decide_eq_true h9)
    dsimp only at heffect hnone
    rw [hnone] at heffect
    exact heffect.writes rfl
  case killed =>
    have heffect := Effect.of_issue (exec_rkillCtx x s) (decide_eq_true h9)
    dsimp only at heffect hr
    rw [hr] at heffect
    exact heffect.becomes
  all_goals have heffect := Effect.of_issue (exec_frzRgn x s) (decide_eq_true h9)
  case refused => exact (heffect.of_pos (congrArg not hkill)).writes rfl
  all_goals have hown := heffect.of_neg (ne_true_of_eq_false (congrArg not hkill))
  case frozen => exact (hown.of_pos hfrozen).writes rfl
  case freezes => exact (hown.of_neg (ne_true_of_eq_false hfree)).writes rfl

/-- Settles O33: the retry ring, and kills and freezes. -/
theorem ringEntriesCompleteAndTasksAreKilled : Obligations.RingEntriesCompleteAndTasksAreKilled := ⟨ringEntriesComplete, killAndFreeze⟩

end Sys2Proof.Machine
end

section
/-! PROOFS. The instructions of host channels and of links (R387, R392, R394 to R396). -/
namespace Sys2Proof.Machine

/-! ### Counts and channels (R392, R394, R395) -/

theorem countsMoveForward : CountsMoveForward := by
  intro q v
  simp only [Channel.post, Bool.and_eq_true, decide_eq_true_eq]
  exact ⟨rfl, rfl⟩

section
variable {i : Instr} {g : Guard} {s : State} {x : ArgDAB} {isDone : Bool}

/-- A channel's descriptor is bytes of memory (R389). -/
theorem sameButMemory_writeDescriptor (s : State) (vf n : Nat) (q : Channel) : SameButMemory s (s.writeDescriptor vf n q) := by
  rw [State.writeDescriptor]
  split
  · exact sameButMemory_writeUnder ..
  · exact .refl s

theorem setChan_hostOut (s : State) (vf n : Nat) (q : Channel) : (s.setChan vf n q).hostOut = s.hostOut := by
  obtain ⟨_, _, _, h⟩ := sameButMemory_writeDescriptor { s with chans := Assoc.put (chanKey vf n) q s.chans } vf n q
  rw [State.setChan, h]

theorem setChan_myVf (s : State) (vf n : Nat) (q : Channel) : (s.setChan vf n q).myVf = s.myVf := by
  obtain ⟨_, _, _, h⟩ := sameButMemory_writeDescriptor { s with chans := Assoc.put (chanKey vf n) q s.chans } vf n q
  rw [State.setChan, h]
  rfl

/-- The state with a count of a channel posted: its status block is written, with an interrupt for `done` where one is configured. -/
def State.posted (s : State) (n : Nat) (p : Channel) (isDone : Bool) : State :=
  { s.setChan s.myVf n p with
    hostOut := s.hostOut ++ [.write s.myVf p.status (leBytes 8 p.head ++ leBytes 8 p.done)]
      ++ if isDone && p.vector ≠ 0xffff then [.msix s.myVf p.vector] else [] }

/-- After its release an `hpost` answers the first status that applies, or posts (R392, R395). -/
theorem Effect.posts (h : Effect i g s (s.hpost x isDone)) :
    let u := s.usable (s.me.rs x.a)
    let v := (s.me.rs x.b).toNat
    (s.releaseReady s.cur.cell s.cur.ctx .sys = false → Stalls i g s)
      ∧ (s.releaseReady s.cur.cell s.cur.ctx .sys = true →
        (u = none → Writes i g s s x.d 1)
        ∧ (∀ n q, u = some (n, q) → q.post isDone v = none → Writes i g s s x.d 2)
        ∧ ∀ n q p, u = some (n, q) → q.post isDone v = some p →
          (s.vfState s.myVf ≠ some .run → Writes i g s s x.d 3)
          ∧ (s.vfState s.myVf = some .run → Writes i g s (s.posted n p isDone) x.d 0)) := by
  obtain ⟨hstall, hgoes⟩ := h.awaits
  refine ⟨hstall, fun hrel => ⟨fun hu => ?unusable, fun n q hu hq => ?refused,
    fun n q p hu hq => ⟨fun hrun => ?stopped, fun hrun => ?posted⟩⟩⟩
  all_goals
    have heffect := hgoes hrel
    dsimp only at heffect hu
    rw [hu] at heffect
  case unusable => exact heffect.writes rfl
  all_goals
    dsimp only at heffect hq
    rw [hq] at heffect
  case refused => exact heffect.writes rfl
  case stopped => exact (heffect.of_pos hrun).writes rfl
  case posted =>
    have hpost := heffect.of_neg (not_not.mpr hrun)
    rw [setChan_hostOut, setChan_myVf] at hpost
    have hmsgs : s.hostOut ++ [HostMsg.write s.myVf p.status (leBytes 8 p.head ++ leBytes 8 p.done)]
        ++ (if isDone && p.vector ≠ 0xffff then [HostMsg.msix s.myVf p.vector] else [])
        = s.hostOut ++ HostMsg.write s.myVf p.status (leBytes 8 p.head ++ leBytes 8 p.done)
          :: (if isDone && p.vector ≠ 0xffff then [HostMsg.msix s.myVf p.vector] else []) := List.append_assoc ..
    rw [State.posted, hmsgs]
    exact hpost.writes rfl

end

theorem channelsPostAndPoll : ChannelsPostAndPoll := by
  intro s x h8
  refine ⟨fun isDone => ?post, fun hu => ?none_, fun n q hu => ⟨fun hsame => ?stalls, fun hmoved => ?answers⟩⟩
  case post =>
    cases isDone with
    | false => exact (Effect.of_issue (exec_hpostHead x s) (decide_eq_true h8)).posts
    | true => exact (Effect.of_issue (exec_hpostDone x s) (decide_eq_true h8)).posts
  all_goals
    have heffect := Effect.of_issue (exec_hpollWait x s) (decide_eq_true h8)
    rw [hu] at heffect
  case none_ => exact heffect.writes rfl
  case stalls => exact (heffect.of_pos hsame).stops (e := .stall)
  case answers => exact (heffect.of_neg hmoved).writes rfl

/-! ### Rotations (R387, R396) -/

theorem rotationsBegin : RotationsBegin := by
  intro s x h9
  have heffect := Effect.of_issue (exec_lkrotRot x s) (decide_eq_true h9)
  refine ⟨fun hshare => (heffect.of_pos (congrArg not hshare)).writes rfl,
    fun hshare => ⟨fun hdown => ?down, fun hup hrot => ?rotates, fun hup htx hrx => ?begins⟩⟩
  all_goals have hheld := heffect.of_neg (ne_true_of_eq_false (congrArg not hshare))
  case down => exact (hheld.of_pos (congrArg not hdown)).writes rfl
  all_goals have hlink := hheld.of_neg (ne_true_of_eq_false (congrArg not hup))
  case rotates => exact (hlink.of_pos ((Bool.or_eq_true ..).mpr hrot)).writes rfl
  case begins =>
    have hidle : (s.link (s.me.rs x.a).toNat).rotates = false := by rw [LinkState.rotates, htx, hrx]; rfl
    exact (hlink.of_neg (ne_true_of_eq_false hidle)).becomes

/-- Settles O34: channels, their counts, and rotations. -/
theorem hostAndLinkInstructionsAct : Obligations.HostAndLinkInstructionsAct := ⟨channelsPostAndPoll, countsMoveForward, rotationsBegin⟩

end Sys2Proof.Machine
end

section
/-! PROOFS. The state at reset (R398). -/
namespace Sys2Proof.Machine

theorem cell_reset (c : Nat) : State.reset.cell c = Cell.reset := rfl

theorem ctxAt_reset (c i : Nat) : State.reset.ctxAt c i = Ctx.reset := by
  change (Vector.replicate 10 Ctx.reset).getD i Ctx.reset = Ctx.reset
  rw [Vector.getD, Vector.toArray_replicate, Array.getD_eq_getD_getElem?, Array.getElem?_replicate]
  split
  · rfl
  · rfl

theorem rs_reset (r : SReg) : Ctx.reset.rs r = 0 := by
  rw [Ctx.rs]
  split
  · rfl
  · exact Vector.getElem_replicate r.isLt

theorem rv_reset (r : VReg) : Ctx.reset.rv r = 0 := Vector.getElem_replicate r.isLt

theorem rp_reset (r : PReg) : Ctx.reset.rp r = decide (r.val = 0) := by
  have hbit : Ctx.reset.p.get r = false := Vector.getElem_replicate r.isLt
  rw [Ctx.rp, hbit, Bool.or_false]

/-- Reset memory is canonical, and its agenda is empty. -/
theorem sound_reset : Sound State.reset := ⟨Memory.wf_reset, fun _ ht => absurd ht List.not_mem_nil⟩

/-- Slot 0 is the one key slot that a reset installs (R233). -/
theorem keySlot_reset {k : Nat} (hk : k ≠ 0) : (State.reset.keySlot k).st = .empty := by
  have hget : Assoc.get? k State.reset.keys = none := if_neg (Ne.symm hk)
  rw [State.keySlot, Assoc.getD, hget]
  rfl

/-- Settles O58: what a reset leaves of memory, cells, contexts and key slots. -/
theorem resetLeavesAllStateZero : Obligations.ResetLeavesAllStateZero := by
  refine ⟨sound_reset, rfl, fun _ => rfl, fun c => ?cells, fun c i => ?contexts, fun _ => keySlot_reset, rfl, rfl⟩
  case cells =>
    rw [cell_reset]
    exact ⟨rfl, rfl, rfl, rfl, rfl, rfl, rfl⟩
  case contexts =>
    rw [ctxAt_reset]
    exact ⟨rfl, rfl, rfl, rfl, rs_reset, rv_reset, rp_reset⟩

end Sys2Proof.Machine
end

section
/-! PROOFS. The events of Wale links (R384 to R387, R396). -/
namespace Sys2Proof.Machine

/-! ### Groups (R385) -/

/-- What a link answers once it has taken a group, whatever the group tells of a rotation. -/
def LinkState.Answers (y : LinkState) (n : Nat) (answers : List (Bool × Nat)) : Prop := y.rxSeq = n ∧ y.answers = answers

theorem LinkState.Answers.ite {y z : LinkState} {n : Nat} {answers : List (Bool × Nat)} {p : Prop} [Decidable p] (hy : y.Answers n answers)
    (hz : z.Answers n answers) : (if p then y else z).Answers n answers := by
  split
  · exact hy
  · exact hz

theorem took_answers (x : LinkState) (g : WaleGroup) : (x.took g).Answers g.seq (x.answers ++ [(false, g.seq)]) := by
  have hturned : (if x.rotRx = some 1 && g.slot != x.rxSlot
      then ({ x with rxSeq := g.seq, answers := x.answers ++ [(false, g.seq)] } : LinkState).turnRx
      else { x with rxSeq := g.seq, answers := x.answers ++ [(false, g.seq)] }).Answers g.seq (x.answers ++ [(false, g.seq)]) :=
    .ite ⟨rfl, rfl⟩ ⟨rfl, rfl⟩
  exact .ite hturned hturned

section
variable {s : State} {g : WaleGroup}

/-- The state once a group's acknowledgement and its request to resend are obeyed. -/
def State.obeyed (s : State) (g : WaleGroup) : State :=
  let a := s.sealAll g.link
  let b := if g.verifies then a.acknowledge g.link g.ack else a
  if g.verifies && g.nak then b.resend g.link else b

theorem receive_down (hdown : (s.link g.link).isUp = false) : exec (.waleGroupReceive g) s = .next s :=
  (exec_waleGroupReceive g s).trans (if_pos (congrArg not hdown))

/-- A group without flits is an acknowledgement alone, and one after which the link is down is not taken. -/
theorem receive_ends (hup : (s.link g.link).isUp = true) (hends : g.nflits = 0 ∨ ((s.obeyed g).link g.link).isUp = false) :
    exec (.waleGroupReceive g) s = .next (s.obeyed g) := by
  have hbreak : (g.nflits = 0 || !((s.obeyed g).link g.link).isUp) = true := by
    rw [Bool.or_eq_true, decide_eq_true_eq, Bool.not_eq_true']
    exact hends
  exact ((exec_waleGroupReceive g s).trans (if_neg (ne_true_of_eq_false (congrArg not hup)))).trans (if_pos hbreak)

/-- The share on which a link takes a group, none where it does not accept it. -/
def LinkState.takesOn (x : LinkState) (g : WaleGroup) : Option Share := (x.shares.find? (·.share == g.share)).filter fun _ => x.accepts g

/-- A group with flits is taken in on its share, or answered with the last number accepted. -/
theorem receive_goes (hup : (s.link g.link).isUp = true) (hflits : g.nflits ≠ 0) (hstill : ((s.obeyed g).link g.link).isUp = true) :
    (((s.obeyed g).link g.link).takesOn g = none → exec (.waleGroupReceive g) s =
      .next ((s.obeyed g).modLink g.link fun x => { x with answers := x.answers ++ [(true, x.rxSeq)] }))
    ∧ ∀ h, ((s.obeyed g).link g.link).takesOn g = some h → exec (.waleGroupReceive g) s =
      .next ((((s.obeyed g).modLink g.link fun x => x.took g).takeIn g.link h.tenant g.pays).endTurned g.link) := by
  have hgoes : ¬ (g.nflits = 0 || !((s.obeyed g).link g.link).isUp) = true := by
    rw [Bool.or_eq_true, decide_eq_true_eq, Bool.not_eq_true', not_or]
    exact ⟨hflits, ne_false_of_eq_true hstill⟩
  have hexec := ((exec_waleGroupReceive g s).trans (if_neg (ne_true_of_eq_false (congrArg not hup)))).trans (if_neg hgoes)
  refine ⟨fun hno => hexec.trans ?discards, fun h hyes => hexec.trans ?takes⟩
  case discards =>
    rw [LinkState.takesOn, State.obeyed] at hno
    rw [hno]
    rfl
  case takes =>
    rw [LinkState.takesOn, State.obeyed] at hyes
    rw [hyes]
    rfl

theorem takesOn_none {x : LinkState} (h : x.shares.find? (·.share == g.share) = none ∨ x.accepts g = false) : x.takesOn g = none := by
  rw [LinkState.takesOn]
  rcases h with hshare | hrefused
  · rw [hshare]
    rfl
  · rw [hrefused]
    exact Option.filter_eq_none_iff.mpr fun _ _ => Bool.false_ne_true

theorem takesOn_some {x : LinkState} {h : Share} (hshare : x.shares.find? (·.share == g.share) = some h) (haccepts : x.accepts g = true) :
    x.takesOn g = some h := by
  rw [LinkState.takesOn, hshare, haccepts]
  rfl

end

/-! ### Resends and retraining (R385, R386) -/

section
variable {s : State} {n : Nat} {x : LinkState}

theorem resendTimeout_waits (h : ((s.sealAll n).link n).isUp = false ∨ ((s.sealAll n).link n).unacked = []
    ∨ (s.sealAll n).clock < ((s.sealAll n).link n).lastAck + 3600) : exec (.waleResendTimeout n) s = .next (s.sealAll n) := by
  refine (exec_waleResendTimeout n s).trans (if_pos ?_)
  simp only [Bool.or_eq_true, Bool.not_eq_true', List.isEmpty_iff, decide_eq_true_eq, or_assoc]
  exact h

theorem resendTimeout_resends (hup : ((s.sealAll n).link n).isUp = true) (hkept : ((s.sealAll n).link n).unacked ≠ [])
    (hlate : ((s.sealAll n).link n).lastAck + 3600 ≤ (s.sealAll n).clock) :
    exec (.waleResendTimeout n) s = .next ((s.sealAll n).resend n) := by
  refine (exec_waleResendTimeout n s).trans (if_neg ?_)
  simp only [Bool.or_eq_true, Bool.not_eq_true', List.isEmpty_iff, decide_eq_true_eq, not_or]
  exact ⟨⟨ne_false_of_eq_true hup, hkept⟩, Nat.not_lt.mpr hlate⟩

theorem link_of_get? (hx : Assoc.get? n s.links = some x) : s.link n = x := congrArg (Option.getD · LinkState.untrained) hx

/-- What a changed link becomes depends on the link as it stands. -/
theorem modLink_congr {f g : LinkState → LinkState} (h : f (s.link n) = g (s.link n)) : s.modLink n f = s.modLink n g := by
  rw [State.modLink, h, State.modLink]

theorem retrain_idle (h : Assoc.get? n s.links = none ∨ (s.link n).isUp = true) : exec (.waleRetrainComplete n) s = .next s := by
  refine (exec_waleRetrainComplete n s).trans (if_pos ?_)
  rw [Bool.or_eq_true, Option.isNone_iff_eq_none]
  exact h.symm

theorem retrain_trains (hx : Assoc.get? n s.links = some x) (hdown : x.isUp = false) :
    let k := Config.pick 5 s.fresh % (x.unacked.length + 1)
    exec (.waleRetrainComplete n) s = .next (((x.unacked.drop k).flatMap (·.pays)).foldl State.lose (s.modLink n fun y =>
      { y.trained s.fresh s.clock with txSeq := (y.txSeq + 2 ^ 56 - (x.unacked.length - k)) % 2 ^ 56 })) := by
  have hlink := link_of_get? hx
  have htrains : ¬ ((s.link n).isUp || (Assoc.get? n s.links).isNone) = true := by
    rw [hlink, hdown, hx]
    exact Bool.false_ne_true
  refine ((exec_waleRetrainComplete n s).trans (if_neg htrains)).trans ?_
  rw [hlink]
  refine congrArg (fun u => Host.Outcome.next (List.foldl State.lose u _)) (modLink_congr ?_)
  rw [hlink]

theorem downTimeout_ends (hst : (s.link n).st = .training) (hlate : (s.link n).downSince + 18000000 ≤ s.clock) :
    let x := s.link n
    let down := s.modLink n fun x => { x with st := .down, unacked := x.unacked.map fun g => { g with pays := [] } }
    let u := { down with net := down.net.filter fun f => f.dst != Place.link n }
    exec (.waleDownTimeout n) s = .next (((x.unacked.flatMap (·.pays) ++ s.leaving n).foldl State.lose u).loseWaits n) := by
  refine (exec_waleDownTimeout n s).trans (if_neg ?_)
  rw [hst, Bool.or_eq_true, decide_eq_true_eq, not_or]
  exact ⟨by decide, Nat.not_lt.mpr hlate⟩

theorem downTimeout_waits (h : (s.link n).st ≠ .training ∨ s.clock < (s.link n).downSince + 18000000) :
    exec (.waleDownTimeout n) s = .next s := by
  refine (exec_waleDownTimeout n s).trans (if_pos ?_)
  rw [Bool.or_eq_true, decide_eq_true_eq, bne_iff_ne]
  exact h

/-! ### The rotation of keys (R387) -/

theorem rotation_down (hdown : (s.link n).isUp = false) : exec (.rotationKeyInstall n) s = .next s ∧ exec (.rotationSwitch n) s = .next s
    ∧ exec (.rotationRetire n) s = .next s :=
  ⟨(exec_rotationKeyInstall n s).trans (if_pos (Bool.or_eq_true .. ▸ .inl (congrArg not hdown))),
    (exec_rotationSwitch n s).trans (if_pos (congrArg not hdown)), (exec_rotationRetire n s).trans (if_pos (congrArg not hdown))⟩

theorem keyInstall_installs (hup : (s.link n).isUp = true)
    (hrot : (s.link n).rotTx = some 0 ∨ ((s.link n).rotTx = none ∧ (s.link n).rotRx = none)) :
    exec (.rotationKeyInstall n) s = .next (s.modLink n fun y =>
      { y with
        rotTx := some 1, rotRx := some 1, derived := y.derived + 2,
        txSlots := modifyAt (fun _ => .installed) (1 - y.txSlot) y.txSlots, rxSlots := modifyAt (fun _ => .installed) (1 - y.rxSlot) y.rxSlots,
        txKeys := modifyAt (fun _ => Config.linkKey y.session y.derived) (1 - y.txSlot) y.txKeys,
        rxKeys := modifyAt (fun _ => Config.linkKey y.session (y.derived + 1)) (1 - y.rxSlot) y.rxKeys }) := by
  refine (exec_rotationKeyInstall n s).trans (if_neg ?_)
  simp only [hup, Bool.not_true, Bool.false_or, Bool.not_eq_true', Bool.not_eq_false, Bool.or_eq_true, Bool.and_eq_true, beq_iff_eq,
    Option.isNone_iff_eq_none]
  exact hrot

theorem keyInstall_waits (hbegun : (s.link n).rotTx ≠ some 0) (hrot : (s.link n).rotTx ≠ none ∨ (s.link n).rotRx ≠ none) :
    exec (.rotationKeyInstall n) s = .next s := by
  refine (exec_rotationKeyInstall n s).trans (if_pos ?_)
  simp only [Bool.or_eq_true, Bool.not_eq_true', Bool.or_eq_false_iff, Bool.and_eq_false_iff, beq_eq_false_iff_ne,
    Option.isNone_eq_false_iff, Option.isSome_iff_ne_none]
  exact .inr ⟨hbegun, hrot⟩

section
variable (hup : (s.link n).isUp = true)
include hup

theorem switch_tx (htx : (s.link n).rotTx = some 1) : exec (.rotationSwitch n) s = .next (((s.sealAll n).modLink n fun y =>
    { y with rotTx := some 2, txSlot := 1 - y.txSlot, sealed := 0, txSlots := turnSlots y.txSlot y.txSlots }).endTurned n) :=
  ((exec_rotationSwitch n s).trans (if_neg (ne_true_of_eq_false (congrArg not hup)))).trans (if_pos htx)

theorem switch_rx (htx : (s.link n).rotTx ≠ some 1) (hrx : (s.link n).rotRx = some 1) :
    exec (.rotationSwitch n) s = .next ((s.modLink n LinkState.turnRx).endTurned n) :=
  (((exec_rotationSwitch n s).trans (if_neg (ne_true_of_eq_false (congrArg not hup)))).trans (if_neg htx)).trans (if_pos hrx)

theorem switch_none (htx : (s.link n).rotTx ≠ some 1) (hrx : (s.link n).rotRx ≠ some 1) : exec (.rotationSwitch n) s = .next s :=
  (((exec_rotationSwitch n s).trans (if_neg (ne_true_of_eq_false (congrArg not hup)))).trans (if_neg htx)).trans (if_neg hrx)

end

/-- Whether every group under the sending direction's old slot is acknowledged. -/
def LinkState.txRetires (x : LinkState) : Bool := x.rotTx == some 2 && !(x.unacked.any (·.slot == 1 - x.txSlot))
/-- Whether no group under the receiving direction's old slot is to come. -/
def State.rxRetires (s : State) (x : LinkState) : Bool := x.rotRx == some 3 || (x.rotRx == some 2 && Config.pick 6 s.fresh % 2 == 1)

/-- The state with the sending direction's old slot zeroed and idle. -/
def State.retireTx (s : State) (n : Nat) : State := s.modLink n fun y =>
  { y with
    rotTx := none, txSlots := modifyAt (fun _ => .idle) (1 - y.txSlot) y.txSlots,
    txKeys := modifyAt (fun _ => { key := 0, salt := 0 }) (1 - y.txSlot) y.txKeys }
/-- The state with the receiving direction's old slot zeroed and idle. -/
def State.retireRx (s : State) (n : Nat) : State := s.modLink n fun y =>
  { y with
    rotRx := none, rxOld := false, rxSlots := modifyAt (fun _ => .idle) (1 - y.rxSlot) y.rxSlots,
    rxKeys := modifyAt (fun _ => { key := 0, salt := 0 }) (1 - y.rxSlot) y.rxKeys }

/-- Each direction retires its old slot by itself. -/
theorem retire_up (hup : (s.link n).isUp = true) :
    exec (.rotationRetire n) s =
      let u := if !(s.link n).txRetires then s else s.retireTx n
      .next (if !s.rxRetires (s.link n) then u else u.retireRx n) :=
  (exec_rotationRetire n s).trans (if_neg (ne_true_of_eq_false (congrArg not hup)))

theorem txRetires_iff (x : LinkState) : x.txRetires = true ↔ x.rotTx = some 2 ∧ x.unacked.any (·.slot == 1 - x.txSlot) = false := by
  rw [LinkState.txRetires, Bool.and_eq_true, beq_iff_eq, Bool.not_eq_true']

theorem rxRetires_iff (s : State) (x : LinkState) :
    s.rxRetires x = true ↔ x.rotRx = some 3 ∨ (x.rotRx = some 2 ∧ Config.pick 6 s.fresh % 2 = 1) := by
  rw [State.rxRetires, Bool.or_eq_true, Bool.and_eq_true, beq_iff_eq, beq_iff_eq, beq_iff_eq]

theorem retire_cases (hup : (s.link n).isUp = true) {tx rx : Prop} (htx : (s.link n).txRetires = true ↔ tx)
    (hrx : s.rxRetires (s.link n) = true ↔ rx) :
    (¬ tx → ¬ rx → exec (.rotationRetire n) s = .next s) ∧ (tx → ¬ rx → exec (.rotationRetire n) s = .next (s.retireTx n))
    ∧ (¬ tx → rx → exec (.rotationRetire n) s = .next (s.retireRx n))
    ∧ (tx → rx → exec (.rotationRetire n) s = .next ((s.retireTx n).retireRx n)) := by
  have hexec := retire_up hup
  rw [← htx, ← hrx, Bool.not_eq_true, Bool.not_eq_true]
  refine ⟨fun ht hr => ?_, fun ht hr => ?_, fun ht hr => ?_, fun ht hr => ?_⟩
  all_goals
    rw [ht, hr] at hexec
    exact hexec

end

/-- Settles O44: groups, resends, retraining and rotations of a Wale link. -/
theorem linkEventsActAsStated : Obligations.LinkEventsActAsStated := by
  intro s
  refine ⟨fun g => ⟨receive_down, fun hup => ⟨?ends, fun hflits hstill => ⟨fun hno => ?discards, fun h hshare haccepts => ?takes⟩⟩⟩,
    took_answers, fun n => ⟨?waits, fun hup hkept => ⟨fun hearly => ?early, resendTimeout_resends hup hkept⟩⟩,
    fun n => retrain_idle, fun n x => retrain_trains, fun n => ⟨downTimeout_ends, downTimeout_waits⟩,
    fun n => ⟨rotation_down, fun hup => ⟨keyInstall_installs hup, keyInstall_waits, switch_tx hup, switch_rx hup, switch_none hup,
      retire_cases hup (txRetires_iff _) (rxRetires_iff s _)⟩⟩⟩
  case ends => exact receive_ends hup
  case discards => exact (receive_goes hup hflits hstill).1 (takesOn_none hno)
  case takes => exact (receive_goes hup hflits hstill).2 h (takesOn_some hshare haccepts)
  case waits => exact fun h => resendTimeout_waits (h.imp_right .inl)
  case early => exact resendTimeout_waits (.inr (.inr hearly))

end Sys2Proof.Machine
end

section
/-! PROOFS. The events of the host and of the module's units (R388 to R393, R398 to R403). -/
namespace Sys2Proof.Machine

section
variable {s : State} {vf n addr : Nat} {f : Vf}

/-! ### Notify writes (R390 to R392) -/

/-- Whether the host's requests through a virtual function take effect: it is not in ERROR, and its link is up (R392, R398). -/
def State.Reaches (s : State) (f : Vf) : Prop := f.st ≠ .error ∧ s.hostUp.contains f.link = true

theorem not_reaches_iff : (f.st = .error || !s.hostReaches f) = true ↔ ¬ s.Reaches f := by
  rw [State.Reaches, State.hostReaches, Bool.or_eq_true, decide_eq_true_eq, Bool.not_eq_true', not_and_or, not_not, Bool.not_eq_true]

theorem rings_iff : f.rings addr = true ↔ f.doorbell ≤ addr ∧ addr < f.doorbell + 4096 := by
  rw [Vf.rings, Bool.and_eq_true, decide_eq_true_eq, decide_eq_true_eq]

section
variable {v : Nat}

theorem notify_takes (hst : (s.chan vf n).st = .mapped) (hlow : (s.chan vf n).latch < v) (hhigh : v ≤ (s.chan vf n).head + 2 ^ (s.chan vf n).e) :
    s.notify vf n v = s.setChan vf n { s.chan vf n with latch := v } :=
  (if_pos hst).trans (if_pos ((Bool.and_eq_true ..).mpr ⟨decide_eq_true hlow, decide_eq_true hhigh⟩))

theorem notify_rejects (hst : (s.chan vf n).st = .mapped) (hv : v ≤ (s.chan vf n).latch ∨ (s.chan vf n).head + 2 ^ (s.chan vf n).e < v) :
    s.notify vf n v = s.setChan vf n { s.chan vf n with rejected := ((s.chan vf n).rejected + 1) % 2 ^ 64 } := by
  refine (if_pos hst).trans (if_neg ?_)
  rw [Bool.and_eq_true, decide_eq_true_eq, decide_eq_true_eq]
  omega

theorem notify_late (hst : (s.chan vf n).st ≠ .mapped) :
    s.notify vf n v = s.setChan vf n { s.chan vf n with late := max (s.chan vf n).late v } := if_neg hst

end

section
variable {r : NotifyReq}

theorem notifyWrite_none (h : Assoc.get? vf s.vfs = none) : exec (.notifyWrite vf addr r) s = .next s := by
  rw [exec_notifyWrite, execNotifyWrite, h]
  rfl

variable (hf : Assoc.get? vf s.vfs = some f)
include hf

/-- A notify write through a virtual function: one that does not reach it, one that puts it in ERROR, one beside the latches, and one
to a latch. -/
theorem notifyWrite_some : exec (.notifyWrite vf addr r) s =
    .next (if f.st = .error || !s.hostReaches f then s else if !r.intact || !f.rings addr then s.vfError vf
      else if (addr - f.doorbell) % 8 ≠ 0 || 2048 ≤ addr - f.doorbell then s
      else s.notify vf ((addr - f.doorbell) / 8) (r.tail % 2 ^ 64)) := by
  rw [exec_notifyWrite, execNotifyWrite, hf]
  dsimp only
  split_ifs <;> rfl

theorem notifyWrite_apart (h : ¬ s.Reaches f) : exec (.notifyWrite vf addr r) s = .next s :=
  (notifyWrite_some hf).trans (congrArg _ (if_pos (not_reaches_iff.mpr h)))

variable (hreach : s.Reaches f)
include hreach

theorem notifyWrite_error (h : r.intact = false ∨ ¬ (f.doorbell ≤ addr ∧ addr < f.doorbell + 4096)) :
    exec (.notifyWrite vf addr r) s = .next (s.vfError vf) := by
  refine (notifyWrite_some hf).trans (congrArg _ ((if_neg (not_reaches_iff.not_left.mpr hreach)).trans (if_pos ?_)))
  rw [Bool.or_eq_true, Bool.not_eq_true', Bool.not_eq_true', ← Bool.not_eq_true (f.rings addr), rings_iff]
  exact h

/-- A notify write inside the doorbell page goes to its latch, unless no latch of a channel stands there. -/
theorem notifyWrite_page (hintact : r.intact = true) (hpage : f.doorbell ≤ addr ∧ addr < f.doorbell + 4096) :
    ((addr - f.doorbell) % 8 ≠ 0 ∨ 255 < (addr - f.doorbell) / 8 → exec (.notifyWrite vf addr r) s = .next s)
    ∧ ((addr - f.doorbell) % 8 = 0 → (addr - f.doorbell) / 8 ≤ 255 →
      exec (.notifyWrite vf addr r) s = .next (s.notify vf ((addr - f.doorbell) / 8) (r.tail % 2 ^ 64))) := by
  have hexec := (notifyWrite_some hf (addr := addr) (r := r)).trans (congrArg _ ((if_neg (not_reaches_iff.not_left.mpr hreach)).trans
    (if_neg (by rw [hintact, rings_iff.mpr hpage]; exact Bool.false_ne_true))))
  refine ⟨fun h => hexec.trans (congrArg _ (if_pos ?_)), fun h8 hn => hexec.trans (congrArg _ (if_neg ?_))⟩
  all_goals
    rw [Bool.or_eq_true, decide_eq_true_eq, decide_eq_true_eq]
    omega

end

/-! ### Channels (R388, R391) -/

theorem channelUnmap_none (hn : 255 < n) : exec (.channelUnmap vf n) s = .next s := (exec_channelUnmap vf n s).trans (if_pos hn)

/-- The state with a channel a step nearer to unmapped. -/
def State.unmaps (s : State) (vf n : Nat) : State :=
  match (s.chan vf n).st with
  | .unmapped => s
  | .mapped => s.setChan vf n { s.chan vf n with st := .closing, tailsnap := (s.chan vf n).latch }
  | .closing => s.setChan vf n { s.chan vf n with st := .unmapped }

theorem channelUnmap_acts (hn : n ≤ 255) : exec (.channelUnmap vf n) s = .next (s.unmaps vf n) := by
  have hexec := (exec_channelUnmap vf n s).trans (if_neg (Nat.not_lt.mpr hn))
  rw [State.unmaps]
  cases hst : (s.chan vf n).st with
  | unmapped | mapped | closing =>
    rw [hst] at hexec
    exact hexec

theorem channelMap_none {r : ChanReq} (h : 255 < r.chan ∨ s.vfState r.vf = none ∨ (s.chan r.vf r.chan).st ≠ .unmapped ∨ r.e < 4 ∨ 16 < r.e
    ∨ r.z < 6 ∨ 12 < r.z) : exec (.channelMap r) s = .next s := by
  refine (exec_channelMap r s).trans (if_pos ?_)
  simp only [Bool.or_eq_true, decide_eq_true_eq, or_assoc]
  exact h

theorem channelMap_maps {r : ChanReq} (h : ¬ (255 < r.chan ∨ s.vfState r.vf = none ∨ (s.chan r.vf r.chan).st ≠ .unmapped ∨ r.e < 4
    ∨ 16 < r.e ∨ r.z < 6 ∨ 12 < r.z)) :
    let q := s.chan r.vf r.chan
    exec (.channelMap r) s = .next (s.setChan r.vf r.chan
      { q with
        sub := r.sub, comp := r.comp, status := r.status, e := r.e, z := r.z, vector := r.vector % 2 ^ 16,
        st := .mapped, latch := max q.tailsnap q.late, late := 0 }) := by
  refine (exec_channelMap r s).trans (if_neg ?_)
  simp only [Bool.or_eq_true, decide_eq_true_eq, or_assoc]
  exact h

/-! ### Requests of the host (R392) -/

section
variable {r : HostReq} {t : Nat} {x : Region}

theorem hostRequest_none (h : Assoc.get? r.vf s.vfs = none ∨ s.vfTenant r.vf = none) : exec (.hostRequest r) s = .next s := by
  rw [exec_hostRequest, execHostRequest]
  split
  next hf ht => simp [hf, ht] at h
  next => rfl

/-- The bytes that a request reads or writes. -/
def hostBytes (r : HostReq) : Nat := (r.data.map (·.length)).getD r.len

/-- Whether a request lies in the window of the tenant's memory. -/
def Vf.holds (f : Vf) (r : HostReq) : Bool := f.base ≤ r.addr && r.addr + hostBytes r ≤ f.base + f.size

theorem outside_iff : (r.addr < f.base || f.base + f.size < r.addr + hostBytes r) = true ↔ f.holds r = false := by
  rw [Vf.holds, Bool.or_eq_true, Bool.and_eq_false_iff, decide_eq_true_eq, decide_eq_true_eq, decide_eq_false_iff_not, decide_eq_false_iff_not,
    Nat.not_le, Nat.not_le]

/-- The state after a request inside the window of the tenant's memory. -/
def State.served (s : State) (r : HostReq) (x : Region) : State :=
  match r.data with
  | some bs => (s.glbWrite x.asid r.addr bs).getD s
  | none => (s.glbRead x.asid r.addr (hostBytes r)).elim s fun bs => { s with hostOut := s.hostOut ++ [.read r.vf r.addr bs] }

theorem hostRequest_some (hf : Assoc.get? r.vf s.vfs = some f) (ht : s.vfTenant r.vf = some (t, x)) : exec (.hostRequest r) s =
    .next (if f.st = .error || !s.hostReaches f then s else if !r.intact then s.vfError r.vf
      else if r.addr < f.base || f.base + f.size < r.addr + hostBytes r then (if f.rings r.addr then s else s.vfError r.vf)
      else s.served r x) := by
  rw [exec_hostRequest, execHostRequest, hf, ht, State.served]
  cases hdata : r.data with
  | some bs =>
    have hlen : hostBytes r = bs.length := by rw [hostBytes, hdata]; rfl
    rw [hlen]
    dsimp only
    split_ifs <;> rfl
  | none =>
    have hlen : hostBytes r = r.len := by rw [hostBytes, hdata]; rfl
    rw [hlen]
    dsimp only
    cases s.glbRead x.asid r.addr r.len with
    | some bs => split_ifs <;> rfl
    | none => split_ifs <;> rfl

section
variable (hf : Assoc.get? r.vf s.vfs = some f)
include hf

theorem hostRequest_apart (h : ¬ s.Reaches f) : exec (.hostRequest r) s = .next s := by
  cases ht : s.vfTenant r.vf with
  | none => exact hostRequest_none (.inr ht)
  | some p => exact (hostRequest_some hf ht).trans (congrArg _ (if_pos (not_reaches_iff.mpr h)))

variable (ht : s.vfTenant r.vf = some (t, x)) (hreach : s.Reaches f)
include ht hreach

theorem hostRequest_reaches : exec (.hostRequest r) s = .next (if !r.intact then s.vfError r.vf
    else if r.addr < f.base || f.base + f.size < r.addr + hostBytes r then (if f.rings r.addr then s else s.vfError r.vf)
    else s.served r x) := (hostRequest_some hf ht).trans (congrArg _ (if_neg (not_reaches_iff.not_left.mpr hreach)))

theorem hostRequest_broken (h : r.intact = false) : exec (.hostRequest r) s = .next (s.vfError r.vf) :=
  (hostRequest_reaches hf ht hreach).trans (congrArg _ (if_pos (congrArg not h)))

theorem hostRequest_outside (hintact : r.intact = true) (hout : f.holds r = false) :
    exec (.hostRequest r) s = .next (if f.rings r.addr then s else s.vfError r.vf) :=
  (hostRequest_reaches hf ht hreach).trans (congrArg _ ((if_neg (ne_true_of_eq_false (congrArg not hintact))).trans (if_pos (outside_iff.mpr hout))))

theorem hostRequest_inside (hintact : r.intact = true) (hin : f.holds r = true) : exec (.hostRequest r) s = .next (s.served r x) :=
  (hostRequest_reaches hf ht hreach).trans (congrArg _ ((if_neg (ne_true_of_eq_false (congrArg not hintact))).trans
    (if_neg (outside_iff.not.mpr (ne_false_of_eq_true hin)))))

end

theorem served_write {bs : List Byte} (h : r.data = some bs) : s.served r x = (s.glbWrite x.asid r.addr bs).getD s := by
  rw [State.served, h]

theorem served_read (h : r.data = none) :
    s.served r x = (s.glbRead x.asid r.addr (hostBytes r)).elim s fun bs => { s with hostOut := s.hostOut ++ [.read r.vf r.addr bs] } := by
  rw [State.served, h]

end

/-! ### The Slath processor over SPDM (R392, R393, R400) -/

theorem spdm_recovery (h : s.recovery = true) (r : SpdmReq) : exec (.spdmRequest r) s = .next s := (exec_spdmRequest r s).trans (if_pos h)

section
variable (hrec : s.recovery = false)
include hrec

theorem spdm_openSession (n : Nat) :
    exec (.spdmRequest (.openSession n)) s = .next { s with sessions := n :: s.sessions.filter (· ≠ n) } :=
  (exec_spdmRequest (.openSession n) s).trans (if_neg (ne_true_of_eq_false hrec))

theorem spdm_closeSession (n : Nat) :
    exec (.spdmRequest (.closeSession n)) s = .next { s with sessions := s.sessions.filter (· ≠ n) } :=
  (exec_spdmRequest (.closeSession n) s).trans (if_neg (ne_true_of_eq_false hrec))

theorem spdm_measurement {k : Nat} {m : BitVec 512} (hk : k ≠ 0) (hm : s.meas[k - 1]? = some m) :
    exec (.spdmRequest (.measurement k)) s = .next { s with hostOut := s.hostOut ++ [.spdm k (leBytes 64 m.toNat)] } := by
  have hexec := ((exec_spdmRequest (.measurement k) s).trans (if_neg (ne_true_of_eq_false hrec))).trans (if_neg hk)
  rw [hm] at hexec
  exact hexec

theorem spdm_moves : exec (.spdmRequest (.lock vf)) s = .next (s.moveVf vf (· == .unlocked) .locked)
    ∧ (s.streamFree vf = true → exec (.spdmRequest (.start vf)) s = .next (s.moveVf vf (· == .locked) .run))
    ∧ (s.streamFree vf = false → exec (.spdmRequest (.start vf)) s = .next s)
    ∧ exec (.spdmRequest (.stop vf)) s = .next (s.moveVf vf (fun _ => true) .unlocked) := by
  have hexec (r : SpdmReq) := (exec_spdmRequest r s).trans (if_neg (ne_true_of_eq_false hrec))
  refine ⟨hexec (.lock vf), fun hfree => (hexec (.start vf)).trans ?_, fun hfree => (hexec (.start vf)).trans ?_, hexec (.stop vf)⟩
  · exact congrArg event (if_pos hfree)
  · exact congrArg event (if_neg (ne_true_of_eq_false hfree))

theorem spdm_certificate {seed : BitVec 256} (hid : s.identity = some seed) : exec (.spdmRequest (.certificate 0)) s = .next { s with
    hostOut := s.hostOut ++ [.certificate 0 (Config.certificates ++ leBytes 32 (Config.publicKey seed).toNat)] } := by
  have hexec := (exec_spdmRequest (.certificate 0) s).trans (if_neg (ne_true_of_eq_false hrec))
  refine hexec.trans ?_
  dsimp only
  split
  next hseed => cases hid.symm.trans hseed; rfl
  next hnone => exact absurd hid (hnone seed rfl)

theorem spdm_interfaces (hf : Assoc.get? vf s.vfs = some f) : exec (.spdmRequest (.interfaces vf)) s = .next { s with
    hostOut := s.hostOut ++ [.interfaces vf f.doorbell (f.base, f.size)] } := by
  have hexec := (exec_spdmRequest (.interfaces vf) s).trans (if_neg (ne_true_of_eq_false hrec))
  dsimp only at hexec
  rw [hf] at hexec
  exact hexec

end
end

theorem hostsAreServed : HostsAreServed := by
  intro s
  refine ⟨fun vf addr r => notifyWrite_none,
    fun vf addr r f hf => ⟨notifyWrite_apart hf, notifyWrite_error hf, fun hreach hintact hpage => ?page⟩,
    fun vf n => channelUnmap_none, fun vf n hn => ?unmaps, fun r hn hvf hst he he' hz hz' => channelMap_maps ?maps, fun r => channelMap_none,
    fun r => hostRequest_none, fun r f hf => hostRequest_apart hf,
    fun r f t x hf ht hreach => ⟨hostRequest_broken hf ht hreach, fun hintact hout hrings => ?beside, fun hintact hout hrings => ?doorbell,
      fun hintact hin => ⟨fun bs hbs => ?writes, fun hread hno => ?unread, fun bs hread hbs => ?reads⟩⟩,
    fun hrec => ⟨spdm_openSession hrec, spdm_closeSession hrec, fun k m => spdm_measurement hrec,
      fun vf => spdm_moves hrec, fun seed => spdm_certificate hrec, fun vf f => spdm_interfaces hrec⟩, spdm_recovery⟩
  case page =>
    obtain ⟨hbeside, hlatch⟩ := notifyWrite_page hf hreach hintact hpage
    refine ⟨hbeside, fun h8 hn => ⟨fun hst hlow hhigh => ?takes, fun hst hv => ?rejects, fun hst => ?late⟩⟩
    case takes => exact (hlatch h8 hn).trans (congrArg _ (notify_takes hst hlow hhigh))
    case rejects => exact (hlatch h8 hn).trans (congrArg _ (notify_rejects hst hv))
    case late => exact (hlatch h8 hn).trans (congrArg _ (notify_late hst))
  case unmaps => exact channelUnmap_acts hn
  case maps =>
    rw [Option.isSome_iff_ne_none] at hvf
    simp only [not_or, not_not, Nat.not_lt]
    exact ⟨hn, hvf, hst, he, he', hz, hz'⟩
  case beside => exact (hostRequest_outside hf ht hreach hintact hout).trans (congrArg _ (if_neg (rings_iff.not.mpr hrings)))
  case doorbell => exact (hostRequest_outside hf ht hreach hintact hout).trans (congrArg _ (if_pos (rings_iff.mpr hrings)))
  all_goals refine (hostRequest_inside hf ht hreach hintact hin).trans (congrArg _ ?_)
  case writes => exact served_write hbs
  case unread => exact (served_read hread).trans (congrArg (Option.elim · s _) hno)
  case reads => exact (served_read hread).trans (congrArg (Option.elim · s _) hbs)

/-! ### Reset and boot (R398 to R400) -/

section
variable {s : State} {b : BootInput}

/-- What a module reset keeps, and the identity that it finds, whether it boots or ends in recovery. -/
def State.Booted (s : State) (b : BootInput) (t : State) : Prop :=
  t.mem = [] ∧ t.cells = [] ∧ t.regions = [] ∧ t.clock = 0 ∧ t.flash = s.flash ∧ t.rollback = s.rollback ∧ t.helper = s.helper
  ∧ t.puf = b.puf ∧ t.identity = s.seed b.puf

/-- A module whose seed or images are not good ends in recovery. -/
theorem boot_recovers (h : s.seed b.puf = none ∨ s.imageGood (s.flash.getD 2 []) = false ∨ (s.flash.take 2).any s.imageGood = false) :
    s.boot b = { s.wiped with identity := s.seed b.puf, puf := b.puf, recovery := true, hostUp := b.hostLinks.filter (· == 0) } := by
  rw [State.boot]
  dsimp only
  split
  next => rfl
  next fw hfw =>
    refine if_pos ?_
    rw [Bool.or_eq_true, Option.isNone_iff_eq_none, Bool.not_eq_true']
    refine h.imp_right fun himage => himage.resolve_right ?_
    rw [List.any_eq_false]
    exact fun hnone => hnone fw (List.mem_of_find?_eq_some hfw) (List.find?_some hfw)

theorem boot_boots {fw : List Byte} (hseed : (s.seed b.puf).isSome = true) (hcode : s.imageGood (s.flash.getD 2 []) = true)
    (hfw : (s.flash.take 2).find? s.imageGood = some fw) : s.boot b =
      { s.wiped with
        identity := s.seed b.puf, puf := b.puf, absent := (List.range 960).filter b.failed.contains,
        links := waleLinks.map fun l => (l, bootLink s.fresh (b.links.contains l)), hostUp := hostLinks.filter b.hostLinks.contains,
        meas := [Config.sha512 fw, Config.sha512 (s.flash.getD 2 []), 0, 0] } := by
  rw [State.boot]
  dsimp only
  rw [hfw]
  refine if_neg ?_
  rw [hcode, Option.isNone_eq_false_iff.mpr hseed]
  exact Bool.false_ne_true

theorem boot_booted (s : State) (b : BootInput) : s.Booted b (s.boot b) := by
  rw [State.boot]
  dsimp only
  split
  next => exact ⟨rfl, rfl, rfl, rfl, rfl, rfl, rfl, rfl, rfl⟩
  next =>
    split
    next => exact ⟨rfl, rfl, rfl, rfl, rfl, rfl, rfl, rfl, rfl⟩
    next => exact ⟨rfl, rfl, rfl, rfl, rfl, rfl, rfl, rfl, rfl⟩

/-! ### Flash (R399) -/

section
variable {q : CommitReq}

theorem imageCommit_none (h : 2 < q.place) : exec (.imageCommit q) s = .next s := (exec_imageCommit q s).trans (if_pos h)

variable (hplace : q.place ≤ 2)
include hplace

theorem imageCommit_writes {bs : List Byte} (h : q.write = some bs) :
    exec (.imageCommit q) s = .next { s with flash := modifyAt (fun _ => bs) q.place ((s.flash ++ [[], [], []]).take 3) } := by
  have hexec := (exec_imageCommit q s).trans (if_neg (Nat.not_lt.mpr hplace))
  rw [h] at hexec
  exact hexec

theorem imageCommit_commits (h : q.write = none) :
    exec (.imageCommit q) s = .next (if s.recovery || !s.imageGood (((s.flash ++ [[], [], []]).take 3).getD q.place []) then s
      else { s with rollback := max s.rollback (Config.imageVersion (((s.flash ++ [[], [], []]).take 3).getD q.place [])) }) := by
  have hexec := (exec_imageCommit q s).trans (if_neg (Nat.not_lt.mpr hplace))
  rw [h] at hexec
  exact hexec.trans (apply_ite event ..).symm

end

/-! ### Power, routers and temperature (R401 to R403) -/

section
variable {w a d p v t : Nat}

theorem powerSample_throttles (s : State) {up : Bool} (h : up = true ↔ 3000000 < w ∨ 6000000 < a ∨ s.hot ≠ []) :
    exec (.powerSample w a) s = .next (s.throttleStep up) := by
  have hup : (3000000 < w || 6000000 < a || !s.hot.isEmpty) = up := by
    rw [Bool.eq_iff_iff, h, Bool.or_eq_true, Bool.or_eq_true, decide_eq_true_eq, decide_eq_true_eq, Bool.not_eq_true', List.isEmpty_eq_false_iff,
      or_assoc]
  rw [exec_powerSample, execPowerSample, hup, event]

theorem powerGate_cond : (3 < d || 255 < p || s.clock < 4096 || s.routed (routerNo d p)) = true
    ↔ 3 < d ∨ 255 < p ∨ s.clock < 4096 ∨ s.routed (routerNo d p) = true := by
  rw [Bool.or_eq_true, Bool.or_eq_true, Bool.or_eq_true, decide_eq_true_eq, decide_eq_true_eq, decide_eq_true_eq, or_assoc, or_assoc]

theorem powerGate_none (h : 3 < d ∨ 255 < p ∨ s.clock < 4096 ∨ s.routed (routerNo d p) = true) : exec (.routerPowerGate d p) s = .next s :=
  (exec_routerPowerGate d p s).trans (if_pos (powerGate_cond.mpr h))

theorem powerGate_gates (h : ¬ (3 < d ∨ 255 < p ∨ s.clock < 4096 ∨ s.routed (routerNo d p) = true)) :
    exec (.routerPowerGate d p) s = .next { s with gated := routerNo d p :: s.gated.filter (· ≠ routerNo d p) } :=
  (exec_routerPowerGate d p s).trans (if_neg (powerGate_cond.not.mpr h))

theorem vault_none (h : 959 < v) : exec (.vaultTemperature v t) s = .next s := (exec_vaultTemperature v t s).trans (if_pos h)

variable (hv : v ≤ 959)
include hv

theorem vault_trips (ht : 110 < t) : exec (.vaultTemperature v t) s =
    .next { s.boot (Config.found s.fresh) with hostOut := (s.boot (Config.found s.fresh)).hostOut ++ [.thermalTrip] } :=
  ((exec_vaultTemperature v t s).trans (if_neg (Nat.not_lt.mpr hv))).trans (if_pos ht)

/-- A vault is hot from above 95 °C on until it falls below. -/
theorem vault_reports (ht : t ≤ 110) :
    (95 < t ∨ (s.hot.contains v = true ∧ t = 95) →
      exec (.vaultTemperature v t) s = .next ({ s with hot := v :: s.hot.filter (· ≠ v) }.throttleStep true))
    ∧ (¬ (95 < t ∨ (s.hot.contains v = true ∧ t = 95)) →
      exec (.vaultTemperature v t) s = .next { s with hot := s.hot.filter (· ≠ v) }) := by
  have hexec := ((exec_vaultTemperature v t s).trans (if_neg (Nat.not_lt.mpr hv))).trans (if_neg (Nat.not_lt.mpr ht))
  have hcond : (95 < t || (s.hot.contains v && t = 95)) = true ↔ 95 < t ∨ (s.hot.contains v = true ∧ t = 95) := by
    rw [Bool.or_eq_true, Bool.and_eq_true, decide_eq_true_eq, decide_eq_true_eq]
  exact ⟨fun h => hexec.trans (if_pos (hcond.mpr h)), fun h => hexec.trans (if_neg (hcond.not.mpr h))⟩

end
end

theorem moduleUnitsAct : ModuleUnitsAct := by
  intro s
  refine ⟨fun b => ⟨s.boot b, exec_moduleReset b s, ?reset⟩, fun q => imageCommit_none,
    fun q hplace => ⟨fun bs => imageCommit_writes hplace, fun hw hrec hgood => ?commits, fun hw hbad => ?keeps⟩,
    fun w a => ⟨fun h => powerSample_throttles s (iff_of_true rfl h),
      fun hw ha hhot => powerSample_throttles s (iff_of_false Bool.false_ne_true ?cool)⟩,
    fun d p => powerGate_none, fun d p hd hp hclock hrouted => powerGate_gates ?gates, fun d p => exec_routerWake d p s,
    fun v t hv => ⟨vault_trips hv, fun hlow hhigh => ?hot, fun ht hhot => ?stays, fun h => ?cools⟩, fun v t => vault_none⟩
  case reset =>
    obtain ⟨hmem, hcells, hregions, hclock, hflash, hrollback, hhelper, hpuf, hidentity⟩ := boot_booted s b
    refine ⟨hmem, hcells, hregions, hclock, hflash, hrollback, hhelper, hpuf, hidentity, fun h => ?_, fun fw hseed hcode hfw => ?_⟩
    · rw [boot_recovers h]
      exact ⟨rfl, rfl⟩
    · rw [boot_boots hseed hcode hfw]
      dsimp only
      exact ⟨rfl, rfl, rfl, rfl, rfl⟩
  case commits => exact (imageCommit_commits hplace hw).trans (congrArg _ (if_neg (by rw [hrec, hgood]; exact Bool.false_ne_true)))
  case keeps =>
    refine (imageCommit_commits hplace hw).trans (congrArg _ (if_pos ?_))
    rw [Bool.or_eq_true, Bool.not_eq_true']
    exact hbad
  case cool => exact fun h => h.elim (Nat.not_lt.mpr hw) fun h => h.elim (Nat.not_lt.mpr ha) fun h => h hhot
  case gates =>
    rintro (hdie | hpos | hearly | hroutes)
    · exact Nat.not_lt.mpr hd hdie
    · exact Nat.not_lt.mpr hp hpos
    · exact Nat.not_lt.mpr hclock hearly
    · exact Bool.false_ne_true (hrouted.symm.trans hroutes)
  case hot => exact (vault_reports hv hhigh).1 (.inl hlow)
  case stays => exact (vault_reports hv (ht ▸ by decide)).1 (.inr ⟨hhot, ht⟩)
  case cools =>
    refine (vault_reports hv (by omega)).2 ?_
    rintro (hlow | ⟨hhot, ht⟩)
    · omega
    · exact h.elim (fun hlow => absurd ht (Nat.ne_of_lt hlow)) fun ⟨_, hcold⟩ => ne_true_of_eq_false hcold hhot

/-- Settles O45: the host's requests and the module's own units. -/
theorem hostEventsActAsStated : Obligations.HostEventsActAsStated := ⟨hostsAreServed, moduleUnitsAct⟩

end Sys2Proof.Machine
end

section
/-! PROOFS. Decoding and encoding are inverse to each other (R25 to R46), and the words that the spec prints decode (R36 to R42). -/
namespace Sys2Proof.Laws.Coded

/-- Every row of the opcode table is coded as its own statement says. -/
theorem statement (i : Instr) : Statement i :=
  Instr.casesOn (motive := Statement) i
    add sub mul mulh mulhu div divu rem remu and or xor andn shl shr sar rol min max minu maxu clz ctz popc bext bins lea li mov sel cmp
    pand por pxor pnot ppack punpk br jmp call loop jr callr ret done rdsr wrsr fadd fsub fmul fdiv fmin fmax fma fsqrt fcmp fcvt fclass
    vadd vsub vmul vfma vmin vmax vabs vneg vand vor vxor vshl vshr vsra vcmp vsel vcvt vexpand vrcp vrsqrt vexp2 vlog2 vredsum vredmax
    vdot vsplat vperm vidx vmovs vqnt vdqnt vscacc ldtab mma accz accsc accst accld accrd accwr ld st ldc vld vst vldc vgat vsca talloc
    tallocTry tseal tdrop tcount poolcfg poolst send sendLay sendt fill fillLay wait sbstat fence ldsc stsc xlatR xlatW xlatSet0 xlatSet1
    tinvAll tinvAsid tinvPage keysetInst keysetRet keysetSt spawn callat reply jnew jdec fnew fres freg tid rgnactNew rgnactPark
    rgnactResume rgnactQuiet rgnkillKill rgnkillExit budgetRd budgetExt put get alt pbind portst cload cdrop cstat amsg htabSet htabClr
    htabEpnew htabEpdel htabRd aadd aand aor axor amax amin aswp acas epmov epparkPark epparkResume barv barw redp redg bcfgSet bcfgFree
    bcfgBrk bcfgRd rcfgSet rcfgFree rcfgBrk rcfgRd trapCall trapRing eret brk rfill rretry rretryCtx rskip rkillEnt rkillCtx frzRgn frzRd
    hpostHead hpostDone hpollTail hpollHead hpollDone hpollWait lkrotRot lkrotSt ngloadLoad tenantCreate placerDecision placerAging
    preemptionRequest abandonedTile stallWatchdog stageGovernor barrierRelease reductionResult walkComplete keySlotEmpty thaw scrub
    copyTokenRefill waleGroupReceive waleResendTimeout waleRetrainComplete waleDownTimeout rotationKeyInstall rotationSwitch
    rotationRetire notifyWrite channelUnmap channelMap hostRequest spdmRequest moduleReset imageCommit powerSample routerPowerGate
    routerWake vaultTemperature tenantTeardown isolationPartitionConfigure fetchQueueFill dispatch readyRecordArrival budget
    budgetHardLimit trapEntry asynchronousTrap supervisorRunCap handlerRun handlerCap tileOpStart tileOpRetire copyStart copyChunkArrival
    copyAcknowledgement copyRetire tallocRequestArrival tallocCancel grantReplyArrival handleOperationArrival jdecArrival fresArrival
    fregArrival ownerReplyArrival messageArrival returnedMessageArrival messageInjection atomicResultArrival peerAccessArrival
    peerAbsentReturn offerArrival decide fifoItemArrival hubCancelArrival portCompletionArrival reductionCombine reductionPartialArrival
    scAnnouncementArrival windowClose stationRequest ringEntryFreed writePerformedAtHome loadValueReturned pbindRequestArrival
    epmovTargetArrival

end Sys2Proof.Laws.Coded

namespace Sys2Proof

/-! ### Words and their fields (R33 to R46) -/

/-- The word of an instruction that has an encoding is its packed fields. -/
theorem encode_of_toRaw {i : Instr} {r : Raw} (h : i.toRaw = some r) : encode i = r.pack := by rw [encode, h]

/-- A word decodes to an instruction exactly when its fields name the instruction, which is well formed and has these fields. -/
theorem decode_eq_ok_iff {w : Nat} {i : Instr} :
    decode w = .ok i ↔ ∃ r, unpack w = some r ∧ r.cand = some i ∧ i.wf = true ∧ i.toRaw = some r := by
  constructor
  · intro h
    unfold decode at h
    split at h
    next => cases h
    next r hunpack =>
      split at h
      next => cases h
      next j hcand =>
        split at h
        next hj =>
          cases h
          rw [Bool.and_eq_true, beq_iff_eq] at hj
          exact ⟨r, hunpack, hcand, hj⟩
        next => cases h
  · rintro ⟨r, hunpack, hcand, hwf, hr⟩
    simp only [decode, hunpack, hcand, hwf, hr, beq_self_eq_true, Bool.and_self, if_true]

/-- Settles O48: the fields of an encoding fit their widths, so they are read back from the word, and they name the instruction. -/
theorem decodingInvertsEncoding : Obligations.DecodingInvertsEncoding := by
  intro i hwf hcoded
  obtain ⟨r, hr⟩ := Option.isSome_iff_exists.mp hcoded
  obtain ⟨hfits, hfmt, hcand⟩ := Laws.Coded.statement i r hr
  rw [encode_of_toRaw hr]
  exact ⟨(r.pack_head hfits).2, decode_eq_ok_iff.mpr ⟨r, r.unpack_pack hfits hfmt, hcand, hwf, hr⟩⟩

/-- Settles O49: the fields that a word is cut into are those of its instruction, and a word is the word of its fields. -/
theorem encodingInvertsDecoding : Obligations.EncodingInvertsDecoding := by
  intro w i hw hd
  obtain ⟨r, hunpack, -, hwf, hr⟩ := decode_eq_ok_iff.mp hd
  exact ⟨(encode_of_toRaw hr).trans (Raw.pack_unpack w r hunpack hw), hwf⟩

/-- Settles O47: the decoder is run on each word. -/
theorem specWordsDecode : Obligations.SpecWordsDecode := by
  unfold Obligations.SpecWordsDecode
  decide +kernel

end Sys2Proof
end

section
/-! PROOFS. Branches (R30, R89, R90): where a taken one goes, and the trap of a bad target. -/
namespace Sys2Proof.Machine

/-! ### A branch and its target -/

section
variable {i : Instr} {g : Guard} {s : State} {pc : Word} {f : Ctx → Ctx}

/-- A taken branch whose target passes its checks goes there, with what it writes. -/
theorem Effect.branches (h : Effect i g s (s.branchTo pc f))
    (hok : (s.checkTarget (s.ctxRegion s.cur.cell s.cur.ctx) s.cur.cell pc).isNone = true) :
    Becomes i g s (s.modMe fun _ => (f s.me).jump pc) := by
  rw [State.branchTo, Option.isNone_iff_eq_none.mp hok] at h
  exact h.becomes

/-- One whose target fails them takes the trap of the check, and writes nothing. -/
theorem Effect.branchTraps {t : TrapInfo} (h : Effect i g s (s.branchTo pc f))
    (hbad : s.checkTarget (s.ctxRegion s.cur.cell s.cur.ctx) s.cur.cell pc = some t) :
    Becomes i g s (s.takeTrap s.cur.cell s.cur.ctx t) := by
  rw [State.branchTo, hbad] at h
  exact Effect.traps h

end

/-! ### The branches (R89, R90) -/

section
variable (s : State)

theorem jmp_effect (x : ArgT) : Effect (.jmp x) x.g s (s.branchTo (targetPc s.me.pc x.t) id) := .of_issue (exec_jmp x s) rfl

theorem call_effect (x : ArgT) :
    Effect (.call x) x.g s (s.branchTo (targetPc s.me.pc x.t) fun y => y.ws 1 (pcNext y.pc)) := .of_issue (exec_call x s) rfl

theorem jr_effect (x : ArgA) : Effect (.jr x) x.g s (s.branchTo (s.me.rs x.a) id) := .of_issue (exec_jr x s) rfl

theorem ret_effect (x : ArgA) : Effect (.ret x) x.g s (s.branchTo (s.me.rs x.a) id) := .of_issue (exec_ret x s) rfl

theorem callr_effect (x : ArgA) : Effect (.callr x) x.g s (s.branchTo (s.me.rs x.a) fun y => y.ws 1 (pcNext y.pc)) :=
  .of_issue (exec_callr x s) rfl

theorem br_taken {x : ArgBr} (h : (s.me.rs x.a == 0) = x.z) :
    Effect (.br x) x.g s (s.branchTo (targetPc s.me.pc x.t) id) :=
  Effect.of_pos (.of_issue (exec_br x s) rfl) (beq_iff_eq.mpr h)

theorem br_fallsThrough {x : ArgBr} (h : (s.me.rs x.a == 0) ≠ x.z) : Computes (.br x) x.g s s.me :=
  (Effect.of_neg (.of_issue (exec_br x s) rfl) (mt beq_iff_eq.mp h)).computes

/-- A `loop` whose count is not used up, and does not stand below the stack limit, branches with the count. -/
theorem loop_taken {x : ArgLoop} (h : s.me.rs x.a - 1 ≠ 0) (hlimit : belowLimit s x.a (s.me.rs x.a - 1) = false) :
    Effect (.loop x) x.g s (s.branchTo (targetPc s.me.pc x.t) fun y => y.ws x.a (s.me.rs x.a - 1)) :=
  Effect.of_neg (Effect.of_neg (.of_issue (exec_loop x s) rfl) h) (by rw [belowLimit] at hlimit; rw [hlimit]; exact Bool.false_ne_true)

theorem loop_ends {x : ArgLoop} (h : s.me.rs x.a - 1 = 0) (hlimit : belowLimit s x.a 0 = false) :
    Computes (.loop x) x.g s (s.me.ws x.a 0) := by
  have hwrites := (Effect.of_pos (.of_issue (exec_loop x s) rfl) h).writesScalar
  rw [h] at hwrites
  exact fun hready => (hwrites hready).1 hlimit

end

/-- A branch goes to its target when the target passes the checks of R30. -/
theorem branchesGoToTheirTarget : BranchesGoToTheirTarget := fun s =>
  ⟨fun _ => ⟨fun h hok => (br_taken s h).branches hok, br_fallsThrough s⟩,
   fun x hok => ⟨(jmp_effect s x).branches hok, (call_effect s x).branches hok⟩,
   fun _ => ⟨fun h hlimit hok => (loop_taken s h hlimit).branches hok, loop_ends s⟩,
   fun x hok => ⟨(jr_effect s x).branches hok, (ret_effect s x).branches hok, (callr_effect s x).branches hok⟩⟩

/-- A taken branch whose target fails them traps. -/
theorem badTargetTrapsAndWritesNothing : BadTargetTrapsAndWritesNothing := fun s _ =>
  ⟨fun x hbad => ⟨(jmp_effect s x).branchTraps hbad, (call_effect s x).branchTraps hbad⟩,
   fun _ h hbad => (br_taken s h).branchTraps hbad,
   fun _ h hlimit hbad => (loop_taken s h hlimit).branchTraps hbad,
   fun x hbad => ⟨(jr_effect s x).branchTraps hbad, (ret_effect s x).branchTraps hbad, (callr_effect s x).branchTraps hbad⟩,
   fun h => if_pos (by rw [h]; rfl)⟩

/-- Settles O3: the branches by their effects, with a target that passes and with one that fails. -/
theorem branchesGoToTheirTargetOrTrap : Obligations.BranchesGoToTheirTargetOrTrap :=
  ⟨branchesGoToTheirTarget, badTargetTrapsAndWritesNothing⟩

/-! ### False guards (R34) -/

/-- Under a false guard an instruction whose registers are allotted goes on to the next slot. -/
theorem issue_guardedOff {i : Instr} {g : Guard} {allowed : Nat → Bool} {body : State → Res} {s : State} (h : issuing s = true)
    (hg : s.me.guard g = false) (hb : beyondAllotment i s = none) : issue i g allowed body s = .next (s.goesOn s.me) := by
  rw [beyondAllotment] at hb
  simp only [issue, not_faults_of_issuing h, hg, hb]
  rfl

/-- Settles O53: every row is issued by its entry, and an issue under a false guard goes on. -/
theorem falseGuardsChangeNothing : Obligations.FalseGuardsChangeNothing := by
  intro i g s hr hs hg hb
  obtain ⟨body, he⟩ := issuedByEntry_of_rowGuard hr
  rw [he s]
  exact issue_guardedOff hs hg hb

end Sys2Proof.Machine
end

section
/-! PROOFS. The parity of a fetch line (R27): what its bytes XOR to, and what the parity byte makes of its groups. -/
namespace Sys2Proof

/-! ### The XOR of the bytes of a value -/

theorem bit_eq_testBit (v n : Nat) : bit v n = v.testBit n := by
  rw [bit, Nat.testBit, Nat.shiftRight_eq_div_pow, Nat.and_comm, Nat.and_one_is_mod]
  rcases Nat.mod_two_eq_zero_or_one (v / 2 ^ n) with h | h <;> rw [h] <;> rfl

theorem testBit_slice (v lo w i : Nat) : (slice v lo w).testBit i = (decide (i < w) && v.testBit (lo + i)) := by
  rw [slice, Nat.testBit_mod_two_pow, Nat.testBit_div_two_pow, Nat.add_comm]

/-- One byte more is the next byte of the value. -/
theorem xorBytes_succ (n v : Nat) : xorBytes (n + 1) v = xorBytes n v ^^^ slice v (8 * n) 8 := by
  induction n generalizing v with
  | zero => simp [xorBytes, slice]
  | succ n ih =>
    have hnext : slice (v / 256) (8 * n) 8 = slice v (8 * (n + 1)) 8 := by
      rw [slice, slice, Nat.div_div_eq_div_mul, Nat.mul_succ, Nat.pow_add, Nat.mul_comm]
    calc xorBytes (n + 2) v = v % 256 ^^^ xorBytes (n + 1) (v / 256) := rfl
      _ = v % 256 ^^^ (xorBytes n (v / 256) ^^^ slice v (8 * (n + 1)) 8) := by rw [ih, hnext]
      _ = xorBytes (n + 1) v ^^^ slice v (8 * (n + 1)) 8 := (Nat.xor_assoc ..).symm

theorem xorBytes_eq_foldl (n v : Nat) : xorBytes n v = (List.range n).foldl (fun p k => p ^^^ slice v (8 * k) 8) 0 := by
  induction n with
  | zero => rfl
  | succ n ih => rw [xorBytes_succ, List.range_succ, List.foldl_append, ← ih, List.foldl_cons, List.foldl_nil]

theorem xorBytes_lt (n v : Nat) : xorBytes n v < 2 ^ 8 := by
  induction n with
  | zero => exact Nat.two_pow_pos 8
  | succ n ih =>
    rw [xorBytes_succ]
    exact Nat.xor_lt_two_pow ih (Nat.mod_lt _ (by decide))

/-- Bit i of the XOR of the bytes is the XOR of their bits i. -/
theorem testBit_xorBytes (n v : Nat) {i : Nat} (hi : i < 8) :
    (xorBytes n v).testBit i = (List.range n).foldl (fun p k => p != bit v (8 * k + i)) false := by
  induction n with
  | zero => exact Nat.zero_testBit i
  | succ n ih =>
    rw [xorBytes_succ, Nat.testBit_xor, testBit_slice, List.range_succ, List.foldl_append, ← ih, List.foldl_cons, List.foldl_nil,
      bit_eq_testBit, decide_eq_true hi, Bool.true_and]

/-- What stands above the bytes makes no difference. -/
theorem xorBytes_add_above (n v p : Nat) : xorBytes n (v + p * 2 ^ (8 * n)) = xorBytes n v := by
  induction n generalizing v with
  | zero => rfl
  | succ n ih =>
    have hassoc : v + p * 2 ^ (8 * (n + 1)) = v + 256 * (p * 2 ^ (8 * n)) := by rw [Nat.mul_succ, Nat.pow_add]; ring
    rw [xorBytes, xorBytes, hassoc, Nat.add_mul_mod_self_left, Nat.add_mul_div_left _ _ (by decide), ih]

/-! ### The syndrome and the groups -/

theorem parityGroup_eq_testBit (v : Nat) {i : Nat} (hi : i < 8) : parityGroup v i = (syndrome v).testBit i :=
  (testBit_xorBytes 64 v hi).symm

/-- A line passes the check of its parity exactly when every group is even (R27, R45). -/
theorem syndrome_eq_zero_iff (v : Nat) : syndrome v = 0 ↔ ∀ i, i < 8 → parityGroup v i = false := by
  constructor
  · intro h i hi
    rw [parityGroup_eq_testBit v hi, h, Nat.zero_testBit]
  · intro h
    refine Nat.eq_of_testBit_eq fun i => ?_
    rw [Nat.zero_testBit]
    by_cases hi : i < 8
    · rw [← parityGroup_eq_testBit v hi, h i hi]
    · exact Nat.testBit_lt_two_pow (Nat.lt_of_lt_of_le (xorBytes_lt 64 v) (Nat.pow_le_pow_right (by decide) (Nat.le_of_not_lt hi)))

/-! ### The sealed line (R26, R27) -/

/-- A line without its parity byte. -/
def Line.bare (l : Line) : Line := { l with lineWord := l.lineWord % 2 ^ 24 }

section
variable {l : Line}

theorem Line.sealed_lineWord : l.sealed.lineWord = l.bare.lineWord + parityOf l.bare.toNat * 2 ^ 24 := rfl

theorem Line.sealed_slots : l.sealed.slots = l.slots := by rw [sealed]

/-- The parity byte stands above the other 63. -/
theorem Line.sealed_toNat : l.sealed.toNat = l.bare.toNat + parityOf l.bare.toNat * 2 ^ (8 * 63) := by
  rw [toNat, sealed_lineWord, Nat.add_mul, ← Nat.add_assoc, Nat.mul_assoc, ← Nat.pow_add]
  rfl

theorem Line.bare_toNat_lt (h : ∀ n, l.slots.getD n 0 < 2 ^ 96) : l.bare.toNat < 2 ^ (8 * 63) := by
  have hword : l.bare.lineWord < 2 ^ 24 := Nat.mod_lt _ (by decide)
  have h0 := h 0
  have h1 := h 1
  have h2 := h 2
  have h3 := h 3
  have h4 := h 4
  simp only [toNat, bare] at hword ⊢
  omega

/-- The parity byte is the XOR of the other 63. -/
theorem Line.sealed_parity (h : ∀ n, l.slots.getD n 0 < 2 ^ 96) : slice l.sealed.toNat (8 * 63) 8 = xorBytes 63 l.sealed.toNat := by
  have hbyte : parityOf l.bare.toNat < 2 ^ 8 := xorBytes_lt 63 _
  rw [sealed_toNat, xorBytes_add_above, slice, Nat.add_mul_div_right _ _ (Nat.two_pow_pos _), Nat.div_eq_of_lt (bare_toNat_lt h),
    Nat.zero_add, Nat.mod_eq_of_lt hbyte, parityOf]

theorem Line.sealed_syndrome (h : ∀ n, l.slots.getD n 0 < 2 ^ 96) : syndrome l.sealed.toNat = 0 := by
  rw [syndrome, xorBytes_succ, sealed_parity h, Nat.xor_self]

end

/-- Settles O50: the sealed line by its syndrome, and the check by the bits of a syndrome. -/
theorem lineParityIsEven : Obligations.LineParityIsEven := by
  refine ⟨fun l h => ⟨(syndrome_eq_zero_iff _).mp (Line.sealed_syndrome h), ?byte, Line.sealed_slots, ?word⟩, fun v _ => syndrome_eq_zero_iff v⟩
  case byte => exact (Line.sealed_parity h).trans (xorBytes_eq_foldl 63 _)
  case word =>
    rw [Line.sealed_lineWord, Nat.add_mul_mod_self_right]
    exact Nat.mod_mod _ _

end Sys2Proof
end

section
/-! PROOFS. The issue turn of a context (R25 to R32, R45, R46, R271, R404): what a step does of it. -/
namespace Sys2Proof.Machine

/-! ### The line kept at an issue (R29) -/

section
variable {s : State} {c k : Nat}

theorem run9_modCtx (f : Ctx → Ctx) : ((s.modCtx c k f).cell c).run9 = (s.cell c).run9 := by
  rw [State.modCtx, State.cell_modCell_same, Cell.setCtx]

theorem run8_modCtx (f : Ctx → Ctx) : ((s.modCtx c k f).cell c).run8 = (s.cell c).run8 := by
  rw [State.modCtx, State.cell_modCell_same, Cell.setCtx]

variable (hk : k < 10) (v : Nat)
include hk

theorem ctxTask_keepLine : (s.keepLine c k v).ctxTask c k = s.ctxTask c k := by
  simp only [State.ctxTask, State.keepLine, run9_modCtx, run8_modCtx, State.ctxAt_modCtx_same _ _ _ _ hk]

/-- The line kept changes neither the PC nor the breakpoint that the debugger goes on from. -/
theorem steppedWord_keepLine (hcur : s.cur = { cell := c, ctx := k, k := 0 }) :
    (s.keepLine c k v).me.pc = s.me.pc ∧ (s.keepLine c k v).steppedWord = s.steppedWord := by
  have hcur' : (s.keepLine c k v).cur = { cell := c, ctx := k, k := 0 } := hcur
  have hpc : (s.keepLine c k v).me.pc = s.me.pc := by
    rw [State.me, State.me, hcur', hcur, State.keepLine, State.ctxAt_modCtx_same _ _ _ _ hk]
  have hbreak : ∀ pc, (s.keepLine c k v).breakAt c pc = s.breakAt c pc := fun _ => rfl
  refine ⟨hpc, ?_⟩
  simp only [State.steppedWord, hpc, hcur', hcur, ctxTask_keepLine hk, hbreak]
  rfl

end

/-! ### A turn that comes to its instruction -/

/-- A context with nothing pending, whose line passes its checks, issues from the line. -/
theorem issueTurn_issues {s : State} {c k v : Nat} (hcur : s.cur = { cell := c, ctx := k, k := 0 }) (hk : k < 10)
    (hcan : s.me.canIssue = true) (hasync : s.me.asyncs = []) (hbudget : s.budgetDue c k = false) (hline : s.lineFor c k = some v)
    (htrap : lineTrap s.me.pc v = none) :
    issueTurn c k s = issueCharged c k ((s.keepLine c k v).tenantOf ((s.keepLine c k v).ctxRegion c k)) (issueSlot v (s.keepLine c k v)) := by
  have hself : { s with cur := { cell := c, ctx := k, k := 0 } } = s := by rw [← hcur]
  have hissues : (!s.me.canIssue || decide (10 ≤ k)) = false := by simp [hcan, hk]
  simp only [issueTurn, hself, hissues, hasync, hbudget, hline, htrap, Bool.false_eq_true, if_false, ne_eq, not_true_eq_false]

/-- A step whose turn is the agenda's issue is that issue, and then time passes. -/
theorem step_of_issue {s : State} {c k : Nat} {ts : List Turn} (h : s.agenda = .issue c k :: ts) :
    step s = match issueTurn c k { s with agenda := ts, cur := { cell := c, ctx := k, k := 0 } } with
      | .next t => .next t.elapse
      | o => o := by
  simp only [step, State.nextTurn, h]
  show (match issueTurn c k { s with agenda := ts, cur := { cell := c, ctx := k, k := 0 } } with
    | .next t => _
    | .fault r => _
    | .refused r => _) = _
  cases issueTurn c k { s with agenda := ts, cur := { cell := c, ctx := k, k := 0 } } <;> rfl

section
variable {s : State} {v : Nat}

theorem issueWord_of_decode {w : Nat} {i : Instr} (h : decode w = .ok i) : issueWord w s = exec i s := by rw [issueWord, h]

/-- A slot that no pair begins at holds one instruction. -/
theorem issueSlot_single {i : Instr} (hstep : s.steppedWord = none) (hpair : (Line.ofNat v).pair (slotOf s.me.pc) = false)
    (hi : decode ((Line.ofNat v).slot (slotOf s.me.pc)) = .ok i) : issueSlot v s = exec i s := by
  simp only [issueSlot, hstep, hpair, issueWord_of_decode hi, Bool.false_eq_true, if_false]

/-- The second of a pair executes behind the first, where that has gone on to it. -/
theorem issueSlot_pair {i j : Instr} {t z : State} (hstep : s.steppedWord = none)
    (hpair : (Line.ofNat v).pair (slotOf s.me.pc) = true) (hi : decode ((Line.ofNat v).slot (slotOf s.me.pc)) = .ok i)
    (hj : decode ((Line.ofNat v).slot (slotOf s.me.pc + 1)) = .ok j) (ht : exec i s = .next t) (hmoved : t.me.movedOn s.me.pc = true)
    (hz : exec j t = .next z) (hstalled : z.me.stalled = false) : issueSlot v s = .next z := by
  simp only [issueSlot, hstep, hpair, issuePair, issueWord_of_decode hi, issueWord_of_decode hj, ht, hmoved, hz, hstalled,
    Bool.false_eq_true, if_true, if_false]

/-- At a breakpoint that the debugger goes on from, the instruction that stood there issues (R404). -/
theorem issueSlot_stepped {i : Instr} {b : Nat} (hstep : s.steppedWord = some b) (hi : decode b = .ok i) :
    issueSlot v s = match exec i s with
      | .next t => .next (t.stepped s.cur.cell s.cur.ctx)
      | o => o := by
  simp only [issueSlot, hstep, issueWord_of_decode hi] <;> rfl

end

/-- Settles O51: the step of an issue, with the slot's instruction, its pair, or the one under a breakpoint. -/
theorem stepExecutesTheDecodedInstruction : Obligations.StepExecutesTheDecodedInstruction := by
  intro s c k v ts i u w l n charged hagenda hk hcan hasync hbudget hline htrap
  obtain ⟨hpc, hstepped⟩ := steppedWord_keepLine (s := u) hk v rfl
  have hturn := issueTurn_issues (s := u) rfl hk hcan hasync hbudget hline htrap
  have hstep : step s = match issueCharged c k (w.tenantOf (w.ctxRegion c k)) (issueSlot v w) with
      | .next t => .next t.elapse
      | o => o := by
    rw [step_of_issue hagenda, hturn]
  rw [hstep]
  refine ⟨fun hnone hi => ⟨fun hpair => ?single, fun j t z hpair hj ht hmoved hz hstalled => ?pair⟩, fun b hb hi => ?stepped⟩
  case single =>
    rw [issueSlot_single (hstepped.trans hnone) (by rw [hpc]; exact hpair) (by rw [hpc]; exact hi)]
    cases exec i w <;> rfl
  case pair =>
    rw [issueSlot_pair (hstepped.trans hnone) (by rw [hpc]; exact hpair) (by rw [hpc]; exact hi) (by rw [hpc]; exact hj) ht
      (by rw [hpc]; exact hmoved) hz hstalled]
    rfl
  case stepped =>
    rw [issueSlot_stepped (hstepped.trans hb) hi]
    cases exec i w <;> rfl

/-! ### The charge of an illegal word -/

/-- Context 0 of cell 0 stands at the word 0, which is no instruction (R45), in a line that passes its checks. -/
def atNoInstruction : State := { State.reset.withFetchWord 96 0 with cur := { cell := 0, ctx := 0, k := 0 } }

/-- The counters of cell 0 after an outcome. -/
def deficitsAfter (o : Host.Outcome State Fault Refusal) : Option (Assoc (List Int)) :=
  match o with
  | .next t => some (t.cell 0).deficits
  | _ => none

/-- Refutes O52: its last clause has the turn end in the trap's own state, but the model charges the tenant one issue for the illegal
word too, since the trap leaves no stall behind (R271). In `atNoInstruction` no tenant has a counter on cell 0 before the turn or after
the trap alone; after the turn tenant 1 has one. -/
theorem not_issueChecksComeInOrder : ¬ Obligations.IssueChecksComeInOrder := by
  intro h
  obtain ⟨-, -, hchecks⟩ := h atNoInstruction 0 0 rfl (by decide) (by decide +kernel)
  obtain ⟨-, hline⟩ := hchecks (by decide +kernel) (by decide +kernel)
  obtain ⟨-, -, hword⟩ := hline (lineOfWord 0) (by decide +kernel)
  have hturn := hword (by decide +kernel) (by decide +kernel) (by decide +kernel) (by decide +kernel) .unassigned (by decide +kernel)
  have hcharged : deficitsAfter (issueTurn 0 0 atNoInstruction) ≠ some [] := by decide +kernel
  exact hcharged (by rw [hturn]; decide +kernel)

end Sys2Proof.Machine
end

section
/-! PROOFS. Bytes written under a key (R201, R232): what they read as under it and under another, and what a write leaves alone. -/
namespace Sys2Proof.Machine

section
variable {s : State} {tag : Nat × Nat} {a k : Nat} {bs : List Byte}

theorem wf_writeUnder (hwf : Memory.wf s.mem = true) : Memory.wf (s.writeUnder tag a bs).mem = true := by
  rw [State.writeUnder]
  split
  · exact Memory.wf_writeAll _ _ (State.retags_spec tag _ s hwf).1
  · exact Memory.wf_writeAll _ _ hwf

/-- A unit takes the tag of a write that touches it (R232). -/
theorem tagOf_writeUnder (hwf : Memory.wf s.mem = true) (hvault : isVault a = true) (u : Nat) :
    (s.writeUnder tag a bs).tagOf u = if u ∈ unitsOf a bs.length then tag else s.tagOf u := by
  obtain ⟨-, -, htags, -⟩ := State.retags_spec tag (unitsOf a bs.length) s hwf
  rw [State.writeUnder, if_pos hvault]
  exact htags u

theorem readByte_writeUnder (hwf : Memory.wf s.mem = true) (hlo : a ≤ k) (hhi : k < a + bs.length) :
    (s.writeUnder tag a bs).readByte k = bs.getD (k - a) 0 := by
  rw [State.writeUnder]
  split
  · exact (Memory.read_writeAll a k bs (State.retags_spec tag _ s hwf).1).trans (if_pos ⟨hlo, hhi⟩)
  · exact (Memory.read_writeAll a k bs hwf).trans (if_pos ⟨hlo, hhi⟩)

/-- A byte of a write within the vaults is a vault byte. -/
theorem isVault_of_mem (hend : a + bs.length ≤ 2 ^ 40) (hhi : k < a + bs.length) : isVault k = true :=
  decide_eq_true (Nat.lt_of_lt_of_le hhi hend)

variable (hend : a + bs.length ≤ 2 ^ 40) (hlo : a ≤ k) (hhi : k < a + bs.length)
include hend hlo hhi

theorem tagOf_written (hwf : Memory.wf s.mem = true) : (s.writeUnder tag a bs).tagOf (k / 64) = tag := by
  rw [tagOf_writeUnder hwf (decide_eq_true (by omega)), if_pos ((mem_unitsOf ..).mpr ⟨k, hlo, hhi, rfl⟩)]

/-- Under the key that it was written under a byte reads as written. -/
theorem vaultByte_written (hwf : Memory.wf s.mem = true) : (s.writeUnder tag a bs).vaultByte tag k = bs.getD (k - a) 0 := by
  rw [State.vaultByte, if_pos (tagOf_written hend hlo hhi hwf), readByte_writeUnder hwf hlo hhi]

/-- Under another key it reads as an unrelated byte. -/
theorem vaultByte_foreign (hwf : Memory.wf s.mem = true) {other : Nat × Nat} (hother : other ≠ tag) :
    (s.writeUnder tag a bs).vaultByte other k =
      Config.foreignByte tag other ((s.writeUnder tag a bs).unitPlain (k / 64)) k := by
  have htag : (s.writeUnder tag a bs).tagOf (k / 64) = tag := tagOf_written hend hlo hhi hwf
  rw [State.vaultByte, htag, if_neg hother.symm]

end

theorem readUnder_writeUnder {s : State} {tag : Nat × Nat} {a : Nat} {bs : List Byte} (hwf : Memory.wf s.mem = true)
    (hend : a + bs.length ≤ 2 ^ 40) : (s.writeUnder tag a bs).readUnder tag a bs.length = bs := by
  cases bs with
  | nil => simp [State.readUnder, State.readBytes]
  | cons b bs =>
    rw [State.readUnder, if_pos (isVault_of_mem hend (by simp))]
    refine List.ext_getElem (by simp) fun n hn _ => ?_
    have hlen : n < (b :: bs).length := by simpa using hn
    rw [List.getElem_map, List.getElem_range, vaultByte_written hend (Nat.le_add_right a n) (by omega) hwf, Nat.add_sub_cancel_left]
    exact List.getD_eq_getElem _ _ hlen

/-- Settles O59: the written bytes by the tags and bytes of the write, the others by what a write leaves alone. -/
theorem bytesReadAsWrittenUnderTheirKey : Obligations.BytesReadAsWrittenUnderTheirKey := by
  intro s tag a bs hwf hend t
  refine ⟨readUnder_writeUnder hwf hend, fun k hk => ?others, fun k hlo hhi => tagOf_written hend hlo hhi hwf,
    fun other k hlo hhi hother => ?foreign, wf_writeUnder hwf⟩
  case others =>
    have hholds : HoldsByte k (s.readByte k) (s.tagOf (k / 64)) s := ⟨hwf, rfl, rfl⟩
    have hout : k < a ∨ a + bs.length ≤ k := by
      by_contra hin
      exact hk ((mem_unitsOf ..).mpr ⟨k, by omega, by omega, rfl⟩)
    obtain ⟨-, hbyte, htag⟩ := hholds.writeUnder (key := tag) hout fun hunit => absurd hunit hk
    exact ⟨hbyte, htag⟩
  case foreign =>
    rw [State.readUnder, if_pos (isVault_of_mem hend hhi)]
    exact congrArg (fun b => [b]) (vaultByte_foreign hend hlo hhi hwf hother)

end Sys2Proof.Machine
end

section
/-! PROOFS. The scheduler's events (R29, R243, R247, R248, R271, R273, R275, R276): fetch queues, dispatch and placers. -/
namespace Sys2Proof.Machine

/-! ### Fetch queues (R29) -/

theorem fetchQueuesFillAhead : FetchQueuesFillAhead := by
  intro s c i x a hcan hctx hroom
  have hfills : ¬ (!x.canIssue || decide (10 ≤ i) || decide (4 ≤ x.fetchq.length)) = true := by simp [hcan, hctx, hroom]
  have hasks : exec .fetchQueueFill s = match s.fetchLine (s.ctxRegion c i) c (word a) with
      | none => event s
      | some v => event (s.modCtx c i fun y => { y with fetchq := Assoc.put a v y.fetchq }) := if_neg hfills
  rw [hasks]
  exact ⟨fun v hv => by rw [hv]; rfl, fun hnone => by rw [hnone]; rfl⟩

/-! ### Dispatch (R243, R247, R248, R271) -/

/-- The state after the rings of a cell have taken back what their images hold, and then the events that wait for a place. -/
def State.refilled (s : State) (c : Nat) : State :=
  ((((s.clearHalts c).cell c).rings.map (·.1)).foldl (fun s t => s.refillRing c t) (s.clearHalts c)).lateIn c

section
variable {s u : State} {c t : Nat} {r : Rec} (hu : s.refilled s.cur.cell = u) (hc : s.cur.cell = c)
include hu hc

theorem dispatch_discards {k : Nat} (h : u.removable c = some (t, r, .remove k)) :
    exec .dispatch s = .next ((u.popRing c t).discardRecord c r k) := by
  subst hu hc
  rw [State.refilled] at h
  simp only [exec_dispatch, execDispatch, h, event, State.refilled]

theorem dispatch_sends (h : u.removable c = some (t, r, .toPlacer)) :
    exec .dispatch s = .next ((u.popRing c t).send (.cell c) (.placer (c / 240)) (.place r)) := by
  subst hu hc
  rw [State.refilled] at h
  simp only [exec_dispatch, execDispatch, h, event, State.refilled]

variable (hnone : u.removable c = none)
include hnone

/-- A cell starts a task at most once every four cycles. -/
theorem dispatch_waits (hsoon : (decide ((u.cell c).dispCount ≠ 0) && decide (u.clock < (u.cell c).lastDispatch + 4)) = true) :
    exec .dispatch s = .next u := by
  subst hu hc
  rw [State.refilled] at hnone hsoon
  simp only [exec_dispatch, execDispatch, hnone, hsoon, if_true, event, State.refilled]

theorem dispatch_starts {w : State} {ty : TaskType} {p : TaskPlace}
    (hsoon : (decide ((u.cell c).dispCount ≠ 0) && decide (u.clock < (u.cell c).lastDispatch + 4)) = false)
    (hchosen : u.chooseTenant c .dispatch (u.startable c) = some (t, w)) (hhead : w.ringHead c t = some r)
    (hstart : w.judge c t r = .start ty p) :
    exec .dispatch s = .next (((w.spend c t .dispatch 1).popRing c t).startTask c t r ty p 0 none) := by
  subst hu hc
  rw [State.refilled] at hnone hsoon hchosen
  simp only [exec_dispatch, execDispatch, hnone, hsoon, hchosen, hhead, hstart, Bool.false_eq_true, if_false, event]

end

theorem ringsDispatchTheirHeads : RingsDispatchTheirHeads := fun s =>
  ⟨fun _ _ _ h => dispatch_discards (s := s) rfl rfl h, fun _ _ h => dispatch_sends (s := s) rfl rfl h,
   fun hnone hsoon => dispatch_waits (s := s) rfl rfl hnone hsoon,
   fun _ _ _ _ _ hnone hsoon hchosen hhead hstart => dispatch_starts (s := s) rfl rfl hnone hsoon hchosen hhead hstart⟩

/-! ### Placers (R243, R273, R275, R276) -/

section
variable {s : State} {src : Place}

theorem readyRecord_joinsRing {c t : Nat} {r : Rec} (h : s.brings src (.cell c) (.ready r t)) :
    exec .readyRecordArrival s = .next (if ((s.land s.cur.k).region (headRegion r.head)).isSome then
      (s.land s.cur.k).pushRecord c t r else s.land s.cur.k) := by
  rw [State.brings] at h
  simp only [exec_readyRecordArrival, execReadyRecordArrival, h, event]
  cases (s.land s.cur.k).region (headRegion r.head) <;> rfl

/-- The state with a record behind those of a placer's queue, from now on. -/
def State.queuesPlace (s : State) (d : Nat) (r : Rec) : State :=
  { s with placers := Assoc.put d (s.placers.getD d [] ++ [{ record := r, since := s.clock, reserved := none }]) s.placers }

theorem readyRecord_joinsPlacer {d : Nat} {r : Rec} (h : s.brings src (.placer d) (.place r)) :
    exec .readyRecordArrival s = .next (if ((s.land s.cur.k).region (headRegion r.head)).isSome then
      (s.land s.cur.k).queuesPlace d r else s.land s.cur.k) := by
  rw [State.brings] at h
  simp only [exec_readyRecordArrival, execReadyRecordArrival, h, event]
  cases (s.land s.cur.k).region (headRegion r.head) <;> rfl

/-- A placer reserves the candidate of its first aged request, where it holds no reservation yet. -/
theorem placerAging_reserves {d : Nat} {p : PlaceReq} {ty : TaskType} {cs : List Nat}
    (hfree : (s.placers.getD d []).any (·.reserved.isSome) = false) (haged : (s.placers.getD d []).find? s.aged = some p)
    (hty : s.taskType (s.tenantOf (headRegion p.record.head)) (headType p.record.head) = some ty)
    (hcs : s.candidate d (headRegion p.record.head) ty = some cs) :
    exec (.placerAging d) s = .next { s with
      placers := Assoc.put d (modifyFirst s.aged (fun p => { p with reserved := some cs }) (s.placers.getD d [])) s.placers } := by
  simp only [exec_placerAging, execPlacerAging, hfree, haged, hty, Option.bind_some, hcs, Bool.false_eq_true, if_false, event]

theorem preemption_stops {q : PreemptReq} (h : (s.region q.tenant).isSome = true) :
    exec (.preemptionRequest q) s = .next ((q.cells.filter (· ≤ 959)).foldl (fun s c =>
      (s.modCell c fun x => { x with halted := q.tenant :: x.halted.filter (· ≠ q.tenant) }).clearHalts c) s) := by
  have hthere : ¬ (s.region q.tenant).isNone = true := by
    obtain ⟨x, hx⟩ := Option.isSome_iff_exists.mp h
    simp [hx]
  simp only [exec_preemptionRequest, execPreemptionRequest, if_neg hthere, event, List.foldl_filter, decide_eq_true_eq]

end

theorem placersServeTheirQueue : PlacersServeTheirQueue := by
  intro s
  refine ⟨fun _ _ _ _ h => readyRecord_joinsRing h, fun _ _ _ h => readyRecord_joinsPlacer h, fun d t h => ?serves, fun d h => ?rests,
    fun _ _ _ _ hfree haged hty hcs => placerAging_reserves hfree haged hty hcs, fun _ h => preemption_stops h⟩
  case serves => rw [exec_placerDecision, execPlacerDecision, h]; rfl
  case rests => rw [exec_placerDecision, execPlacerDecision, h]; rfl

/-- Settles O35: fetch queues, dispatch, and placers. -/
theorem schedulerEventsActAsStated : Obligations.SchedulerEventsActAsStated :=
  ⟨fetchQueuesFillAhead, ringsDispatchTheirHeads, placersServeTheirQueue⟩

end Sys2Proof.Machine
end
section
/-! PROOFS. What the named operations over the state keep (R48, R398): the agenda, the canonical form of memory, and the number of
measurements. Each lemma takes what holds of the state before an operation to the state after it, so that a chain of operations has
the chain of their lemmas; an operation that writes none of the three is its hypothesis again. -/
namespace Sys2Proof.Machine

/-- What every operation over the state keeps: the agenda, the canonical form of memory, and the number of measurements. -/
def Kept (s t : State) : Prop :=
  t.agenda = s.agenda ∧ t.meas.length = s.meas.length ∧ (Memory.wf s.mem = true → Memory.wf t.mem = true)

/-- Of a state that may be absent: it is kept when it is there. -/
def KeptOpt (s : State) (o : Option State) : Prop := ∀ t, o = some t → Kept s t

/-- Of an instruction's result: it is kept when it did not stop short. -/
def KeptRes (s : State) (r : Res) : Prop := ∀ t, r = .ok t → Kept s t

/-- Of an outcome: it answers with a next state that is kept. -/
def Answers (s : State) (o : Host.Outcome State Fault Refusal) : Prop := ∃ t, o = .next t ∧ Kept s t

/-! ### How the proofs are put together -/

section
variable {s₀ s t u : State} {α : Type}

theorem Kept.refl (s : State) : Kept s s := ⟨rfl, rfl, id⟩

theorem Kept.trans (h : Kept s t) (h' : Kept t u) : Kept s u := by
  obtain ⟨hagenda, hmeas, hwf⟩ := h
  obtain ⟨hagenda', hmeas', hwf'⟩ := h'
  exact ⟨hagenda'.trans hagenda, hmeas'.trans hmeas, hwf' ∘ hwf⟩

theorem Kept.ite {p : Prop} [Decidable p] (h : p → Kept s₀ s) (h' : ¬ p → Kept s₀ t) : Kept s₀ (if p then s else t) := by
  split
  · exact h ‹_›
  · exact h' ‹_›

/-- Both branches of a choice. -/
theorem Kept.both {p : Prop} [Decidable p] (h : Kept s₀ s) (h' : Kept s₀ t) : Kept s₀ (if p then s else t) :=
  Kept.ite (fun _ => h) fun _ => h'

theorem Kept.foldl {f : State → α → State} {as : List α} (h : Kept s₀ s) (hf : ∀ t a, Kept s₀ t → Kept s₀ (f t a)) :
    Kept s₀ (as.foldl f s) :=
  List.foldlRecOn (motive := Kept s₀) as f h fun t ht a _ => hf t a ht

/-- Of an operation that answers something beside the state. -/
theorem Kept.of_fst {p : State × α} {a : α} (hp : p = (t, a)) (h : Kept s₀ p.1) : Kept s₀ t := by
  rw [hp] at h
  exact h

theorem Kept.of_snd {p : α × State} {a : α} (hp : p = (a, t)) (h : Kept s₀ p.2) : Kept s₀ t := by
  rw [hp] at h
  exact h

theorem KeptOpt.absent : KeptOpt s₀ none := nofun

theorem KeptOpt.given (h : Kept s₀ s) : KeptOpt s₀ (some s) := by
  intro t ht
  exact Option.some.inj ht ▸ h

theorem KeptOpt.getD {o : Option State} (ho : KeptOpt s₀ o) (h : Kept s₀ s) : Kept s₀ (o.getD s) := by
  cases o with
  | none => exact h
  | some t => exact ho t rfl

theorem KeptOpt.map {o : Option α} {f : α → State} (hf : ∀ a, o = some a → Kept s₀ (f a)) : KeptOpt s₀ (o.map f) := by
  cases o with
  | none => exact .absent
  | some a => exact .given (hf a rfl)

theorem KeptOpt.bind {o : Option α} {f : α → Option State} (hf : ∀ a, o = some a → KeptOpt s₀ (f a)) : KeptOpt s₀ (o.bind f) := by
  cases o with
  | none => exact .absent
  | some a => exact hf a rfl

theorem KeptOpt.both {p : Prop} [Decidable p] {o o' : Option State} (h : KeptOpt s₀ o) (h' : KeptOpt s₀ o') :
    KeptOpt s₀ (if p then o else o') := by
  split
  · exact h
  · exact h'

theorem KeptRes.ok (h : Kept s₀ s) : KeptRes s₀ (.ok s) := by
  intro t ht
  exact Except.ok.inj ht ▸ h

theorem KeptRes.error (k : Stop) : KeptRes s₀ (.error k) := nofun

theorem KeptRes.trap {k : Nat} {v i : Word} : KeptRes s₀ (Res.trap k v i) := nofun

theorem KeptRes.stall : KeptRes s₀ Res.stall := nofun

theorem KeptRes.bind {x : Except Stop α} {f : α → Res} (hf : ∀ a, x = .ok a → KeptRes s₀ (f a)) : KeptRes s₀ (x >>= f) := by
  cases x with
  | error k => exact .error k
  | ok a => exact hf a rfl

theorem KeptRes.both {p : Prop} [Decidable p] {r r' : Res} (h : KeptRes s₀ r) (h' : KeptRes s₀ r') :
    KeptRes s₀ (if p then r else r') := by
  split
  · exact h
  · exact h'

theorem Answers.next (h : Kept s₀ s) : Answers s₀ (.next s) := ⟨s, rfl, h⟩

theorem Answers.event (h : Kept s₀ s) : Answers s₀ (event s) := ⟨s, rfl, h⟩

theorem Answers.both {p : Prop} [Decidable p] {o o' : Host.Outcome State Fault Refusal} (h : Answers s₀ o) (h' : Answers s₀ o') :
    Answers s₀ (if p then o else o') := by
  split
  · exact h
  · exact h'

end

theorem length_modifyAt {α : Type} (f : α → α) (n : Nat) (xs : List α) : (modifyAt f n xs).length = xs.length := by
  fun_induction modifyAt with
  | case1 => rfl
  | case2 x xs => rfl
  | case3 n x xs ih => exact congrArg (· + 1) ih

/-! ### Cells, contexts, regions and messages -/

section
variable {s₀ s : State} {c i r : Nat}

theorem Kept.modCell {f : Cell → Cell} (h : Kept s₀ s) : Kept s₀ (s.modCell c f) := h
theorem Kept.modCtx {f : Ctx → Ctx} (h : Kept s₀ s) : Kept s₀ (s.modCtx c i f) := h
theorem Kept.modMe {f : Ctx → Ctx} (h : Kept s₀ s) : Kept s₀ (s.modMe f) := h
theorem Kept.modRegion {f : Region → Region} (h : Kept s₀ s) : Kept s₀ (s.modRegion r f) := h
theorem Kept.send {a b : Place} {p : Pay} (h : Kept s₀ s) : Kept s₀ (s.send a b p) := h
theorem Kept.tell {os : List HostMsg} (h : Kept s₀ s) : Kept s₀ { s with hostOut := os } := h

end

/-! ### Memory (R201, R220, R232) -/

section
variable {s₀ s t : State} {tag : Nat × Nat} {bs : List Byte} {a c i r k n off v : Nat}

theorem Kept.writeUnder (h : Kept s₀ s) : Kept s₀ (s.writeUnder tag a bs) := by
  obtain ⟨_, _, _, hmem⟩ := sameButMemory_writeUnder s tag a bs
  have hwf : Memory.wf s.mem = true → Memory.wf (s.writeUnder tag a bs).mem = true := wf_writeUnder
  exact h.trans ⟨by rw [hmem], by rw [hmem], hwf⟩

theorem Kept.mergeUnder (h : Kept s₀ s) : Kept s₀ (s.mergeUnder tag a bs) :=
  Kept.both h.writeUnder (h.foldl fun _ _ h => h.writeUnder)

theorem Kept.writeHome (h : Kept s₀ s) : Kept s₀ (s.writeHome v tag a bs) := Kept.both h h.writeUnder

theorem Kept.spillWrite (h : Kept s₀ s) : Kept s₀ (s.spillWrite c a bs) := h.mergeUnder

theorem Kept.frWrite (h : Kept s₀ s) : Kept s₀ (s.frWrite r c off n v) := by
  rw [State.frWrite]
  split
  · exact h.mergeUnder
  · exact h

theorem Kept.frBump (h : Kept s₀ s) : Kept s₀ (s.frBump r c off k) := h.frWrite

/-! ### Spills, ready rings and events (R243, R244, R369, R412) -/

theorem Kept.charge (h : Kept s₀ s) : KeptOpt s₀ (s.charge r n) := by
  rw [State.charge]
  split
  · exact .absent
  · exact .both (.given h) .absent

theorem Kept.credit (h : Kept s₀ s) : Kept s₀ (s.credit r n) := h

theorem Kept.setImage {rs : List (Rec × Nat)} (h : Kept s₀ s) : KeptOpt s₀ (s.setImage c k rs) := by
  rw [State.setImage]
  dsimp only
  have hcredited (as : List Nat) : Kept s₀ (as.foldl (fun s r => s.credit r 88) s) := h.foldl fun _ _ h => h.credit
  exact .both (.given (hcredited _)) (.map fun a _ => Kept.modCell (Kept.mergeUnder (hcredited _)))

theorem Kept.ringPush {x : Rec} (h : Kept s₀ s) : KeptOpt s₀ (s.ringPush c k x) := by
  rw [State.ringPush]
  split
  · exact .map fun t ht => h.charge t ht
  · exact .both (.given h) (.bind fun t ht => Kept.setImage (h.charge t ht))

theorem Kept.pushEvent {w₁ w₂ w₃ w₄ w₅ : Word} (h : Kept s₀ s) : Kept s₀ (s.pushEvent r c k w₁ w₂ w₃ w₄ w₅) := by
  rw [State.pushEvent]
  split
  · exact Kept.modRegion (h.ringPush.getD h)
  · exact h.frBump

theorem Kept.faultReply {w : Word} (h : Kept s₀ s) : Kept s₀ (s.faultReply c r w v) := Kept.both h h

theorem Kept.spillLost {x : Rec} (h : Kept s₀ s) : Kept s₀ (s.spillLost c x) :=
  Kept.faultReply (Kept.pushEvent h)

theorem Kept.pushRecord {x : Rec} (h : Kept s₀ s) : Kept s₀ (s.pushRecord c k x) := h.ringPush.getD h.spillLost

theorem Kept.post {d : Place} {p : Pay} (h : Kept s₀ s) : Kept s₀ (s.post c d p) := Kept.both h h

/-! ### Pools (R152, R158, R162, R164) -/

theorem Kept.grantPool (h : Kept s₀ s) : Kept s₀ (s.grantPool c k n) := by
  induction n generalizing s with
  | zero => exact h
  | succ n ih =>
    rw [State.grantPool]
    split
    · exact h
    · split
      · exact ih h
      · exact h

theorem Kept.closePool (h : Kept s₀ s) : Kept s₀ (s.closePool c k) := by
  rw [State.closePool]
  split
  · exact h
  · exact .both (Kept.foldl h fun _ _ h => h) h

theorem Kept.settle (h : Kept s₀ s) : Kept s₀ (s.settle c) := Kept.foldl h fun _ _ h => h.grantPool.closePool

/-! ### Barriers (R342) -/

theorem Kept.wakeBarrier {b : BarInst} {all : Bool} (h : Kept s₀ s) : Kept s₀ (s.wakeBarrier k b all) := h.foldl fun _ _ h => h

theorem Kept.setBar {b : BarInst} (h : Kept s₀ s) : Kept s₀ (s.setBar k b) := Kept.wakeBarrier h

/-! ### Ends of tasks and kills (R285, R288, R341, R366) -/

theorem Kept.unbindPort {p : PortSlot} (h : Kept s₀ s) : Kept s₀ (s.unbindPort c i k p) := Kept.both h h

theorem Kept.unbindAll (h : Kept s₀ s) : Kept s₀ (s.unbindAll c i) := by
  refine (Kept.foldl h fun t x ht => ?_ :)
  split
  · exact ht
  · exact ht.unbindPort

theorem Kept.depart {x : Task} (h : Kept s₀ s) : Kept s₀ (s.depart c x) := by
  rw [State.depart]
  split
  · exact h
  · split
    · exact h
    · refine .both ?_ h
      split
      · exact Kept.wakeBarrier h
      · exact h

theorem Kept.endTask (h : Kept s₀ s) : Kept s₀ (s.endTask c i) := by
  rw [State.endTask]
  split
  · exact h
  · exact (h.unbindAll.depart :)

theorem Kept.cancelWaits (h : Kept s₀ s) : Kept s₀ (s.cancelWaits c i) := by
  rw [State.cancelWaits]
  split
  · exact h.foldl fun _ _ h => h.post
  · exact h
  · exact h
  · exact h

theorem Kept.killRecord {p w e l : Word} {x : TrapInfo} {sg wd : Nat} (h : Kept s₀ s) :
    Kept s₀ (s.killRecord r c p w e x sg wd l).1 := by
  have hwritten (ws : List (Nat × Nat)) : Kept s₀ (ws.foldl (fun s x => s.frWrite r c
      (0x100 + 64 * s.frRead r c 0x40 4 + 8 * x.2) 8 x.1) s) := h.foldl fun _ _ h => h.frWrite
  refine Kept.frWrite (Kept.both (Kept.frBump ?_) ?_)
  all_goals exact Kept.frBump (Kept.frBump (h.foldl fun _ _ h => h.frWrite))

theorem Kept.kill {o : Nat} {asy : Bool} {e : Word} {x : TrapInfo} (h : Kept s₀ s) : Kept s₀ (s.kill c i o asy e x) := by
  rw [State.kill]
  have hended : Kept s₀ (((s.cancelWaits c i).withdrawOps c (s.ctxTask c i)).settle c) := Kept.settle h.cancelWaits
  split
  next u off hrec =>
    have hu : Kept s₀ u := .of_fst hrec (Kept.killRecord (Kept.modCell (Kept.modCell hended)))
    refine .both ?handler (Kept.pushEvent hu.endTask)
    case handler =>
      have htold {m : Word} : Kept s₀ (((u.endRun8 c).frBump (s.ctxRegion c i) c 0x18 1).pushEvent (s.ctxRegion c i) c 1 0 m x.val
          x.info (word off)) :=
        Kept.pushEvent (Kept.frBump hu)
      exact .both htold.pushEvent htold

theorem Kept.endRun9 (h : Kept s₀ s) : Kept s₀ (s.endRun9 c) := h

/-! ### Exceptions, freezes and asynchronous traps (R356 to R361, R370, R375) -/

theorem Kept.trapIn9 {x : TrapInfo} (h : Kept s₀ s) : Kept s₀ (s.trapIn9 c x) := by
  rw [State.trapIn9]
  split
  · exact h
  · exact .both (Kept.kill h) h

theorem Kept.takeTrap {x : TrapInfo} (h : Kept s₀ s) : Kept s₀ (s.takeTrap c i x) := Kept.both h.trapIn9 h

theorem Kept.addAsync {w : Word} {x : TrapInfo} {e : Option Nat} (h : Kept s₀ s) : Kept s₀ (s.addAsync c i r w x e) :=
  Kept.both h h.pushEvent

theorem Kept.freezeCtx {o : FrzOrigin} (h : Kept s₀ s) : Kept s₀ (s.freezeCtx c i o r) :=
  Kept.modCtx (Kept.both h (Kept.both h h))

theorem Kept.freezeRegion {o : FrzOrigin} (h : Kept s₀ s) : Kept s₀ (s.freezeRegion c r o) :=
  Kept.tell (Kept.modCell (h.foldl fun _ _ h => Kept.both h.freezeCtx h))

theorem Kept.takeFreeze {o : FrzOrigin} {x : TrapInfo} (h : Kept s₀ s) : Kept s₀ (s.takeFreeze c i o x) :=
  Kept.freezeRegion (Kept.freezeCtx h)

theorem Kept.enterTrap (h : Kept s₀ s) : Kept s₀ (s.enterTrap c) := by
  rw [State.enterTrap]
  split
  · extract_lets s₁ tenant fail
    have hfail : Kept s₀ fail := .both (Kept.kill h) h
    split
    · exact .both hfail h
    · exact hfail
  · exact h

theorem Kept.resume {w : Word} (h : Kept s₀ s) : Kept s₀ (s.resume c i w) := by
  rw [State.resume]
  split
  · exact Kept.takeTrap h
  · exact h

theorem Kept.returnFrom9 (h : Kept s₀ s) : Kept s₀ (s.returnFrom9 c) := by
  rw [State.returnFrom9]
  split
  · exact h
  · exact .both (Kept.resume h) h

/-! ### The measured configuration (R393) -/

theorem Kept.remeasure (h : Kept s₀ s) : Kept s₀ s.remeasure := by
  obtain ⟨hagenda, hmeas, hwf⟩ := h
  exact ⟨hagenda, (length_modifyAt ..).trans hmeas, hwf⟩

theorem Kept.setKey {x : KeySlot} (h : Kept s₀ s) : Kept s₀ (s.setKey k x) := Kept.remeasure h

/-! ### Issuing an instruction, and the debugger (R34, R45, R376, R404) -/

theorem Kept.finish {x : Res} (h : Kept s₀ s) (hx : KeptRes s₀ x) : Kept s₀ (finish s x) := by
  match x with
  | .ok t => exact hx t rfl
  | .error .stall => exact h
  | .error (.trap _) => exact h.takeTrap
  | .error (.freeze _ _) => exact h.takeFreeze

theorem KeptRes.update {f : Ctx → Ctx} (h : Kept s₀ s) : KeptRes s₀ (s.update f) := .ok h

theorem KeptRes.wsChecked {d : SReg} {w : Word} (h : Kept s₀ s) : KeptRes s₀ (s.wsChecked d w) := .both .trap (.update h)

theorem Kept.setSlot {w lw : Nat} (h : Kept s₀ s) : Kept s₀ (s.setSlot c a k w lw) := Kept.modCell h.writeUnder

theorem Kept.plantBreak {code : BitVec 32} (h : Kept s₀ s) : Kept s₀ (s.plantBreak c k code) := Kept.both h (Kept.setSlot h)

theorem Kept.pullBreak (h : Kept s₀ s) : Kept s₀ (s.pullBreak c k) := by
  rw [State.pullBreak]
  split
  · exact h
  · exact Kept.setSlot h

theorem Kept.contBreak (h : Kept s₀ s) : Kept s₀ (s.contBreak c) := by
  rw [State.contBreak]
  split
  · exact h
  · exact .both (Kept.returnFrom9 h) h

theorem Kept.stepped (h : Kept s₀ s) : Kept s₀ (s.stepped c i) := Kept.both h h

end

end Sys2Proof.Machine
end

section
/-! PROOFS. What accesses, copies that fault and the memory instructions keep (R155, R161, R193, R206, R228, R231, R363, R389). -/
namespace Sys2Proof.Machine

/-! ### The scalar instructions (R74, R76, R89, R92) -/

section
variable {s₀ s t : State} {a c i r k n v : Nat} {bs : List Byte} {x : Acc} {tr : TrapInfo}

theorem KeptRes.branchTo {pc : Word} {f : Ctx → Ctx} (h : Kept s₀ s) : KeptRes s₀ (s.branchTo pc f) := by
  rw [State.branchTo]
  split
  · exact .error _
  · exact .ok h

theorem Kept.wrSys {m : SysReg} {w : Word} (h : Kept s₀ s) : Kept s₀ (s.wrSys m w) := by
  cases m <;> exact h

/-! ### Tiles, translation and channels (R155, R228, R229, R389) -/

theorem Kept.tileEvent {q : Nat × Nat} {ev : TileEv} {b : Bool} (h : Kept s₀ s) : Kept s₀ (s.tileEvent c q ev b i k).1 := by
  rw [State.tileEvent]
  split
  · exact h
  · exact Kept.settle h

theorem Kept.modStation {f : Station → Station} (h : Kept s₀ s) : Kept s₀ (s.modStation k f) := h

theorem Kept.cacheLeaf {l : Leaf} (h : Kept s₀ s) : Kept s₀ (s.cacheLeaf k l) := h

theorem Kept.translateNow (h : Kept s₀ s) : Kept s₀ (s.translateNow x n).1 := by
  induction n generalizing s with
  | zero => exact h
  | succ n ih =>
    rw [State.translateNow]
    split
    · split
      · exact h
      · exact ih h.cacheLeaf
    · exact h

theorem Kept.writeDescriptor {ch : Channel} (h : Kept s₀ s) : Kept s₀ (s.writeDescriptor v k ch) := by
  rw [State.writeDescriptor]
  split
  · exact h.writeUnder
  · exact h

theorem Kept.setChan {ch : Channel} (h : Kept s₀ s) : Kept s₀ (s.setChan v k ch) := Kept.writeDescriptor h

/-! ### Accesses (R167, R363) -/

theorem Kept.writeBytes (h : Kept s₀ s) : Kept s₀ (s.writeBytes a bs) := h.trans ⟨rfl, rfl, Memory.wf_writeAll _ _⟩

theorem Kept.writeLocal {sp : Space} (h : Kept s₀ s) : Kept s₀ (s.writeLocal c sp a bs) := by
  have hbytes {b : Nat} : Kept s₀ (s.writeBytes b bs) := h.writeBytes
  cases sp with
  | vlt => exact h.foldl fun _ _ h => h.writeUnder
  | loc => exact hbytes
  | acc => exact hbytes
  | peer => exact hbytes
  | glb => exact hbytes

theorem Kept.freeEntry (h : Kept s₀ s) : Kept s₀ (s.freeEntry x) := by
  rw [State.freeEntry]
  split
  · exact h
  · split
    · exact h
    · exact .both h h

theorem Kept.fillDest {bss : List (List Byte)} (h : Kept s₀ s) : Kept s₀ (s.fillDest x bss) :=
  Kept.both h.freeEntry h.freeEntry

theorem Kept.wake {w : Word} {m : Wait} (h : Kept s₀ s) : Kept s₀ (s.wake c i w m) := Kept.both h h

theorem Kept.ringNotice {e : REntry} (h : Kept s₀ s) : Kept s₀ (s.ringNotice c i e tr) := h

theorem Kept.ringPut {e : REntry} {b : Bool} (h : Kept s₀ s) : Kept s₀ (s.ringPut c e tr b) := by
  rw [State.ringPut]
  split
  · exact h
  · exact .both (Kept.addAsync h) h

theorem Kept.ringAdd {e : REntry} {b : Bool} (h : Kept s₀ s) : Kept s₀ (s.ringAdd c e tr b) :=
  .both h.trapIn9 (.both h.ringPut h)

theorem Kept.faultAcc {w : Word} (h : Kept s₀ s) : Kept s₀ (s.faultAcc x w tr) :=
  .both h.ringAdd (.both h.freeEntry h.freeEntry.pushEvent)

theorem Kept.faultMem (h : Kept s₀ s) : Kept s₀ (s.faultMem x k) := h.faultAcc

theorem Kept.lateAcc (h : Kept s₀ s) : Kept s₀ (s.lateAcc x tr) :=
  .both (Kept.modCtx h.freeEntry) (.both h.freeEntry h.freeEntry.pushEvent)

/-! ### Copies that fault after issue (R183, R193) -/

theorem Kept.dropSb (h : Kept s₀ s) : Kept s₀ (s.dropSb c k) := Kept.settle h

theorem Kept.creditChunk {y : Chunk} (h : Kept s₀ s) : Kept s₀ (s.creditChunk y) := by
  rw [State.creditChunk]
  split
  · exact h
  · exact h

theorem Kept.cells {xs : Assoc Cell} (h : Kept s₀ s) : Kept s₀ { s with cells := xs } := h

theorem Kept.purgeCopy (h : Kept s₀ s) : Kept s₀ (s.purgeCopy c k n) :=
  Kept.cells (Kept.foldl h fun _ _ h => h.creditChunk)

theorem Kept.dropCopy {o : CopyOp} (h : Kept s₀ s) : Kept s₀ (s.dropCopy c o) := Kept.dropSb h

theorem Kept.abandonCopy (h : Kept s₀ s) : Kept s₀ (s.abandonCopy c k n tr) := by
  rw [State.abandonCopy]
  split
  · exact h
  · exact h.purgeCopy.dropCopy.addAsync

theorem Kept.copyFault (h : Kept s₀ s) : Kept s₀ (s.copyFault c k n tr) := by
  rw [State.copyFault]
  split
  · exact h
  · exact .both h.purgeCopy.dropCopy.trapIn9 (.both (Kept.ringAdd (Kept.modCell h.purgeCopy)) h.purgeCopy.dropCopy.pushEvent)

theorem Kept.copyFreeze (h : Kept s₀ s) : Kept s₀ (s.copyFreeze c k n tr) := by
  rw [State.copyFreeze]
  split
  · exact h
  · exact .both h.purgeCopy.dropCopy.takeFreeze h.freezeRegion.copyFault

/-! ### The memory instructions (R161, R166 to R169) -/

theorem Kept.issuedAcc (h : Kept s₀ s) : Kept s₀ (s.issuedAcc x) := Kept.both h h

theorem Kept.toStation (h : Kept s₀ s) : Kept s₀ (s.toStation x) := Kept.both h.post h

theorem KeptRes.issueGlb (h : Kept s₀ s) : KeptRes s₀ (s.issueGlb x) :=
  .bind fun _ _ => .bind fun _ _ => .ok (Kept.modMe h.toStation)

theorem KeptRes.issuePeer {q : MemReq} (h : Kept s₀ s) : KeptRes s₀ (s.issuePeer q x) := by
  rw [State.issuePeer]
  split
  · exact .trap
  · exact .both (.error _) (.bind fun _ _ => .ok (Kept.issuedAcc h))

theorem Kept.consumeAt {sp : Space} {w : Word} (h : Kept s₀ s) : Kept s₀ (s.consumeAt c sp a n w i k).1 := by
  rw [State.consumeAt]
  split
  · exact h
  · exact h.tileEvent

theorem KeptRes.issueLocal {q : MemReq} (h : Kept s₀ s) : KeptRes s₀ (s.issueLocal q x) := by
  refine .bind fun _ _ => .bind fun _ _ => ?_
  dsimp only
  split
  · exact .ok h.issuedAcc.faultMem
  · refine .both (.ok (Kept.modMe (h.foldl fun _ _ h => h.writeLocal))) (.both ?_ (.ok h))
    split
    · exact .ok h.consumeAt.takeTrap
    · exact .ok (Kept.modMe h.consumeAt)

theorem Kept.publish {q : MemReq} (h : Kept s₀ s) : Kept s₀ (s.publish c q tr) := .both h.consumeAt h

theorem KeptRes.access {q : MemReq} (h : Kept s₀ s) : KeptRes s₀ (s.access q) := by
  rw [State.access]
  split
  · exact .ok h.publish.takeTrap
  · exact .error _
  · refine .bind fun _ _ => ?_
    split
    · exact .issueGlb h
    · exact .issuePeer h
    · exact .issueLocal h

theorem KeptRes.memOp {m : MAddr} {wr cons acq rel : Bool} {ty : Ty} {sc : Scope} (h : Kept s₀ s) :
    KeptRes s₀ (s.memOp m wr cons n a bs k ty acq rel sc) :=
  .bind fun _ _ => .access h

end

end Sys2Proof.Machine
end

section
/-! PROOFS. What accesses under way keep (R204 to R207, R213, R228 to R231, R345): at stations, at their homes, at peers, and in the
order S; and what the rows of the memory instructions answer. -/
namespace Sys2Proof.Machine

/-- An instruction that a context issues answers, when its own effect keeps what every operation keeps. -/
theorem Answers.issue {i : Instr} {g : Guard} {allowed : Nat → Bool} {body : State → Res} {s : State} (hs : issuing s = true)
    (hbody : KeptRes s (body s)) : Answers s (issue i g allowed body s) := by
  have hkept := Kept.refl s
  rw [Machine.issue]
  simp only [not_faults_of_issuing hs, Bool.false_eq_true, if_false]
  refine .both (.next hkept.takeTrap) ?_
  split
  · exact .next hkept.takeTrap
  · exact .both (.next hkept) (.both (.next (hkept.finish .stall)) (.next (hkept.finish hbody)))

section
variable {s₀ s : State} {c i k n : Nat} {bs : List Byte} {x : Acc} {tr : TrapInfo}

/-! ### At a station and at a home (R201, R205, R230, R231) -/

theorem Kept.land (h : Kept s₀ s) : Kept s₀ (s.land k) := h

theorem Kept.performWrite (h : Kept s₀ s) : Kept s₀ (s.performWrite x) := h.freeEntry.foldl fun _ _ h => h.writeHome

theorem Kept.deliverFault {w : Word} {b : Bool} (h : Kept s₀ s) : Kept s₀ (s.deliverFault x w tr b) := by
  have hfrozen : Kept s₀ (if s.ctxTask x.cell x.ctx = x.task then s.freezeCtx x.cell x.ctx .key x.region else s) :=
    .both h.freezeCtx h
  rw [State.deliverFault]
  split
  · exact .both h.copyFreeze h.copyFault
  · exact .both h.takeFreeze (.both (Kept.modCell hfrozen.freezeRegion) h.faultAcc)

theorem Kept.lateTrap (h : Kept s₀ s) : Kept s₀ (s.lateTrap x tr) := by
  rw [State.lateTrap]
  split
  · exact h.copyFault
  · exact h.lateAcc

theorem KeptOpt.joinWalk (h : Kept s₀ s) : KeptOpt s₀ (s.joinWalk k x n) := .both (.given h) (.both (.given h) .absent)

theorem KeptOpt.stationTake (h : Kept s₀ s) : KeptOpt s₀ (s.stationTake k x) := by
  rw [State.stationTake]
  split
  · exact .joinWalk h
  · exact .given h.deliverFault
  · split
    · exact .given h.lateTrap
    · exact .given h

theorem Kept.deliver {bss : List (List Byte)} (h : Kept s₀ s) : Kept s₀ (s.deliver x bss) := h.fillDest.wake

theorem Kept.scDone (h : Kept s₀ s) : Kept s₀ (s.scDone x) := Kept.both h h

theorem Kept.ackCopy (h : Kept s₀ s) : Kept s₀ (s.ackCopy x) := by
  rw [State.ackCopy]
  split
  · exact h
  · exact h

theorem Kept.peerTrap (h : Kept s₀ s) : Kept s₀ (s.peerTrap x tr) :=
  .both (.both h.freeEntry.takeTrap h.freeEntry) h.lateAcc

theorem Kept.finishSc {bss : List (List Byte)} (h : Kept s₀ s) : Kept s₀ (s.finishSc x bss) := Kept.both h.freeEntry h.freeEntry

theorem Kept.trapSc (h : Kept s₀ s) : Kept s₀ (s.trapSc x tr) := .both h.freeEntry.takeTrap h.freeEntry

theorem Kept.performAtomic (h : Kept s₀ s) : Kept s₀ (s.performAtomic x n).1 := .both h h.writeUnder

/-! ### Announcements and probes (R213, R218, R236, R237) -/

theorem Kept.sendSc (h : Kept s₀ s) : Kept s₀ (s.sendSc x) := .both h.post h

theorem Kept.announce (h : Kept s₀ s) : Kept s₀ (s.announce x) := Kept.modMe (Kept.sendSc h)

theorem KeptRes.announceWhen (h : Kept s₀ s) : KeptRes s₀ (s.announceWhen x) := .bind fun _ _ => .ok h.announce

/-- A translation that passes its checks is by a state that is kept. -/
theorem Kept.translateSc {r : State × Acc} (h : Kept s₀ s) (hr : s.translateSc x = .ok r) : Kept s₀ r.1 := by
  have hnow : Kept s₀ (s.translateNow x 2).1 := h.translateNow
  rw [State.translateSc] at hr
  cases hload : stallIf (16 ≤ s.stationLoad x.cell) with
  | error k => rw [hload] at hr; exact nomatch hr
  | ok u =>
    rw [hload] at hr
    change (match s.translateNow x 2 with
      | (_, .fault va f) => _
      | (_, .miss _) => _
      | (s, .ok ps) => _ : Except Stop (State × Acc)) = .ok r at hr
    split at hr
    · exact nomatch hr
    · exact nomatch hr
    next t ps heq =>
      split at hr
      · split at hr <;> exact nomatch hr
      · cases hr
        exact .of_fst heq hnow

theorem KeptRes.scAccess {q : MemReq} (h : Kept s₀ s) : KeptRes s₀ (s.scAccess q) := by
  refine .bind fun _ _ => .bind fun _ _ => .both ?_ (.announceWhen h)
  exact .bind fun r hr => .announceWhen (h.translateSc hr)

theorem KeptRes.probe {d : SReg} {b : Bool} (h : Kept s₀ s) : KeptRes s₀ (s.probe d n b) := by
  rw [State.probe]
  dsimp only
  split
  · split <;> exact .update h
  · split
    · exact .update h
    · split <;> exact .update h

theorem KeptRes.setWord {j : Instr} {d a : SReg} {b : Bool} (h : Kept s₀ s) : KeptRes s₀ (s.setWord j d a b) :=
  .both (.error _) (.update h)

theorem KeptRes.invalidate {drop : Leaf → Bool} {whole : Nat → Bool} (h : Kept s₀ s) : KeptRes s₀ (s.invalidate drop whole) :=
  .bind fun _ _ => .bind fun _ _ => .ok h

end

/-! ### The events of accesses -/

section
variable (s : State)

theorem answers_stationRequest : Answers s (execStationRequest s) := by
  have h := Kept.refl s
  rw [execStationRequest]
  split
  · exact .both (.event h) (.event ((KeptOpt.stationTake (Kept.land h)).getD h))
  · exact .event h

theorem answers_walkComplete (d c k : Nat) : Answers s (execWalkComplete d c k s) := by
  have h := Kept.refl s
  rw [execWalkComplete]
  dsimp only
  split
  · exact .event h
  · split
    · exact .event h
    · refine .event (Kept.foldl h fun t a ht => ?_)
      split
      · exact ht.deliverFault
      · exact ht

theorem answers_loadValueReturned : Answers s (execLoadValueReturned s) := by
  have h := Kept.refl s
  rw [execLoadValueReturned]
  dsimp only
  split
  · refine .both (.event h) ?_
    split
    · exact .event (Kept.faultMem h)
    · exact .event (Kept.deliver h)
  · exact .event (Kept.deliver h)
  · exact .event h

theorem answers_writePerformedAtHome : Answers s (execWritePerformedAtHome s) := by
  have h := Kept.refl s
  rw [execWritePerformedAtHome]
  split
  · refine .both (.event h) ?_
    split
    · split
      · exact .event (Kept.deliverFault h)
      · exact .event (Kept.faultMem h)
    · exact .event (Kept.ackCopy (Kept.performWrite h))
  · exact .event h

theorem answers_peerAccessArrival : Answers s (execPeerAccessArrival s) := by
  have h := Kept.refl s
  rw [execPeerAccessArrival]
  dsimp only
  split
  · refine .both (.event h) (.both (.event h) (.both ?_ ?_))
    · have hcounted {c a n : Nat} {w : Word} {i k : Nat} : Kept s ((s.land s.cur.k).consumeAt c .loc a n w i k).1 := Kept.consumeAt h
      split
      · exact .event (Kept.peerTrap hcounted)
      · exact .event (Kept.send hcounted)
    · split
      · exact .event (Kept.peerTrap h)
      · exact .both (.event (Kept.writeBytes (Kept.freeEntry h))) (.event h)
  · exact .event h

theorem answers_peerAbsentReturn : Answers s (execPeerAbsentReturn s) := by
  have h := Kept.refl s
  rw [execPeerAbsentReturn]
  split
  · exact .both (.event (Kept.trapSc (Kept.scDone h))) (.both (.event (Kept.peerTrap h)) (.event (Kept.faultAcc h)))
  · exact .event h

theorem answers_ringEntryFreed : Answers s (execRingEntryFreed s) := by
  have h := Kept.refl s
  rw [execRingEntryFreed]
  split
  · exact .event h
  · split
    · exact .event h
    · exact .event (Kept.ringPut h)

theorem answers_scAnnouncementArrival : Answers s (execScAnnouncementArrival s) := by
  have h := Kept.refl s
  rw [execScAnnouncementArrival]
  split
  · exact .event h
  · exact .event h

theorem answers_windowClose : Answers s (execWindowClose s) := by
  have h := Kept.refl s
  rw [execWindowClose]
  split
  · exact .event h
  · refine .both (.event h) ?_
    dsimp only
    split
    · exact .event (Kept.faultMem h)
    · exact .both (.event (Kept.finishSc h)) (.event (Kept.finishSc (Kept.performWrite h)))

theorem answers_keySlotEmpty (k : Nat) : Answers s (execKeySlotEmpty k s) :=
  .both (.event (.refl s)) (.event ((Kept.refl s).setKey.foldl fun _ _ h => h))

end

/-! ### The rows of the scalar and the memory instructions -/

section
variable {s : State} (hs : issuing s = true)
include hs

theorem answers_br (x : ArgBr) : Answers s (execBr x s) := .issue hs (.both (.branchTo (.refl s)) (.update (.refl s)))
theorem answers_jmp (x : ArgT) : Answers s (execJmp x s) := .issue hs (.branchTo (.refl s))
theorem answers_call (x : ArgT) : Answers s (execCall x s) := .issue hs (.branchTo (.refl s))
theorem answers_loop (x : ArgLoop) : Answers s (execLoop x s) :=
  .issue hs (.both (.wsChecked (.refl s)) (.both .trap (.branchTo (.refl s))))
theorem answers_jr (x : ArgA) : Answers s (execJr x s) := .issue hs (.branchTo (.refl s))
theorem answers_callr (x : ArgA) : Answers s (execCallr x s) := .issue hs (.branchTo (.refl s))
theorem answers_ret (x : ArgA) : Answers s (execRet x s) := .issue hs (.branchTo (.refl s))
theorem answers_done (x : ArgG) : Answers s (execDone x s) := .issue hs (.both .stall (.ok (Kept.refl s).endTask))
theorem answers_rdsr (x : ArgRdsr) : Answers s (execRdsr x s) := .issue hs (.wsChecked (.refl s))
theorem answers_wrsr (x : ArgWrsr) : Answers s (execWrsr x s) := .issue hs (.ok (Kept.modMe (Kept.refl s).wrSys))

theorem answers_ld (x : ArgLd) : Answers s (execLd x s) := .issue hs (.memOp (.refl s))
theorem answers_ldc (x : ArgLd) : Answers s (execLdc x s) := .issue hs (.memOp (.refl s))
theorem answers_st (x : ArgLd) : Answers s (execSt x s) := .issue hs (.memOp (.refl s))
theorem answers_vld (x : ArgVld) : Answers s (execVld x s) := .issue hs (.memOp (.refl s))
theorem answers_vldc (x : ArgVld) : Answers s (execVldc x s) := .issue hs (.memOp (.refl s))
theorem answers_vst (x : ArgVld) : Answers s (execVst x s) := .issue hs (.memOp (.refl s))
theorem answers_vgat (x : ArgVgat) : Answers s (execVgat x s) := .issue hs (.access (.refl s))
theorem answers_vsca (x : ArgVgat) : Answers s (execVsca x s) := .issue hs (.access (.refl s))
theorem answers_ldtab (x : ArgLdtab) : Answers s (execLdtab x s) := .issue hs (.memOp (.refl s))
theorem answers_accrd (x : ArgAccrd) : Answers s (execAccrd x s) := .issue hs (.access (.refl s))
theorem answers_accwr (x : ArgAccwr) : Answers s (execAccwr x s) := .issue hs (.access (.refl s))
theorem answers_fence (x : ArgFence) : Answers s (execFence x s) := .issue hs (.both (.ok (.refl s)) .stall)
theorem answers_wait (x : ArgWait) : Answers s (execWait x s) := .issue hs (.both (.ok (.refl s)) .stall)
theorem answers_sbstat (x : ArgSbstat) : Answers s (execSbstat x s) := .issue hs (.update (.refl s))
theorem answers_ldsc (x : ArgLdsc) : Answers s (execLdsc x s) := .issue hs (.scAccess (.refl s))
theorem answers_stsc (x : ArgLdsc) : Answers s (execStsc x s) := .issue hs (.scAccess (.refl s))

theorem answers_xlatR (x : ArgDA) : Answers s (execXlatR x s) := .issue hs (.probe (.refl s))
theorem answers_xlatW (x : ArgDA) : Answers s (execXlatW x s) := .issue hs (.probe (.refl s))
theorem answers_xlatSet0 (x : ArgDA) : Answers s (execXlatSet0 x s) := .issue hs (.setWord (.refl s))
theorem answers_xlatSet1 (x : ArgDA) : Answers s (execXlatSet1 x s) := .issue hs (.setWord (.refl s))
theorem answers_tinvAll (x : ArgG) : Answers s (execTinvAll x s) := .issue hs (.invalidate (.refl s))
theorem answers_tinvAsid (x : ArgA) : Answers s (execTinvAsid x s) := .issue hs (.invalidate (.refl s))
theorem answers_tinvPage (x : ArgAB) : Answers s (execTinvPage x s) := .issue hs (.invalidate (.refl s))

theorem answers_keysetInst (x : ArgDA) : Answers s (execKeysetInst x s) :=
  .issue hs (.bind fun _ _ => .bind fun _ _ => .update (.both (Kept.refl s).setKey (.refl s)))

theorem answers_keysetRet (x : ArgDA) : Answers s (execKeysetRet x s) :=
  .issue hs (.both (.update (.refl s)) (.both (.update (.refl s)) (.ok (Kept.modMe (Kept.refl s).setKey))))

theorem answers_keysetSt (x : ArgDA) : Answers s (execKeysetSt x s) := .issue hs (.update (.refl s))

end

end Sys2Proof.Machine
end

section
/-! PROOFS. What records, join counters and futures keep (R243, R252, R257 to R265, R275). -/
namespace Sys2Proof.Machine

section
variable {s₀ s : State} {a c i k n v r : Nat} {bs : List Byte} {q : OwnReq} {x : Rec} {b : Bool}

theorem Kept.countSent (h : Kept s₀ s) : Kept s₀ (s.countSent r c) := h

theorem Kept.relayRecord (h : Kept s₀ s) : Kept s₀ (s.relayRecord c k x b n) := Kept.post h.countSent

theorem KeptRes.postRecord (h : Kept s₀ s) : KeptRes s₀ (s.postRecord c k x b n) := .both (.error _) (.ok h.relayRecord)

theorem KeptRes.syncWrite {w : Word} (h : Kept s₀ s) : KeptRes s₀ (s.syncWrite w n bs) :=
  .bind fun _ _ => .bind fun _ _ => .ok h.writeLocal

theorem KeptRes.postOwner (h : Kept s₀ s) : KeptRes s₀ (s.postOwner q) := .both (.error _) (.ok h.post)

theorem KeptRes.askOwner {o : OwnKind} {w : Word} {d : Option SReg} (h : Kept s₀ s) : KeptRes s₀ (s.askOwner o w d) :=
  .bind fun _ _ => .bind fun _ _ => .bind fun t ht => .ok (Kept.modMe (KeptRes.postOwner h t ht))

/-! ### The owner's routines (R253, R262, R264, R265) -/

theorem Kept.ownerAnswer {w : Word} (h : Kept s₀ s) : Kept s₀ (s.ownerAnswer c q n w) := .both h h.post

theorem Kept.joinFault (h : Kept s₀ s) : Kept s₀ (s.joinFault c r q n) := h.pushEvent

theorem Kept.jdecFault (h : Kept s₀ s) : Kept s₀ (s.jdecFault c r q n) := .both h.ownerAnswer h.joinFault

theorem Kept.ownerJdec (h : Kept s₀ s) : Kept s₀ (s.ownerJdec c q n) :=
  .both h.jdecFault (.both h.writeLocal.jdecFault (.both (.both h.writeLocal.jdecFault h.writeLocal.relayRecord) h.writeLocal))

theorem Kept.continuation (h : Kept s₀ s) : Kept s₀ (s.continuation c q r k v n) := .both h.relayRecord h.post

theorem Kept.ownerFuture (h : Kept s₀ s) : Kept s₀ (s.ownerFuture c q) := by
  rw [State.ownerFuture]
  refine .both h.ownerAnswer ?_
  split
  · exact h
  · exact .both h.ownerAnswer (Kept.ownerAnswer (.both h.writeLocal.continuation h.writeLocal))
  · exact .both h.writeLocal.ownerAnswer (.both h.ownerAnswer h.continuation.ownerAnswer)

theorem Kept.ownerRoutine (h : Kept s₀ s) : Kept s₀ (s.ownerRoutine c q) := by
  rw [State.ownerRoutine]
  refine .both h (.both h.frBump ?_)
  split
  · exact h.frBump
  · split
    · exact h.ownerJdec
    · exact h.ownerFuture

end

theorem answers_readyRecordArrival (s : State) : Answers s (execReadyRecordArrival s) := by
  have h := Kept.refl s
  rw [execReadyRecordArrival]
  split
  · exact .both (.event h) (.event (Kept.pushRecord h))
  · exact .both (.event h) (.event h)
  · exact .event h

theorem answers_ownerReplyArrival (s : State) : Answers s (execOwnerReplyArrival s) := by
  have h := Kept.refl s
  rw [execOwnerReplyArrival]
  dsimp only
  split
  · split
    · exact .both (.event (Kept.addAsync h)) (.event (Kept.pushEvent (.both (Kept.joinFault h) h)))
    · refine .both ?_ (.event h)
      split
      · exact .both (.event h) (.event (Kept.takeTrap h))
      · exact .event h
  · exact .event h

section
variable {s : State} (hs : issuing s = true)
include hs

theorem answers_spawn (x : ArgSpawn) : Answers s (execSpawn x s) := by
  refine .issue hs (.both (.bind fun _ _ => .both ?_ ?_) (.bind fun _ _ => .both ?_ ?_))
  all_goals
    refine .bind fun _ _ => .bind fun _ _ => .bind fun _ _ => .bind fun _ _ => .bind fun _ _ => ?_
    exact .bind fun t ht => .ok (KeptRes.postRecord (.refl s) t ht)

theorem answers_callat (x : ArgCallat) : Answers s (execCallat x s) := by
  refine .issue hs (.bind fun _ _ => .bind fun _ _ => .bind fun _ _ => .bind fun _ _ => ?_)
  exact .bind fun t ht => .ok (KeptRes.postRecord (.refl s) t ht)

theorem answers_reply (x : ArgA) : Answers s (execReply x s) := .issue hs (.bind fun _ _ => .askOwner (.refl s))
theorem answers_fres (x : ArgFres) : Answers s (execFres x s) := .issue hs (.bind fun _ _ => .askOwner (.refl s))

theorem answers_freg (x : ArgDAB) : Answers s (execFreg x s) :=
  .issue hs (.bind fun _ _ => .bind fun _ _ => .askOwner (.refl s))

theorem answers_jdec (x : ArgABi) : Answers s (execJdec x s) :=
  .issue hs (.bind fun _ _ => .bind fun _ _ => .bind fun _ _ => .bind fun t ht => .ok (KeptRes.postOwner (.refl s) t ht))

theorem answers_jnew (x : ArgDABi) : Answers s (execJnew x s) :=
  .issue hs (.bind fun _ _ => .bind fun t ht => .ok (KeptRes.syncWrite (.refl s) t ht))

theorem answers_fnew (x : ArgDA) : Answers s (execFnew x s) := .issue hs (.bind fun t ht => .ok (KeptRes.syncWrite (.refl s) t ht))

theorem answers_tid (x : ArgTid) : Answers s (execTid x s) := .issue hs (.update (.refl s))

end

end Sys2Proof.Machine
end

section
/-! PROOFS. What ports keep (R288, R300 to R306, R312, R314, R315). -/
namespace Sys2Proof.Machine

section
variable {s₀ s : State} {a c i k n v r : Nat} {o : Offer} {tr : TrapInfo}

theorem Kept.actFault {e : EndAct} (h : Kept s₀ s) : Kept s₀ (s.actFault c e tr) := .both h.addAsync h.pushEvent

theorem Kept.sendOffer (h : Kept s₀ s) : Kept s₀ (s.sendOffer c n o) := by
  rw [State.sendOffer]
  split
  · exact h
  · exact h

theorem KeptRes.postOffers {os : List Offer} (h : Kept s₀ s) : KeptRes s₀ (s.postOffers c n os) :=
  .both (.error _) (.ok (h.foldl fun _ _ h => h.post))

theorem Kept.answerOffer {e : PortEnd} {f : FiringAt} (h : Kept s₀ s) : Kept s₀ (s.answerOffer c o k e f) := by
  rw [State.answerOffer]
  split
  · exact h
  · exact h

theorem Kept.lostFiring {w u : Word} {f : FiringAt} (h : Kept s₀ s) : Kept s₀ (s.lostFiring c o w u f) := by
  refine .both h (Kept.pushEvent (.both ?_ (Kept.modCell ?_)))
  all_goals
    refine Kept.frWrite (.both (Kept.frBump ?_) ?_)
    all_goals exact Kept.frBump (h.foldl fun _ _ h => h.frWrite)

/-! ### Binding (R288, R305) -/

theorem Kept.unbindSlot (h : Kept s₀ s) : Kept s₀ (s.unbindSlot c i k) := by
  rw [State.unbindSlot]
  split
  · exact h
  · exact Kept.modCtx h.unbindPort

theorem Kept.recordBind {b : Binding} (h : Kept s₀ s) : Kept s₀ (s.recordBind c b) := h

theorem Kept.bindStatic {w : Word} {bs : List (Nat × Nat)} (h : Kept s₀ s) : Kept s₀ (s.bindStatic c i k w bs) := by
  refine h.foldl fun t b ht => ?_
  dsimp only
  split
  · exact Kept.modCtx (.both ht ht.recordBind)
  · exact ht

theorem Kept.bindAnswer {w m : Word} {p : Option PortSlot} (h : Kept s₀ s) : Kept s₀ (s.bindAnswer c i w k m p r) := by
  refine .both ?_ h
  cases p with
  | none => exact h.takeTrap
  | some p => exact h

end

theorem answers_portCompletionArrival (s : State) : Answers s (execPortCompletionArrival s) := by
  have h := Kept.refl s
  rw [execPortCompletionArrival]
  dsimp only
  split
  · split
    · split
      · exact .event (Kept.actFault h)
      · exact .event h
    · split
      · exact .both (.event h) (.event (Kept.lostFiring h))
      · exact .event (Kept.lostFiring h)
      · exact .both (.event h) (.event h)
      · exact .both (.event (Kept.takeTrap h)) (.event h)
      · exact .event h
  · exact .event h

theorem answers_pbindRequestArrival (s : State) : Answers s (execPbindRequestArrival s) := by
  have h := Kept.refl s
  rw [execPbindRequestArrival]
  dsimp only
  split
  · split
    · exact .both (.event h) (.event (Kept.bindAnswer h))
    · exact .both (.event (Kept.send (.both (Kept.recordBind h) h))) (.event (Kept.bindAnswer (.both (Kept.recordBind h) h)))
  · exact .event h
  · exact .event (Kept.bindAnswer h)
  · exact .event h

section
variable {s : State} (hs : issuing s = true)
include hs

theorem answers_put (x : ArgPut) : Answers s (execPut x s) := by
  refine .issue hs (.bind fun _ _ => .bind fun _ _ => .bind fun _ _ => ?_)
  exact .bind fun t ht => .ok (KeptRes.postOffers (.refl s) t ht)

theorem answers_get (x : ArgGet) : Answers s (execGet x s) :=
  .issue hs (.bind fun _ _ => .bind fun t ht => .ok (KeptRes.postOffers (.refl s) t ht))

theorem answers_alt (x : ArgAlt) : Answers s (execAlt x s) := by
  refine .issue hs (.bind fun _ _ => .bind fun _ _ => .both (.bind fun _ _ => ?_) ?_)
  all_goals exact .bind fun t ht => .ok (KeptRes.postOffers (.refl s) t ht)

theorem answers_pbind (x : ArgPbind) : Answers s (execPbind x s) := by
  have h := Kept.refl s
  have hfault {c i k : Nat} {t : TrapInfo} : KeptRes s (.ok ((s.unbindSlot c i k).takeTrap c i t)) := .ok h.unbindSlot.takeTrap
  refine .issue hs (.both (.both .trap .trap) (.both (.ok (Kept.modMe h.unbindSlot)) (.both hfault (.both ?_ ?_))))
  · split
    · exact hfault
    · exact .ok (Kept.modMe (Kept.send h.unbindSlot))
  · split
    · exact hfault
    · exact .ok (Kept.modMe (Kept.send h.unbindSlot))

theorem answers_portst (x : ArgPortst) : Answers s (execPortst x s) := .issue hs (.update (.refl s))

end

end Sys2Proof.Machine
end

section
/-! PROOFS. What connector hubs keep (R256, R297, R303, R310 to R314, R319 to R321). -/
namespace Sys2Proof.Machine

section
variable {s₀ s u : State} {a c i j k n v r : Nat} {o : Offer} {hub : HubSlot} {f : FiringAt}

theorem Kept.unspillOffers (h : Kept s₀ s) : Kept s₀ (s.unspillOffers c n) := by
  induction n generalizing s with
  | zero => exact h
  | succ n ih =>
    rw [State.unspillOffers]
    refine .both h ?_
    split
    · exact h
    · split
      · exact h
      · exact ih h

theorem Kept.removeOffers {p : Offer → Bool} (h : Kept s₀ s) : Kept s₀ (s.removeOffers c j p) := by
  rw [State.removeOffers]
  split
  · exact h
  · exact .both h (Kept.unspillOffers h)

theorem Kept.dropAlts {gs : List (Nat × Nat × Word × Nat)} (h : Kept s₀ s) : Kept s₀ (s.dropAlts c gs) :=
  Kept.foldl h fun _ _ h => h.removeOffers

theorem Kept.net {fs : List Flight} (h : Kept s₀ s) : Kept s₀ { s with net := fs } := h

theorem Kept.fifoAnswers {os : List Offer} {b : Bool} {e : FifoEnd} (h : Kept s₀ s) : Kept s₀ (s.fifoAnswers c os b f e) :=
  h.foldl fun _ _ h => .both (Kept.answerOffer h.net) (.both (.both h.net h) h.answerOffer)

theorem Kept.spillItem {b m l : Nat} {w : Word} {p : Nat × State} (h : Kept s₀ s)
    (hp : (s.charge r n).bind (fun s => (s.spillPlace b c m l).map fun a => (a, s.spillWrite c a (leBytes 8 w.toNat))) = some p) :
    Kept s₀ p.2 := by
  obtain ⟨t, ht, hp⟩ := Option.bind_eq_some_iff.mp hp
  obtain ⟨a, -, rfl⟩ := Option.map_eq_some_iff.mp hp
  exact (h.charge t ht).spillWrite

/-! ### Decisions (R311, R312) -/

theorem Kept.completions {t : HubTrans} (h : Kept s₀ s) : Kept s₀ (s.completions c j hub t f) := by
  refine h.foldl fun u i hu => ?_
  split
  · exact .both hu.answerOffer (.both hu.answerOffer (.both hu.answerOffer hu))
  · exact hu

theorem Kept.giveItems {t : HubTrans} (h : Kept s₀ u) : Kept s₀ (s.giveItems c hub t f u) := by
  refine h.foldl fun u i hu => .both ?_ hu
  split
  · exact hu
  · exact hu

theorem Kept.sendRecord {x : Rec} {b : Bool} (h : Kept s₀ s) : Kept s₀ (s.sendRecord c k x b n) := h

theorem Kept.actorFire {ws : List Word} (h : Kept s₀ s) : Kept s₀ (s.actorFire c j hub ws) := by
  rw [State.actorFire]
  split
  · exact h
  · exact h

theorem Kept.decide (h : Kept s₀ s) : Kept s₀ (s.decide c j hub) := by
  rw [State.decide]
  dsimp only
  split
  · exact h
  · have hfired {hub hub₁ : HubSlot} {t : HubTrans} {g : Cell → Cell} {f : FiringAt} :
        Kept s₀ (State.giveItems (s.modCell c g) c hub t f (State.completions (s.modCell c g) c j hub₁ t f)) :=
      Kept.giveItems (Kept.completions h)
    have hleft {hub hub₁ : HubSlot} {t : HubTrans} {g g₁ : Cell → Cell} {f : FiringAt} {r n : Nat}
        {gs : List (Nat × Nat × Word × Nat)} : Kept s₀ (((((State.giveItems (s.modCell c g) c hub t f
          (State.completions (s.modCell c g) c j hub₁ t f)).credit r n).modCell c g₁).dropAlts c gs).unspillOffers c 512) :=
      Kept.unspillOffers (Kept.dropAlts (Kept.modCell (Kept.credit hfired)))
    exact .both hleft.actorFire hleft

/-! ### Images and drops (R320, R321, R393) -/

theorem Kept.measure {bs : List Byte} (h : Kept s₀ s) : Kept s₀ (s.measure bs) := by
  obtain ⟨hagenda, hmeas, hwf⟩ := h
  exact ⟨hagenda, (length_modifyAt ..).trans hmeas, hwf⟩

/-- A hub image that loads is in a state that is kept. -/
theorem Kept.loadHub {bs : List Byte} {p : Nat × State} (h : Kept s₀ s) (hp : s.loadHub c bs n r k = .ok p) : Kept s₀ p.2 := by
  rw [State.loadHub] at hp
  split at hp
  · exact nomatch hp
  · split at hp
    · exact nomatch hp
    · split at hp
      · exact nomatch hp
      · split at hp
        · exact nomatch hp
        · split at hp
          · exact nomatch hp
          · split at hp
            · exact nomatch hp
            · cases hp
              exact Kept.measure h

theorem Kept.emptySlots (h : Kept s₀ s) : Kept s₀ (s.emptySlots c j k) := h.foldl fun _ _ h => h

theorem Kept.directory {ds : List (Nat × Word × Nat × Nat)} (h : Kept s₀ s) : Kept s₀ { s with directory := ds } := h

theorem Kept.dropHub (h : Kept s₀ s) : Kept s₀ (s.dropHub c j) := by
  rw [State.dropHub]
  split
  · exact h
  · refine Kept.unspillOffers (Kept.dropAlts (Kept.emptySlots (Kept.directory (Kept.modCell (.both ?_ (Kept.frBump ?_))))))
    all_goals exact Kept.credit (h.foldl fun _ _ h => h.answerOffer)

end

theorem answers_offerArrival (s : State) : Answers s (execOfferArrival s) := by
  have h := Kept.refl s
  rw [execOfferArrival]
  dsimp only
  split
  · split
    · exact .event (Kept.answerOffer h)
    · exact .event (Kept.frBump h)
    · refine .both (.event (Kept.frBump h)) (.both (.event h) ?_)
      split
      next t ht => exact .event (Kept.modCell (Kept.charge (Kept.land h) t ht))
      next =>
        split
        · exact .event (Kept.answerOffer (Kept.dropAlts h))
        · exact .event (Kept.pushEvent h)
  · exact .event h

theorem answers_fifoItemArrival (s : State) : Answers s (execFifoItemArrival s) := by
  have h := Kept.refl s
  rw [execFifoItemArrival]
  dsimp only
  split
  · split
    · exact .event (Kept.fifoAnswers (Kept.frBump h))
    · refine .both (.event (Kept.fifoAnswers h)) ?_
      split
      next a t ht => exact .event (Kept.fifoAnswers (Kept.modCell (Kept.spillItem (Kept.land h) ht)))
      next => exact .event (Kept.fifoAnswers (Kept.pushEvent h))
  · exact .event h

theorem answers_hubCancelArrival (s : State) : Answers s (execHubCancelArrival s) := by
  have h := Kept.refl s
  rw [execHubCancelArrival]
  dsimp only
  split
  next c ctx cell task n tenant _ =>
    have hgone {as : List Nat} {p : Offer → Bool} {c : Nat} : Kept s (as.foldl (fun s j => s.removeOffers c j p) (s.land s.cur.k)) :=
      Kept.foldl h fun _ _ h => h.removeOffers
    refine .both (.event hgone) ?_
    split
    · exact .event (Kept.send hgone)
    · exact .event (Kept.answerOffer hgone)
  next => exact .event h

theorem answers_decide (s : State) : Answers s (execDecide s) := by
  have h := Kept.refl s
  rw [execDecide]
  split
  · exact .event h
  · split
    · exact .event h
    · exact .event (Kept.decide h)

theorem answers_stageGovernor (s : State) (c j : Nat) : Answers s (execStageGovernor c j s) := by
  have h := Kept.refl s
  rw [execStageGovernor]
  split
  · exact .event h
  · split
    · exact .event h
    · exact .both (.event h) (.event h)

section
variable {s : State} (hs : issuing s = true)
include hs

theorem answers_cload (x : ArgDAB) : Answers s (execCload x s) := by
  refine .issue hs (.bind fun _ _ => .bind fun _ _ => ?_)
  split
  · exact .update (.refl s)
  next j t ht => exact .update (Kept.loadHub (.refl s) ht)

theorem answers_cdrop (x : ArgDA) : Answers s (execCdrop x s) := by
  refine .issue hs ?_
  dsimp only
  split
  · exact .update (Kept.refl s).dropHub
  · exact .update (.refl s)

theorem answers_cstat (x : ArgCstat) : Answers s (execCstat x s) := .issue hs (.both .trap (.update (.refl s)))

end

end Sys2Proof.Machine
end

section
/-! PROOFS. What the tenants' shares, context 8, endpoints, messages and atomics keep (R271, R325 to R338). -/
namespace Sys2Proof.Machine

section
variable {s₀ s : State} {a c i j k n v r : Nat} {m : Msg} {q : Req8} {x : Acc} {b : Bool}

/-! ### The deficit counters (R271) -/

theorem Kept.setDeficit {o : Resource} {d : Int} (h : Kept s₀ s) : Kept s₀ (s.setDeficit c k o d) := h

theorem Kept.chooseTenant {o : Resource} {es : List Nat} {p : Nat × State} (h : Kept s₀ s)
    (hp : s.chooseTenant c o es = some p) : Kept s₀ p.2 := by
  rw [State.chooseTenant] at hp
  split at hp
  · exact nomatch hp
  · obtain ⟨t, -, rfl⟩ := Option.map_eq_some_iff.mp hp
    exact .both h (h.foldl fun _ _ h => h)

theorem Kept.spend {o : Resource} (h : Kept s₀ s) : Kept s₀ (s.spend c k o n) := h

theorem Kept.chargeTo {o : Resource} (h : Kept s₀ s) : Kept s₀ (s.chargeTo c k o n) :=
  Kept.spend (KeptOpt.getD (.map fun _ hp => h.chooseTenant hp) h)

/-! ### Context 8 (R329, R330, R334) -/

theorem Kept.credit8 (h : Kept s₀ s) : Kept s₀ (s.credit8 q) := by
  rw [State.credit8]
  split
  · exact h
  · exact h

theorem Kept.enqueue8 (h : Kept s₀ s) : Kept s₀ (s.enqueue8 c q) := by
  rw [State.enqueue8]
  refine .both h ?_
  split
  · exact h
  · split
    next t ht => exact Kept.modCell (h.charge t ht)
    next => exact h.pushEvent

theorem Kept.refill8 (h : Kept s₀ s) : Kept s₀ (s.refill8 c n) := by
  induction n generalizing s with
  | zero => exact h
  | succ n ih =>
    rw [State.refill8]
    split
    · exact h
    · exact .both h (ih (Kept.credit8 h))

theorem Kept.atomicDone {w : Word} (h : Kept s₀ s) : Kept s₀ (s.atomicDone x w) := .both h.finishSc h.fillDest

theorem Kept.runAtomic (h : Kept s₀ s) : Kept s₀ (s.runAtomic c x n) := by
  rw [State.runAtomic]
  dsimp only
  split
  · exact .both h.scDone.trapSc h.scDone.peerTrap
  · exact h.scDone.faultMem
  · exact .both h.scDone.performAtomic.atomicDone h.scDone.performAtomic.post

theorem Kept.performHere (h : Kept s₀ s) : Kept s₀ (s.performHere x) := by
  rw [State.performHere]
  split
  · exact h.faultMem
  · exact h.performAtomic.fillDest

theorem Kept.startHandler (h : Kept s₀ s) : Kept s₀ (s.startHandler c m r) := by
  rw [State.startHandler]
  split
  · exact h
  · split
    · exact h
    · dsimp only
      split
      · exact Kept.takeTrap h
      · exact h

theorem Kept.serve (h : Kept s₀ s) : Kept s₀ (s.serve c q) := by
  cases q with
  | handler => rw [State.serve]; exact h.startHandler
  | owner => rw [State.serve]; exact h.ownerRoutine
  | atomic => rw [State.serve]; exact h.runAtomic

theorem Kept.arrive8 (h : Kept s₀ s) : Kept s₀ (s.arrive8 c q) := .both h.chargeTo.serve h.enqueue8

theorem Answers.ownerArrival {p : OwnKind → Bool} (h : Kept s₀ s) : Answers s₀ (s.ownerArrival p) := by
  rw [State.ownerArrival]
  split
  · exact .both (.event (Kept.arrive8 h)) (.event h)
  · exact .event h

/-! ### Messages and endpoints (R325 to R327, R331, R336 to R338) -/

theorem Kept.returnMsg (h : Kept s₀ s) : Kept s₀ (s.returnMsg c m k) := h

theorem Kept.spillMsg {l e : Nat} {w : List Byte} {p : Nat × State} (h : Kept s₀ s)
    (hp : (s.charge r n).bind (fun s => (s.spillPlace e c l k).map fun a => (a, s.spillWrite c a w)) = some p) : Kept s₀ p.2 := by
  obtain ⟨t, ht, hp⟩ := Option.bind_eq_some_iff.mp hp
  obtain ⟨a, -, rfl⟩ := Option.map_eq_some_iff.mp hp
  exact (h.charge t ht).spillWrite

theorem Kept.parkMsg {e : Endpoint} {l : List (Nat × Msg)} (h : Kept s₀ s) : Kept s₀ (s.parkMsg c n e l b m) := by
  rw [State.parkMsg]
  split
  next p t ht => exact Kept.modCell (Kept.spillMsg h ht)
  next => exact h.pushEvent

theorem Kept.deliverMsg (h : Kept s₀ s) : Kept s₀ (s.deliverMsg c m) := by
  rw [State.deliverMsg]
  split
  · exact h
  · split
    · exact .both h h
    · exact h.parkMsg
    · split
      · exact h
      · exact .both h.enqueue8 h
    · split
      · exact h
      · exact .both h.enqueue8 h

theorem Kept.takeRequests {p : Msg → Nat → Bool} (h : Kept s₀ s) : Kept s₀ (s.takeRequests c p).2 :=
  Kept.refill8 (Kept.modCell (h.foldl fun _ _ h => h.credit8))

/-- An entry that `htab set` installs is in a state that is kept. -/
theorem Kept.htabSet {w : Word} {t : State} (h : Kept s₀ s) (ht : s.htabSet c r k w = .ok t) : Kept s₀ t := by
  rw [State.htabSet] at ht
  split at ht
  · exact nomatch ht
  · split at ht
    · exact nomatch ht
    · split at ht
      · exact nomatch ht
      · dsimp only at ht
        split at ht
        · exact nomatch ht
        · cases ht
          exact h

theorem Kept.epmovAnswer {w u : Word} (h : Kept s₀ s) : Kept s₀ (s.epmovAnswer c i w u) := by
  refine .both ?_ h
  split
  · exact h
  · exact h

theorem Kept.parkEndpoint {e : Endpoint} (h : Kept s₀ s) : Kept s₀ (s.parkEndpoint c n e b) := by
  rw [State.parkEndpoint]
  split
  next ms t ht =>
    have htaken : Kept s₀ t := .of_snd ht h.takeRequests
    refine Kept.foldl (Kept.modCell htaken) fun u m hu => ?_
    split
    · exact hu.parkMsg
    · exact hu

theorem Kept.resumeEndpoint {e : Endpoint} {l : List (Nat × Msg)} (h : Kept s₀ s) : Kept s₀ (s.resumeEndpoint c n e l) :=
  Kept.foldl h fun _ _ h => h.deliverMsg

/-! ### Atomics (R333, R334) -/

theorem KeptRes.atomicLocal {y : ArgAtom} {w : Word} (h : Kept s₀ s) : KeptRes s₀ (s.atomicLocal y n w) := by
  refine .bind fun _ _ => .bind fun _ _ => .both (.bind fun _ _ => ?_) (.bind fun _ _ => .ok (Kept.modMe h.enqueue8))
  split
  · exact .ok (Kept.faultMem h)
  · exact .ok (Kept.modMe (Kept.performAtomic (.both h h.chargeTo)))

theorem KeptRes.atomicPeer {y : ArgAtom} {w : Word} (h : Kept s₀ s) : KeptRes s₀ (s.atomicPeer y n w) := by
  rw [State.atomicPeer]
  dsimp only
  split
  · exact .trap
  · exact .bind fun _ _ => .bind fun _ _ => .ok (Kept.modMe h.post)

theorem KeptRes.atomicGlb {y : ArgAtom} {w : Word} (h : Kept s₀ s) : KeptRes s₀ (s.atomicGlb y n w) := by
  refine .bind fun _ _ => .both (.issueGlb h) (.bind fun _ _ => ?_)
  split
  · exact .stall
  next t va f ht => exact .ok (Kept.deliverFault (Kept.modMe (.of_fst ht h.translateNow)))
  next t ps ht =>
    have htranslated : Kept s₀ t := .of_fst ht h.translateNow
    refine .bind fun _ _ => .both .trap (.bind fun _ _ => ?_)
    split
    · exact .ok (Kept.faultMem (Kept.modMe htranslated))
    · exact .ok (Kept.modMe htranslated.performAtomic)

theorem KeptRes.issueScGlb (h : Kept s₀ s) : KeptRes s₀ (s.issueScGlb x) := .bind fun _ hr => .announceWhen (h.translateSc hr)

theorem KeptRes.atomicSc {y : ArgAtom} {w : Word} (h : Kept s₀ s) : KeptRes s₀ (s.atomicSc y n w) := by
  refine .bind fun _ _ => ?_
  split
  · exact .issueScGlb h
  · dsimp only
    split
    · exact .trap
    · exact .bind fun _ _ => .announceWhen h
  · exact .bind fun _ _ => .announceWhen h

theorem KeptRes.atomic {y : ArgAtom} (h : Kept s₀ s) : KeptRes s₀ (s.atomic y n) := by
  refine .bind fun _ _ => .bind fun _ _ => .both (.atomicSc h) ?_
  split
  · exact .atomicGlb h
  · exact .atomicPeer h
  · exact .atomicLocal h

end

/-! ### The events of messages -/

section
variable (s : State)

theorem answers_atomicResultArrival : Answers s (execAtomicResultArrival s) := by
  have h := Kept.refl s
  rw [execAtomicResultArrival]
  split
  · exact .event (Kept.atomicDone h)
  · exact .event h

theorem answers_handlerRun : Answers s (execHandlerRun s) := by
  have h := Kept.refl s
  rw [execHandlerRun]
  refine .both (.event h) ?_
  dsimp only
  split
  · exact .event h
  next t u hu =>
    have hchosen : Kept s u := h.chooseTenant hu
    split
    · exact .event hchosen
    · exact .event (Kept.serve (Kept.spend (Kept.refill8 (Kept.modCell hchosen))))

theorem answers_handlerCap : Answers s (execHandlerCap s) := by
  have h := Kept.refl s
  rw [execHandlerCap]
  split
  · exact .event h
  · exact .both (.event h) (.event h.kill)

theorem answers_jdecArrival : Answers s (execJdecArrival s) := .ownerArrival (.refl s)
theorem answers_fresArrival : Answers s (execFresArrival s) := .ownerArrival (.refl s)
theorem answers_fregArrival : Answers s (execFregArrival s) := .ownerArrival (.refl s)

theorem answers_messageArrival : Answers s (execMessageArrival s) := by
  have h := Kept.refl s
  rw [execMessageArrival]
  dsimp only
  split
  · exact .both (.event h) (.both (.event h) (.event (Kept.arrive8 h)))
  · split
    · exact .both (.event h) (.event (Kept.deliverMsg h))
    · exact .event (Kept.deliverMsg h)
  · exact .event h

theorem answers_returnedMessageArrival : Answers s (execReturnedMessageArrival s) := by
  have h := Kept.refl s
  rw [execReturnedMessageArrival]
  split
  · exact .both (.event (Kept.addAsync h)) (.event (Kept.pushEvent h))
  · exact .event h

theorem answers_messageInjection : Answers s (execMessageInjection s) := by
  have h := Kept.refl s
  rw [execMessageInjection]
  split
  · exact .event h
  · exact .event h

theorem answers_epmovTargetArrival : Answers s (execEpmovTargetArrival s) := by
  have h := Kept.refl s
  rw [execEpmovTargetArrival]
  dsimp only
  split
  · split
    · refine .both (.event (Kept.epmovAnswer h)) ?_
      split
      · exact .event (Kept.epmovAnswer h)
      · have htaken {c : Nat} {p : Msg → Nat → Bool} : Kept s ((s.land s.cur.k).takeRequests c p).2 := Kept.takeRequests h
        exact .event (Kept.epmovAnswer (Kept.foldl (Kept.modCell (Kept.modCell htaken)) fun _ _ h => h))
    · exact .event (Kept.epmovAnswer h)
  · exact .event h

end

/-! ### The rows of messages and atomics -/

section
variable {s : State} (hs : issuing s = true)
include hs

theorem answers_amsg (x : ArgAmsg) : Answers s (execAmsg x s) :=
  .issue hs (.bind fun _ _ => .bind fun _ _ => .bind fun _ _ => .bind fun _ _ => .ok (.refl s))

theorem answers_htabSet (x : ArgHtab) : Answers s (execHtabSet x s) := by
  refine .issue hs ?_
  dsimp only
  split
  · exact .update (.refl s)
  next t ht => exact .update (Kept.htabSet (.refl s) ht)

theorem answers_htabClr (x : ArgHtab) : Answers s (execHtabClr x s) := by
  refine .issue hs ?_
  dsimp only
  split
  · exact .update (.refl s)
  · refine .both (.update (.refl s)) (.update (Kept.foldl (Kept.takeRequests ?_) fun _ _ h => h))
    exact Kept.modCell (.refl s)

theorem answers_htabEpnew (x : ArgD) : Answers s (execHtabEpnew x s) := by
  refine .issue hs ?_
  dsimp only
  split
  · exact .update (.refl s)
  · exact .update (Kept.modCell (.refl s))

theorem answers_htabEpdel (x : ArgDA) : Answers s (execHtabEpdel x s) := by
  refine .issue hs (.both (.update (.refl s)) (.update (Kept.foldl (Kept.takeRequests ?_) fun _ _ h => h)))
  exact Kept.modCell (.refl s)

theorem answers_htabRd (x : ArgHtab) : Answers s (execHtabRd x s) := .issue hs (.update (.refl s))

theorem answers_epmov (x : ArgDAB) : Answers s (execEpmov x s) := by
  refine .issue hs (.both .trap ?_)
  split
  · exact .update (.refl s)
  · exact .ok (Kept.modMe (Kept.send (Kept.modCell (.refl s))))

theorem answers_epparkPark (x : ArgDA) : Answers s (execEpparkPark x s) := by
  refine .issue hs ?_
  dsimp only
  split
  · exact .update (.refl s)
  · exact .update (Kept.refl s).parkEndpoint

theorem answers_epparkResume (x : ArgDA) : Answers s (execEpparkResume x s) := by
  refine .issue hs ?_
  dsimp only
  split
  · exact .update (Kept.refl s).resumeEndpoint
  · exact .update (.refl s)

theorem answers_aadd (x : ArgAtom) : Answers s (execAadd x s) := .issue hs (.atomic (.refl s))
theorem answers_aand (x : ArgAtom) : Answers s (execAand x s) := .issue hs (.atomic (.refl s))
theorem answers_aor (x : ArgAtom) : Answers s (execAor x s) := .issue hs (.atomic (.refl s))
theorem answers_axor (x : ArgAtom) : Answers s (execAxor x s) := .issue hs (.atomic (.refl s))
theorem answers_amax (x : ArgAtom) : Answers s (execAmax x s) := .issue hs (.atomic (.refl s))
theorem answers_amin (x : ArgAtom) : Answers s (execAmin x s) := .issue hs (.atomic (.refl s))
theorem answers_aswp (x : ArgAtom) : Answers s (execAswp x s) := .issue hs (.atomic (.refl s))
theorem answers_acas (x : ArgAtom) : Answers s (execAcas x s) := .issue hs (.atomic (.refl s))

end

end Sys2Proof.Machine
end

section
/-! PROOFS. What the matrix unit and the copy engine keep (R133 to R147, R177 to R198, R277). -/
namespace Sys2Proof.Machine

section
variable {s₀ s : State} {a c i j k n v r : Nat} {e : EndAct} {o : CopyOp} {ch : Chunk} {tr : TrapInfo} {b : Bool}

/-! ### Registration and completion actions (R181, R185) -/

theorem Kept.register {xs : List Interval} (h : Kept s₀ s) : Kept s₀ (s.register c i k n r xs) := h.foldl fun _ _ h => h

theorem Kept.doAct (h : Kept s₀ s) : Kept s₀ (s.doAct c e) := by
  rw [State.doAct]
  dsimp only
  split
  · exact h
  · split
    · exact h.actFault
    · exact h
  · split
    · exact h.actFault
    · exact h
  · split
    · exact h.actFault
    · exact h.sendRecord
  · split
    · exact h.actFault
    · exact h.sendOffer

theorem Kept.finishAct (h : Kept s₀ s) : Kept s₀ (s.finishAct c e) := .both h h.doAct

/-! ### Tile operations (R133, R136, R138) -/

theorem KeptRes.issueTile {f : TileFn} {md : Rnd} {ops used : List Opnd} {ca cb : Bool} {d w u : Word} {y : Compl}
    (h : Kept s₀ s) : KeptRes s₀ (s.issueTile f md a n ops used ca cb d w u y) := by
  refine .bind fun _ _ => .bind fun _ _ => .bind fun _ _ => .bind fun _ _ => .bind fun _ _ => ?_
  exact .bind fun _ _ => .bind fun _ _ => .bind fun _ _ => .ok (Kept.modMe (Kept.register h))

theorem Kept.tileWrite {t : TileOp} (h : Kept s₀ s) : Kept s₀ (s.tileWrite c t).1 := h.foldl fun _ _ h => h.writeLocal

theorem Kept.dropTile (h : Kept s₀ s) : Kept s₀ (s.dropTile c k) := Kept.dropSb h

theorem Kept.abandonTile {t : TileOp} (h : Kept s₀ s) : Kept s₀ (s.abandonTile c t tr) := h.dropTile.addAsync

theorem Kept.consumeOpnd {t : TileOp} (h : Kept s₀ s) : Kept s₀ (s.consumeOpnd c t a n).1 := h.consumeAt

theorem Kept.consumeAll {t : TileOp} (h : Kept s₀ s) : Kept s₀ (s.consumeAll c t).1 := by
  refine List.foldlRecOn (motive := fun p : State × Option TrapInfo => Kept s₀ p.1) t.consumed _ h fun p hp q _ => ?_
  dsimp only
  split
  · exact hp
  · split
    · exact hp.consumeOpnd
    · exact .both h.consumeOpnd h

/-! ### Copies at issue and their tokens (R184, R195, R277) -/

theorem KeptRes.issueCopy {q : CopyReq} {d l : Option TrapInfo} (h : Kept s₀ s) : KeptRes s₀ (s.issueCopy q d l) := by
  refine .bind fun _ _ => .bind fun _ _ => .bind fun _ _ => .bind fun _ _ => .bind fun _ _ => ?_
  exact .bind fun _ _ => .bind fun _ _ => .bind fun _ _ => .ok (Kept.modMe (Kept.register h))

theorem KeptRes.sendCopy {x : ArgSend} (h : Kept s₀ s) : KeptRes s₀ (s.sendCopy x b) := .bind fun _ _ => .issueCopy h

theorem KeptRes.fillCopy {x : ArgFill} (h : Kept s₀ s) : KeptRes s₀ (s.fillCopy x b) := .bind fun _ _ => .issueCopy h

theorem KeptOpt.borrow {ls : List Nat} (h : Kept s₀ s) : KeptOpt s₀ (s.borrow r c n ls) := by
  fun_induction State.borrow with
  | case1 s ls => exact .given h
  | case2 => exact .absent
  | case3 s n l ls _ m ih => exact ih h

theorem KeptOpt.draw (h : Kept s₀ s) : KeptOpt s₀ (s.draw r c n) := .both (.given h) (.both (.given h) (.borrow h))

theorem Kept.repay {ds : List (Nat × Nat × Nat)} (h : Kept s₀ s) : Kept s₀ (s.repay c n ds).1 := by
  fun_induction State.repay with
  | case1 => exact h
  | case2 s n l k d ds _ p ih => exact ih h
  | case3 s n l k d ds _ m depth u p ih => exact ih h

/-! ### Reading (R184, R189, R193) -/

theorem Kept.countCopy (h : Kept s₀ s) : Kept s₀ (s.countCopy c o).1 := by
  rw [State.countCopy]
  split
  · exact h
  · split
    · exact h
    · exact h.tileEvent

theorem Kept.modCopy {f : CopyOp → CopyOp} (h : Kept s₀ s) : Kept s₀ (s.modCopy c k f) := h

theorem Kept.endReads (h : Kept s₀ s) : Kept s₀ (s.endReads c k) := Kept.settle h

theorem Kept.putChunk {bs : List Byte} (h : Kept s₀ s) : Kept s₀ (s.putChunk c o n bs b) := by
  have hwritten {gs : List (Nat × List Byte)} : Kept s₀ (gs.foldl (fun s g => s.writeLocal c .loc g.1 g.2) s) :=
    h.foldl fun _ _ h => h.writeLocal
  rw [State.putChunk]
  refine .both (.both (Kept.dropSb (Kept.modCopy hwritten)) hwritten) ?_
  split
  · exact h
  · exact h
  · exact h
  · exact h
  · exact .both h h

theorem Kept.readChunk (h : Kept s₀ s) : Kept s₀ (s.readChunk c o) := by
  rw [State.readChunk]
  dsimp only
  split
  · exact h.copyFreeze
  · exact h.copyFault
  · exact h.copyFault
  · have hcounted : Kept s₀ (if o.lay.total ≤ o.pos + o.nextSize then s.countCopy c o else (s, none)).1 := by
      split
      · exact h.countCopy
      · exact h
    split
    · exact hcounted.copyFault
    · exact .both (Kept.endReads (Kept.modCopy hcounted.putChunk)) (Kept.modCopy hcounted.putChunk)

/-! ### The destination (R183, R190, R191, R193) -/

theorem Kept.takeChunk (h : Kept s₀ s) : Kept s₀ (s.takeChunk c ch) := Kept.modCell h.creditChunk

theorem Kept.refuseChunk {t : Option TrapInfo} (h : Kept s₀ s) : Kept s₀ (s.refuseChunk c ch t b) :=
  Kept.modCell (Kept.foldl h fun _ _ h => h.takeChunk)

theorem Kept.rejectChunk (h : Kept s₀ s) : Kept s₀ (s.rejectChunk c ch k) := by
  rw [State.rejectChunk]
  split <;> exact h.refuseChunk

theorem Kept.acceptChunk (h : Kept s₀ s) : Kept s₀ (s.acceptChunk c ch) := by
  rw [State.acceptChunk]
  split
  · exact Kept.register h
  · exact h.rejectChunk

theorem KeptOpt.spillChunk (h : Kept s₀ s) : KeptOpt s₀ (s.spillChunk c r ch) :=
  .bind fun t ht => .map fun _ _ => Kept.modCell (Kept.spillWrite (h.charge t ht))

theorem Kept.writeChunk {g : Chunk} (h : Kept s₀ s) : Kept s₀ (s.writeChunk c g ch) := by
  have hwritten {gs : List (Nat × List Byte)} {sp : Space} {l : Nat} :
      Kept s₀ (gs.foldl (fun s g => s.writeLocal c sp (l + g.1) g.2) (s.takeChunk c ch)) :=
    h.takeChunk.foldl fun _ _ h => h.writeLocal
  rw [State.writeChunk]
  dsimp only
  split
  · exact h.refuseChunk
  · exact .both hwritten (Kept.send (Kept.dropSb (Kept.modCell hwritten)))

theorem Kept.answerEmpty (h : Kept s₀ s) : Kept s₀ (s.answerEmpty c ch) := Kept.send h.takeChunk

/-- What a cell's inbound side does is by a state that is kept. -/
theorem Kept.inboundOnce {p : State × Bool} (h : Kept s₀ s) (hp : s.inboundOnce c = some p) : Kept s₀ p.1 := by
  rw [State.inboundOnce] at hp
  dsimp only at hp
  split at hp
  · split at hp
    · cases hp
      exact h.answerEmpty
    · cases hp
      exact h.acceptChunk
  · split at hp
    · cases hp
      exact h.writeChunk
    · obtain ⟨g, -, rfl⟩ := Option.map_eq_some_iff.mp hp
      exact Kept.dropSb h

theorem Kept.drain (h : Kept s₀ s) : Kept s₀ (s.drain c n) := by
  induction n generalizing s with
  | zero => exact h
  | succ n ih =>
    rw [State.drain]
    split
    · exact h
    next t ht => exact h.inboundOnce ht
    next t ht => exact ih (h.inboundOnce ht)

theorem Kept.drainAll (h : Kept s₀ s) : Kept s₀ (s.drainAll c) := h.drain

theorem Kept.bufferChunk (h : Kept s₀ s) : Kept s₀ (s.bufferChunk c ch) := by
  refine .both h ?_
  dsimp only
  split
  next t ht => exact KeptOpt.spillChunk h t ht
  next => exact h.refuseChunk.pushEvent

theorem Kept.freezeEngine (h : Kept s₀ s) : Kept s₀ (s.freezeEngine c o n) :=
  Kept.tell (Kept.modCell (Kept.modCopy h.purgeCopy))

end

/-! ### The events of the two engines -/

section
variable (s : State)

theorem answers_tileOpStart : Answers s (execTileOpStart s) := by
  have h := Kept.refl s
  rw [execTileOpStart]
  dsimp only
  split
  · exact .event h
  next t u hu =>
    have hchosen : Kept s u := h.chooseTenant hu
    split
    · exact .event hchosen
    · split
      · exact .event (Kept.abandonTile (Kept.consumeAll (Kept.spend hchosen)))
      · exact .event (Kept.modCell (Kept.consumeAll (Kept.spend hchosen)))

theorem answers_tileOpRetire : Answers s (execTileOpRetire s) := by
  have h := Kept.refl s
  rw [execTileOpRetire]
  dsimp only
  split
  · exact .event h
  next o _ =>
    have hdropped : Kept s (State.dropTile (if (s.tileWrite s.cur.cell o).1.resident s.cur.cell o.ctx o.task then
        (s.tileWrite s.cur.cell o).1.modCtx s.cur.cell o.ctx (·.addFlags (s.tileWrite s.cur.cell o).2)
        else (s.tileWrite s.cur.cell o).1) s.cur.cell o.key) := Kept.dropTile (.both (Kept.modCtx h.tileWrite) h.tileWrite)
    exact .both (.event h) (.event (.both hdropped hdropped.finishAct))

theorem answers_copyTokenRefill (r c : Nat) : Answers s (execCopyTokenRefill r c s) := by
  have h := Kept.refl s
  rw [execCopyTokenRefill]
  split
  · exact .event h
  · exact .both (.event h) (.event (Kept.modRegion h.repay))

theorem answers_copyStart : Answers s (execCopyStart s) := by
  have h := Kept.refl s
  rw [execCopyStart]
  dsimp only
  split
  next t u hu =>
    have hchosen : Kept s u := h.chooseTenant hu
    split
    · exact .event hchosen
    · exact .event (Kept.modCopy (.both hchosen (Kept.spend hchosen)))
  next =>
    split
    · exact .event h
    · exact .event (Kept.readChunk (Kept.modCell ((KeptOpt.draw h).getD h)))

theorem answers_copyChunkArrival : Answers s (execCopyChunkArrival s) := by
  have h := Kept.refl s
  rw [execCopyChunkArrival]
  dsimp only
  split
  · refine .both (.event h) ?_
    split
    · exact .event (Kept.drainAll (Kept.dropSb (Kept.modCell (Kept.rejectChunk (Kept.modCell h)))))
    · exact .event (Kept.drainAll (Kept.bufferChunk (Kept.modCell h)))
  · exact .event h

theorem answers_copyAcknowledgement : Answers s (execCopyAcknowledgement s) := by
  have h := Kept.refl s
  rw [execCopyAcknowledgement]
  dsimp only
  split
  · split
    · exact .event h
    · split
      · exact .both (.event (Kept.abandonCopy h)) (.both (.event (Kept.modCopy h))
          (.event (.both (Kept.copyFreeze h) (Kept.copyFault h))))
      · exact .both (.event (Kept.freezeEngine h)) (.event (Kept.modCopy h))
  · exact .event h

theorem answers_copyRetire : Answers s (execCopyRetire s) := by
  have h := Kept.refl s
  rw [execCopyRetire]
  dsimp only
  split
  · exact .event h.drainAll
  · exact .event (Kept.drainAll (.both h.dropCopy h.dropCopy.finishAct))

end

/-! ### The rows of the two engines -/

section
variable {s : State} (hs : issuing s = true)
include hs

theorem answers_mma (x : ArgMma) : Answers s (execMma x s) := .issue hs (.issueTile (.refl s))
theorem answers_accz (x : ArgAccz) : Answers s (execAccz x s) := .issue hs (.issueTile (.refl s))
theorem answers_accsc (x : ArgAccsc) : Answers s (execAccsc x s) := .issue hs (.issueTile (.refl s))
theorem answers_accst (x : ArgAccmv) : Answers s (execAccst x s) := .issue hs (.issueTile (.refl s))
theorem answers_accld (x : ArgAccmv) : Answers s (execAccld x s) := .issue hs (.issueTile (.refl s))
theorem answers_send (x : ArgSend) : Answers s (execSend x s) := .issue hs (.sendCopy (.refl s))
theorem answers_sendLay (x : ArgSend) : Answers s (execSendLay x s) := .issue hs (.sendCopy (.refl s))
theorem answers_fill (x : ArgFill) : Answers s (execFill x s) := .issue hs (.fillCopy (.refl s))
theorem answers_fillLay (x : ArgFill) : Answers s (execFillLay x s) := .issue hs (.fillCopy (.refl s))

theorem answers_sendt (x : ArgSendt) : Answers s (execSendt x s) := by
  refine .issue hs ?_
  dsimp only
  split
  · exact .trap
  · exact .both .trap (.issueCopy (.refl s))

end

end Sys2Proof.Machine
end

section
/-! PROOFS. What the pool controllers keep (R153 to R175). -/
namespace Sys2Proof.Machine

section
variable {s₀ s : State} {c i k n r : Nat} {w : Word} {p : Pool}

theorem KeptRes.allocate {d : SReg} {t : Option PReg} {m : Word} (h : Kept s₀ s) : KeptRes s₀ (s.allocate d t w m) :=
  .bind fun _ _ => .ok h

theorem Kept.finishTalloc {q : PoolReq} {hd : Option Word} {b : Bool} {t : Option PReg} {d : SReg} (h : Kept s₀ s) :
    Kept s₀ (s.finishTalloc q hd b t d w) := by
  cases hd with
  | some _ => exact h
  | none => exact .both h.takeTrap (.both h h)

theorem Kept.handleAt (h : Kept s₀ s) : Kept s₀ (s.handleAt c k w n i r).1 := by
  rw [State.handleAt]
  split
  · exact h
  · exact h.tileEvent

theorem KeptRes.handleIssue {d : Option SReg} (h : Kept s₀ s) : KeptRes s₀ (s.handleIssue k w n d) := by
  refine .both (.error _) (.both ?_ (.ok h))
  dsimp only
  split
  · exact .ok h.handleAt.takeTrap
  · exact .update h.handleAt

theorem Kept.returnTile (h : Kept s₀ s) : Kept s₀ (s.returnTile c w) := by
  rw [State.returnTile]
  split
  · exact .both h (Kept.settle h)
  · exact h

theorem Kept.setPool (h : Kept s₀ s) : Kept s₀ (s.setPool c n p) := by
  refine .both (Kept.modCell ?_) (.both (Kept.modCell ?_) (Kept.writeLocal (Kept.modCell ?_)))
  all_goals split <;> exact h

theorem Kept.enlarge (h : Kept s₀ s) : Kept s₀ (s.enlarge r c n p) := by
  rw [State.enlarge]
  split
  next t a ht _ => exact Kept.settle (Kept.modRegion (Kept.modCell (h.charge t ht)))
  next => exact Kept.modRegion h.pushEvent

end

section
variable (s : State)

theorem answers_tallocRequestArrival : Answers s (execTallocRequestArrival s) := by
  have h := Kept.refl s
  rw [execTallocRequestArrival]
  dsimp only
  split
  · split
    · exact .event h
    · exact .both (.event h) (.both (.event h) (.event (Kept.settle h)))
  · exact .event h

theorem answers_tallocCancel : Answers s (execTallocCancel s) := by
  have h := Kept.refl s
  rw [execTallocCancel]
  dsimp only
  split
  · split
    · exact .event h
    · split
      · exact .event h
      · exact .event h
  · exact .event h

theorem answers_grantReplyArrival : Answers s (execGrantReplyArrival s) := by
  have h := Kept.refl s
  rw [execGrantReplyArrival]
  dsimp only
  split
  · split
    · exact .event (Kept.finishTalloc h)
    · split
      · exact .event h
      · exact .event (Kept.frBump (Kept.send h))
  · exact .event h

theorem answers_handleOperationArrival : Answers s (execHandleOperationArrival s) := by
  have h := Kept.refl s
  rw [execHandleOperationArrival]
  dsimp only
  split
  · refine .both (.event (Kept.returnTile h)) ?_
    have hat {c k n i r : Nat} {w : Word} : Kept s ((s.land s.cur.k).handleAt c k w n i r).1 := Kept.handleAt h
    split
    · split
      · exact .event hat.takeTrap
      · exact .event (Kept.modCtx hat)
    · exact .event hat
  · exact .event h

theorem answers_abandonedTile (c p t : Nat) : Answers s (execAbandonedTile c p t s) := by
  have h := Kept.refl s
  rw [execAbandonedTile]
  split
  · exact .both (.event h) (.event (Kept.pushEvent h))
  · exact .event h

theorem answers_stallWatchdog (r : Nat) : Answers s (execStallWatchdog r s) := by
  have h := Kept.refl s
  rw [execStallWatchdog]
  dsimp only
  split
  · exact .event h
  · refine .both (.event h) (.both (.event h) ?_)
    split
    · exact .event h
    · exact .event (Kept.enlarge h)

end

section
variable {s : State} (hs : issuing s = true)
include hs

theorem answers_talloc (x : ArgDABi) : Answers s (execTalloc x s) := .issue hs (.allocate (.refl s))
theorem answers_tallocTry (x : ArgSel) : Answers s (execTallocTry x s) := .issue hs (.allocate (.refl s))
theorem answers_tseal (x : ArgABi) : Answers s (execTseal x s) := .issue hs (.both (.error _) (.handleIssue (.refl s)))
theorem answers_tdrop (x : ArgA) : Answers s (execTdrop x s) := .issue hs (.handleIssue (.refl s))
theorem answers_tcount (x : ArgDA) : Answers s (execTcount x s) := .issue hs (.handleIssue (.refl s))

theorem answers_poolcfg (x : ArgPoolcfg) : Answers s (execPoolcfg x s) :=
  .issue hs (.update (.both (Kept.refl s).setPool (.refl s)))

theorem answers_poolst (x : ArgPoolst) : Answers s (execPoolst x s) := by
  refine .issue hs ?_
  dsimp only
  split
  · exact .error _
  · exact .update (.refl s)

end

end Sys2Proof.Machine
end

section
/-! PROOFS. What the scheduler and the placers keep (R29, R70, R243 to R248, R271, R275, R276, R345), and what the ends of barriers
and reductions do (R342, R346, R353, R354). -/
namespace Sys2Proof.Machine

section
variable {s₀ s : State} {c i k n r : Nat} {x : Rec} {b : BarInst} {red : RedInst} {all : Bool}

/-! ### Starts and rings -/

theorem Kept.startTask {ty : TaskType} {p : TaskPlace} {cl : Option Nat} (h : Kept s₀ s) :
    Kept s₀ (s.startTask c k x ty p n cl) := by
  have hbound {f : Cell → Cell} {g : Ctx → Ctx} {i : Nat} {w : Word} {bs : List (Nat × Nat)} :
      Kept s₀ (((s.modCell c f).modCtx c i g).bindStatic c i k w bs) := Kept.bindStatic h
  rw [State.startTask]
  split
  · exact hbound.takeTrap
  · exact hbound

theorem Kept.countDropped (h : Kept s₀ s) : Kept s₀ (s.countDropped r c) := h

theorem Kept.discardRecord (h : Kept s₀ s) : Kept s₀ (s.discardRecord c x n) :=
  Kept.faultReply (.both (Kept.frBump h) (Kept.pushEvent h))

theorem Kept.setRing {g : Ring} (h : Kept s₀ s) : Kept s₀ (s.setRing c k g) := h

theorem Kept.refillRing (h : Kept s₀ s) : Kept s₀ (s.refillRing c k) := by
  rw [State.refillRing]
  refine .both h ?_
  split
  · have hcounted {qs : List Nat} : Kept s₀ (qs.foldl (fun s q => s.countDropped q c) s) := h.foldl fun _ _ h => h
    exact Kept.pushEvent (hcounted.setImage.getD hcounted)
  · refine .both h ?_
    split
    · exact h
    next t ht => exact Kept.setRing (h.setImage t ht)

theorem Kept.lateIn (h : Kept s₀ s) : Kept s₀ (s.lateIn c) :=
  Kept.foldl h fun _ _ h => .both h (h.ringPush.getD h)

theorem Kept.clearHalts (h : Kept s₀ s) : Kept s₀ (s.clearHalts c) := .both h h

theorem Kept.popRing (h : Kept s₀ s) : Kept s₀ (s.popRing c k) := h

/-! ### Placers and clusters (R275, R345) -/

theorem Kept.clusters {xs : Assoc ClusterSt} (h : Kept s₀ s) : Kept s₀ { s with clusters := xs } := h

theorem Kept.startCluster {ty : TaskType} {cs : List Nat} (h : Kept s₀ s) : Kept s₀ (s.startCluster i k x ty cs n) := by
  refine Kept.clusters (Kept.foldl (Kept.modRegion h) fun t c ht => ?_)
  split
  · exact ht.startTask
  · exact ht

theorem KeptOpt.servePlace {q : PlaceReq} (h : Kept s₀ s) : KeptOpt s₀ (s.servePlace i q) := by
  rw [State.servePlace]
  refine .both (.given h) ?_
  split
  · exact .given h.discardRecord
  · refine .both ?_ ?_
    · split
      · exact .given h
      · exact .given h.discardRecord
    · split
      · exact .given h.startCluster
      · exact .absent

theorem KeptOpt.servePlaces {before qs : List PlaceReq} (h : Kept s₀ s) : KeptOpt s₀ (s.servePlaces i before qs) := by
  induction qs generalizing before with
  | nil => exact .absent
  | cons q qs ih =>
    rw [State.servePlaces]
    split
    next t ht => exact .given (KeptOpt.servePlace h t ht)
    next => exact ih

/-! ### Barriers and reductions that end (R342, R346, R353, R354) -/

theorem Kept.setRed (h : Kept s₀ s) : Kept s₀ (s.setRed n red all) := Kept.foldl h fun _ _ h => h

theorem Kept.tellLinks {ls : List RLane} (h : Kept s₀ s) : Kept s₀ (s.tellLinks n red ls all) := h.foldl fun _ _ h => h

theorem Kept.breakRed (h : Kept s₀ s) : Kept s₀ (s.breakRed n red all) := h.tellLinks.setRed

theorem Kept.freeBar (h : Kept s₀ s) : Kept s₀ (s.freeBar k b) := (h.wakeBarrier.wakeBarrier :)

theorem Kept.freeRed (h : Kept s₀ s) : Kept s₀ (s.freeRed n red) := (h.breakRed.breakRed :)

theorem Kept.freeStakes {rs : List Nat} (h : Kept s₀ s) : Kept s₀ (s.freeStakes rs) :=
  (h.foldl fun _ _ h => h.freeBar).foldl fun _ _ h => h.freeRed

theorem Kept.breakOver (h : Kept s₀ s) : Kept s₀ (s.breakOver k) := h.foldl fun _ _ h => h.breakRed

theorem Kept.addLanes {p g o : Nat} {ls : List RLane} (h : Kept s₀ s) : Kept s₀ (s.addLanes p n g o ls) := h

end

section
variable (s : State)

theorem answers_fetchQueueFill : Answers s (execFetchQueueFill s) := by
  have h := Kept.refl s
  rw [execFetchQueueFill]
  refine .both (.event h) ?_
  split
  · exact .event h
  · exact .event h

theorem answers_dispatch : Answers s (execDispatch s) := by
  have hfilled {ts : List Nat} {c : Nat} : Kept s ((ts.foldl (fun s t => s.refillRing c t) (s.clearHalts c)).lateIn c) :=
    Kept.lateIn (Kept.foldl (Kept.refl s).clearHalts fun _ _ h => h.refillRing)
  rw [execDispatch]
  split
  · exact .event (Kept.discardRecord (Kept.popRing hfilled))
  · exact .event (Kept.send (Kept.popRing hfilled))
  · refine .both (.event hfilled) ?_
    split
    · exact .event hfilled
    next t u hu =>
      have hchosen : Kept s u := hfilled.chooseTenant hu
      split
      · exact .event hchosen
      · split
        · exact .event (Kept.startTask (Kept.popRing (Kept.spend hchosen)))
        · exact .event hchosen

theorem answers_placerDecision (d : Nat) : Answers s (execPlacerDecision d s) :=
  .event ((KeptOpt.servePlaces (.refl s)).getD (.refl s))

theorem answers_placerAging (d : Nat) : Answers s (execPlacerAging d s) := by
  have h := Kept.refl s
  rw [execPlacerAging]
  refine .both (.event h) ?_
  split
  · exact .event h
  · dsimp only
    split
    · exact .event h
    · exact .event h

end

end Sys2Proof.Machine
end

section
/-! PROOFS. What regions, tenants and isolation partitions keep (R132, R150, R269 to R283). -/
namespace Sys2Proof.Machine

section
variable {s₀ s : State} {a c k lo hi n r : Nat} {tag : Nat × Nat} {g : Grant} {rs : List Nat}

/-! ### Scrubbing and creation (R132, R150, R269) -/

theorem Kept.scrubHome (h : Kept s₀ s) : Kept s₀ (s.scrubHome lo hi tag) := by
  have hcleared : Kept s₀ { s with mem := Memory.clear lo hi s.mem } := h.trans ⟨rfl, rfl, Memory.wf_clear lo hi⟩
  rw [State.scrubHome]
  exact .both hcleared hcleared

theorem Kept.scrubGrant (h : Kept s₀ s) : Kept s₀ (s.scrubGrant g tag) := (h.scrubHome.scrubHome.scrubHome :)

theorem Kept.clearRecord (h : Kept s₀ s) : Kept s₀ (s.clearRecord r g) := h.scrubHome

theorem Kept.addRegion {x : Region} {gs : List Grant} (h : Kept s₀ s) : Kept s₀ (s.addRegion n x gs) :=
  Kept.foldl h fun _ _ h => h.clearRecord

theorem Kept.passGrant (h : Kept s₀ s) : Kept s₀ (s.passGrant g) := Kept.scrubHome (Kept.scrubHome h)

/-! ### Parking (R273, R274) -/

theorem Kept.checkedImage (h : Kept s₀ s) : Kept s₀ (s.checkedImage c k) := .both h.refillRing h

/-- Moving records to an image charges their regions' spill budgets. -/
theorem Kept.chargedRecords {f : Rec → Nat} {qs : List Rec} {as : List (Rec × Nat)} {bs : List Rec} (h : Kept s₀ s) :
    Kept s₀ (qs.foldl (fun (a : State × List (Rec × Nat) × List Rec) r =>
      match a.1.charge (f r) 88 with
      | some s => (s, a.2.1 ++ [(r, f r)], a.2.2)
      | none => (a.1, a.2.1, a.2.2 ++ [r])) (s, as, bs)).1 := by
  induction qs generalizing s as bs with
  | nil => exact h
  | cons q qs ih =>
    rw [List.foldl_cons]
    dsimp only
    split
    next t ht => exact ih (h.charge t ht)
    next => exact ih h

theorem Kept.parkRing {root : Nat} (h : Kept s₀ s) : Kept s₀ (s.parkRing c k root) := by
  have hcharged {g : Ring} {qs : List Rec} : Kept s₀ (qs.foldl (fun (a : State × List (Rec × Nat) × List Rec) r =>
      match a.1.charge (headRegion r.head) 88 with
      | some s => (s, a.2.1 ++ [(r, headRegion r.head)], a.2.2)
      | none => (a.1, a.2.1, a.2.2 ++ [r])) ((s.checkedImage c k).setRing c k g, [], [])).1 :=
    Kept.chargedRecords (f := fun r => headRegion r.head) (Kept.setRing h.checkedImage)
  rw [State.parkRing]
  dsimp only
  split
  next t ht => exact Kept.foldl (hcharged.setImage t ht) fun _ _ h => h.spillLost
  next => exact Kept.foldl (Kept.foldl hcharged fun _ _ h => h.credit) fun _ _ h => h.spillLost

theorem Kept.park (h : Kept s₀ s) : Kept s₀ (s.park r) :=
  Kept.foldl (Kept.modRegion h) fun _ _ h => Kept.foldl h.parkRing fun _ _ h => .both h.parkEndpoint h

theorem Kept.resumeRing {root : Nat} (h : Kept s₀ s) : Kept s₀ (s.resumeRing c k root) := by
  rw [State.resumeRing]
  refine .both h.checkedImage ?_
  split
  · exact h.checkedImage
  next t ht => exact Kept.setRing (h.checkedImage.setImage t ht)

theorem Kept.unpark (h : Kept s₀ s) : Kept s₀ (s.unpark r) := by
  refine Kept.foldl (Kept.cells (Kept.modRegion h)) fun t c ht => Kept.resumeRing (Kept.foldl ht fun u e hu => ?_)
  split
  · exact .both hu hu.resumeEndpoint
  · exact hu

/-! ### Tear-down (R282) -/

theorem Kept.killTasks (h : Kept s₀ s) : Kept s₀ (s.killTasks rs) :=
  Kept.foldl h fun _ _ h => Kept.foldl h fun _ _ h => .both h.kill h

theorem Kept.dropRecords (h : Kept s₀ s) : Kept s₀ (s.dropRecords c k rs) := by
  rw [State.dropRecords]
  refine Kept.setRing ?_
  split
  · exact .both (h.checkedImage.setImage.getD h.checkedImage) h.checkedImage
  · exact h.checkedImage

theorem Kept.dropHubs (h : Kept s₀ s) : Kept s₀ (s.dropHubs rs) := by
  refine Kept.foldl h fun t c ht => Kept.foldl ht fun u j hu => ?_
  split
  · exact hu
  · exact .both hu.dropHub hu.removeOffers

theorem Kept.forgetAll (h : Kept s₀ s) : Kept s₀ (s.forgetAll rs) := by
  have hforgot : Kept s₀ ((s.cells.map (·.1)).foldl (fun s c =>
      let s := (s.orphanMsgs c rs).foldl (fun s m => s.returnMsg c m 3) s
      let s := ((s.cell c).over8.filter (·.of rs)).foldl (fun s q => s.credit8 q) s
      let s := ((s.cell c).rings.map (·.1)).foldl (fun s t => s.dropRecords c t rs) s
      s.modCell c fun x => x.forget rs) s) := by
    refine Kept.foldl h fun t c ht => Kept.modCell (Kept.foldl (Kept.foldl (Kept.foldl ht ?_) ?_) ?_)
    · exact fun _ _ h => h.returnMsg
    · exact fun _ _ h => h.credit8
    · exact fun _ _ h => h.dropRecords
  exact Kept.freeStakes hforgot

theorem Kept.report (h : Kept s₀ s) : Kept s₀ (s.report n r) := h

theorem Kept.loads {qs : List LoadWait} (h : Kept s₀ s) : Kept s₀ { s with loads := qs } := h

theorem Kept.endSubtree (h : Kept s₀ s) : Kept s₀ (s.endSubtree r) := by
  rw [State.endSubtree]
  refine Kept.foldl (Kept.forgetAll (Kept.dropHubs (Kept.loads (Kept.foldl ?_ fun _ _ h => h.report)))) fun _ _ h => h.settle
  exact Kept.cells (Kept.killTasks (Kept.modRegion h))

theorem Kept.withoutRegions {xs : Assoc Region} {ts : List Torn} {ys : Assoc (Nat × Nat)} {as : List Nat} (h : Kept s₀ s) :
    Kept s₀ { s with regions := xs, torn := ts, roots := ys, staleAsids := as } := h

theorem Kept.finishTearDown (h : Kept s₀ s) : Kept s₀ (s.finishTearDown r) := by
  rw [State.finishTearDown]
  refine Kept.foldl (Kept.withoutRegions (Kept.foldl (Kept.forgetAll (Kept.dropHubs (Kept.cells h))) ?_)) fun _ _ h => h.scrubGrant
  exact fun _ _ h => h.settle

theorem KeptRes.killSubtree {d : SReg} (h : Kept s₀ s) : KeptRes s₀ (s.killSubtree n d) := by
  have hbegun : Kept s₀ (if ((s.region n).map (·.dying)).getD false then s else s.endSubtree n) := .both h h.endSubtree
  exact .both (.ok (Kept.modMe hbegun)) (.update hbegun.finishTearDown)

theorem Kept.modLink {f : LinkState → LinkState} (h : Kept s₀ s) : Kept s₀ (s.modLink k f) := h

end

/-! ### The events of the Slath processor and of pre-emption -/

section
variable (s : State)

theorem answers_tenantCreate (q : TenantReq) : Answers s (execTenantCreate q s) := by
  have h := Kept.refl s
  rw [execTenantCreate]
  refine .both (.event h) (.event (Kept.foldl ?_ fun _ _ h => h.writeDescriptor))
  exact h.addRegion (n := q.no)

theorem answers_preemptionRequest (q : PreemptReq) : Answers s (execPreemptionRequest q s) :=
  .both (.event (.refl s)) (.event (Kept.foldl (.refl s) fun _ _ h => .both (Kept.clearHalts h) h))

theorem answers_tenantTeardown (r : Nat) : Answers s (execTenantTeardown r s) := by
  have h := Kept.refl s
  rw [execTenantTeardown]
  split
  · exact .event h
  next x _ =>
    refine .both (.event h) ?_
    have hbegun : Kept s (if x.dying then s else
        (s.cells.map (·.1)).foldl (fun s c => if (s.cell c).run9.any (·.tenant == r) then s.endRun9 c else s) (s.endSubtree r)) :=
      .both h (Kept.foldl h.endSubtree fun _ _ h => .both h h)
    exact .both (.event hbegun) (.event (Kept.remeasure (Kept.finishTearDown hbegun)))

theorem answers_isolationPartitionConfigure (q : PartReq) : Answers s (execIsolationPartitionConfigure q s) := by
  have h := Kept.refl s
  refine .both (.event h) (.event (Kept.remeasure ?_))
  refine Kept.foldl (Kept.foldl (Kept.foldl h fun _ _ h => .both h h) fun _ _ h => h) fun _ _ h => .both h.modLink h

end

/-! ### The rows of regions and budgets -/

section
variable {s : State} (hs : issuing s = true)
include hs

theorem answers_rgnactNew (x : ArgDAB) : Answers s (execRgnactNew x s) := by
  refine .issue hs (.bind fun _ _ => ?_)
  refine .both (.bind fun _ _ => ?_) (.bind fun _ _ => ?_)
  all_goals
    dsimp only
    split
    · exact .update (.refl s)
    · exact .update (Kept.addRegion (.both (.refl s) (Kept.foldl (.refl s) fun _ _ h => h.passGrant)))

theorem answers_rgnactPark (x : ArgDA) : Answers s (execRgnactPark x s) :=
  .issue hs (.both (.update (.refl s)) (.both (.update (.refl s)) (.both (.ok (.refl s)) (.update (Kept.refl s).park))))

theorem answers_rgnactResume (x : ArgDA) : Answers s (execRgnactResume x s) :=
  .issue hs (.both (.update (.refl s)) (.both (.update (.refl s)) (.update (Kept.refl s).unpark)))

theorem answers_rgnactQuiet (x : ArgDA) : Answers s (execRgnactQuiet x s) := by
  refine .issue hs (.both (.update (.refl s)) ?_)
  dsimp only
  split
  · exact .ok (.refl s)
  · exact .update (Kept.modRegion (.refl s))

theorem answers_rgnkillKill (x : ArgDA) : Answers s (execRgnkillKill x s) :=
  .issue hs (.both (.update (.refl s)) (.killSubtree (.refl s)))

theorem answers_rgnkillExit (x : ArgDA) : Answers s (execRgnkillExit x s) :=
  .issue hs (.both (.update (.refl s)) (.both (.killSubtree (.refl s)) (.ok (.refl s))))

theorem answers_budgetRd (x : ArgD) : Answers s (execBudgetRd x s) := .issue hs (.update (.refl s))

theorem answers_budgetExt (x : ArgD) : Answers s (execBudgetExt x s) := by
  refine .issue hs ?_
  dsimp only
  split
  · exact .update (.refl s)
  · exact .update (.both (.refl s) (.refl s))

end

end Sys2Proof.Machine
end

section
/-! PROOFS. What barriers and reductions keep (R342 to R353). -/
namespace Sys2Proof.Machine

section
variable {s₀ s : State} {n p : Nat} {r : RedInst} {xs : Assoc BarInst} {ys : Assoc RedInst}

theorem Kept.bars (h : Kept s₀ s) : Kept s₀ { s with bars := xs } := h

theorem Kept.reds (h : Kept s₀ s) : Kept s₀ { s with reds := ys } := h

theorem Kept.forwardLanes (h : Kept s₀ s) : Kept s₀ (s.forwardLanes p n r) := by
  rw [State.forwardLanes]
  split
  · exact .both h h
  · exact h

end

section
variable (s : State)

theorem answers_barrierRelease (k : Nat) : Answers s (execBarrierRelease k s) := by
  rw [execBarrierRelease]
  split
  · exact .event (.refl s)
  · exact .both (.event (Kept.refl s).setBar) (.event (.refl s))

theorem answers_reductionCombine : Answers s (execReductionCombine s) := by
  have h := Kept.refl s
  rw [execReductionCombine]
  dsimp only
  split
  · split
    · exact .event h
    · exact .both (.event h) (.event h)
  · exact .event h
  · split
    · exact .event h.forwardLanes
    · exact .event h

theorem answers_reductionPartialArrival : Answers s (execReductionPartialArrival s) := by
  have h := Kept.refl s
  rw [execReductionPartialArrival]
  dsimp only
  split
  · split
    · exact .event h
    · have htold {b : Bool} {r : RedInst} {c k : Nat} {w₁ w₂ w₃ w₄ : Word} : Kept s
          (if b then (s.land s.cur.k).pushEvent r.bar.owner c k 0 w₁ w₂ w₃ w₄ else s.land s.cur.k) :=
        .both (Kept.pushEvent h) h
      exact .both (.event h) (.both (.event htold.breakRed) (.event (Kept.reds htold)))
  · exact .event h

theorem answers_reductionResult (k : Nat) : Answers s (execReductionResult k s) := by
  have h := Kept.refl s
  rw [execReductionResult]
  split
  · exact .event h
  · refine .both (.event h.breakRed) (.both (.event h) (.both (.event h.breakRed)
      (.both (.event ?_) (.both (.event h) (.event h.setRed)))))
    exact Kept.reds h.tellLinks

end

section
variable {s : State} (hs : issuing s = true)
include hs

theorem answers_barv (x : ArgBarv) : Answers s (execBarv x s) := by
  refine .issue hs (.bind fun _ _ => ?_)
  split
  · refine .bind fun _ _ => ?_
    split
    · exact .stall
    · exact .update (Kept.bars (.refl s))
  · exact .ok (.refl s)

theorem answers_barw (x : ArgDA) : Answers s (execBarw x s) := by
  refine .issue hs (.bind fun _ _ => ?_)
  split
  · exact .both (.update (.refl s)) (.ok (.refl s))
  · exact .ok (.refl s)

theorem answers_redp (x : ArgRedp) : Answers s (execRedp x s) := by
  refine .issue hs (.bind fun _ _ => ?_)
  split
  · exact .ok (.refl s)
  · refine .bind fun _ _ => ?_
    split
    · exact .stall
    · exact .update (Kept.send (Kept.reds (.refl s)))

theorem answers_redg (x : ArgRedg) : Answers s (execRedg x s) := by
  refine .issue hs (.bind fun _ _ => ?_)
  split
  · exact .ok (.refl s)
  · exact .both (.update (.refl s)) (.ok (.refl s))

theorem answers_bcfgSet (x : ArgBcfg) : Answers s (execBcfgSet x s) :=
  .issue hs (.bind fun _ _ => .update (.both (Kept.bars (.refl s)) (.refl s)))

theorem answers_bcfgFree (x : ArgBcfg) : Answers s (execBcfgFree x s) := by
  refine .issue hs ?_
  dsimp only
  split
  · exact .update (.refl s)
  · exact .update (Kept.refl s).freeBar

theorem answers_bcfgBrk (x : ArgBcfg) : Answers s (execBcfgBrk x s) := by
  refine .issue hs ?_
  dsimp only
  split
  · exact .update (.refl s)
  · exact .update (Kept.refl s).setBar

theorem answers_bcfgRd (x : ArgBcfg) : Answers s (execBcfgRd x s) := .issue hs (.update (.refl s))

theorem answers_rcfgSet (x : ArgRcfg) : Answers s (execRcfgSet x s) :=
  .issue hs (.bind fun _ _ => .update (.both (Kept.reds (.refl s)) (.refl s)))

theorem answers_rcfgFree (x : ArgRcfg) : Answers s (execRcfgFree x s) := by
  refine .issue hs ?_
  split
  · exact .update (.refl s)
  · exact .update (Kept.refl s).freeRed

theorem answers_rcfgBrk (x : ArgRcfg) : Answers s (execRcfgBrk x s) := by
  refine .issue hs ?_
  split
  · exact .update (.refl s)
  · exact .update (Kept.refl s).breakRed

theorem answers_rcfgRd (x : ArgRcfg) : Answers s (execRcfgRd x s) := .issue hs (.update (.refl s))

end

end Sys2Proof.Machine
end

section
/-! PROOFS. What traps, the retry ring, freezes, thaws and scrubs keep (R272, R356 to R379). -/
namespace Sys2Proof.Machine

section
variable {s₀ s : State} {c i k n r : Nat} {a : Acc} {t : TrapInfo}

/-! ### The retry ring (R363, R377, R378) -/

theorem Kept.dropEntry (h : Kept s₀ s) : Kept s₀ (s.dropEntry k) := h
theorem Kept.outEntry (h : Kept s₀ s) : Kept s₀ (s.outEntry k) := h

theorem Kept.retryLocal (h : Kept s₀ s) : Kept s₀ (s.retryLocal a) := by
  rw [State.retryLocal]
  dsimp only
  split
  · exact h.faultMem
  · split
    · refine .both ?_ h.deliver
      split
      · exact h.consumeAt.peerTrap
      · exact h.consumeAt.deliver
    · exact .both h.performHere h.arrive8
    · exact h.performWrite

theorem KeptRes.retryInLine (h : Kept s₀ s) : KeptRes s₀ (s.retryInLine a) := by
  refine .bind fun _ _ => ?_
  split
  · exact .stall
  next u va f ht => exact .ok (Kept.deliverFault (.of_fst ht h.translateNow))
  next u ps ht =>
    have htranslated : Kept s₀ u := .of_fst ht h.translateNow
    dsimp only
    split
    · exact .ok htranslated.lateAcc
    · exact .both (.ok htranslated.lateAcc) (.bind fun _ _ => .ok htranslated.performHere)

theorem Kept.announceAcc (h : Kept s₀ s) : Kept s₀ (s.announceAcc a) := h

theorem KeptRes.announceAgain (h : Kept s₀ s) : KeptRes s₀ (s.announceAgain a) :=
  .bind fun _ _ => .ok h.announceAcc.sendSc

theorem KeptRes.retrySc (h : Kept s₀ s) : KeptRes s₀ (s.retrySc a) := by
  refine .both ?_ (.announceAgain h)
  split
  next r hr => exact .announceAgain (h.translateSc hr)
  · exact .ok h.trapSc
  · exact .ok h.deliverFault
  · exact .stall

theorem Kept.retryPeer (h : Kept s₀ s) : Kept s₀ (s.retryPeer a k) := .both (.both h.post h) h.lateAcc

theorem KeptRes.reissue (h : Kept s₀ s) : KeptRes s₀ (s.reissue a) := by
  refine .both (.retrySc h) ?_
  split
  · exact .bind fun _ _ => .ok h.retryPeer
  · exact .both (.both (.retryInLine h) (.bind fun _ _ => .ok h.toStation)) (.bind fun _ _ => .ok h.retryLocal)

theorem Kept.resumeCopy {e : REntry} {f : CopyOp → Nat} (h : Kept s₀ s) : Kept s₀ (s.resumeCopy e f) := h

/-! ### Freezes, interrupts, thaws and scrubs (R361, R370 to R372) -/

theorem Kept.freezeAll (h : Kept s₀ s) : Kept s₀ (s.freezeAll r) :=
  Kept.foldl (Kept.modRegion h) fun _ _ h => .both h h.freezeRegion

theorem Kept.interrupt (h : Kept s₀ s) : Kept s₀ (s.interrupt c i).1 := by
  rw [State.interrupt]
  dsimp only
  split
  · exact h
  · exact h
  · exact h
  · exact Kept.modCtx h.cancelWaits
  · exact Kept.modCtx h.cancelWaits
  · exact h

theorem Kept.takeAsync {q : AsyncTrap} (h : Kept s₀ s) : Kept s₀ (s.takeAsync c i q) := h

theorem Kept.thawCtx (h : Kept s₀ s) : Kept s₀ (s.thawCtx c i) := by
  have hgoing : Kept s₀ (let s := s.modCtx c i fun x => x.thawed s.clock
      if i = 8 then s.modCell c fun x => { x with run8 := x.run8.map (·.thawed s.clock) }
      else if i = 9 then s.modCell c fun x => { x with run9 := x.run9.map (·.thawed s.clock) } else s) :=
    .both h (.both h h)
  rw [State.thawCtx]
  split
  · exact hgoing.takeTrap
  · exact hgoing

theorem Kept.releaseActs (h : Kept s₀ s) : Kept s₀ (s.releaseActs c) := Kept.foldl (Kept.modCell h) fun _ _ h => h.doAct

theorem Kept.touchHubs (h : Kept s₀ s) : Kept s₀ (s.touchHubs r) := h

theorem Kept.settleAll (h : Kept s₀ s) : Kept s₀ s.settleAll := h.foldl fun _ _ h => h.settle

theorem Kept.requeue (h : Kept s₀ s) : Kept s₀ (s.requeue c) := by
  rw [State.requeue]
  split
  · exact h
  · exact .both h h

theorem Kept.scrubCtx (h : Kept s₀ s) : Kept s₀ (s.scrubCtx c i) := .both h.requeue.scrubHome h.kill.scrubHome

theorem Kept.withdrawCopies (h : Kept s₀ s) : Kept s₀ (s.withdrawCopies c r) := h.foldl fun _ _ h => h.purgeCopy.dropCopy

end

section
variable (s : State)

theorem answers_trapEntry : Answers s (execTrapEntry s) := by
  rw [execTrapEntry]
  split
  · exact .event (.refl s)
  · exact .both (.event (Kept.refl s).enterTrap) (.event (.refl s))

theorem answers_supervisorRunCap : Answers s (execSupervisorRunCap s) := by
  rw [execSupervisorRunCap]
  dsimp only
  split
  · exact .event (.refl s)
  · exact .both (.event (.refl s)) (.event (.both (Kept.refl s).endRun9.kill (Kept.refl s).endRun9))

theorem answers_asynchronousTrap : Answers s (execAsynchronousTrap s) := by
  have h := Kept.refl s
  rw [execAsynchronousTrap]
  dsimp only
  split
  · exact .event h
  · refine .both (.event h) ?_
    split
    next t ht => exact .event (.of_fst ht h.interrupt)
    next t ht =>
      have hstopped : Kept s t := .of_fst ht h.interrupt
      exact .event (.both (Kept.trapIn9 hstopped) hstopped)

theorem answers_budget : Answers s (execBudget s) := by
  have h := Kept.refl s
  rw [execBudget]
  refine .both (.event h) ?_
  split
  next t ht => exact .event (.of_fst ht h.interrupt)
  next t ht =>
    have hstopped : Kept s t := .of_fst ht h.interrupt
    split
    · exact .event hstopped.takeTrap
    · exact .event hstopped

theorem answers_budgetHardLimit : Answers s (execBudgetHardLimit s) := by
  rw [execBudgetHardLimit]
  split
  · exact .event (.refl s)
  · exact .both (.event (.refl s)) (.event (Kept.refl s).kill)

theorem answers_thaw (r : Nat) : Answers s (execThaw r s) := by
  refine .event (Kept.settleAll (Kept.touchHubs (Kept.foldl (Kept.modRegion (.refl s)) fun t c ht => Kept.releaseActs ?_)))
  exact Kept.foldl (Kept.modCell ht) fun _ _ h => h.thawCtx

theorem answers_scrub (r : Nat) : Answers s (execScrub r s) := by
  refine .event (Kept.settleAll (Kept.foldl (Kept.modRegion (.refl s)) fun t c ht => Kept.modCell ?_))
  have hscrubbed (is : List Nat) : Kept s (is.foldl (fun s i => s.scrubCtx c i) t) := ht.foldl fun _ _ h => h.scrubCtx
  exact .both (Kept.withdrawCopies (Kept.modCell (hscrubbed _))) (hscrubbed _)

end

section
variable {s : State} (hs : issuing s = true)
include hs

theorem answers_trapCall (x : ArgCode) : Answers s (execTrapCall x s) := .issue hs .trap
theorem answers_brk (x : ArgCode) : Answers s (execBrk x s) := .issue hs .trap
theorem answers_eret (x : ArgG) : Answers s (execEret x s) := .issue hs (.ok (.both (Kept.refl s).returnFrom9 (.refl s)))
theorem answers_rretryCtx (x : ArgD) : Answers s (execRretryCtx x s) := .issue hs (.ok (Kept.refl s).returnFrom9)
theorem answers_trapRing (x : ArgTrapRing) : Answers s (execTrapRing x s) := .issue hs (.update (.refl s))

theorem answers_rfill (x : ArgRfill) : Answers s (execRfill x s) := by
  refine .issue hs ?_
  dsimp only
  split
  · exact .update (.refl s)
  · exact .update (.both (Kept.wake (Kept.wake (Kept.modCtx (Kept.refl s).dropEntry))) (Kept.refl s).dropEntry)

theorem answers_rretry (x : ArgDA) : Answers s (execRretry x s) := by
  refine .issue hs ?_
  dsimp only
  split
  · exact .update (.refl s)
  · refine .bind fun t ht => .update ?_
    split at ht
    · exact KeptRes.reissue (Kept.refl s).outEntry t ht
    · cases ht
      exact Kept.resumeCopy (Kept.refl s).outEntry

theorem answers_rskip (x : ArgDA) : Answers s (execRskip x s) := by
  refine .issue hs ?_
  dsimp only
  split
  · exact .update (.refl s)
  · exact .update (.both (Kept.wake (Kept.refl s).dropEntry) (Kept.resumeCopy (Kept.refl s).dropEntry))

theorem answers_rkillEnt (x : ArgDA) : Answers s (execRkillEnt x s) := by
  refine .issue hs ?_
  dsimp only
  split
  · exact .update (.refl s)
  · exact .update (.both (Kept.refl s).kill (.refl s))

theorem answers_rkillCtx (x : ArgD) : Answers s (execRkillCtx x s) := by
  refine .issue hs ?_
  dsimp only
  split
  · exact .update (.refl s)
  · exact .ok (Kept.refl s).endRun9.kill

theorem answers_frzRgn (x : ArgDA) : Answers s (execFrzRgn x s) :=
  .issue hs (.both (.update (.refl s)) (.both (.update (.refl s)) (.update (Kept.foldl (.refl s) fun _ _ h => h.freezeAll))))

theorem answers_frzRd (x : ArgDA) : Answers s (execFrzRd x s) := .issue hs (.update (.refl s))

end

end Sys2Proof.Machine
end

section
/-! PROOFS. What Wale links and the host's side keep (R382 to R396). -/
namespace Sys2Proof.Machine

section
variable {s₀ s : State} {asid c i k n va vf : Nat}

/-! ### Links (R382 to R387) -/

theorem Kept.sealAll (h : Kept s₀ s) : Kept s₀ (s.sealAll k) := .both h (Kept.net (Kept.modLink h))

theorem Kept.lostWait {w : Word} (h : Kept s₀ s) : Kept s₀ (s.lostWait c i w) := Kept.takeTrap h

theorem Kept.lostAt {w : Option Word} (h : Kept s₀ s) : Kept s₀ ((w.map (s.lostWait c i)).getD s) :=
  KeptOpt.getD (.map fun _ _ => h.lostWait) h

theorem Kept.loseTalloc {w : Word} (h : Kept s₀ s) : Kept s₀ (s.loseTalloc c i w) := by
  rw [State.loseTalloc]
  split
  · exact h.takeTrap
  · exact h

theorem Kept.lose {f : Flight} (h : Kept s₀ s) : Kept s₀ (s.lose f) := by
  rw [State.lose]
  split
  · exact .both h.copyFault h
  · exact h.loseTalloc
  · exact h.loseTalloc
  · split
    · exact .both h.lostWait h
    · exact h.actFault
  · split
    · exact h.lostAt
    · exact h
  · exact .both h.addAsync h.pushEvent
  · exact .both h.lostWait h
  · refine .both h.net ?_
    split
    · exact .both h.breakRed h
    · exact h
  all_goals exact h

theorem Kept.endRotation (h : Kept s₀ s) : Kept s₀ (s.endRotation k n) := Kept.foldl h fun _ _ h => h

theorem Kept.linkDown (h : Kept s₀ s) : Kept s₀ (s.linkDown k) := Kept.breakOver (Kept.endRotation (Kept.modLink h))

theorem Kept.resend (h : Kept s₀ s) : Kept s₀ (s.resend k) := .both h (.both (Kept.linkDown (Kept.modLink h)) (Kept.modLink h))

theorem Kept.takeIn {ps : List Pay} (h : Kept s₀ s) : Kept s₀ (s.takeIn k n ps) := by
  refine h.foldl fun t p ht => ?_
  split
  · exact ht
  · exact ht

theorem Kept.endTurned (h : Kept s₀ s) : Kept s₀ (s.endTurned k) := .both h.endRotation h

theorem Kept.acknowledge (h : Kept s₀ s) : Kept s₀ (s.acknowledge k n) := by
  rw [State.acknowledge]
  split
  · exact h
  · exact h

theorem Kept.loseWaits (h : Kept s₀ s) : Kept s₀ (s.loseWaits k) := by
  refine Kept.breakOver (Kept.foldl (Kept.foldl h fun t p ht => ?_) fun _ _ h => h.copyFault)
  split
  · exact .both ht.takeTrap ht
  · exact .both ht.lostWait ht
  · exact ht.lostAt
  · exact ht

/-! ### The host's side (R224, R388 to R392) -/

theorem Kept.putPieces {ps : List (Nat × Nat × Nat)} {bs : List Byte} (h : Kept s₀ s) : Kept s₀ (s.putPieces vf ps bs) := by
  induction ps generalizing s bs with
  | nil => exact h
  | cons p ps ih => exact ih h.writeHome

theorem KeptOpt.glbWrite {bs : List Byte} (h : Kept s₀ s) : KeptOpt s₀ (s.glbWrite asid va bs) := .map fun _ _ => h.putPieces

theorem Kept.vfError (h : Kept s₀ s) : Kept s₀ (s.vfError vf) := h

theorem Kept.notify (h : Kept s₀ s) : Kept s₀ (s.notify vf n k) := .both (.both h.setChan h.setChan) h.setChan

theorem Kept.moveVf {p : VfSt → Bool} {st : VfSt} (h : Kept s₀ s) : Kept s₀ (s.moveVf vf p st) := h

theorem KeptRes.hpost {x : ArgDAB} {b : Bool} (h : Kept s₀ s) : KeptRes s₀ (s.hpost x b) := by
  refine .bind fun _ _ => ?_
  dsimp only
  split
  · exact .update h
  · split
    · exact .update h
    · exact .both (.update h) (.update (Kept.tell h.setChan))

end

/-! ### The events of links and of the host -/

section
variable (s : State)

theorem answers_waleResendTimeout (k : Nat) : Answers s (execWaleResendTimeout k s) :=
  .both (.event (Kept.refl s).sealAll) (.event (Kept.refl s).sealAll.resend)

theorem answers_waleGroupReceive (g : WaleGroup) : Answers s (execWaleGroupReceive g s) := by
  have h := Kept.refl s
  rw [execWaleGroupReceive]
  refine .both (.event h) ?_
  have hacknowledged : Kept s (if g.verifies then (s.sealAll g.link).acknowledge g.link g.ack else s.sealAll g.link) :=
    .both h.sealAll.acknowledge h.sealAll
  have hresent : Kept s (let s := if g.verifies then (s.sealAll g.link).acknowledge g.link g.ack else s.sealAll g.link
      if g.verifies && g.nak then s.resend g.link else s) := .both hacknowledged.resend hacknowledged
  refine .both (.event hresent) ?_
  split
  · exact .event (Kept.modLink hresent)
  · exact .event (Kept.endTurned (Kept.takeIn (Kept.modLink hresent)))

theorem answers_waleRetrainComplete (k : Nat) : Answers s (execWaleRetrainComplete k s) :=
  .both (.event (.refl s)) (.event (Kept.foldl (Kept.modLink (.refl s)) fun _ _ h => h.lose))

theorem answers_waleDownTimeout (k : Nat) : Answers s (execWaleDownTimeout k s) :=
  .both (.event (.refl s)) (.event (Kept.loseWaits (Kept.foldl (Kept.net (Kept.modLink (.refl s))) fun _ _ h => h.lose)))

theorem answers_rotationKeyInstall (k : Nat) : Answers s (execRotationKeyInstall k s) :=
  .both (.event (.refl s)) (.event (Kept.modLink (.refl s)))

theorem answers_rotationSwitch (k : Nat) : Answers s (execRotationSwitch k s) := by
  have h := Kept.refl s
  exact .both (.event h) (.both (.event (Kept.endTurned (Kept.modLink h.sealAll))) (.both (.event (Kept.endTurned h.modLink)) (.event h)))

theorem answers_rotationRetire (k : Nat) : Answers s (execRotationRetire k s) := by
  have h := Kept.refl s
  refine .both (.event h) (.event (.both (.both h ?_) (Kept.modLink (.both h ?_))))
  all_goals exact h.modLink

theorem answers_notifyWrite (vf addr : Nat) (q : NotifyReq) : Answers s (execNotifyWrite vf addr q s) := by
  have h := Kept.refl s
  rw [execNotifyWrite]
  split
  · exact .event h
  · exact .both (.event h) (.both (.event h.vfError) (.both (.event h) (.event h.notify)))

theorem answers_channelUnmap (vf n : Nat) : Answers s (execChannelUnmap vf n s) := by
  have h := Kept.refl s
  rw [execChannelUnmap]
  refine .both (.event h) ?_
  split
  · exact .event h
  · exact .event h.setChan
  · exact .event h.setChan

theorem answers_channelMap (q : ChanReq) : Answers s (execChannelMap q s) := .both (.event (.refl s)) (.event (Kept.refl s).setChan)

theorem answers_hostRequest (q : HostReq) : Answers s (execHostRequest q s) := by
  have h := Kept.refl s
  rw [execHostRequest]
  split
  · refine .both (.event h) (.both (.event h.vfError) (.both (.event (.both h h.vfError)) ?_))
    split
    · exact .event ((KeptOpt.glbWrite h).getD h)
    · split
      · exact .event h.tell
      · exact .event h
  · exact .event h

theorem answers_spdmRequest (q : SpdmReq) : Answers s (execSpdmRequest q s) := by
  have h := Kept.refl s
  refine .both (.event h) ?_
  cases q with
  | openSession => exact .event h
  | closeSession => exact .event h
  | measurement k =>
    refine .both (.event h) ?_
    split
    · exact .event h.tell
    · exact .event h
  | lock => exact .event h.moveVf
  | start => exact .event (.both h.moveVf h)
  | stop => exact .event h.moveVf
  | certificate n =>
    dsimp only
    split
    · exact .event h.tell
    · exact .event h
  | interfaces vf =>
    dsimp only
    split
    · exact .event h.tell
    · exact .event h

end

/-! ### The rows of links and of the host -/

section
variable {s : State} (hs : issuing s = true)
include hs

theorem answers_lkrotRot (x : ArgDA) : Answers s (execLkrotRot x s) :=
  .issue hs (.both (.update (.refl s)) (.both (.update (.refl s)) (.both (.update (.refl s)) (.ok (.refl s)))))

theorem answers_lkrotSt (x : ArgDA) : Answers s (execLkrotSt x s) := .issue hs (.update (.refl s))
theorem answers_hpostHead (x : ArgDAB) : Answers s (execHpostHead x s) := .issue hs (.hpost (.refl s))
theorem answers_hpostDone (x : ArgDAB) : Answers s (execHpostDone x s) := .issue hs (.hpost (.refl s))
theorem answers_hpollTail (x : ArgDA) : Answers s (execHpollTail x s) := .issue hs (.update (.refl s))
theorem answers_hpollHead (x : ArgDA) : Answers s (execHpollHead x s) := .issue hs (.update (.refl s))
theorem answers_hpollDone (x : ArgDA) : Answers s (execHpollDone x s) := .issue hs (.update (.refl s))

theorem answers_hpollWait (x : ArgDAB) : Answers s (execHpollWait x s) := by
  refine .issue hs ?_
  split
  · exact .update (.refl s)
  · exact .both .stall (.update (.refl s))

end

end Sys2Proof.Machine
end

section
/-! PROOFS. What the module reset, power and the loader keep (R65 to R68, R398 to R403). -/
namespace Sys2Proof.Machine

section
variable {s₀ s t : State} {α : Type} {asid c conn k n r va : Nat} {bs : List Byte}

/-! ### Power (R401) -/

theorem Kept.throttleStep {b : Bool} (h : Kept s₀ s) : Kept s₀ (s.throttleStep b) := .both h h

/-! ### The load (R65 to R68) -/

/-- Steps in turn, each of which may end with a status. -/
theorem Kept.foldlM {f : State → α → Except Nat State} {as : List α} (hf : ∀ t a u, Kept s₀ t → f t a = .ok u → Kept s₀ u)
    (h : Kept s₀ s) (ht : as.foldlM f s = .ok t) : Kept s₀ t := by
  induction as generalizing s with
  | nil =>
    cases ht
    exact h
  | cons a as ih =>
    rw [List.foldlM_cons] at ht
    cases hu : f s a with
    | error n =>
      rw [hu] at ht
      exact nomatch ht
    | ok u =>
      rw [hu] at ht
      exact ih (hf s a u h hu) ht

theorem ok_of_else {p : Prop} [Decidable p] {r : Except Nat α} {a : α} (h : (if p then .error n else r) = .ok a) : r = .ok a := by
  split at h
  · exact nomatch h
  · exact h

theorem ok_of_bind {β : Type} {x : Except Nat β} {f : β → Except Nat α} {a : α} (h : x >>= f = .ok a) :
    ∃ b, x = .ok b ∧ f b = .ok a := by
  cases x with
  | error n => exact nomatch h
  | ok b => exact ⟨b, rfl, h⟩

theorem Kept.declarePool (h : Kept s₀ s) (ht : s.declarePool r c bs = .ok t) : Kept s₀ t := by
  rw [State.declarePool] at ht
  have hfits := ok_of_else (ok_of_else ht)
  dsimp only at hfits
  generalize lowestFit _ _ _ _ _ = base at hfits
  cases base with
  | none => exact nomatch hfits
  | some base =>
    cases hfits
    exact h.setPool

theorem Kept.declarePools {bss : List (List Byte)} {cells : List Nat} (h : Kept s₀ s)
    (ht : s.declarePools r bss cells = .ok t) : Kept s₀ t :=
  h.foldlM (fun _ _ _ h => h.declarePool) ht

theorem Kept.loadHubs {rs : List PortRec} {bss : List (List Byte)} {cells : List Nat} (h : Kept s₀ s)
    (ht : s.loadHubs rs cells conn r k bss = .ok t) : Kept s₀ t := by
  refine h.foldlM (fun u bs v hu hv => ?_) ht
  dsimp only at hv
  split at hv
  · exact nomatch hv
  · split at hv
    · exact nomatch hv
    next p hp =>
      cases hv
      exact hu.loadHub hp

theorem Kept.putSection {cells : List Nat} {x : Section_} (h : Kept s₀ s) : Kept s₀ (s.putSection r cells x k) := by
  have hwritten (sp : Space) : Kept s₀ (cells.foldl (fun s c => s.writeLocal c sp k x.bytes) s) := h.foldl fun _ _ h => h.writeLocal
  exact .both (Kept.modRegion (hwritten _)) (Kept.modRegion (hwritten _))

theorem Kept.types {ts : Assoc (List TaskType)} (h : Kept s₀ s) : Kept s₀ { s with types := ts } := h

theorem Kept.load {q : LoadReq} {x : Region} {cells : List Nat} {ss : List Section_} {places : Places} (h : Kept s₀ s)
    (ht : s.load q x cells ss places = .ok t) : Kept s₀ t := by
  rw [State.load] at ht
  obtain ⟨u, hu, ht⟩ := ok_of_bind ht
  obtain ⟨⟨rs, images, ts⟩, -, ht⟩ := ok_of_bind ht
  exact (Kept.types (Kept.declarePools (Kept.foldl h fun _ _ h => h.putSection) hu)).loadHubs ht

theorem KeptOpt.glbStore (h : Kept s₀ s) : KeptOpt s₀ (s.glbStore asid va bs) := by
  rw [State.glbStore]
  split
  · exact .absent
  · exact .both .absent (.glbWrite h)

theorem Kept.putGlb {xs : List (Nat × List Byte)} (h : Kept s₀ s) : Kept s₀ (s.putGlb asid xs).1 := by
  induction xs generalizing s with
  | nil => exact h
  | cons x xs ih =>
    rw [State.putGlb]
    split
    · exact h
    next t ht =>
      have hstored : Kept s₀ t := KeptOpt.glbStore h t ht
      split
      next u hu => exact .of_fst hu (ih hstored)
      next u hu =>
        have hrest : Kept s₀ u := .of_fst hu (ih hstored)
        exact (KeptOpt.glbStore hrest).getD hrest

theorem Kept.tryLoad {q : LoadReq} (h : Kept s₀ s) (ht : s.tryLoad q = .ok t) : Kept s₀ t := by
  rw [State.tryLoad] at ht
  dsimp only at ht
  split at ht
  · cases ht
    exact h.report
  · cases ht
    exact h.report
  · split at ht
    · cases ht
      exact h.report
    · split at ht
      · cases ht
        exact h.report
      · split at ht
        · exact nomatch ht
        · split at ht
          · cases ht
            exact h.report
          next u hu =>
            cases ht
            exact .both (Kept.report (Kept.putGlb (h.load hu))) (Kept.report (Kept.putGlb h))

end

section
variable (s : State)

theorem answers_imageCommit (q : CommitReq) : Answers s (execImageCommit q s) := by
  have h := Kept.refl s
  rw [execImageCommit]
  refine .both (.event h) ?_
  split
  · exact .event h
  · exact .both (.event h) (.event h)

theorem answers_powerSample (w a : Nat) : Answers s (execPowerSample w a s) := .event (Kept.refl s).throttleStep

theorem answers_routerPowerGate (d p : Nat) : Answers s (execRouterPowerGate d p s) := .both (.event (.refl s)) (.event (.refl s))

theorem answers_routerWake (d p : Nat) : Answers s (execRouterWake d p s) := .event (.refl s)

theorem answers_ngloadLoad (q : LoadReq) : Answers s (execNgloadLoad q s) := by
  have h := Kept.refl s
  rw [execNgloadLoad]
  refine .both (.event h) (.both (.event (.both h h)) ?_)
  split
  · exact .event h
  next t ht => exact .event (.both (Kept.loads (h.tryLoad ht)) (h.tryLoad ht))

end

/-! ### The module reset (R398, R403) -/

theorem wf_reset : Memory.wf State.reset.mem = true := rfl

/-- A reset leaves the turns to come, and a memory in canonical form. -/
theorem boot_leaves (s : State) (b : BootInput) : (s.boot b).agenda = s.agenda ∧ Memory.wf (s.boot b).mem = true := by
  rw [State.boot]
  dsimp only
  split
  · exact ⟨rfl, wf_reset⟩
  · split
    · exact ⟨rfl, wf_reset⟩
    · exact ⟨rfl, wf_reset⟩

end Sys2Proof.Machine
end

section
/-! PROOFS. Every step of the machine from a sound state answers a sound state (R48, R398): of every row of the opcode table, of a
context's issue turn, and of every other turn. -/
namespace Sys2Proof.Machine

/-- An outcome that answers a next state with the same turns to come and a memory in canonical form. -/
def Continues (s : State) (o : Host.Outcome State Fault Refusal) : Prop :=
  ∃ t, o = .next t ∧ t.agenda = s.agenda ∧ (Memory.wf s.mem = true → Memory.wf t.mem = true)

section
variable {s t : State} {o : Host.Outcome State Fault Refusal}

theorem Answers.continues (h : Answers s o) : Continues s o := by
  obtain ⟨t, ht, hagenda, -, hwf⟩ := h
  exact ⟨t, ht, hagenda, hwf⟩

theorem Kept.continues (h : Kept s t) : Continues s (.next t) := (Answers.next h).continues

/-- What goes on from a state that is kept. -/
theorem Continues.after (h : Kept s t) (h' : Continues t o) : Continues s o := by
  obtain ⟨hagenda, -, hwf⟩ := h
  obtain ⟨u, hu, hagenda', hwf'⟩ := h'
  exact ⟨u, hu, hagenda'.trans hagenda, hwf' ∘ hwf⟩

theorem Continues.then {f : State → Host.Outcome State Fault Refusal} (h : Continues s (.next t)) (hf : Continues t (f t)) :
    Continues s (f t) := by
  obtain ⟨t', ht, hagenda, hwf⟩ := h
  cases ht
  obtain ⟨u, hu, hagenda', hwf'⟩ := hf
  exact ⟨u, hu, hagenda'.trans hagenda, hwf' ∘ hwf⟩

end

/-! ### The rows of the opcode table -/

section
variable {s : State} {i : Instr}

/-- The rows that compute on registers alone, whose effect is on the executing context. -/
theorem answers_of_registerOnly (hs : issuing s = true) (h : registerOnly i = true) : Answers s (exec i s) := by
  obtain ⟨g, body, -, hexec, hbody⟩ := contained_of_registerOnly h
  rw [hexec]
  refine .issue hs fun t ht => ?_
  rw [issuing, Bool.and_eq_true, decide_eq_true_eq] at hs
  obtain ⟨hctx, -⟩ := hs
  obtain ⟨v, hstopped⟩ | ⟨y, hwritten, -⟩ := hbody s hctx
  · rw [hstopped] at ht
    exact nomatch ht
  · rw [hwritten] at ht
    exact Except.ok.inj ht ▸ Kept.modMe (.refl s)

/-- The other instruction rows. -/
theorem answers_of_toRaw (hs : issuing s = true) (h : registerOnly i = false) (hrow : i.toRaw ≠ none) : Answers s (exec i s) := by
  cases i with
  | br x => exact answers_br hs x
  | jmp x => exact answers_jmp hs x
  | call x => exact answers_call hs x
  | loop x => exact answers_loop hs x
  | jr x => exact answers_jr hs x
  | callr x => exact answers_callr hs x
  | ret x => exact answers_ret hs x
  | done x => exact answers_done hs x
  | rdsr x => exact answers_rdsr hs x
  | wrsr x => exact answers_wrsr hs x
  | ldtab x => exact answers_ldtab hs x
  | mma x => exact answers_mma hs x
  | accz x => exact answers_accz hs x
  | accsc x => exact answers_accsc hs x
  | accst x => exact answers_accst hs x
  | accld x => exact answers_accld hs x
  | accrd x => exact answers_accrd hs x
  | accwr x => exact answers_accwr hs x
  | ld x => exact answers_ld hs x
  | st x => exact answers_st hs x
  | ldc x => exact answers_ldc hs x
  | vld x => exact answers_vld hs x
  | vst x => exact answers_vst hs x
  | vldc x => exact answers_vldc hs x
  | vgat x => exact answers_vgat hs x
  | vsca x => exact answers_vsca hs x
  | talloc x => exact answers_talloc hs x
  | tallocTry x => exact answers_tallocTry hs x
  | tseal x => exact answers_tseal hs x
  | tdrop x => exact answers_tdrop hs x
  | tcount x => exact answers_tcount hs x
  | poolcfg x => exact answers_poolcfg hs x
  | poolst x => exact answers_poolst hs x
  | send x => exact answers_send hs x
  | sendLay x => exact answers_sendLay hs x
  | sendt x => exact answers_sendt hs x
  | fill x => exact answers_fill hs x
  | fillLay x => exact answers_fillLay hs x
  | wait x => exact answers_wait hs x
  | sbstat x => exact answers_sbstat hs x
  | fence x => exact answers_fence hs x
  | ldsc x => exact answers_ldsc hs x
  | stsc x => exact answers_stsc hs x
  | xlatR x => exact answers_xlatR hs x
  | xlatW x => exact answers_xlatW hs x
  | xlatSet0 x => exact answers_xlatSet0 hs x
  | xlatSet1 x => exact answers_xlatSet1 hs x
  | tinvAll x => exact answers_tinvAll hs x
  | tinvAsid x => exact answers_tinvAsid hs x
  | tinvPage x => exact answers_tinvPage hs x
  | keysetInst x => exact answers_keysetInst hs x
  | keysetRet x => exact answers_keysetRet hs x
  | keysetSt x => exact answers_keysetSt hs x
  | spawn x => exact answers_spawn hs x
  | callat x => exact answers_callat hs x
  | reply x => exact answers_reply hs x
  | jnew x => exact answers_jnew hs x
  | jdec x => exact answers_jdec hs x
  | fnew x => exact answers_fnew hs x
  | fres x => exact answers_fres hs x
  | freg x => exact answers_freg hs x
  | tid x => exact answers_tid hs x
  | rgnactNew x => exact answers_rgnactNew hs x
  | rgnactPark x => exact answers_rgnactPark hs x
  | rgnactResume x => exact answers_rgnactResume hs x
  | rgnactQuiet x => exact answers_rgnactQuiet hs x
  | rgnkillKill x => exact answers_rgnkillKill hs x
  | rgnkillExit x => exact answers_rgnkillExit hs x
  | budgetRd x => exact answers_budgetRd hs x
  | budgetExt x => exact answers_budgetExt hs x
  | put x => exact answers_put hs x
  | get x => exact answers_get hs x
  | alt x => exact answers_alt hs x
  | pbind x => exact answers_pbind hs x
  | portst x => exact answers_portst hs x
  | cload x => exact answers_cload hs x
  | cdrop x => exact answers_cdrop hs x
  | cstat x => exact answers_cstat hs x
  | amsg x => exact answers_amsg hs x
  | htabSet x => exact answers_htabSet hs x
  | htabClr x => exact answers_htabClr hs x
  | htabEpnew x => exact answers_htabEpnew hs x
  | htabEpdel x => exact answers_htabEpdel hs x
  | htabRd x => exact answers_htabRd hs x
  | aadd x => exact answers_aadd hs x
  | aand x => exact answers_aand hs x
  | aor x => exact answers_aor hs x
  | axor x => exact answers_axor hs x
  | amax x => exact answers_amax hs x
  | amin x => exact answers_amin hs x
  | aswp x => exact answers_aswp hs x
  | acas x => exact answers_acas hs x
  | epmov x => exact answers_epmov hs x
  | epparkPark x => exact answers_epparkPark hs x
  | epparkResume x => exact answers_epparkResume hs x
  | barv x => exact answers_barv hs x
  | barw x => exact answers_barw hs x
  | redp x => exact answers_redp hs x
  | redg x => exact answers_redg hs x
  | bcfgSet x => exact answers_bcfgSet hs x
  | bcfgFree x => exact answers_bcfgFree hs x
  | bcfgBrk x => exact answers_bcfgBrk hs x
  | bcfgRd x => exact answers_bcfgRd hs x
  | rcfgSet x => exact answers_rcfgSet hs x
  | rcfgFree x => exact answers_rcfgFree hs x
  | rcfgBrk x => exact answers_rcfgBrk hs x
  | rcfgRd x => exact answers_rcfgRd hs x
  | trapCall x => exact answers_trapCall hs x
  | trapRing x => exact answers_trapRing hs x
  | eret x => exact answers_eret hs x
  | brk x => exact answers_brk hs x
  | rfill x => exact answers_rfill hs x
  | rretry x => exact answers_rretry hs x
  | rretryCtx x => exact answers_rretryCtx hs x
  | rskip x => exact answers_rskip hs x
  | rkillEnt x => exact answers_rkillEnt hs x
  | rkillCtx x => exact answers_rkillCtx hs x
  | frzRgn x => exact answers_frzRgn hs x
  | frzRd x => exact answers_frzRd hs x
  | hpostHead x => exact answers_hpostHead hs x
  | hpostDone x => exact answers_hpostDone hs x
  | hpollTail x => exact answers_hpollTail hs x
  | hpollHead x => exact answers_hpollHead hs x
  | hpollDone x => exact answers_hpollDone hs x
  | hpollWait x => exact answers_hpollWait hs x
  | lkrotRot x => exact answers_lkrotRot hs x
  | lkrotSt x => exact answers_lkrotSt hs x
  | ngloadLoad | tenantCreate | placerDecision | placerAging | preemptionRequest | abandonedTile | stallWatchdog
  | stageGovernor | barrierRelease | reductionResult | walkComplete | keySlotEmpty | thaw | scrub | copyTokenRefill
  | waleGroupReceive | waleResendTimeout | waleRetrainComplete | waleDownTimeout | rotationKeyInstall | rotationSwitch
  | rotationRetire | notifyWrite | channelUnmap | channelMap | hostRequest | spdmRequest | moduleReset | imageCommit
  | powerSample | routerPowerGate | routerWake | vaultTemperature | tenantTeardown | isolationPartitionConfigure
  | fetchQueueFill | dispatch | readyRecordArrival | budget | budgetHardLimit | trapEntry | asynchronousTrap
  | supervisorRunCap | handlerRun | handlerCap | tileOpStart | tileOpRetire | copyStart | copyChunkArrival
  | copyAcknowledgement | copyRetire | tallocRequestArrival | tallocCancel | grantReplyArrival | handleOperationArrival
  | jdecArrival | fresArrival | fregArrival | ownerReplyArrival | messageArrival | returnedMessageArrival
  | messageInjection | atomicResultArrival | peerAccessArrival | peerAbsentReturn | offerArrival | decide
  | fifoItemArrival | hubCancelArrival | portCompletionArrival | reductionCombine | reductionPartialArrival
  | scAnnouncementArrival | windowClose | stationRequest | ringEntryFreed | writePerformedAtHome | loadValueReturned
  | pbindRequestArrival | epmovTargetArrival => exact absurd rfl hrow
  | _ => exact nomatch h

end

section
variable (s : State) {i : Instr}

theorem continues_moduleReset (b : BootInput) : Continues s (execModuleReset b s) := by
  obtain ⟨hagenda, hwf⟩ := boot_leaves s b
  exact ⟨s.boot b, rfl, hagenda, fun _ => hwf⟩

theorem continues_vaultTemperature (v t : Nat) : Continues s (execVaultTemperature v t s) := by
  have h := Kept.refl s
  obtain ⟨hagenda, hwf⟩ := boot_leaves s (Config.found s.fresh)
  rw [execVaultTemperature]
  split
  · exact (Answers.event h).continues
  · split
    · exact ⟨_, rfl, hagenda, fun _ => hwf⟩
    · exact Answers.continues (.both (.event (Kept.throttleStep h)) (.event h))

/-- The events of the other agents. -/
theorem continues_of_event (h : i.toRaw = none) : Continues s (exec i s) := by
  cases i with
| ngloadLoad q => exact (answers_ngloadLoad s q).continues
  | tenantCreate q => exact (answers_tenantCreate s q).continues
  | placerDecision d => exact (answers_placerDecision s d).continues
  | placerAging d => exact (answers_placerAging s d).continues
  | preemptionRequest q => exact (answers_preemptionRequest s q).continues
  | abandonedTile c p t => exact (answers_abandonedTile s c p t).continues
  | stallWatchdog r => exact (answers_stallWatchdog s r).continues
  | stageGovernor c j => exact (answers_stageGovernor s c j).continues
  | barrierRelease k => exact (answers_barrierRelease s k).continues
  | reductionResult k => exact (answers_reductionResult s k).continues
  | walkComplete d c k => exact (answers_walkComplete s d c k).continues
  | keySlotEmpty k => exact (answers_keySlotEmpty s k).continues
  | thaw r => exact (answers_thaw s r).continues
  | scrub r => exact (answers_scrub s r).continues
  | copyTokenRefill r c => exact (answers_copyTokenRefill s r c).continues
  | waleGroupReceive g => exact (answers_waleGroupReceive s g).continues
  | waleResendTimeout k => exact (answers_waleResendTimeout s k).continues
  | waleRetrainComplete k => exact (answers_waleRetrainComplete s k).continues
  | waleDownTimeout k => exact (answers_waleDownTimeout s k).continues
  | rotationKeyInstall k => exact (answers_rotationKeyInstall s k).continues
  | rotationSwitch k => exact (answers_rotationSwitch s k).continues
  | rotationRetire k => exact (answers_rotationRetire s k).continues
  | notifyWrite vf addr q => exact (answers_notifyWrite s vf addr q).continues
  | channelUnmap vf n => exact (answers_channelUnmap s vf n).continues
  | channelMap q => exact (answers_channelMap s q).continues
  | hostRequest q => exact (answers_hostRequest s q).continues
  | spdmRequest q => exact (answers_spdmRequest s q).continues
  | moduleReset b => exact continues_moduleReset s b
  | imageCommit q => exact (answers_imageCommit s q).continues
  | powerSample w a => exact (answers_powerSample s w a).continues
  | routerPowerGate d p => exact (answers_routerPowerGate s d p).continues
  | routerWake d p => exact (answers_routerWake s d p).continues
  | vaultTemperature v t => exact continues_vaultTemperature s v t
  | tenantTeardown r => exact (answers_tenantTeardown s r).continues
  | isolationPartitionConfigure q => exact (answers_isolationPartitionConfigure s q).continues
  | fetchQueueFill => exact (answers_fetchQueueFill s).continues
  | dispatch => exact (answers_dispatch s).continues
  | readyRecordArrival => exact (answers_readyRecordArrival s).continues
  | budget => exact (answers_budget s).continues
  | budgetHardLimit => exact (answers_budgetHardLimit s).continues
  | trapEntry => exact (answers_trapEntry s).continues
  | asynchronousTrap => exact (answers_asynchronousTrap s).continues
  | supervisorRunCap => exact (answers_supervisorRunCap s).continues
  | handlerRun => exact (answers_handlerRun s).continues
  | handlerCap => exact (answers_handlerCap s).continues
  | tileOpStart => exact (answers_tileOpStart s).continues
  | tileOpRetire => exact (answers_tileOpRetire s).continues
  | copyStart => exact (answers_copyStart s).continues
  | copyChunkArrival => exact (answers_copyChunkArrival s).continues
  | copyAcknowledgement => exact (answers_copyAcknowledgement s).continues
  | copyRetire => exact (answers_copyRetire s).continues
  | tallocRequestArrival => exact (answers_tallocRequestArrival s).continues
  | tallocCancel => exact (answers_tallocCancel s).continues
  | grantReplyArrival => exact (answers_grantReplyArrival s).continues
  | handleOperationArrival => exact (answers_handleOperationArrival s).continues
  | jdecArrival => exact (answers_jdecArrival s).continues
  | fresArrival => exact (answers_fresArrival s).continues
  | fregArrival => exact (answers_fregArrival s).continues
  | ownerReplyArrival => exact (answers_ownerReplyArrival s).continues
  | messageArrival => exact (answers_messageArrival s).continues
  | returnedMessageArrival => exact (answers_returnedMessageArrival s).continues
  | messageInjection => exact (answers_messageInjection s).continues
  | atomicResultArrival => exact (answers_atomicResultArrival s).continues
  | peerAccessArrival => exact (answers_peerAccessArrival s).continues
  | peerAbsentReturn => exact (answers_peerAbsentReturn s).continues
  | offerArrival => exact (answers_offerArrival s).continues
  | decide => exact (answers_decide s).continues
  | fifoItemArrival => exact (answers_fifoItemArrival s).continues
  | hubCancelArrival => exact (answers_hubCancelArrival s).continues
  | portCompletionArrival => exact (answers_portCompletionArrival s).continues
  | reductionCombine => exact (answers_reductionCombine s).continues
  | reductionPartialArrival => exact (answers_reductionPartialArrival s).continues
  | scAnnouncementArrival => exact (answers_scAnnouncementArrival s).continues
  | windowClose => exact (answers_windowClose s).continues
  | stationRequest => exact (answers_stationRequest s).continues
  | ringEntryFreed => exact (answers_ringEntryFreed s).continues
  | writePerformedAtHome => exact (answers_writePerformedAtHome s).continues
  | loadValueReturned => exact (answers_loadValueReturned s).continues
  | pbindRequestArrival => exact (answers_pbindRequestArrival s).continues
  | epmovTargetArrival => exact (answers_epmovTargetArrival s).continues
  | _ => exact nomatch h

end

/-- Every row of the opcode table goes on, an instruction where its context can issue. -/
theorem continues_exec {i : Instr} {s : State} (hs : issuing s = true) : Continues s (exec i s) := by
  by_cases hrow : i.toRaw = none
  · exact continues_of_event s hrow
  · cases hregs : registerOnly i with
    | true => exact (answers_of_registerOnly hs hregs).continues
    | false => exact (answers_of_toRaw hs hregs hrow).continues

end Sys2Proof.Machine
end

section
/-! PROOFS. Turns and steps from sound states (R48, R398; log entries 1 and 16). -/
namespace Sys2Proof.Machine

/-! ### The issue turn of a context (R29 to R32, R46, R271, R404) -/

section
variable {s t : State} {c k v w w₁ w₂ : Nat}

/-- Only the ten contexts of a cell can issue. -/
theorem issuing_of_canIssue (h : s.me.canIssue = true) : issuing s = true := by
  rw [issuing, h, Bool.and_true, decide_eq_true_eq]
  by_contra hctx
  have hidle : s.me = Ctx.reset := by
    simp only [State.me, State.ctxAt, Cell.ctx, Vector.getD, Array.getD, Vector.size_toArray, hctx, dite_false]
  rw [hidle] at h
  exact absurd h (by decide)

theorem continues_issueWord (hs : issuing s = true) : Continues s (issueWord w s) := by
  rw [issueWord]
  split
  · exact continues_exec hs
  · exact (Kept.refl s).takeTrap.continues

theorem continues_issuePair (hs : issuing s = true) : Continues s (issuePair w₁ w₂ s) := by
  obtain ⟨t, ht, hfirst⟩ := continues_issueWord (w := w₁) hs
  simp only [issuePair, ht]
  split
  next hmoved =>
    simp only [Ctx.movedOn, Bool.and_eq_true] at hmoved
    obtain ⟨⟨hcan, -⟩, -⟩ := hmoved
    obtain ⟨u, hu, hsecond⟩ := continues_issueWord (w := w₂) (issuing_of_canIssue hcan)
    simp only [hu]
    split
    · exact (Kept.modMe (.refl s)).continues
    · exact ⟨u, rfl, hsecond.1.trans hfirst.1, hsecond.2 ∘ hfirst.2⟩
  next => exact ⟨t, rfl, hfirst⟩

theorem continues_issueSlot (hs : issuing s = true) : Continues s (issueSlot v s) := by
  rw [issueSlot]
  split
  next w _ =>
    obtain ⟨t, ht, hissued⟩ := continues_issueWord (w := w) hs
    rw [ht]
    have hissued : Continues s (.next t) := ⟨t, rfl, hissued⟩
    exact hissued.then (f := fun t => .next (t.stepped s.cur.cell s.cur.ctx)) (Kept.refl t).stepped.continues
  next =>
    split
    · exact continues_issuePair hs
    · exact continues_issueWord hs

theorem continues_issueCharged {o : Host.Outcome State Fault Refusal} {n : Nat} (h : Continues s o) :
    Continues s (issueCharged c k n o) := by
  obtain ⟨t, rfl, hissued⟩ := h
  have hissued : Continues s (.next t) := ⟨t, rfl, hissued⟩
  exact hissued.then (f := fun t => .next (if (t.ctxAt c k).stalled then t else t.chargeTo c n .issue 1))
    (Kept.both (.refl t) (Kept.refl t).chargeTo).continues

theorem Kept.keepLine (h : Kept s t) : Kept s (t.keepLine c k v) := h

theorem canIssue_keepLine (hk : k < 10) (hcur : s.cur = { cell := c, ctx := k, k := 0 }) :
    (s.keepLine c k v).me.canIssue = s.me.canIssue := by
  have hcur' : (s.keepLine c k v).cur = { cell := c, ctx := k, k := 0 } := hcur
  rw [State.me, State.me, hcur', hcur, State.keepLine, State.ctxAt_modCtx_same _ _ _ _ hk, Ctx.canIssue, Ctx.canIssue]

/-- The turn of a context: a pending trap, a trap of the fetch or of the line, or the instruction. -/
theorem continues_issueTurn (s : State) (c k : Nat) : Continues s (issueTurn c k s) := by
  have hcur : Kept s { s with cur := { cell := c, ctx := k, k := 0 } } := .refl s
  rw [issueTurn]
  dsimp only
  generalize hu : { s with cur := { cell := c, ctx := k, k := 0 } } = u at hcur ⊢
  split
  · exact hcur.continues
  next hcan =>
    simp only [Bool.or_eq_true, Bool.not_eq_true', decide_eq_true_eq, not_or, Bool.not_eq_false, Nat.not_le] at hcan
    obtain ⟨hcan, hk⟩ := hcan
    split
    · exact .after hcur (continues_of_event u rfl)
    · split
      · exact .after hcur (continues_of_event u rfl)
      · split
        · exact hcur.takeTrap.continues
        · split
          · exact (Kept.takeTrap (Kept.keepLine hcur)).continues
          · refine continues_issueCharged (.after hcur.keepLine (continues_issueSlot (issuing_of_canIssue ?_)))
            rw [canIssue_keepLine hk (hu ▸ rfl)]
            exact hcan

end

/-! ### The other turns (log entry 1) -/

/-- A turn that asks for no instruction row as an event. -/
def Turn.Fair (t : Turn) : Prop := ∀ i at_, t = .event i at_ → i.toRaw = none

/-- A turn of an event row is fair. -/
theorem fair_event {i : Instr} {at_ : Cur} (h : i.toRaw = none) : (Turn.event i at_).Fair := by
  intro j at' hj
  cases hj
  exact h

theorem continues_turn {s : State} {t : Turn} (h : t.Fair) : Continues s (s.turn t) := by
  have hs := Kept.refl s
  cases t with
  | issue c i => exact continues_issueTurn s c i
  | event i at_ =>
    have hcur : Kept s { s with cur := at_ } := .refl s
    exact .after hcur (continues_of_event _ (h i at_ rfl))
  | start c r region => exact (Kept.pushRecord (Kept.countSent hs)).continues
  | plant c pc code => exact hs.plantBreak.continues
  | pull c pc => exact hs.pullBreak.continues
  | cont c => exact hs.contBreak.continues
  | softError u => exact Kept.continues (t := { s with poison := u :: s.poison.filter (· ≠ u) }) hs
  | tick n => exact Kept.continues (t := { s with clock := s.clock + n }) hs

theorem fair_issue (c k : Nat) : (Turn.issue c k).Fair := by
  intro i at_ h
  cases h

theorem fair_tick (n : Nat) : (Turn.tick n).Fair := by
  intro i at_ h
  cases h

theorem fair_events {is : List Instr} {at_ : Cur} (h : ∀ i ∈ is, i.toRaw = none) : ∀ t ∈ is.map (Turn.event · at_), t.Fair :=
  List.forall_mem_map.mpr fun i hi => fair_event (h i hi)

/-- An arrival is an event row. -/
theorem toRaw_flightEvents (f : Flight) : ∀ i ∈ flightEvents f, i.toRaw = none := by
  have hall : (flightEvents f).all (·.toRaw.isNone) = true := by
    obtain ⟨src, dst, pay⟩ := f
    cases pay with
    | owner q =>
      obtain ⟨kind⟩ := q
      cases kind <;> rfl
    | _ => rfl
  exact fun i hi => Option.isNone_iff_eq_none.mp (List.all_eq_true.mp hall i hi)

theorem fair_cellEvents (c : Nat) (x : Cell) : ∀ t ∈ cellEvents c x, t.Fair := by
  simp only [cellEvents, List.forall_mem_append, List.forall_mem_flatMap]
  refine ⟨fair_events ?_, fun _ _ => fair_events ?_⟩
  all_goals
    simp only [List.forall_mem_append, List.forall_mem_map, List.forall_mem_flatMap, List.forall_mem_cons, List.not_mem_nil,
      false_implies, implies_true, and_true]
  · exact ⟨⟨⟨rfl, rfl, rfl, rfl, rfl, rfl, rfl, rfl, rfl, rfl, rfl, rfl⟩, fun _ _ => rfl⟩, fun _ _ _ _ => rfl⟩
  · exact ⟨rfl, rfl, rfl, rfl⟩

theorem toRaw_moduleEvents (s : State) : ∀ i ∈ s.moduleEvents, i.toRaw = none := by
  simp only [State.moduleEvents, List.forall_mem_append, List.forall_mem_map, List.forall_mem_flatMap, List.forall_mem_cons,
    List.not_mem_nil, false_implies, implies_true,
      and_true]
  exact ⟨⟨⟨⟨⟨⟨⟨⟨⟨⟨fun _ _ => ⟨rfl, rfl⟩, fun _ _ => ⟨rfl, fun _ _ => rfl⟩⟩, fun _ _ => rfl⟩, fun _ _ => rfl⟩, fun _ _ => rfl⟩,
    fun _ _ _ _ => rfl⟩, fun _ _ => rfl⟩, rfl⟩, fun _ _ => rfl⟩, fun _ _ => ⟨rfl, rfl, rfl, rfl, rfl⟩⟩, fun _ _ => rfl⟩

/-- No turn that the state offers asks for an instruction row as an event. -/
theorem fair_enabled (s : State) : ∀ t ∈ s.enabled, t.Fair := by
  simp only [State.enabled, List.forall_mem_append, List.forall_mem_flatMap, List.forall_mem_map]
  refine ⟨⟨⟨⟨⟨fun x _ t ht => ?issue, fun x _ => fair_cellEvents x.1 x.2⟩, fun f _ i hi => fair_event (toRaw_flightEvents f.1 i hi)⟩,
    fun i hi => fair_event (toRaw_moduleEvents s i hi)⟩, fun _ _ => fair_event rfl⟩, fun _ _ => fair_event rfl⟩
  case issue =>
    obtain ⟨k, -, hk⟩ := List.mem_filterMap.mp ht
    split at hk
    · exact Option.some.inj hk ▸ fair_issue x.1 k
    · exact nomatch hk

/-! ### The step -/

/-- The next turn of a sound state is fair, and leaves memory and a part of the agenda. -/
theorem nextTurn_of_sound {s : State} (h : Sound s) : s.nextTurn.1.Fair ∧ Sound s.nextTurn.2 := by
  obtain ⟨hwf, hagenda⟩ := h
  rw [State.nextTurn]
  split
  next t ts heq =>
    rw [heq] at hagenda
    exact ⟨hagenda t (.head _), hwf, fun u hu => hagenda u (.tail _ hu)⟩
  next hnone =>
    have hsound : Sound s := ⟨hwf, hagenda⟩
    split
    · exact ⟨fair_tick 1, hsound⟩
    next t ts heq =>
      have hlt : Config.choose s.fresh % (ts.length + 1) < (t :: ts).length := Nat.mod_lt _ (Nat.succ_pos _)
      refine ⟨fair_enabled s _ ?_, hsound⟩
      rw [heq, List.getD_eq_getElem _ _ hlt]
      exact List.getElem_mem hlt

/-- Settles O57: the next turn of a sound state is a fair one, every fair turn goes on, and time passes. -/
theorem stepsFromSoundStatesStaySound : Obligations.StepsFromSoundStatesStaySound := by
  intro s hs
  obtain ⟨hfair, hwf, hagenda⟩ := nextTurn_of_sound hs
  obtain ⟨t, ht, hkept, hwf'⟩ := continues_turn (s := s.nextTurn.2) hfair
  refine ⟨t.elapse, ?_, hwf' hwf, ?_⟩
  · rw [step, ht]
  · intro u hu
    exact hagenda u (hkept ▸ hu)

end Sys2Proof.Machine
end

section
/-! PROOFS. What the Slath processor does of tenants and isolation partitions (R221, R225, R229, R269, R270, R279, R282, R392, R393). -/
namespace Sys2Proof.Machine

/-! ### What the operations leave alone -/

section
variable {s : State}

theorem sameButMemory_clearRecord (r : Nat) (g : Grant) : SameButMemory s (s.clearRecord r g) := sameButMemory_scrubHome ..

/-- A region added has its control block in place, and of everything else only bytes of memory change. -/
theorem sameButMemory_addRegion (n : Nat) (x : Region) (gs : List Grant) :
    SameButMemory { s with regions := Assoc.put n x s.regions } (s.addRegion n x gs) :=
  sameButMemory_foldl (fun _ _ => sameButMemory_clearRecord ..) gs _

theorem getElem?_modifyAt_same {α : Type} (f : α → α) (n : Nat) (xs : List α) : (modifyAt f n xs)[n]? = xs[n]?.map f := by
  fun_induction modifyAt with
  | case1 => rfl
  | case2 x xs => rfl
  | case3 n x xs ih => exact ih

/-- Measurement 4 records the configuration that it is taken of (R393; log entry 5). -/
theorem meas_remeasure (h : 3 < s.meas.length) : s.remeasure.meas[3]? = some (Config.sha512 s.remeasure.configBytes) := by
  rw [State.remeasure, getElem?_modifyAt_same, List.getElem?_eq_getElem h]
  rfl

end

/-! ### Tenants created (R225, R269, R270, R357, R389, R392) -/

theorem tenantsAreCreated : TenantsAreCreated := by
  intro s q x ok r vf u
  have hok : s.tenantOk q = true ↔ ok := by
    simp [ok, x, State.tenantOk, Nat.one_le_iff_ne_zero, and_assoc, Option.isNone_iff_eq_none, List.all_eq_true, List.any_eq_true]
  refine ⟨fun h => ?created, fun h => ?refused⟩
  case refused =>
    have hrefused : s.tenantOk q = false := by rw [← Bool.not_eq_true, hok]; exact h
    show execTenantCreate q s = _
    rw [execTenantCreate, hrefused]
    rfl
  case created =>
    obtain ⟨m, k, p, hadded⟩ := sameButMemory_addRegion (s := s) q.no r x.grants
    have hexec : exec (.tenantCreate q) s = .next ((List.range 256).foldl (fun s n => s.writeDescriptor x.vf n Channel.fresh) u) := by
      show execTenantCreate q s = _
      have hroots : (s.addRegion q.no r x.grants).roots = s.roots := by rw [hadded]
      have htypes : (s.addRegion q.no r x.grants).types = s.types := by rw [hadded]
      have hvfs : (s.addRegion q.no r x.grants).vfs = s.vfs := by rw [hadded]
      have hout : (s.addRegion q.no r x.grants).hostOut = s.hostOut := by rw [hadded]
      rw [execTenantCreate, hok.mpr h]
      simp only [r, x] at hroots htypes hvfs hout
      simp only [hroots, htypes, hvfs, hout, Bool.not_true, Bool.false_eq_true, if_false]
      rfl
    obtain ⟨m', k', p', ht⟩ := sameButMemory_foldl (fun s n => sameButMemory_writeDescriptor s x.vf n Channel.fresh) (List.range 256) u
    refine ⟨_, hexec, rfl, ?_⟩
    rw [ht]
    simp only [u, hadded]
    refine ⟨Assoc.get?_put_same .., rfl, rfl, rfl, rfl, rfl, rfl, rfl, rfl, rfl, fun n hn => Assoc.get?_put_other _ _ _ _ hn,
      Assoc.get?_put_same .., Assoc.get?_put_same .., fun n hn => Assoc.get?_put_other _ _ _ _ hn, trivial, trivial, trivial, trivial⟩

/-! ### Tenants torn down (R282) -/

/-- A cell without the ring and the deficits of a tenant. -/
def Cell.withoutTenant (x : Cell) (q : Nat) : Cell :=
  { x with rings := Assoc.erase q x.rings, deficits := Assoc.erase q x.deficits }

/-- The state that the tear-down of a tenant region with a virtual function ends in, before measurement 4 is taken of it (R282). -/
def State.withoutTenant (s : State) (q vf : Nat) : State :=
  { s with
    cells := s.cells.map fun (y : Nat × Cell) => (y.1, y.2.withoutTenant q)
    types := Assoc.erase q s.types
    vfs := Assoc.erase vf s.vfs
    chans := s.chans.filter fun k => k.1 / 256 ≠ vf
    links := s.links.map fun (l : Nat × LinkState) => (l.1, { l.2 with shares := l.2.shares.filter fun h => h.tenant ≠ q }) }

section
variable (s : State) (q vf : Nat)

theorem get?_erase_same {α : Type} (k : Nat) (m : Assoc α) : Assoc.get? k (Assoc.erase k m) = none :=
  (Assoc.get?_erase ..).trans (if_pos rfl)

theorem cell_withoutTenant (c : Nat) : Assoc.get? q ((s.withoutTenant q vf).cell c).rings = none
    ∧ Assoc.get? q ((s.withoutTenant q vf).cell c).deficits = none := by
  have hcell : (s.withoutTenant q vf).cell c = ((Assoc.get? c s.cells).map (·.withoutTenant q)).getD Cell.reset :=
    congrArg (·.getD Cell.reset) (Assoc.get?_map (·.withoutTenant q) c s.cells)
  rw [hcell]
  cases Assoc.get? c s.cells with
  | none => exact ⟨rfl, rfl⟩
  | some y => exact ⟨get?_erase_same .., get?_erase_same ..⟩

theorem chans_withoutTenant : ∀ k ∈ (s.withoutTenant q vf).chans, k.1 / 256 ≠ vf := by
  intro k hk
  exact of_decide_eq_true (List.mem_filter.mp hk).2

theorem shares_withoutTenant : ∀ l ∈ (s.withoutTenant q vf).links, ∀ h ∈ l.2.shares, h.tenant ≠ q := by
  intro l hl h hh
  obtain ⟨l', -, rfl⟩ := List.mem_map.mp hl
  exact of_decide_eq_true (List.mem_filter.mp hh).2

end

theorem tenantsAreTornDown : TenantsAreTornDown := by
  intro s q
  refine ⟨fun h => ?none, fun x hx => ?_⟩
  case none =>
    show execTenantTeardown q s = _
    simp only [execTenantTeardown, h]
    rfl
  intro ends u v
  refine ⟨fun hp => ?child, fun hp hbusy => ?busy, fun hp hbusy => ?ended⟩
  case child =>
    show execTenantTeardown q s = _
    simp only [execTenantTeardown, hx, hp, if_true, ne_eq, not_false_eq_true]
    rfl
  case busy =>
    show execTenantTeardown q s = _
    simp only [execTenantTeardown, hx, hp, if_false, ne_eq, not_true_eq_false]
    rw [if_pos hbusy]
    rfl
  case ended =>
    have hbegun : Kept s u := .both (.refl s) (Kept.foldl (Kept.refl s).endSubtree fun _ _ h => .both h h)
    obtain ⟨-, hmeas, -⟩ := hbegun.finishTearDown (r := q)
    have hexec : exec (.tenantTeardown q) s = .next (v.withoutTenant q x.vf).remeasure := by
      show execTenantTeardown q s = _
      simp only [execTenantTeardown, hx, hp, if_false, ne_eq, not_true_eq_false]
      rw [if_neg (by rw [Bool.not_eq_true]; exact hbusy)]
      rfl
    exact ⟨_, hexec, rfl, rfl, rfl, rfl, cell_withoutTenant v q x.vf, get?_erase_same .., get?_erase_same .., chans_withoutTenant v q x.vf,
      shares_withoutTenant v q x.vf, fun hlen => meas_remeasure (lt_of_lt_of_eq hlen hmeas.symm)⟩

/-! ### Isolation partitions (R279) -/

/-- The state with the well-formed ones of some interleave sets set (R220, R221). -/
def State.withSets (s : State) (xs : List (Nat × ISet)) : State :=
  xs.foldl (fun s x => if s.setOk x.1 x.2 then { s with sets := Assoc.put x.1 x.2 s.sets } else s) s

/-- The state with a partition's shares of some stations (R229). -/
def State.withStations (s : State) (partition : Nat) (xs : List (Nat × Nat × Nat)) : State :=
  xs.foldl (fun s x =>
    let old := (s.stationShares.getD x.1 []).filter (·.1 ≠ partition)
    { s with stationShares := Assoc.put x.1 ((partition, x.2.1, x.2.2) :: old) s.stationShares }) s

/-- The state with some shares of links (R383). -/
def State.withShares (s : State) (xs : List (Nat × Share)) : State :=
  xs.foldl (fun s x =>
    if x.1 < 16 && x.2.share < 8 then s.modLink x.1 fun l => { l with shares := x.2 :: l.shares.filter (·.share ≠ x.2.share) } else s) s

/-- The state with the cells of a partition, and whether it is disjoint (R279). -/
def State.withPartition (s : State) (q : PartReq) : State :=
  { s with partitions := Assoc.put q.partition q.cells s.partitions,
           disjoint := (if q.disjoint then [q.partition] else []) ++ s.disjoint.filter (· ≠ q.partition) }

/-- The state that a partition configured leaves, before measurement 4 is taken of it. -/
def State.configured (s : State) (q : PartReq) : State :=
  (((s.withPartition q).withSets q.sets).withStations q.partition q.stations).withShares q.shares

section
variable (s : State)

theorem withSets_leaves (xs : List (Nat × ISet)) : ∃ m, s.withSets xs = { s with sets := m } := by
  refine List.foldlRecOn (motive := fun t : State => ∃ m, t = { s with sets := m }) xs _ ⟨s.sets, rfl⟩ fun t ht x _ => ?_
  obtain ⟨m, rfl⟩ := ht
  dsimp only
  split
  · exact ⟨_, rfl⟩
  · exact ⟨_, rfl⟩

theorem withStations_leaves (n : Nat) (xs : List (Nat × Nat × Nat)) :
    ∃ m, s.withStations n xs = { s with stationShares := m } := by
  refine List.foldlRecOn (motive := fun t : State => ∃ m, t = { s with stationShares := m }) xs _ ⟨s.stationShares, rfl⟩ fun t ht x _ => ?_
  obtain ⟨m, rfl⟩ := ht
  exact ⟨_, rfl⟩

theorem withShares_leaves (xs : List (Nat × Share)) : ∃ m, s.withShares xs = { s with links := m } := by
  refine List.foldlRecOn (motive := fun t : State => ∃ m, t = { s with links := m }) xs _ ⟨s.links, rfl⟩ fun t ht x _ => ?_
  obtain ⟨m, rfl⟩ := ht
  split
  · exact ⟨_, rfl⟩
  · exact ⟨_, rfl⟩

theorem sets_withSets (n : Nat) (v : ISet) :
    (s.withSets [(n, v)]).sets = if s.setOk n v then Assoc.put n v s.sets else s.sets := by
  rw [State.withSets, List.foldl_cons, List.foldl_nil]
  split <;> rfl

theorem links_withShares (l : Nat) (h : Share) (hl : l < 16) (hh : h.share < 8) :
    (s.withShares [(l, h)]).links = Assoc.put l { s.link l with shares := h :: (s.link l).shares.filter (·.share ≠ h.share) } s.links := by
  rw [State.withShares, List.foldl_cons, List.foldl_nil, if_pos (by simp [hl, hh])]
  rfl

theorem stationShares_withStations (n k e w : Nat) : (s.withStations n [(k, e, w)]).stationShares =
    Assoc.put k ((n, e, w) :: (s.stationShares.getD k []).filter (·.1 ≠ n)) s.stationShares := rfl

variable (q : PartReq)

theorem mem_withPartition : q.partition ∈ (s.withPartition q).disjoint ↔ q.disjoint = true := by
  cases hq : q.disjoint <;> simp [State.withPartition, hq]

/-- A partition configured leaves everything but its own entry, the interleave sets, the stations' shares and the links. -/
theorem configured_leaves : ∃ ss ts ls, s.configured q = { s.withPartition q with sets := ss, stationShares := ts, links := ls }
    ∧ ss = ((s.withPartition q).withSets q.sets).sets
    ∧ (∀ n e w, q.stations = [(n, e, w)] →
        ts = Assoc.put n ((q.partition, e, w) :: (s.stationShares.getD n []).filter (·.1 ≠ q.partition)) s.stationShares)
    ∧ (∀ l h, q.shares = [(l, h)] → l < 16 → h.share < 8 →
        ls = Assoc.put l { s.link l with shares := h :: (s.link l).shares.filter (·.share ≠ h.share) } s.links) := by
  obtain ⟨ss, hsets⟩ := withSets_leaves (s.withPartition q) q.sets
  obtain ⟨ts, hstations⟩ := withStations_leaves { s.withPartition q with sets := ss } q.partition q.stations
  obtain ⟨ls, hlinks⟩ := withShares_leaves { s.withPartition q with sets := ss, stationShares := ts } q.shares
  have hall : s.configured q = { s.withPartition q with sets := ss, stationShares := ts, links := ls } := by
    rw [State.configured, hsets, hstations, hlinks]
  refine ⟨ss, ts, ls, hall, by rw [hsets], fun n e w hone => ?stations, fun l h hone hl hh => ?links⟩
  case stations =>
    have hts := congrArg State.stationShares hstations
    rw [hone, stationShares_withStations] at hts
    exact hts.symm
  case links =>
    have hls := congrArg State.links hlinks
    rw [hone, links_withShares _ _ _ hl hh] at hls
    exact hls.symm

end

theorem partitionsAreConfigured : PartitionsAreConfigured := by
  intro s q his there slots shares ok
  have hok : s.partReqOk q = true ↔ ok := by
    simp [ok, his, there, slots, shares, State.partReqOk, and_assoc, List.all_eq_true, or_iff_not_imp_left]
  refine ⟨fun h => ?refused, fun h => ?configured⟩
  case refused =>
    have hrefused : s.partReqOk q = false := by rw [← Bool.not_eq_true, hok]; exact h
    show execIsolationPartitionConfigure q s = _
    rw [execIsolationPartitionConfigure, hrefused]
    rfl
  case configured =>
    have hexec : exec (.isolationPartitionConfigure q) s = .next (s.configured q).remeasure := by
      show execIsolationPartitionConfigure q s = _
      rw [execIsolationPartitionConfigure, hok.mpr h]
      rfl
    obtain ⟨ss, ts, ls, hall, hss, hts, hls⟩ := configured_leaves s q
    have hlength : (s.configured q).meas.length = s.meas.length := by rw [hall]; rfl
    refine ⟨_, hexec, ?_, ?_, ?_, ?sets, ?unset, ?stations, ?links, fun hlen => meas_remeasure (lt_of_lt_of_eq hlen hlength.symm), ?_⟩
    all_goals rw [hall]
    case sets =>
      intro n v hone
      rw [hone, sets_withSets] at hss
      refine ⟨fun hset => ?_, fun hset => ?_⟩
      · have hput : ss = Assoc.put n v s.sets := hss.trans (if_pos hset)
        exact hput ▸ Assoc.get?_put_same ..
      · exact hss.trans (if_neg (by rw [Bool.not_eq_true]; exact hset))
    case unset =>
      intro hone
      rw [hone] at hss
      exact hss
    case stations =>
      intro n e w hone
      exact hts n e w hone ▸ Assoc.get?_put_same ..
    case links =>
      intro l h x hone hl hh hx
      have hlink : s.link l = x := by rw [State.link, Assoc.getD, hx]; rfl
      refine ⟨_, hls l h hone hl hh ▸ Assoc.get?_put_same .., ?_⟩
      rw [hlink]
    · exact Assoc.get?_put_same ..
    · exact fun n hn => Assoc.get?_put_other _ _ _ _ hn
    · exact mem_withPartition s q
    · exact ⟨rfl, rfl, rfl, rfl, rfl⟩

end Sys2Proof.Machine
end

section
/-! PROOFS. What a load does (R65 to R68, R241, R286). -/
namespace Sys2Proof.Machine

/-! ### What the steps of a load leave alone -/

/-- What the steps of a load into a region leave alone: the other regions, every context, what the host was told, the task types. -/
def LoadLeaves (r : Nat) (s t : State) : Prop :=
  (∀ n, n ≠ r → t.region n = s.region n) ∧ (∀ c i, t.ctxAt c i = s.ctxAt c i) ∧ t.hostOut = s.hostOut ∧ t.types = s.types

section
variable {s t u : State} {c k n r : Nat} {bs : List Byte}

theorem LoadLeaves.refl (r : Nat) (s : State) : LoadLeaves r s s := ⟨fun _ _ => rfl, fun _ _ => rfl, rfl, rfl⟩

theorem LoadLeaves.trans (h : LoadLeaves r s t) (h' : LoadLeaves r t u) : LoadLeaves r s u := by
  obtain ⟨hregion, hctx, hout, htypes⟩ := h
  obtain ⟨hregion', hctx', hout', htypes'⟩ := h'
  exact ⟨fun n hn => (hregion' n hn).trans (hregion n hn), fun c i => (hctx' c i).trans (hctx c i), hout'.trans hout,
    htypes'.trans htypes⟩

theorem loadLeaves_of_sameButMemory (h : SameButMemory s t) : LoadLeaves r s t := by
  obtain ⟨m, k, p, rfl⟩ := h
  exact .refl r s

theorem loadLeaves_modRegion (f : Region → Region) : LoadLeaves r s (s.modRegion r f) :=
  ⟨fun _ hn => (Assoc.get?_modify ..).trans (if_neg hn), fun _ _ => rfl, rfl, rfl⟩

theorem loadLeaves_modCell {f : Cell → Cell} (hf : ∀ x, (f x).ctxs = x.ctxs) : LoadLeaves r s (s.modCell c f) :=
  ⟨fun _ _ => rfl, ctxAt_modCell hf s c, rfl, rfl⟩

theorem LoadLeaves.foldl {α : Type} {f : State → α → State} (hf : ∀ t a, LoadLeaves r t (f t a)) (as : List α) (s : State) :
    LoadLeaves r s (as.foldl f s) :=
  List.foldlRecOn (motive := LoadLeaves r s) as f (.refl r s) fun t ht a _ => ht.trans (hf t a)

theorem LoadLeaves.foldlM {α : Type} {f : State → α → Except Nat State} {as : List α}
    (hf : ∀ t a u, f t a = .ok u → LoadLeaves r t u) (ht : as.foldlM f s = .ok t) : LoadLeaves r s t := by
  induction as generalizing s with
  | nil =>
    cases ht
    exact .refl ..
  | cons a as ih =>
    rw [List.foldlM_cons] at ht
    obtain ⟨u, hu, ht⟩ := ok_of_bind ht
    exact (hf s a u hu).trans (ih ht)

theorem loadLeaves_putSection (cells : List Nat) (x : Section_) : LoadLeaves r s (s.putSection r cells x k) := by
  have hwritten (sp : Space) : LoadLeaves r s (cells.foldl (fun s c => s.writeLocal c sp k x.bytes) s) :=
    loadLeaves_of_sameButMemory (sameButMemory_foldl (fun _ _ => sameButMemory_writeLocal ..) cells s)
  rw [State.putSection]
  dsimp only
  split
  · exact (hwritten _).trans (loadLeaves_modRegion _)
  · exact (hwritten _).trans (loadLeaves_modRegion _)

/-- A pool set over none, or over one of its own region. -/
theorem loadLeaves_setPool {p : Pool} (h : ∀ o, Assoc.get? n (s.cell c).pools = some o → o.owner = r) :
    LoadLeaves r s (s.setPool c n p) := by
  have hset (t : State) (p : Pool) (b : Prop) [Decidable b] : LoadLeaves r t (
      if p.tiles.isEmpty then t.modCell c fun x => { x with pools := Assoc.erase n x.pools }
      else
        let s := t.modCell c fun x => { x with pools := Assoc.put n p x.pools }
        if b then s else s.writeLocal c p.space p.base (List.replicate (p.mainCount * p.size) 0)) := by
    have hput : LoadLeaves r t (t.modCell c fun x => { x with pools := Assoc.put n p x.pools }) := loadLeaves_modCell fun _ => rfl
    split
    · exact loadLeaves_modCell fun _ => rfl
    · dsimp only
      split
      · exact hput
      · exact hput.trans (loadLeaves_of_sameButMemory (sameButMemory_writeLocal ..))
  rw [State.setPool]
  cases hold : Assoc.get? n (s.cell c).pools with
  | none => exact hset ..
  | some o =>
    have hcredited : LoadLeaves r s (s.credit o.owner ((o.extCount - (p.over o).extCount) * o.size)) :=
      h o hold ▸ loadLeaves_modRegion _
    exact hcredited.trans (hset ..)

/-- A declared pool stands where no other region has one (R66). -/
theorem owner_of_declarePool (ht : s.declarePool r c bs = .ok t) :
    ∀ o, Assoc.get? (fieldLe bs 0 1) (s.cell c).pools = some o → o.owner = r := by
  intro o ho
  rw [State.declarePool] at ht
  dsimp only at ht
  have hfits := ok_of_else ht
  rw [ho] at hfits
  by_contra howner
  rw [if_pos (by simp [howner])] at hfits
  exact nomatch hfits

theorem loadLeaves_declarePool (ht : s.declarePool r c bs = .ok t) : LoadLeaves r s t := by
  have howner := owner_of_declarePool ht
  rw [State.declarePool] at ht
  have hfits := ok_of_else (ok_of_else ht)
  dsimp only at hfits
  generalize lowestFit _ _ _ _ _ = base at hfits
  cases base with
  | none => exact nomatch hfits
  | some base =>
    cases hfits
    exact loadLeaves_setPool howner

/-- A hub image loaded takes a slot of its cell, entries of the directory, and measurement 3. -/
theorem loadLeaves_loadHub {p : Nat × State} {conn tenant : Nat} (hp : s.loadHub c bs conn n tenant = .ok p) : LoadLeaves r s p.2 := by
  rw [State.loadHub] at hp
  split at hp
  · exact nomatch hp
  next m _ =>
    split at hp
    · exact nomatch hp
    next j _ =>
      split at hp
      · exact nomatch hp
      next x _ =>
        cases ok_of_else (ok_of_else (ok_of_else hp))
        have hslot : LoadLeaves r s (s.modCell c fun y => { y with hub := Assoc.put j (s.freshSlot m conn n tenant) y.hub }) :=
          loadLeaves_modCell fun _ => rfl
        exact hslot

/-! ### `.glb` sections (R68) -/

/-- A store by the Slath processor changes bytes of memory, and what the host was told grows. -/
def StoredOut (s t : State) : Prop := ∃ m k p out, t = { s with mem := m, keyTags := k, poison := p, hostOut := s.hostOut ++ out }

theorem StoredOut.refl (s : State) : StoredOut s s := ⟨s.mem, s.keyTags, s.poison, [], by rw [List.append_nil]⟩

theorem StoredOut.trans (h : StoredOut s t) (h' : StoredOut t u) : StoredOut s u := by
  obtain ⟨m, k, p, out, rfl⟩ := h
  obtain ⟨m', k', p', out', rfl⟩ := h'
  exact ⟨m', k', p', out ++ out', by rw [List.append_assoc]⟩

theorem storedOut_writeHome (vf : Nat) (tag : Nat × Nat) (a : Nat) (bs : List Byte) : StoredOut s (s.writeHome vf tag a bs) := by
  rw [State.writeHome]
  split
  · exact ⟨_, _, _, _, rfl⟩
  · obtain ⟨m, k, p, h⟩ := sameButMemory_writeUnder s tag a bs
    exact ⟨m, k, p, [], by rw [h, List.append_nil]⟩

theorem storedOut_putPieces (vf : Nat) (ps : List (Nat × Nat × Nat)) (bs : List Byte) : StoredOut s (s.putPieces vf ps bs) := by
  induction ps generalizing s bs with
  | nil => exact .refl s
  | cons p ps ih => exact (storedOut_writeHome ..).trans (ih _)

theorem storedOut_glbStore {asid va : Nat} (h : s.glbStore asid va bs = some t) : StoredOut s t := by
  rw [State.glbStore] at h
  split at h
  · exact nomatch h
  · split at h
    · exact nomatch h
    · obtain ⟨ps, -, rfl⟩ := Option.map_eq_some_iff.mp h
      exact storedOut_putPieces ..

theorem storedOut_putGlb {asid : Nat} (xs : List (Nat × List Byte)) : StoredOut s (s.putGlb asid xs).1 := by
  induction xs generalizing s with
  | nil => exact .refl s
  | cons x xs ih =>
    rw [State.putGlb]
    split
    · exact .refl s
    next t ht =>
      have hrest : StoredOut s (t.putGlb asid xs).1 := (storedOut_glbStore ht).trans ih
      split
      next u hu => rw [hu] at hrest; exact hrest
      next u hu =>
        rw [hu] at hrest
        cases hzero : u.glbStore asid x.1 (List.replicate x.2.length 0) with
        | none => exact hrest
        | some v => exact hrest.trans (storedOut_glbStore hzero)

/-! ### The load (R65) -/

theorem loadLeaves_declarePools {bss : List (List Byte)} {cells : List Nat} (ht : s.declarePools r bss cells = .ok t) :
    LoadLeaves r s t :=
  .foldlM (fun _ _ _ hu => loadLeaves_declarePool hu) ht

theorem loadLeaves_loadHubs {rs : List PortRec} {images : List (List Byte)} {cells : List Nat} {conn tenant : Nat}
    (ht : s.loadHubs rs cells conn n tenant images = .ok t) : LoadLeaves r s t := by
  refine .foldlM (fun u bs v hv => ?_) ht
  have hloaded := ok_of_else hv
  split at hloaded
  · exact nomatch hloaded
  next p hp =>
    cases hloaded
    exact loadLeaves_loadHub hp

/-- A load carried out has its task types in its tenant's table from its base on; other regions, every context and what the host was
told stay. -/
theorem load_leaves {q : LoadReq} {x : Region} {cells : List Nat} {ss : List Section_} {places : Places}
    (ht : s.load q x cells ss places = .ok t) :
    ∃ rs images ts, linkTypes ss cells q.connBase = .ok (rs, images, ts)
      ∧ LoadLeaves q.region { s with types := Assoc.put x.tenant (setTypes (s.types.getD x.tenant []) q.typeBase ts) s.types } t := by
  rw [State.load] at ht
  obtain ⟨u, hu, ht⟩ := ok_of_bind ht
  obtain ⟨⟨rs, images, ts⟩, hlinked, ht⟩ := ok_of_bind ht
  obtain ⟨hregion, hctx, hout, htypes⟩ :=
    (LoadLeaves.foldl (fun _ _ => loadLeaves_putSection ..) _ s).trans (loadLeaves_declarePools hu)
  obtain ⟨hregion', hctx', hout', htypes'⟩ := loadLeaves_loadHubs (r := q.region) ht
  refine ⟨rs, images, ts, hlinked, fun n hn => (hregion' n hn).trans (hregion n hn), fun c i => (hctx' c i).trans (hctx c i),
    hout'.trans hout, ?_⟩
  rw [htypes']
  simp only [htypes]

end

end Sys2Proof.Machine
end

section
/-! PROOFS. How a load ends, and whose turn it is (R65 to R67, R241, R286). -/
namespace Sys2Proof.Machine

section
variable {s t : State} {q p : LoadReq} {x : Region} {ss ts : List Section_} {places : Places} {n tenant conns : Nat}

/-- The bases of a load are free, and nothing else of its request changes (R241, R286). -/
theorem withBases_some (h : s.withBases tenant n conns q = some p) :
    s.basesFree tenant p.typeBase n p.connBase conns = true ∧ p = { q with typeBase := p.typeBase, connBase := p.connBase } := by
  rw [State.withBases] at h
  dsimp only at h
  split at h
  next hfree =>
    cases h
    exact ⟨hfree, rfl⟩
  · split at h
    next hfree =>
      cases h
      exact ⟨hfree, rfl⟩
    · exact nomatch h

theorem withBases_free (h : s.basesFree tenant q.typeBase n q.connBase conns = true) : s.withBases tenant n conns q = some q := by
  rw [State.withBases, if_pos h]

/-! ### The branches of a load, in their order -/

theorem tryLoad_gone (h : s.region q.region = none ∨ s.isDying q.region = true) : s.tryLoad q = .ok (s.report 10 q.region) := by
  have hnone : (s.region q.region).filter (fun _ => !s.isDying q.region) = none := by
    obtain h | h := h <;> simp [h]
  simp only [State.tryLoad, hnone]

/-- The number of a load's connectors (R286). -/
def connsOf (ss : List Section_) : Nat := ((recordsOf ss 10 32).map fun r => fieldLe r 2 2 + 1).foldl max 0

/-- The launch set of a load, rising. -/
def launchOf (q : LoadReq) : List Nat := (List.range 960).filter q.cells.contains

/-- The `.glb` sections of an image, with their virtual addresses (R68). -/
def glbSections (ss : List Section_) (places : Places) : List (Nat × List Byte) :=
  ss.zipIdx.filterMap fun y =>
    if y.1.kind = 2 && y.1.space = 4 then (places.offs.getD y.2 none).map fun o => (o, y.1.bytes) else none

/-- What a load does once its image is prepared (R65 to R68): it waits for the code that it replaces, or is carried out. -/
def State.carryOut (s : State) (q : LoadReq) (x : Region) (cells : List Nat) (ss : List Section_) (places : Places) :
    Except (List (Nat × Nat × Nat)) State :=
  if s.replacing cells ss places ≠ [] then .error (s.replacing cells ss places)
  else
    match s.load q x cells ss places with
    | .error n => .ok (s.report n q.region)
    | .ok t =>
      .ok (if (t.putGlb x.asid (glbSections ss places)).2 then (t.putGlb x.asid (glbSections ss places)).1.report 0 q.region
        else (s.putGlb x.asid (glbSections ss places)).1.report 7 q.region)

variable (hx : s.region q.region = some x) (hdying : s.isDying q.region = false)
include hx hdying

theorem live_region : (s.region q.region).filter (fun _ => !s.isDying q.region) = some x := by simp [hx, hdying]

theorem tryLoad_malformed (hi : checkImage q.image = .error n) : s.tryLoad q = .ok (s.report n q.region) := by
  rw [State.tryLoad, live_region hx hdying, hi]

variable (hi : checkImage q.image = .ok ss)
include hi

theorem tryLoad_unbased (hb : s.withBases x.tenant (recordsOf ss 3 64).length (connsOf ss) q = none) :
    s.tryLoad q = .ok (s.report 7 q.region) := by
  rw [connsOf] at hb
  rw [State.tryLoad, live_region hx hdying, hi]
  dsimp only
  rw [hb]

variable (hb : s.withBases x.tenant (recordsOf ss 3 64).length (connsOf ss) q = some p)
include hb

theorem tryLoad_unprepared (hp : s.prepare p ss (launchOf q) = .error n) : s.tryLoad q = .ok (s.report n p.region) := by
  rw [connsOf] at hb
  rw [launchOf] at hp
  rw [State.tryLoad, live_region hx hdying, hi]
  dsimp only
  rw [hb]
  dsimp only
  rw [hp]

variable (hp : s.prepare p ss (launchOf q) = .ok (ts, places))
include hp

theorem tryLoad_prepared : s.tryLoad q = s.carryOut p x (launchOf q) ts places := by
  rw [connsOf] at hb
  rw [launchOf] at hp
  rw [State.tryLoad, live_region hx hdying, hi]
  dsimp only
  rw [hb]
  dsimp only
  rw [hp, State.carryOut, launchOf]
  refine ite_congr rfl (fun _ => rfl) fun _ => ?_
  cases s.load p x ((List.range 960).filter q.cells.contains) ts places <;> rfl

theorem tryLoad_waits (hcode : s.replacing (launchOf q) ts places ≠ []) :
    s.tryLoad q = .error (s.replacing (launchOf q) ts places) :=
  (tryLoad_prepared hx hdying hi hb hp).trans (if_pos hcode)

variable (hcode : s.replacing (launchOf q) ts places = [])
include hcode

theorem tryLoad_refused (hl : s.load p x (launchOf q) ts places = .error n) : s.tryLoad q = .ok (s.report n p.region) := by
  rw [tryLoad_prepared hx hdying hi hb hp, State.carryOut, if_neg (not_not_intro hcode), hl]

theorem tryLoad_loaded (hl : s.load p x (launchOf q) ts places = .ok t) : s.tryLoad q = .ok (
    if (t.putGlb x.asid (glbSections ts places)).2 then (t.putGlb x.asid (glbSections ts places)).1.report 0 p.region
    else (s.putGlb x.asid (glbSections ts places)).1.report 7 p.region) := by
  rw [tryLoad_prepared hx hdying hi hb hp, State.carryOut, if_neg (not_not_intro hcode), hl]

end

theorem loadsEndWithTheirStatus : LoadsEndWithTheirStatus := by
  intro s q cells fails
  refine ⟨tryLoad_gone, fun x hx hdying => ⟨fun n hi => tryLoad_malformed hx hdying hi, fun ss hi => ?_⟩⟩
  refine ⟨withBases_free, tryLoad_unbased hx hdying hi, fun p hb => ⟨withBases_some hb, ?_, fun ts places hp => ?_⟩⟩
  all_goals
    have hregion : p.region = q.region := by rw [(withBases_some hb).2]
  · intro n hn
    exact (tryLoad_unprepared hx hdying hi hb hn).trans (by rw [hregion]; rfl)
  · intro code
    refine ⟨fun hcode => tryLoad_waits hx hdying hi hb hp hcode, fun hcode => ⟨fun n hl => ?_, fun t hl => ?_⟩⟩
    · exact (tryLoad_refused hx hdying hi hb hp hcode hl).trans (by rw [hregion]; rfl)
    have hloaded := tryLoad_loaded hx hdying hi hb hp hcode hl
    rw [hregion] at hloaded
    refine ⟨fun hfaults => ?faults, fun hstored => ?stored⟩
    case faults =>
      obtain ⟨m, k, p', out, hput⟩ := storedOut_putGlb (s := s) (asid := x.asid) (glbSections ts places)
      refine ⟨_, hloaded.trans (congrArg Except.ok (if_neg (by rw [Bool.not_eq_true]; exact hfaults))), rfl, ?_, ?_, ?_⟩
      all_goals rw [hput]
    case stored =>
      obtain ⟨m, k, p', out, hput⟩ := storedOut_putGlb (s := t) (asid := x.asid) (glbSections ts places)
      obtain ⟨rs, images, types, hlinked, hregions, hctx, hout, htypes⟩ := load_leaves hl
      rw [hregion] at hregions
      refine ⟨_, out, hloaded.trans (congrArg Except.ok (if_pos hstored)), rfl, ?told, ?types, ?regions, ?cells, ?others, ?contexts,
        rs, images, types, hlinked, ?table⟩
      all_goals rw [hput]
      case types | regions | cells => rfl
      case told => exact congrArg (· ++ out ++ [HostMsg.loadStatus 0 q.region]) hout
      case others => exact hregions
      case contexts => exact hctx
      case table =>
        have htable : Assoc.get? x.tenant t.types = some (setTypes (s.types.getD x.tenant []) p.typeBase types) := by
          rw [htypes, Assoc.get?_put_same]
        exact htable

/-! ### Whose turn it is (R67) -/

section
variable {s : State} {q : LoadReq}

/-- The place of a load that goes on among those that wait, numbered from 1 (R67). -/
def goesOnAt (s : State) (q : LoadReq) : Prop := s.cur.k ≠ 0 ∧ (s.loads[s.cur.k - 1]?).map (·.req) = some q

theorem ngload_first (h : s.recovery = false) (hnew : ¬ goesOnAt s q) : exec (.ngloadLoad q) s =
    if s.loads.any (·.req.region = q.region) then .next { s with loads := s.loads ++ [{ req := q, code := [] }] }
    else match s.tryLoad q with
      | .error code => .next { s with loads := s.loads ++ [{ req := q, code := code }] }
      | .ok t => .next t := by
  have hagain : (decide (s.cur.k ≠ 0) && decide ((s.loads[s.cur.k - 1]?).map (·.req) = some q)) = false := by
    rw [← Bool.not_eq_true]
    simpa [goesOnAt] using hnew
  show execNgloadLoad q s = _
  rw [execNgloadLoad]
  dsimp only
  rw [hagain, h]
  rfl

theorem ngload_again (h : s.recovery = false) (hagain : goesOnAt s q) : exec (.ngloadLoad q) s =
    if (s.loads.take (s.cur.k - 1)).any (·.req.region = q.region) then .next s
    else match s.tryLoad q with
      | .error code => .next { s with loads := modifyAt (fun w => { w with code := code }) (s.cur.k - 1) s.loads }
      | .ok t => .next { t with loads := t.loads.eraseIdx (s.cur.k - 1) } := by
  have hagain' : (decide (s.cur.k ≠ 0) && decide ((s.loads[s.cur.k - 1]?).map (·.req) = some q)) = true := by
    simpa [goesOnAt] using hagain
  show execNgloadLoad q s = _
  rw [execNgloadLoad]
  dsimp only
  rw [hagain', h]
  rfl

end

theorem loadsTakeTheirTurn : LoadsTakeTheirTurn := by
  intro s q k again
  have hbehind {ls : List LoadWait} : ls.any (·.req.region = q.region) = true ↔ ∃ p ∈ ls, p.req.region = q.region := by
    simp only [List.any_eq_true, decide_eq_true_eq]
  have hfree {ls : List LoadWait} (h : ∀ p ∈ ls, p.req.region ≠ q.region) : ls.any (·.req.region = q.region) = false := by
    simpa using h
  refine ⟨fun h => ?recovery, fun h => ⟨fun hnew => ⟨fun hbefore => ?_, fun hbefore => ⟨fun code hcode => ?_, fun t ht => ?_⟩⟩,
    fun hagain => ⟨fun hbefore => ?_, fun hbefore => ⟨fun code hcode => ?_, fun t ht => ?_⟩⟩⟩⟩
  case recovery =>
    show execNgloadLoad q s = _
    rw [execNgloadLoad, if_pos h]
    rfl
  · rw [ngload_first h hnew, if_pos (hbehind.mpr hbefore)]
  · rw [ngload_first h hnew, hfree hbefore, hcode]
    rfl
  · rw [ngload_first h hnew, hfree hbefore, ht]
    rfl
  · rw [ngload_again h hagain, if_pos (hbehind.mpr hbefore)]
  · rw [ngload_again h hagain, hfree hbefore, hcode]
    rfl
  · rw [ngload_again h hagain, hfree hbefore, ht]
    rfl

/-- Settles O46: tenants created and torn down, partitions configured, and loads with their status and their turn. -/
theorem slathEventsActAsStated : Obligations.SlathEventsActAsStated :=
  ⟨tenantsAreCreated, tenantsAreTornDown, partitionsAreConfigured, loadsEndWithTheirStatus, loadsTakeTheirTurn⟩

end Sys2Proof.Machine
end
